-- ==== Sys2Proof/Word.lean ====
section
/-! DEFINITION. The word types of the DN25 model: a register (R10), a byte of memory, and a signed field. -/

namespace Sys2Proof

/-- A 64-bit register image (R10). -/
abbrev Word := BitVec 64

/-- One byte of memory. -/
abbrev Byte := BitVec 8

end Sys2Proof
end

