-- ==== Sys2Proof/Types.lean ====
section
/-! DEFINITION. The operands of the commands: who sends one, which engine it names, the operand fields of the data
instructions (R291 to R296), transport and link frames (R358, R371), and what the outside world reports at a sample,
at power-on and at a CXL port. All plain data. -/

namespace Sys2Proof

/-- A host port (R3): port W on HW0, port E on HE0. -/
inductive Port where
  | w | e
  deriving DecidableEq, Repr

/-- Who makes a register write: a host through its port, the Pilot firmware of a core, or the board controller. -/
inductive Agent where
  | host (p : Port)
  | pilot
  | board
  deriving DecidableEq, Repr

/-- The management media that carry SPDM (R410). -/
inductive Medium where
  /-- MCTP over SMBus -/
  | smbus
  /-- MCTP over PCIe vendor-defined messages of a host port -/
  | pcie (p : Port)
  /-- the DOE mailbox of a host port -/
  | doe (p : Port)
  deriving DecidableEq, Repr

/-- An engine of a core, acting for the task in a Cove window slot: global core index 32d + c, slot 0-3,
engine code of R5. -/
structure EngRef where
  core : Nat
  slot : Nat
  eng : Nat
  deriving DecidableEq, Repr

/-- What a read asks for of a block's registers of one name (R11): the register's index, and the first and the number of its bytes. -/
structure RegPart where
  reg : Nat
  off : Nat
  size : Nat
  deriving DecidableEq, Repr

/-- The operand fields of MOVE (R291). -/
structure MoveOps where
  stream : Nat
  bmask : Nat
  bind : Bool
  deriving DecidableEq, Repr

/-- The operand fields that MMA and SPMM share (R292): m, n, k are M/64 - 1, N/64 - 1 and K/64 - 1. -/
structure MmaOps where
  m : Nat
  n : Nat
  k : Nat
  aring : Nat
  bring : Nat
  keep : Bool
  drain : Bool
  zero : Bool
  acc : Nat
  mask : Nat
  b : Nat
  a : Nat
  bmask : Nat
  bind : Bool
  deriving DecidableEq, Repr

/-- The operand fields of LOOKOUT (R292, R293): planes is L, and param the INT32 threshold or k. -/
structure LookoutOps where
  m : Nat
  n : Nat
  k : Nat
  aring : Nat
  bring : Nat
  absolute : Bool
  topk : Bool
  planes : Nat
  acc : Nat
  mask : Nat
  b : Nat
  a : Nat
  param : Nat
  bmask : Nat
  bind : Bool
  deriving DecidableEq, Repr

/-- The operand fields of ISECT (R295). Kinds: 0 COORD, 1 RP, 2 TILE, 3 MASK, 4 ALIGNED. Forms: 0 IDX, 1 PAIR, 2 EXPAND. -/
structure IsectOps where
  akind : Nat
  bkind : Nat
  form : Nat
  rowKey : Bool
  fp64 : Bool
  dest : Bool
  avals : Bool
  bvals : Bool
  out : Nat
  bh : Nat
  ah : Nat
  r0 : Nat
  bmask : Nat
  bind : Bool
  deriving DecidableEq, Repr

/-- The operand fields of PACK (R296). fmt: 0 AUTO, 1 DN, 2 BM, 3 CB, 4 PL, 5 BP. -/
structure PackOps where
  fmt : Nat
  append : Bool
  ring : Nat
  dest : Nat
  arena : Nat
  tiles : Nat
  first : Nat
  bmask : Nat
  bind : Bool
  deriving DecidableEq, Repr

/-- A transport frame (R358). address holds the physical place that the sender's translation gave; slot, add, post, amount
and gen are what the model carries beside the header's fields (log entry 8). -/
structure Frame where
  /-- type code of R358: 0 write … 11 idle -/
  kind : Nat
  partition : Nat
  arrive : Bool
  address : Nat
  /-- the package that the address lies in; 256 for this one -/
  package : Nat
  /-- payload bytes of a write, a response, a channel write, a command or a completion -/
  payload : List Byte
  /-- bytes asked for by a read request; credits of a credit frame -/
  count : Nat
  counter : Nat
  /-- global core index of the issuing core; 0x1FF for a harbour or the Lighthouse -/
  source : Nat
  engine : Nat
  tag : Nat
  /-- Cove window slot of the task at the issuing core and at the target core (R141) -/
  slot : Nat
  /-- scatter-add element type, or 0xFF for a plain write -/
  add : Nat
  /-- signal: true for POST -/
  post : Bool
  /-- signal: the increment; channel write: the end marks, bit k for word k; error response: the code -/
  amount : Nat
  /-- credit frames: target number of R342 and generation (R362) -/
  target : Nat
  gen : Nat
  /-- write: the bits of the payload that are written, byte for byte; none listed: all of them (R69, R112, log entry 110) -/
  mask : List Byte := []
  /-- the descriptor's tenant bit, for step 8 of R122 at a peer (log entry 8) -/
  tenant : Bool := false
  /-- error response: it answers a credit request -/
  asks : Bool := false
  /-- sealed-page epoch that the access was translated with (R127); 2 when the page is not sealed -/
  epoch : Nat
  deriving DecidableEq, Repr

/-- What the media reports when a read is served (R146, R147, R153, R154): at says at which byte of the read the error lies. -/
inductive Media where
  | good
  | corrected (at' : Nat)
  | uncorrectable (at' : Nat)
  deriving DecidableEq, Repr

/-- An upset of stored bits (R135, R146, R147, R153, R202): of a memory at a physical address, correctable or not; of a committed slot of a ring,
counted from the head; or of a row of cells of a stationary set of an array. -/
inductive Strike where
  | memory (address : Nat) (uncorrectable : Bool)
  | slot (core ring place : Nat)
  | cell (core array set row : Nat)
  deriving DecidableEq, Repr

/-- A received Bangeby link frame (R371, R373), with what its codewords, CRC and tag show. -/
structure LinkFrame where
  fecOk : Bool
  crcOk : Bool
  counter : Nat
  epoch : Nat
  authentic : Bool
  /-- the receiving package and link numbers that the frame's identity carries -/
  toPackage : Nat
  toLink : Nat
  /-- type code of R358 of the carried transaction; 11 with subtype 0 is an idle frame -/
  kind : Nat
  subtype : Nat
  fragIndex : Nat
  fragCount : Nat
  frame : Frame
  deriving DecidableEq, Repr

/-- A frame that a harbour sends on a Bangeby link (R371, R372, R378): its counter and epoch, the number of the key that encrypts it, none before keys are
installed, and what it carries. A retry sends it unchanged. -/
structure LinkOut where
  counter : Nat
  epoch : Nat
  key : Option Nat
  /-- type code of R358; 11 for a management frame -/
  kind : Nat
  subtype : Nat
  fragIndex : Nat
  fragCount : Nat
  /-- the transaction of a data frame -/
  frame : Option Frame
  payload : List Byte
  deriving DecidableEq, Repr

/-- A capability that a host port's function lists in its configuration space (R383). -/
inductive Capability where
  | msix | aer | resizableBar | doe | ide | tdisp
  deriving DecidableEq, Repr

/-- What a host port's physical function presents in its configuration space (R383): its identity, its capabilities, and of its MSI-X table the vectors and
the offsets in BAR0 of the table and of the pending bits. -/
structure ConfigSpace where
  vendor : BitVec 16
  device : Nat
  classCode : Nat
  subclass : Nat
  capabilities : List Capability
  vectors : Nat
  table : Nat
  pending : Nat
  deriving DecidableEq, Repr

/-- A key-exchange message of R378 as reassembled: the fields that carry meaning, and its bytes for the transcript. -/
structure KeyMessage where
  package : Nat
  link : Nat
  /-- message bytes up to the signature -/
  body : List Byte
  signature : List Byte
  deriving DecidableEq, Repr

/-- The fetched bytes of a task queue entry and of the stream map it names (R391, R323). -/
structure QueueFetch where
  entry : List Byte
  map : List Byte
  deriving DecidableEq, Repr

/-- What the Lighthouse finds when it reads the sensors and canaries at a sample (R58). Domains t are those of R468. -/
structure Sensors where
  /-- domains whose canary reports lost margin -/
  canary : List Nat
  /-- junction temperature of domain t in 1/16 of a degree C -/
  temp : List Nat
  /-- power of domain t in mW -/
  power : List Nat
  /-- domains whose regulator reports a fault or misses its target by 25 mV (R452) -/
  vrFault : List Nat
  /-- input voltage in mV -/
  input : Nat
  /-- module input power in mW -/
  inputPower : Nat
  /-- recovery records whose unit has not confirmed its reset (R452) -/
  unconfirmed : List Nat
  /-- what has struck stored bits since the last sample, and which a later read meets (log entry 109) -/
  strikes : List Strike
  deriving DecidableEq, Repr

/-- A firmware image as the root of trust finds it in flash or in memory (R415, R416). -/
structure FwImage where
  header : List Byte
  body : List Byte
  signature : List Byte
  deriving DecidableEq, Repr

/-- What start-up meets (R473 to R476): the firmware copies in flash, and what the self-test finds. -/
structure BootEnv where
  lighthouse : List FwImage
  harbour : List FwImage
  pilot : List FwImage
  /-- global core indices that the self-test removes -/
  coresOff : List Nat
  /-- bank rows that fail the march test: (unit base address, bank, row) -/
  badRows : List (Nat × Nat × Nat)
  /-- rows that fail again on a die that is tested a second time -/
  badAgain : List (Nat × Nat × Nat)
  /-- towers whose interface does not train -/
  towersOff : List Nat
  /-- fabric hops marked down (7s + pair) -/
  hopsDown : List Nat
  /-- lanes of the Causeway that fail, by direction -/
  lanesBad : List (Nat × Nat)
  causewayOk : Bool
  /-- the SMBus address straps ADDR2, ADDR1, ADDR0 as a number 0-7, sampled at power-on -/
  straps : Nat
  deriving DecidableEq, Repr

/-- The device found at a CXL port (R406, R407). -/
structure CxlDevice where
  present : Bool
  /-- a type 3 single-logical device attached directly -/
  direct : Bool
  ide : Bool
  /-- SPDM authentication of the device succeeds -/
  authentic : Bool
  /-- volatile capacity in bytes -/
  capacity : Nat
  rate : Nat
  width : Nat
  deriving DecidableEq, Repr

/-- Why a link or port goes down, or what kind of reset a host port meets. -/
inductive PortResetKind where
  | perst | hotReset | linkDisable | flr
  deriving DecidableEq, Repr

/-- Why a Bangeby link goes down (R376). -/
inductive BlDownCause where
  | training | authentication | keysDropped | keyFail
  deriving DecidableEq, Repr

/-- Why a CXL port goes down (R408). -/
inductive CxlDownCause where
  | link | removed | ide
  deriving DecidableEq, Repr

end Sys2Proof
end

