-- ==== Sys2Proof/Syntax.lean ====
section
/-! DEFINITION. The commands of the DN25: one constructor for each row of spec/opcode_table.json, in the table's order, with the
operands that the spec's rules give it. Each constructor's docstring is the row's mnemonic and rule. -/

namespace Sys2Proof

/-- The commands that the block takes. -/
inductive Instr where
  /-- NOP (R306) -/
  | nop (x : EngRef)
  /-- END (R283) -/
  | endSeq (x : EngRef)
  /-- SETLC (R306) -/
  | setlc (x : EngRef) (lc : Nat) (fromShape : Bool) (i imm : Nat)
  /-- LIST (R307) -/
  | list (x : EngRef) (starter dir : Nat)
  /-- RELEASE (R306) -/
  | release (x : EngRef)
  /-- CHSEND (R306) -/
  | chsend (x : EngRef) (channel : Nat) (endMark : Bool) (core data : Nat)
  /-- CHRECV (R306) -/
  | chrecv (x : EngRef) (channel lc : Nat) (tagen : Bool) (tlc : Nat)
  /-- PARAM (R318) -/
  | param (x : EngRef) (p value : Nat)
  /-- MOVE (R291) -/
  | move (x : EngRef) (ops : MoveOps)
  /-- MOVE_COMPLETE (R172) -/
  | moveComplete (x : EngRef)
  /-- MMA_DENSE (R184) -/
  | mmaDense (x : EngRef) (ops : MmaOps)
  /-- MMA_SLIDING (R186) -/
  | mmaSliding (x : EngRef) (ops : MmaOps)
  /-- MMA_TRANSPOSED (R190) -/
  | mmaTransposed (x : EngRef) (ops : MmaOps)
  /-- MMA_PLANE (R196) -/
  | mmaPlane (x : EngRef) (ops : MmaOps)
  /-- SPMM (R191) -/
  | spmm (x : EngRef) (ops : MmaOps)
  /-- LOOKOUT (R230) -/
  | lookout (x : EngRef) (ops : LookoutOps)
  /-- EBB_SETIMM (R294) -/
  | ebbSetimm (x : EngRef) (chainSlot imm0 imm1 : Nat)
  /-- EBB_SETVEC (R294) -/
  | ebbSetvec (x : EngRef) (chainSlot handle : Nat)
  /-- ISECT (R240) -/
  | isect (x : EngRef) (ops : IsectOps)
  /-- MERGE (R253) -/
  | merge (x : EngRef) (table : Nat)
  /-- PACK (R226) -/
  | pack (x : EngRef) (ops : PackOps)
  /-- SIGNAL_ADD (R309) -/
  | signalAdd (x : EngRef) (core number amount : Nat)
  /-- SIGNAL_POST (R309) -/
  | signalPost (x : EngRef) (core number amount : Nat)
  /-- WAIT_GE (R311) -/
  | waitGe (x : EngRef) (number value : Nat)
  /-- WAIT_TAKE (R311) -/
  | waitTake (x : EngRef) (number value : Nat)
  /-- WAIT_ACQ (R311) -/
  | waitAcq (x : EngRef) (number value : Nat)
  /-- LOOP (R297) -/
  | loop (x : EngRef) (lc body : Nat)
  /-- NEST (R302) -/
  | nest (x : EngRef) (t body : Nat)
  /-- TASK_QUEUE_DOORBELL (R389) -/
  | taskQueueDoorbell (port : Port) (q tail : Nat)
  /-- TASK_QUEUE_ENTRY (R392): fetch is none when host memory does not answer -/
  | taskQueueEntry (port : Port) (q : Nat) (fetch : Option QueueFetch)
  /-- STREAM_BLOCK_FETCH (R324): words are what a host address returns, none for a failed fetch -/
  | streamBlockFetch (core slot eng : Nat) (words : Option (List Nat))
  /-- EXPRESS_WRITE (R325) -/
  | expressWrite (port : Port) (offset : Nat) (data : List Byte)
  /-- TASK_START (R287) -/
  | taskStart (core slot : Nat)
  /-- DRAIN_END (R178) -/
  | drainEnd (core slot : Nat)
  /-- TRUNCATION_POINT (R334) -/
  | truncationPoint (core slot : Nat)
  /-- HELD_COMPLETION_WRITE (R395) -/
  | heldCompletionWrite (port : Port) (q : Nat)
  /-- WORK_ITEM (R266) -/
  | workItem (die : Nat)
  /-- DSP_LISTCTL_START (R265) -/
  | dspListctlStart (by' : Agent) (die value : Nat)
  /-- WRITE (R358) -/
  | write (f : Frame)
  /-- READ_REQUEST (R358) -/
  | readRequest (f : Frame) (media : Media)
  /-- READ_RESPONSE (R358) -/
  | readResponse (f : Frame)
  /-- CREDIT_REQUEST (R361) -/
  | creditRequest (f : Frame)
  /-- CREDIT_GRANT (R361) -/
  | creditGrant (f : Frame)
  /-- CREDIT_RETURN (R363) -/
  | creditReturn (f : Frame)
  /-- SIGNAL (R310) -/
  | signal (f : Frame)
  /-- CHANNEL_WRITE (R276): bit k of `amount` is the end mark of word k -/
  | channelWrite (f : Frame)
  /-- COMMAND (R358) -/
  | command (f : Frame)
  /-- COMPLETION (R358) -/
  | completion (f : Frame)
  /-- ERROR_RESPONSE (R364) -/
  | errorResponse (f : Frame)
  /-- IDLE (R358) -/
  | idle (f : Frame)
  /-- ACKNOWLEDGEMENT (R360) -/
  | acknowledgement (hop dir seq : Nat)
  /-- NEGATIVE_ACKNOWLEDGEMENT (R360) -/
  | negativeAcknowledgement (hop dir seq : Nat)
  /-- LINK_FRAME (R373) -/
  | linkFrame (link : Nat) (f : LinkFrame)
  /-- OFFER (R378) -/
  | offer (link : Nat) (m : KeyMessage)
  /-- ACCEPT (R378) -/
  | accept (link : Nat) (m : KeyMessage)
  /-- CONFIRM (R378) -/
  | confirm (link : Nat) (m : KeyMessage)
  /-- ROTATE_OFFER (R379) -/
  | rotateOffer (link : Nat) (m : KeyMessage)
  /-- ROTATE_ACCEPT (R379) -/
  | rotateAccept (link : Nat) (m : KeyMessage)
  /-- READY (R379) -/
  | ready (link epoch : Nat)
  /-- REQUEST (R378): 1 agreement, 2 rotation -/
  | request (link what : Nat)
  /-- ABORT (R378) -/
  | abort (link code : Nat)
  /-- BL_LINK_UP (R377) -/
  | blLinkUp (link peerPackage peerLink : Nat)
  /-- BL_DOWN (R376) -/
  | blDown (link : Nat) (cause : BlDownCause)
  /-- KEY_ROTATION_FRAME_LIMIT (R379) -/
  | keyRotationFrameLimit (link : Nat)
  /-- DATA_FRAME_HOLD (R380) -/
  | dataFrameHold (link : Nat)
  /-- KEY_AGREE (R377) -/
  | keyAgree (port : Port) (link : Nat)
  /-- KEY_ROTATE (R379) -/
  | keyRotate (port : Port) (link : Nat)
  /-- KEY_DROP (R376) -/
  | keyDrop (port : Port) (link : Nat)
  /-- LANE_FAILING (R368) -/
  | laneFailing (dir lane : Nat)
  /-- LANE_SWAP_DONE (R368) -/
  | laneSwapDone (dir : Nat) (trained : Bool)
  /-- CAUSEWAY_FAILED (R369) -/
  | causewayFailed
  /-- HOP_REPLAY_LIMIT (R366) -/
  | hopReplayLimit (shore hop : Nat) (retrained : Bool)
  /-- TOWER_RETRY_LIMIT (R153) -/
  | towerRetryLimit (tower : Nat) (retrained : Bool)
  /-- SAMPLE (R58) -/
  | sample (env : Sensors)
  /-- ENGINE_HUNG (R63) -/
  | engineHung (core eng : Nat)
  /-- HEARTBEAT_STALE (R402) -/
  | heartbeatStale
  /-- GATING_SPAN (R465) -/
  | gatingSpan (die : Nat)
  /-- RECOVERY_DONE (R453) -/
  | recoveryDone (record : Nat)
  /-- SCRUB_DONE (R438): failed holds the units whose zero-fill failed, with the failing error code -/
  | scrubDone (p : Nat) (failed : List (Nat × Nat))
  /-- STRATA_LOAD (R350) -/
  | strataLoad (port : Port) (p : Nat)
  /-- STRATA_LOAD_DONE (R351) -/
  | strataLoadDone (p : Nat)
  /-- STRATA_HOLD (R348) -/
  | strataHold (port : Port) (p : Nat) (hold : Bool)
  /-- SOUND (R459) -/
  | sound (port by' : Port) (vector : Nat)
  /-- SUMMARY_WRITTEN (R459) -/
  | summaryWritten (port : Port) (ok : Bool)
  /-- CLAIM (R403) -/
  | claim (port : Port)
  /-- HEARTBEAT (R402) -/
  | heartbeat (port : Port) (value : Nat)
  /-- MODE_REQUEST (R400) -/
  | modeRequest (port : Port) (split toE : Bool)
  /-- LAYOUT_APPLY (R463) -/
  | layoutApply (port : Port)
  /-- SEAL_ROTATE (R433) -/
  | sealRotate (port : Port) (p : Nat)
  /-- PAGE_RESEALED (R434) -/
  | pageResealed (p page : Nat)
  /-- COMMIT_LH (R418) -/
  | commitLh (port : Port)
  /-- COMMIT_HB (R418) -/
  | commitHb (port : Port)
  /-- COMMIT_PIL (R418) -/
  | commitPil (port : Port)
  /-- LOCKFUSE (R441) -/
  | lockfuse (port : Port)
  /-- FULLRES (R442) -/
  | fullres (by' : Agent) (on : Bool)
  /-- PILOT_FW_LOAD (R443) -/
  | pilotFwLoad (port : Port) (p base : Nat)
  /-- PACKAGE_RESET (R480): env is what the repeated start-up meets -/
  | packageReset (port : Port) (key : Nat) (env : BootEnv)
  /-- CXL_ENABLE (R407) -/
  | cxlEnable (port : Port) (p : Nat)
  /-- CXL_DISABLE (R408) -/
  | cxlDisable (port : Port) (p : Nat)
  /-- CXL_PORT_UP (R407) -/
  | cxlPortUp (p : Nat) (dev : CxlDevice)
  /-- CXL_DOWN (R408) -/
  | cxlDown (p : Nat) (cause : CxlDownCause)
  /-- RING_ENABLE (R131) -/
  | ringEnable (by' : Agent) (core n value : Nat)
  /-- WINDOW_VALID (R143) -/
  | windowValid (by' : Agent) (core n value : Nat)
  /-- CHANNEL_FLUSH (R279) -/
  | channelFlush (by' : Agent) (core n : Nat)
  /-- CHANNEL_MODE_CHANGE (R281) -/
  | channelModeChange (by' : Agent) (core n : Nat) (tagged : Bool)
  /-- HOST_CHANNEL_READ (R278): of register n the bytes that the read asks for (R11) -/
  | hostChannelRead (port : Port) (core : Nat) (n : RegPart)
  /-- HOST_CHANNEL_PUSH (R278) -/
  | hostChannelPush (port : Port) (core n data : Nat)
  /-- HOST_CHANNEL_PUSH_END (R278) -/
  | hostChannelPushEnd (port : Port) (core n data : Nat)
  /-- ACC_DATA_READ (R210): of array a's register the bytes that the read asks for -/
  | accDataRead (port : Port) (core : Nat) (a : RegPart)
  /-- ERRLOG_HEAD_WRITE (R451) -/
  | errlogHeadWrite (port : Port) (shore head : Nat)
  /-- CQ_ENABLE (R397) -/
  | cqEnable (port : Port) (q value : Nat)
  /-- REGISTER_WRITE (R13): width is the number of bytes of the write -/
  | registerWrite (by' : Agent) (tbit : Bool) (offset width value : Nat)
  /-- BAR4_READ (R387) -/
  | bar4Read (port : Port) (tbit : Bool) (offset len : Nat)
  /-- BAR4_WRITE (R388) -/
  | bar4Write (port : Port) (tbit : Bool) (offset : Nat) (data : List Byte)
  /-- CONFIG_REQUEST (R384, R385): resize is what a write of the Resizable BAR control sets BAR4 to, in log2 of bytes -/
  | configRequest (port : Port) (resize : Option Nat)
  /-- LOCK_INTERFACE (R425) -/
  | lockInterface (port : Port) (p : Nat)
  /-- START_INTERFACE (R424) -/
  | startInterface (port : Port) (p : Nat)
  /-- STOP_INTERFACE (R424) -/
  | stopInterface (port : Port) (p : Nat)
  /-- GET_DEVICE_INTERFACE_REPORT (R425) -/
  | getDeviceInterfaceReport (port : Port) (p : Nat)
  /-- CERTIFICATE (R420) -/
  | certificate (m : Medium)
  /-- CHALLENGE (R420) -/
  | challenge (m : Medium) (nonce : List Byte)
  /-- MEASUREMENTS (R421) -/
  | measurements (m : Medium) (indices : List Nat)
  /-- KEY_EXCHANGE (R420) -/
  | keyExchange (m : Medium) (key : List Byte)
  /-- SIGNATURE_READY (R420) -/
  | signatureReady
  /-- PLDM_FIRMWARE_UPDATE (R411) -/
  | pldmFirmwareUpdate (img : FwImage)
  /-- PLDM_POWER_CAP (R411) -/
  | pldmPowerCap (watts : Nat)
  /-- PLDM_SENSOR_READ (R411) -/
  | pldmSensorRead (domain : Nat)
  /-- PLDM_QUOTA_WRITE (R470) -/
  | pldmQuotaWrite (p k limit : Nat)
  /-- PLDM_RESET (R477) -/
  | pldmReset (env : BootEnv)
  /-- PLDM_COMMIT (R418): 1 Lighthouse, 2 harbour, 3 Pilot -/
  | pldmCommit (kind : Nat)
  /-- TEST_PORT_INSTRUCTION (R442) -/
  | testPortInstruction (code : Nat)
  /-- POWER_ON (R473) -/
  | powerOn (env : BootEnv)
  /-- UNDERVOLTAGE_SHUTDOWN (R472) -/
  | undervoltageShutdown
  /-- OVERVOLTAGE_SHUTDOWN (R472) -/
  | overvoltageShutdown
  /-- THERMAL_SHUTDOWN (R490) -/
  | thermalShutdown
  /-- RESET_N (R490): low for the given time in us -/
  | resetN (us : Nat)
  /-- PERST_DEASSERT (R474) -/
  | perstDeassert (port : Port) (rate width : Nat) (flit : Bool)
  /-- HOST_PORT_RESET (R478) -/
  | hostPortReset (port : Port) (kind : PortResetKind)
  /-- HOST_LINK_DOWN (R428) -/
  | hostLinkDown (port : Port)
  /-- HOST_IDE_FAIL (R428) -/
  | hostIdeFail (port : Port) (p : Nat)
  /-- ENTROPY_HEALTH_FAIL (R430) -/
  | entropyHealthFail
  /-- RESET_N_RELEASE (R490) -/
  | resetNRelease (env : BootEnv)
  /-- HOST_LINK_UP (R395) -/
  | hostLinkUp (port : Port) (rate width : Nat) (flit : Bool)
  /-- MODE_CHANGE_APPLIED (R400) -/
  | modeChangeApplied
  /-- IDE_KM (R423) -/
  | ideKm (port : Port) (p : Nat)
  /-- MANAGEMENT_PROCESSOR_FAULT (R453) -/
  | managementProcessorFault
  /-- PLDM_EVENT_RETRIEVAL (R488) -/
  | pldmEventRetrieval
  /-- ENDPOINT_ID_ASSIGNMENT (R410) -/
  | endpointIdAssignment (m : Medium) (eid : Nat)
  deriving DecidableEq, Repr

end Sys2Proof
end

