-- ==== Sys2Proof/Decode.lean ====
section
/-! DEFINITION. The command that a word spells by the table's bits. Every row of the table gives no bits: a command reaches the
block by its name and its operands, so no word spells one. The native words of R318, which the engines' queues hold, are decoded in
Machine/Native.lean. -/

namespace Sys2Proof

/-- The command that a word spells; the table gives no row bits. -/
def decodeTableWord (_nbits _w : Nat) : Option Instr := none

end Sys2Proof
end

