-- ==== Sys2Proof/Machine/Bits.lean ====
section
/-! DEFINITION. Bit fields, sign extension, byte order (R8, R9), and the checksums of R79 and R340 and SHA-256.
Structures held in memory are little-endian; a field that spans bytes is numbered from bit 0 of its
lowest-addressed byte (R9). -/

namespace Sys2Proof.Machine

/-- Bits hi to lo of v, as a number (R8). -/
def fld (v hi lo : Nat) : Nat := v / 2 ^ lo % 2 ^ (hi + 1 - lo)

/-- Bit i of v. -/
def bitOf (v i : Nat) : Bool := v / 2 ^ i % 2 == 1

/-- 1 for true and 0 for false, as a register shows a flag. -/
def b2n (b : Bool) : Nat := if b then 1 else 0

/-- v with bits hi to lo replaced by x (reduced to the field's width). -/
def putFld (v hi lo x : Nat) : Nat :=
  v - fld v hi lo * 2 ^ lo + (x % 2 ^ (hi + 1 - lo)) * 2 ^ lo

/-- Bits hi to lo of a register image. -/
def wfld (w : Word) (hi lo : Nat) : Nat := fld w.toNat hi lo

/-- Bit i of a register image. -/
def wbit (w : Word) (i : Nat) : Bool := w.getLsbD i

/-- A register image with bits hi to lo replaced by x. -/
def wput (w : Word) (hi lo x : Nat) : Word := BitVec.ofNat 64 (putFld w.toNat hi lo x)

/-- A w-bit number read as two's complement. -/
def sext (w v : Nat) : Int := if 2 ^ (w - 1) ≤ v % 2 ^ w then (v % 2 ^ w : Int) - 2 ^ w else (v % 2 ^ w : Int)

/-- The w-bit two's-complement encoding of z. -/
def wrap (w : Nat) (z : Int) : Nat := (z % (2 ^ w : Nat)).toNat

/-- Little-endian bytes as a number (R9). -/
def leNat : List Byte → Nat
  | [] => 0
  | b :: bs => b.toNat + 256 * leNat bs

/-- The n little-endian bytes of v (R9). -/
def leBytes : Nat → Nat → List Byte
  | 0, _ => []
  | n + 1, v => BitVec.ofNat 8 v :: leBytes n (v / 256)

/-- Big-endian bytes as a number (the nonces of R372). -/
def beNat (bs : List Byte) : Nat := bs.foldl (fun a b => a * 256 + b.toNat) 0

/-- n zero bytes. -/
def zeros (n : Nat) : List Byte := List.replicate n 0

/-- Bytes off to off + n - 1 of a structure, as a number. -/
def fieldAt (bs : List Byte) (off n : Nat) : Nat := leNat ((bs.drop off).take n)

/-- The bytes of a register that a read of size bytes from byte off on asks for (R11). -/
def partOf (off size : Nat) (bs : List Byte) : List Byte := (bs.drop off).take size

/-- A list cut into pieces of n elements, at most k of them. -/
def chunksOf {α : Type} (n : Nat) : Nat → List α → List (List α)
  | 0, _ => []
  | k + 1, l => if l.isEmpty then [] else l.take n :: chunksOf n k (l.drop n)

/-- The list padded with z to a multiple of n elements. -/
def padTo {α : Type} (n : Nat) (z : α) (l : List α) : List α :=
  l ++ List.replicate ((n - l.length % n) % n) z

/-- v rounded up to a multiple of n. -/
def roundUp (v n : Nat) : Nat := (v + n - 1) / n * n

/-- ceil(a / b). -/
def ceilDiv (a b : Nat) : Nat := (a + b - 1) / b

/-- A count that saturates at 2^w - 1. -/
def sat (w v : Nat) : Nat := min v (2 ^ w - 1)

/-- The number of set bits among the low w bits of v. -/
def popcount : Nat → Nat → Nat
  | 0, _ => 0
  | w + 1, v => v % 2 + popcount w (v / 2)

/-- The byte-wise CRC-16 step of R79. -/
def crc16Step (crc d : Nat) : Nat :=
  let x := (crc / 256) ^^^ d
  let x := x ^^^ (x / 16)
  ((crc * 256) ^^^ (x * 4096) ^^^ (x * 32) ^^^ x) % 65536

/-- The CRC-16 of a tile header (R79). -/
def crc16 (bs : List Byte) : Nat := bs.foldl (fun c b => crc16Step c b.toNat) 0xFFFF

/-- One bit of the reflected CRC-32C (R340). -/
def crc32cBits : Nat → Nat → Nat
  | 0, c => c
  | n + 1, c => crc32cBits n (if c % 2 == 1 then (c / 2) ^^^ 0x82F63B78 else c / 2)

/-- The CRC-32C of R340. -/
def crc32c (bs : List Byte) : Nat :=
  bs.foldl (fun c b => crc32cBits 8 (c ^^^ b.toNat)) 0xFFFFFFFF ^^^ 0xFFFFFFFF

/-- The largest root r below 2^n + r0 with r^k ≤ v, bit by bit from r0. -/
def rootOf (k v : Nat) : Nat → Nat → Nat
  | 0, r => r
  | n + 1, r => rootOf k v n (if (r + 2 ^ n) ^ k ≤ v then r + 2 ^ n else r)

/-- The primes below n. -/
def primesBelow (n : Nat) : List Nat := (List.range n).filter fun p => decide (2 ≤ p) && (List.range p).all fun q => decide (q < 2) || p % q != 0

/-- The round constants of SHA-256: the first 32 bits behind the point of the cube roots of the first 64 primes (FIPS 180-4). -/
def sha256K : List (BitVec 32) := (primesBelow 312).map fun p => BitVec.ofNat 32 (rootOf 3 (p * 2 ^ 96) 36 0)

/-- The initial hash value of SHA-256: the same bits of the square roots of the first 8 primes. -/
def sha256Init : List (BitVec 32) := (primesBelow 20).map fun p => BitVec.ofNat 32 (rootOf 2 (p * 2 ^ 64) 36 0)

/-- The message schedule of one block: n further words, the newest first. -/
def sha256Sched : Nat → List (BitVec 32) → List (BitVec 32)
  | 0, w => w
  | n + 1, w =>
    let s0 := (w.getD 14 0).rotateRight 7 ^^^ (w.getD 14 0).rotateRight 18 ^^^ ((w.getD 14 0) >>> 3)
    let s1 := (w.getD 1 0).rotateRight 17 ^^^ (w.getD 1 0).rotateRight 19 ^^^ ((w.getD 1 0) >>> 10)
    sha256Sched n ((s1 + w.getD 6 0 + s0 + w.getD 15 0) :: w)

/-- One round of SHA-256 on the eight working variables. -/
def sha256Round (v : List (BitVec 32)) (kw : BitVec 32 × BitVec 32) : List (BitVec 32) :=
  match v with
  | [a, b, c, d, e, f, g, h] =>
    let t1 := h + (e.rotateRight 6 ^^^ e.rotateRight 11 ^^^ e.rotateRight 25) + ((e &&& f) ^^^ (~~~e &&& g)) + kw.1 + kw.2
    let t2 := (a.rotateRight 2 ^^^ a.rotateRight 13 ^^^ a.rotateRight 22) + ((a &&& b) ^^^ (a &&& c) ^^^ (b &&& c))
    [t1 + t2, a, b, c, d + t1, e, f, g]
  | _ => v

/-- The SHA-256 compression of one 64-byte block. -/
def sha256Block (h : List (BitVec 32)) (blk : List Byte) : List (BitVec 32) :=
  let w := ((chunksOf 4 16 blk).map (fun b => BitVec.ofNat 32 (beNat b))).reverse
  let v := (sha256K.zip (sha256Sched 48 w).reverse).foldl sha256Round h
  h.zipWith (· + ·) v

/-- The SHA-256 digest of a byte string, 32 bytes (FIPS 180-4; R415 to R422, R351). -/
def sha256 (m : List Byte) : List Byte :=
  let padded := m ++ [0x80] ++ zeros ((119 - m.length % 64) % 64) ++ (leBytes 8 (8 * m.length)).reverse
  let h := (chunksOf 64 (padded.length / 64) padded).foldl sha256Block sha256Init
  (h.map (fun w => (leBytes 4 w.toNat).reverse)).flatten

end Sys2Proof.Machine
end

