-- ==== Sys2Proof/Machine/Aes.lean ====
section
/-! DEFINITION. AES-256 and its XTS mode, by which a harbour encrypts the units of sealed pages (R155): a block is its 16 bytes in order as numbers,
byte 4c + r in row r of column c. -/

namespace Sys2Proof.Machine.Aes

/-! ## The field of 256 elements -/

/-- A field element times x, modulo x^8 + x^4 + x^3 + x + 1. -/
def timesX (a : Nat) : Nat := if a < 128 then 2 * a else (2 * a) ^^^ 0x11B

/-- The product, by Horner's rule from the top bit of b down. -/
def times (a b : Nat) : Nat := (List.range 8).foldr (fun i v => timesX v ^^^ (if bitOf b i then a else 0)) 0

/-- The inverse, a to the power 254 = 2 + 4 + … + 128; 0 for 0. -/
def inverse (a : Nat) : Nat :=
  ((List.range 7).foldl (fun (p : Nat × Nat) _ => let q := times p.1 p.1; (q, times p.2 q)) (a, 1)).2

/-- A byte turned left by k bits. -/
def turn (a k : Nat) : Nat := (a * 2 ^ k + a * 2 ^ k / 256) % 256

/-- The substitution of a byte, and its inverse. -/
def sub (a : Nat) : Nat := let b := inverse a; b ^^^ turn b 1 ^^^ turn b 2 ^^^ turn b 3 ^^^ turn b 4 ^^^ 0x63
def unsub (a : Nat) : Nat := inverse (turn a 1 ^^^ turn a 3 ^^^ turn a 6 ^^^ 5)

/-! ## Rounds -/

def mixed (a b : List Nat) : List Nat := a.zipWith (· ^^^ ·) b

/-- Row r moves r columns to the left (dir 1) or to the right (dir 3). -/
def shift (dir : Nat) (b : List Nat) : List Nat := (List.range 16).map fun k => b.getD (4 * ((k / 4 + dir * (k % 4)) % 4) + k % 4) 0

/-- Every column times a circulant matrix with the given first row. -/
def columns (m b : List Nat) : List Nat :=
  (List.range 16).map fun k => (List.range 4).foldl (fun v j => v ^^^ times (m.getD j 0) (b.getD (k / 4 * 4 + (k % 4 + j) % 4) 0)) 0

/-- The words of the key schedule from the eight of the key on, each four bytes: the word before the next one is the head of the list. -/
def schedule : Nat → List (List Nat) → List (List Nat)
  | 0, ws => ws
  | n + 1, ws =>
    let i := ws.length
    let t := ws.headD []
    let t' := if i % 8 = 0 then mixed ((t.drop 1 ++ t.take 1).map sub) [2 ^ (i / 8 - 1), 0, 0, 0] else if i % 8 = 4 then t.map sub else t
    schedule n (mixed (ws.getD 7 []) t' :: ws)

/-- The fifteen round keys of a key of 32 bytes. -/
def roundKeys (key : List Nat) : List (List Nat) :=
  (chunksOf 4 15 (schedule 52 (chunksOf 4 8 key).reverse).reverse).map List.flatten

/-- A block under a key. -/
def encrypt (key b : List Nat) : List Nat :=
  match roundKeys key with
  | [] => b
  | k0 :: ks =>
    let b := (ks.take 13).foldl (fun b k => mixed (columns [2, 3, 1, 1] (shift 1 (b.map sub))) k) (mixed b k0)
    mixed (shift 1 (b.map sub)) (ks.getD 13 [])

/-- Its inverse. -/
def decrypt (key b : List Nat) : List Nat :=
  match (roundKeys key).reverse with
  | [] => b
  | k0 :: ks =>
    let b := (ks.take 13).foldl (fun b k => columns [14, 11, 13, 9] (mixed ((shift 3 b).map unsub) k)) (mixed b k0)
    mixed ((shift 3 b).map unsub) (ks.getD 13 [])

/-! ## XTS (R155) -/

/-- A tweak times the primitive element, the bytes least significant first. -/
def nextTweak (v : Nat) : Nat := if v < 2 ^ 127 then 2 * v else (2 * v - 2 ^ 128) ^^^ 0x87

/-- The 16 bytes of a number. -/
def bytes16 (v : Nat) : List Nat := (leBytes 16 v).map (·.toNat)

/-- Blocks of a unit from a tweak on, each between two additions of its tweak. -/
def chain (f : List Nat → List Nat) : Nat → List (List Nat) → List (List Nat)
  | _, [] => []
  | t, b :: bs => mixed (f (mixed b (bytes16 t))) (bytes16 t) :: chain f (nextTweak t) bs

/-- The bytes of a key of 512 bits, the data key first. -/
def keyBytes (key : BitVec 512) : List Nat := (leBytes 64 key.toNat).map (·.toNat)

/-- A data unit of a number, whole blocks, encrypted or decrypted: the tweak is the number, zero-extended and little-endian. -/
def unit (decrypts : Bool) (key : BitVec 512) (number : Nat) (bs : List Byte) : List Byte :=
  let k := keyBytes key
  let t := leNat ((encrypt (k.drop 32) (bytes16 number)).map (BitVec.ofNat 8))
  let f := if decrypts then decrypt (k.take 32) else encrypt (k.take 32)
  ((chain f t (chunksOf 16 bs.length (bs.map (·.toNat)))).flatten).map (BitVec.ofNat 8)

/-! ## Galois/counter mode (R371) -/

/-- A block as a number, its first byte highest, and back. -/
def number (b : List Nat) : Nat := b.foldl (fun v x => 256 * v + x) 0
def block (v : Nat) : List Nat := ((List.range 16).map fun i => v / 256 ^ i % 256).reverse

/-- The product of two elements whose coefficient of x^0 is the top bit of 128. -/
def ghashTimes (a b : Nat) : Nat :=
  ((List.range 128).foldl (fun (p : Nat × Nat) i =>
    (if bitOf a (127 - i) then p.1 ^^^ p.2 else p.1, if p.2 % 2 = 0 then p.2 / 2 else (p.2 / 2) ^^^ (0xE1 * 2 ^ 120))) (0, b)).1

/-- The hash of blocks under a subkey. -/
def ghash (h : Nat) (bs : List (List Nat)) : Nat := bs.foldl (fun y b => ghashTimes (y ^^^ number b) h) 0

/-- The counter block of a nonce of 12 bytes: number 1 masks the tag, the text begins with 2. -/
def counterBlock (nonce : List Nat) (i : Nat) : List Nat := nonce ++ (block i).drop 12

/-- The text under the key stream; the same again gives it back. -/
def stream (key nonce text : List Nat) : List Nat :=
  (((chunksOf 16 text.length text).zipIdx.map fun b => mixed (encrypt key (counterBlock nonce (b.2 + 2))) b.1)).flatten

/-- The tag of whole blocks of additional data and of ciphertext. -/
def tag (key nonce aad ct : List Nat) : List Nat :=
  let h := number (encrypt key (List.replicate 16 0))
  let lengths := block (8 * aad.length * 2 ^ 64 + 8 * ct.length)
  mixed (block (ghash h (chunksOf 16 aad.length aad ++ chunksOf 16 ct.length ct ++ [lengths]))) (encrypt key (counterBlock nonce 1))

end Sys2Proof.Machine.Aes
end

