-- ==== Sys2Proof/Config.lean ====
section
/-! DEFINITION. What the spec leaves open, as constants without a body: nothing in Lean can evaluate one of them, so a
statement about a value of theirs holds whatever it is. Each is named in an entry of the assumption log. -/

namespace Sys2Proof.Config

/-- A fresh free value of a step: the number of the value, from the counter State.free, gives it (log entry 5). -/
opaque freeValue : Nat → BitVec 64

/-- Which of the FP32 values within the bound of R223 an operation gives: GELU 4, SiLU 5 or exp 6, and the element (log entry 6). -/
opaque curve : Nat → BitVec 32 → Nat

/-- Whether an SLH-DSA-SHA2-128s signature verifies: key, signed digest, signature (R377, R416; log entry 7). -/
opaque slhVerify : List Byte → List Byte → List Byte → Bool

/-- Whether a certificate chain verifies up to the root this module trusts (R377, R420; log entry 7). -/
opaque chainVerify : List Byte → Bool

/-- An SLH-DSA-SHA2-128s signature: the number of the signing key and the digest give 7,856 bytes (R419; log entry 7). -/
opaque slhSign : Nat → List Byte → List Byte

/-- The public key that a certificate chain certifies (R378; log entry 7). -/
opaque chainKey : List Byte → List Byte

/-- The ML-KEM-768 encapsulation key of an exchange (R377; log entry 7). -/
opaque kemKey : Nat → List Byte

/-- The ML-KEM-768 ciphertext for an encapsulation key and a random draw (R377; log entry 7). -/
opaque kemEncaps : List Byte → Nat → List Byte

/-- A key derived by HKDF-SHA-256: the shared secret's number, the context and the direction give the key's number
(R377, R379; log entry 7). -/
opaque hkdfKey : Nat → List Byte → Nat → Nat

/-- The certificate chain of slot 0 (R420; log entry 7). -/
opaque certChain : List Byte

/-- The SHA-256 of the root-of-trust ROM, measurement 1 (R421; log entry 7). -/
opaque romDigest : List Byte

/-- Melverby's public keys in the fuses PKEY0 to PKEY3 (R414; log entry 7). -/
opaque pkey : Nat → List Byte

/-- The 512 bits of a sealing key, the data key in the low half, by the key's number (R155, R431; log entry 9). -/
opaque sealKeyBits : Nat → BitVec 512

/-- Melverby's PCI Express vendor ID (R383; log entry 119). -/
opaque vendorId : BitVec 16

/-- The 256 bits of the key of one direction of a Bangeby link, by the key's number (R372, R377; log entry 7). -/
opaque linkKeyBits : Nat → BitVec 256

/-- What a peer's memory holds when an engine reads a directory, a list or an index there: the present free value, the package and the
address give the byte (R44; log entry 15). -/
opaque peerByte : Nat → Nat → Nat → Byte

/-- The result of an operation on operands for which the spec states none: what it is of, and two operands (log entry 22). -/
opaque unstated : Nat → Nat → Nat → BitVec 64

/-- How far an engine's handshake count advances beside a retirement: the engine and the step's free value give it (R59, R61;
log entry 11). -/
opaque handshakes : Nat → Nat → Nat

/-- The mesh position 6y + x of logical core c of die d, which the fuses fix (R342, R462; log entry 20). -/
opaque meshPosition : Nat → Nat → Nat

/-- The mesh position of die port 0 or 1 of a die (R462; log entry 20). -/
opaque portPosition : Nat → Nat → Nat

/-- How many steps of 5 mV the Lighthouse moves a compute die's voltage towards its limit at a sample, modulo 5: die, power, limit and present
voltage (R464; log entry 29). -/
opaque slew : Nat → Nat → Nat → Nat → Nat

/-- The number of spans of 16, modulo 16, that gating needs to hold a die within its limit at the present voltage: die, power, limit, voltage and
the present number (R465; log entry 29). -/
opaque gate : Nat → Nat → Nat → Nat → Nat → Nat

/-- A compute die's idle draw in mW (R464; log entry 29). -/
opaque idleDraw : Nat → Nat

/-- The stage that a recovery's record shows: its step is a matter of time (R458; log entry 30). -/
opaque stage : Nat → Nat → Nat → Nat

end Sys2Proof.Config
end

