-- ==== Sys2Proof/Machine/Num.lean ====
section
/-! DEFINITION. The element types of R68 and their arithmetic: exact values, decoding and encoding, rounding to nearest even and
stochastic rounding (R73, R75), the saturation table of R73, the block scales of R74, INT32 accumulation with integer infinity
(R215), and the floating-point operations of the cells and the Ebb chain (R182, R214, R223). -/

namespace Sys2Proof.Machine

/-- An exact value: a sign, a magnitude and a power of two; an infinity; or a NaN. A zero keeps its sign. -/
inductive Val where
  | fin (neg : Bool) (m : Nat) (e : Int)
  | inf (neg : Bool)
  | nan
  deriving DecidableEq, Repr

/-- A floating-point format: exponent and mantissa bits, bias, and which codes are not finite: 0 as IEEE 754, 1 only the NaN
S.1111.111, 2 none. -/
structure Fmt where
  eb : Nat
  mb : Nat
  bias : Nat
  special : Nat
  deriving DecidableEq, Repr

/-- The kinds of element type (R68). -/
inductive Elt where
  | flt (f : Fmt)
  /-- an MX type and the format of its elements -/
  | mx (f : Fmt)
  | mxint8
  /-- w bits, signed or not -/
  | int (w : Nat) (signed : Bool)
  /-- plane form of b magnitude bits -/
  | pf (b : Nat)
  | reserved
  deriving DecidableEq, Repr

def fmt64 : Fmt := ⟨11, 52, 1023, 0⟩
def fmt32 : Fmt := ⟨8, 23, 127, 0⟩

/-- The element type of a type code (R68). -/
def elt (c : Nat) : Elt :=
  match c with
  | 0x00 => .flt fmt64
  | 0x01 => .flt fmt32
  | 0x02 => .flt ⟨8, 7, 127, 0⟩
  | 0x03 => .flt ⟨5, 10, 15, 0⟩
  | 0x04 => .flt ⟨4, 3, 7, 1⟩
  | 0x05 => .flt ⟨5, 2, 15, 0⟩
  | 0x06 => .flt ⟨3, 2, 3, 2⟩
  | 0x07 => .flt ⟨2, 3, 1, 2⟩
  | 0x08 => .flt ⟨2, 1, 1, 2⟩
  | 0x09 => .mx ⟨4, 3, 7, 1⟩
  | 0x0A => .mx ⟨5, 2, 15, 0⟩
  | 0x0B => .mx ⟨3, 2, 3, 2⟩
  | 0x0C => .mx ⟨2, 3, 1, 2⟩
  | 0x0D => .mx ⟨2, 1, 1, 2⟩
  | 0x0E => .mxint8
  | 0x0F => .int 8 true
  | 0x10 => .int 8 false
  | 0x11 => .int 4 true
  | 0x12 => .int 32 true
  | 0x13 => .int 64 true
  | c => if 0x18 ≤ c ∧ c ≤ 0x1F then .pf (c - 0x17) else .reserved

/-- The width of an element in bits, without any scale (R68); 0 for a reserved code. -/
def eltWidth (c : Nat) : Nat :=
  match elt c with
  | .flt f => 1 + f.eb + f.mb
  | .mx f => 1 + f.eb + f.mb
  | .mxint8 => 8
  | .int w _ => w
  | .pf b => b + 1
  | .reserved => 0

/-- Whether a type is an MX type (R71). -/
def isMx (c : Nat) : Bool := decide (0x09 ≤ c) && decide (c ≤ 0x0E)

/-- Whether a type is of plane form (R70). -/
def isPf (c : Nat) : Bool := decide (0x18 ≤ c) && decide (c ≤ 0x1F)

/-- Whether a type is stored as planes (R68, R69). -/
def isPlanes (c : Nat) : Bool := isPf c || [0x06, 0x07, 0x08, 0x0B, 0x0C, 0x0D, 0x11].contains c

namespace Val

/-- +0. -/
def zero : Val := .fin false 0 0

/-- An integer as a value. -/
def ofInt (z : Int) : Val := .fin (decide (z < 0)) z.natAbs 0

/-- Whether a value is ±0. -/
def isZero : Val → Bool
  | .fin _ m _ => m == 0
  | _ => false

def isNan : Val → Bool
  | .nan => true
  | _ => false

def isInf : Val → Bool
  | .inf _ => true
  | _ => false

def neg : Val → Val
  | .fin n m e => .fin (!n) m e
  | .inf n => .inf (!n)
  | .nan => .nan

def abs : Val → Val
  | .fin _ m e => .fin false m e
  | .inf _ => .inf false
  | .nan => .nan

/-- The signed magnitude of a finite value in units of 2^e0, for e0 at or below its exponent. -/
def scaled (n : Bool) (m : Nat) (e e0 : Int) : Int :=
  let z : Int := m * 2 ^ (e - e0).toNat
  if n then -z else z

/-- The exact sum (R214): ∞ − ∞ is a NaN; an exact zero is +0 unless both operands are −0. -/
def add : Val → Val → Val
  | .nan, _ => .nan
  | _, .nan => .nan
  | .inf a, .inf b => if a == b then .inf a else .nan
  | .inf a, _ => .inf a
  | _, .inf b => .inf b
  | .fin n m e, .fin n' m' e' =>
    let e0 := min e e'
    let z := scaled n m e e0 + scaled n' m' e' e0
    .fin (if z = 0 then (m == 0 && m' == 0 && n && n') else decide (z < 0)) z.natAbs e0

/-- The exact product: ∞ × 0 is a NaN. -/
def mul : Val → Val → Val
  | .nan, _ => .nan
  | _, .nan => .nan
  | .inf a, .inf b => .inf (a != b)
  | .inf a, .fin n m _ => if m = 0 then .nan else .inf (a != n)
  | .fin n m _, .inf a => if m = 0 then .nan else .inf (a != n)
  | .fin n m e, .fin n' m' e' => .fin (n != n') (m * m') (e + e')

/-- A value times a power of two. -/
def shift (v : Val) (k : Int) : Val :=
  match v with
  | .fin n m e => .fin n m (e + k)
  | v => v

/-- Whether a value is below another; false when either is a NaN. -/
def lt : Val → Val → Bool
  | .nan, _ => false
  | _, .nan => false
  | .inf a, .inf b => a && !b
  | .inf a, _ => a
  | _, .inf b => !b
  | .fin n m e, .fin n' m' e' =>
    let e0 := min e e'
    decide (scaled n m e e0 < scaled n' m' e' e0)

/-- Whether two values are equal as numbers; false when either is a NaN. -/
def eq : Val → Val → Bool
  | .nan, _ => false
  | _, .nan => false
  | .inf a, .inf b => a == b
  | .inf _, _ => false
  | _, .inf _ => false
  | .fin n m e, .fin n' m' e' =>
    let e0 := min e e'
    decide (scaled n m e e0 = scaled n' m' e' e0)

def le (a b : Val) : Bool := lt a b || eq a b

end Val

/-! ## Decoding -/

/-- The value of a floating-point encoding. -/
def fltVal (f : Fmt) (v : Nat) : Val :=
  let man := v % 2 ^ f.mb
  let ex := v / 2 ^ f.mb % 2 ^ f.eb
  let neg := bitOf v (f.mb + f.eb)
  let top := ex == 2 ^ f.eb - 1
  if f.special == 0 && top then (if man == 0 then .inf neg else .nan)
  else if f.special == 1 && top && man == 2 ^ f.mb - 1 then .nan
  else if ex == 0 then .fin neg man (1 - (f.bias : Int) - f.mb)
  else .fin neg (2 ^ f.mb + man) ((ex : Int) - f.bias - f.mb)

/-- The value of an element's encoding, an MX element without its scale (R68, R70, R71). -/
def eltVal (c v : Nat) : Val :=
  match elt c with
  | .flt f => fltVal f v
  | .mx f => fltVal f v
  | .mxint8 => (Val.ofInt (sext 8 v)).shift (-6)
  | .int w true => Val.ofInt (sext w v)
  | .int w false => Val.ofInt (v % 2 ^ w)
  | .pf b => .fin (bitOf v b && v % 2 ^ b != 0) (v % 2 ^ b) 0
  | .reserved => Val.zero

/-- The integer that an integer or plane-form encoding stands for (R68, R70). -/
def eltInt (c v : Nat) : Int :=
  match elt c with
  | .int w true => sext w v
  | .int w false => (v % 2 ^ w : Nat)
  | .pf b => if bitOf v b then -((v % 2 ^ b : Nat) : Int) else (v % 2 ^ b : Nat)
  | _ => 0

/-- Whether an encoding is ±0 (R89: both count as zero; a NaN does not). -/
def eltIsZero (c v : Nat) : Bool := (eltVal c v).isZero

/-! ## Rounding (R73, R75) -/

/-- m × 2^(−s) rounded: to nearest even, or up by the 16-bit draw of R75. -/
def roundShift (draw : Option Nat) (m s : Nat) : Nat :=
  let q := m / 2 ^ s
  let f := m % 2 ^ s
  match draw with
  | none => if 2 * f > 2 ^ s || (2 * f == 2 ^ s && q % 2 == 1) then q + 1 else q
  | some r => if 2 ^ 16 ≤ f * 2 ^ 16 / 2 ^ s + r then q + 1 else q

/-- The magnitude m × 2^e in units of the target's last place, and the exponent of that place. -/
def roundMag (f : Fmt) (draw : Option Nat) (m : Nat) (e : Int) : Nat × Int :=
  if m = 0 then (0, 1 - (f.bias : Int) - f.mb)
  else
    let lsb := max ((Nat.log2 m : Int) + e - f.mb) (1 - (f.bias : Int) - f.mb)
    let q := if lsb ≤ e then m * 2 ^ (e - lsb).toNat else roundShift draw m (lsb - e).toNat
    if q == 2 ^ (f.mb + 1) then (2 ^ f.mb, lsb + 1) else (q, lsb)

/-- The largest finite magnitude of a format, as an encoding without sign. -/
def fltMax (f : Fmt) : Nat :=
  match f.special with
  | 0 => (2 ^ f.eb - 1) * 2 ^ f.mb - 1
  | 1 => 2 ^ (f.eb + f.mb) - 2
  | _ => 2 ^ (f.eb + f.mb) - 1

/-- The quiet NaN of R73; FP8 has 0x7F. -/
def fltNan (f : Fmt) : Nat :=
  if f.eb + f.mb == 7 then 0x7F else (2 ^ f.eb - 1) * 2 ^ f.mb + 2 ^ (f.mb - 1)

/-- The magnitude encoding of a rounded magnitude, or none beyond the largest finite value. -/
def packMag (f : Fmt) (q : Nat) (lsb : Int) : Option Nat :=
  let code := if q < 2 ^ f.mb then (q : Int) else (lsb + f.mb + f.bias) * 2 ^ f.mb + (q - 2 ^ f.mb : Nat)
  if (fltMax f : Int) < code then none else some code.toNat

/-- A value in a floating-point format by R73: the encoding, and whether the conversion is counted. -/
def fltEnc (f : Fmt) (draw : Option Nat) (v : Val) : Nat × Bool :=
  let s (neg : Bool) := b2n neg * 2 ^ (f.eb + f.mb)
  match v with
  | .nan => if f.special == 2 then (0, true) else (fltNan f, false)
  | .inf n =>
    match f.special with
    | 0 => (s n + (2 ^ f.eb - 1) * 2 ^ f.mb, false)
    | 1 => (s n + 0x7F, false)
    | _ => (s n + fltMax f, true)
  | .fin n m e =>
    let (q, lsb) := roundMag f draw m e
    match packMag f q lsb with
    | some c => (s n + c, false)
    | none => if f.special == 0 then (s n + (2 ^ f.eb - 1) * 2 ^ f.mb, false) else (s n + fltMax f, false)

/-- A finite value rounded to the nearest integer, ties to even (R73). -/
def roundInt (neg : Bool) (m : Nat) (e : Int) : Int :=
  let q := if 0 ≤ e then m * 2 ^ e.toNat else roundShift none m (-e).toNat
  if neg then -(q : Int) else q

/-- The range of an integer or plane-form type. -/
def intRange (c : Nat) : Int × Int :=
  match elt c with
  | .int w true => (-(2 ^ (w - 1) : Nat), (2 ^ (w - 1) : Nat) - 1)
  | .int w false => (0, (2 ^ w : Nat) - 1)
  | .pf b => (-((2 ^ b : Nat) - 1), (2 ^ b : Nat) - 1)
  | _ => (0, 0)

/-- The encoding of an integer in range; a zero of plane form has sign 0 (R70). -/
def intEnc (c : Nat) (z : Int) : Nat :=
  match elt c with
  | .pf b => if z < 0 then 2 ^ b + z.natAbs else z.natAbs
  | .int w _ => wrap w z
  | _ => 0

/-- A value in an integer or plane-form type by R73. -/
def intConv (c : Nat) (v : Val) : Nat × Bool :=
  let (lo, hi) := intRange c
  match v with
  | .nan => (intEnc c 0, true)
  | .inf n => (intEnc c (if n then lo else hi), true)
  | .fin n m e => (intEnc c (max lo (min hi (roundInt n m e))), false)

/-- A value in a type that is not an MX type (R73). -/
def convert (c : Nat) (draw : Option Nat) (v : Val) : Nat × Bool :=
  match elt c with
  | .flt f => fltEnc f draw v
  | .int _ _ => intConv c v
  | .pf _ => intConv c v
  | _ => (0, false)

/-! ## Microscaling (R74) -/

/-- The largest unbiased exponent of an MX type's elements (R74). -/
def mxTop (c : Nat) : Int :=
  match c with
  | 0x09 => 8
  | 0x0A => 15
  | 0x0B => 4
  | 0x0C => 2
  | 0x0D => 2
  | _ => 0

/-- floor(log2) of the largest magnitude among finite values; none when all are zero. -/
def maxLog : List Val → Option Int
  | [] => none
  | .fin _ m e :: t =>
    let r := maxLog t
    if m = 0 then r else
      let l := (Nat.log2 m : Int) + e
      match r with
      | none => some l
      | some l' => some (max l l')
  | _ :: t => maxLog t

/-- The scale byte of a block (R74), 0xFF where an element is infinite or NaN (R73). -/
def mxScale (c : Nat) (vs : List Val) : Nat :=
  if vs.any (fun v => v.isInf || v.isNan) then 0xFF
  else match maxLog vs with
    | none => 0x7F
    | some l => (max 0 (min 0xFE (l - mxTop c + 127))).toNat

/-- An element of a block with its scale byte (R74): a value beyond the largest finite takes it. -/
def mxElt (c scale : Nat) (draw : Option Nat) (v : Val) : Nat :=
  if scale == 0xFF then 0
  else
    let v := v.shift (127 - (scale : Int))
    match elt c, v with
    | .mx f, .fin n m e =>
      let (q, lsb) := roundMag f draw m e
      b2n n * 2 ^ (f.eb + f.mb) + (packMag f q lsb).getD (fltMax f)
    | .mxint8, .fin n m e => wrap 8 (max (-127) (min 127 (roundInt n m (e + 6))))
    | _, _ => 0

/-- The factor of a scale byte: its exponent, none for 0xFF. -/
def mxExp (s : Nat) : Option Int := if s == 0xFF then none else some ((s : Int) - 127)

/-! ## Arithmetic on encodings -/

/-- The sum of two encodings of a format, rounded to nearest even (R211, R214). -/
def fadd (f : Fmt) (a b : Nat) : Nat := (fltEnc f none ((fltVal f a).add (fltVal f b))).1

/-- The product of two encodings of a format, rounded to nearest even (R182). -/
def fmul (f : Fmt) (a b : Nat) : Nat := (fltEnc f none ((fltVal f a).mul (fltVal f b))).1

/-- An encoding plus an exact value, rounded once. -/
def faddVal (f : Fmt) (a : Nat) (v : Val) : Nat := (fltEnc f none ((fltVal f a).add v)).1

/-- 1 ÷ x, correctly rounded (R221, R223). -/
def recip32 (x : Nat) : Nat :=
  match fltVal fmt32 x with
  | .nan => fltNan fmt32
  | .inf n => b2n n * 2 ^ 31
  | .fin n m e =>
    if m = 0 then (fltEnc fmt32 none (.inf n)).1
    else
      let q := 2 ^ 64 / m
      (fltEnc fmt32 none (.fin n (2 * q + b2n (2 ^ 64 % m != 0)) (-65 - e))).1

/-- Integer infinity of an INT32 accumulator (R215). -/
def intInf : Nat := 0x80000000

/-- An exact integer as an INT32 accumulator value: integer infinity outside −(2^31 − 1) to 2^31 − 1 (R215). -/
def accInt (z : Int) : Nat := if z < -(2 ^ 31 - 1) ∨ 2 ^ 31 - 1 < z then intInf else wrap 32 z

/-- An INT32 accumulator plus an exact integer (R215). -/
def iaddInt (a : Nat) (z : Int) : Nat := if a == intInf then intInf else accInt (sext 32 a + z)

/-- The sum of two INT32 accumulator values (R215). -/
def iadd (a b : Nat) : Nat := if b == intInf then intInf else iaddInt a (sext 32 b)

/-- The value of an accumulator element: 0 FP32, 1 INT32, 2 FP64; integer infinity is +∞ (R215). -/
def accVal (ty v : Nat) : Val :=
  match ty with
  | 0 => fltVal fmt32 v
  | 1 => if v == intInf then .inf false else Val.ofInt (sext 32 v)
  | _ => fltVal fmt64 v

/-- The sum of two accumulator elements of one type (R211). -/
def accAdd (ty a b : Nat) : Nat :=
  match ty with
  | 0 => fadd fmt32 a b
  | 1 => iadd a b
  | _ => fadd fmt64 a b

/-- The sum of integers of two's-complement width w, wrapped (R116). -/
def wrapAdd (w a b : Nat) : Nat := (a + b) % 2 ^ w

/-- Scatter-add of a value into an element (R116): FP64, FP32, INT32 or INT64. -/
def scatterAdd (c a b : Nat) : Nat :=
  match c with
  | 0x00 => fadd fmt64 a b
  | 0x01 => fadd fmt32 a b
  | 0x12 => wrapAdd 32 a b
  | _ => wrapAdd 64 a b

end Sys2Proof.Machine
end

