-- ==== Sys2Proof/Machine/RegMap.lean ====
section
/-! DEFINITION. The register map (R10, R13, R159): every register the spec names, the block it lies in, its offsets,
and its fields with their classes and reset values, as the register tables of the spec's chapters list them.
A field whose reset the spec gives as set by repair, by fuse, by image or by flash holds here the value of log entry 3.
MSIX_TABLE and MSIX_PBA are the table and the pending-bit array of R383. -/

namespace Sys2Proof.Machine

/-- The block that a register lies in (R159). -/
inductive RegBlock where
  | core | die | tower | harbour | causeway | lighthouse
  deriving DecidableEq, Repr

/-- The class of a register field (R13). -/
inductive RegClass where
  /-- live -/
  | live
  /-- task-latched -/
  | task
  /-- quiescent-only -/
  | quiet
  /-- sticky status -/
  | sticky
  /-- read-only -/
  | ro
  deriving DecidableEq, Repr

/-- One field of a register map: its name, its bits, its class and its reset value. -/
structure RegField where
  name : String
  hi : Nat
  lo : Nat
  cls : RegClass
  reset : Nat
  deriving DecidableEq, Repr

/-- Where a register stands in its block. Instance i lies at base + s1 * (i / c2) + s2 * (i % c2). -/
structure RegInfo where
  name : String
  block : RegBlock
  base : Nat
  s1 : Nat
  s2 : Nat
  c2 : Nat
  count : Nat
  fields : List RegField
  deriving DecidableEq, Repr

/-- The registers of the device, each under the spec's own name. -/
inductive RegName where
  /-- RP_CFGn -/
  | rpCfg
  /-- RP_PTRn -/
  | rpPtr
  /-- CV_BASEn -/
  | cvBase
  /-- CV_BOUNDn -/
  | cvBound
  /-- CV_SIZE -/
  | cvSize
  /-- CV_ECC -/
  | cvEcc
  /-- SE_GROYNEn -/
  | seGroyne
  /-- SE_STATUSn -/
  | seStatus
  /-- SE_FAULTn -/
  | seFault
  /-- SE_FADDRn -/
  | seFaddr
  /-- SE_COMBINEDn -/
  | seCombined
  /-- SE_PROGRESSn -/
  | seProgress
  /-- MA_CFGn -/
  | maCfg
  /-- MA_STATUSn -/
  | maStatus
  /-- MA_PROGRESSn -/
  | maProgress
  /-- MA_CHECKn -/
  | maCheck
  /-- MA_ABFTCNTn -/
  | maAbftcnt
  /-- MA_LOADSn -/
  | maLoads
  /-- MA_ACCADDRn -/
  | maAccaddr
  /-- MA_ACCDATAn -/
  | maAccdata
  /-- MA_LOOKOUTn -/
  | maLookout
  /-- MA_MASKSKIPn -/
  | maMaskskip
  /-- EB_CFGa -/
  | ebCfg
  /-- EB_STATUSa -/
  | ebStatus
  /-- EB_OPn -/
  | ebOp
  /-- EB_IMMn -/
  | ebImm
  /-- PK_STATUS -/
  | pkStatus
  /-- PK_PROGRESS -/
  | pkProgress
  /-- PK_COUNTn -/
  | pkCount
  /-- SL_CFG -/
  | slCfg
  /-- SL_STATUS -/
  | slStatus
  /-- SL_PROGRESS -/
  | slProgress
  /-- SL_FAULT -/
  | slFault
  /-- SL_COUNTn -/
  | slCount
  /-- ES_CFG -/
  | esCfg
  /-- ES_OUT -/
  | esOut
  /-- ES_STATUS -/
  | esStatus
  /-- ES_PROGRESS -/
  | esProgress
  /-- ES_FAULT -/
  | esFault
  /-- ES_COUNTn -/
  | esCount
  /-- CH_CFGn -/
  | chCfg
  /-- CH_STATUSn -/
  | chStatus
  /-- CH_DATAn -/
  | chData
  /-- CH_PUSHENDn -/
  | chPushend
  /-- PIL_SHAPEn -/
  | pilShape
  /-- PIL_TMn -/
  | pilTm
  /-- PIL_SEMn -/
  | pilSem
  /-- PIL_LCn -/
  | pilLc
  /-- PIL_PROGRESS -/
  | pilProgress
  /-- PIL_SR_SEED -/
  | pilSrSeed
  /-- PIL_QCOUNTn -/
  | pilQcount
  /-- PIL_HSCOUNTn -/
  | pilHscount
  /-- PIL_OOBn -/
  | pilOob
  /-- LG_SIZE -/
  | lgSize
  /-- LG_ECC -/
  | lgEcc
  /-- DSP_CFG -/
  | dspCfg
  /-- DSP_TAIL_NNZ -/
  | dspTailNnz
  /-- DSP_LISTBASE -/
  | dspListbase
  /-- DSP_LISTCTL -/
  | dspListctl
  /-- DSP_STATUS -/
  | dspStatus
  /-- DSP_FAULT -/
  | dspFault
  /-- MT_SIZE -/
  | mtSize
  /-- HB_PORTSTAT -/
  | hbPortstat
  /-- HB_PORTCFG -/
  | hbPortcfg
  /-- HB_MEMWINn -/
  | hbMemwin
  /-- HB_TQBASEq -/
  | hbTqbase
  /-- HB_TQCFGq -/
  | hbTqcfg
  /-- HB_TQDBq -/
  | hbTqdb
  /-- HB_TQSTATq -/
  | hbTqstat
  /-- HB_CQBASEq -/
  | hbCqbase
  /-- HB_CQCFGq -/
  | hbCqcfg
  /-- HB_CQHEADq -/
  | hbCqhead
  /-- HB_CQSTATq -/
  | hbCqstat
  /-- HB_ERRSTAT -/
  | hbErrstat
  /-- HB_ERRHEAD -/
  | hbErrhead
  /-- HB_ERRSUM -/
  | hbErrsum
  /-- HB_ERRSEQ -/
  | hbErrseq
  /-- HB_ERRLOGn -/
  | hbErrlog
  /-- MSIX_TABLE -/
  | msixTable
  /-- MSIX_PBA -/
  | msixPba
  /-- BL_CFGn -/
  | blCfg
  /-- BL_STATUSn -/
  | blStatus
  /-- BL_KEYCTLn -/
  | blKeyctl
  /-- BL_COUNTn -/
  | blCount
  /-- BL_ERRn -/
  | blErr
  /-- CX_CFGp -/
  | cxCfg
  /-- CX_STATUSp -/
  | cxStatus
  /-- CX_CAPp -/
  | cxCap
  /-- CX_ERRp -/
  | cxErr
  /-- CW_CFG -/
  | cwCfg
  /-- CW_STATUS -/
  | cwStatus
  /-- CW_SPAREMAPd -/
  | cwSparemap
  /-- CW_ERRd -/
  | cwErr
  /-- LH_SOUNDCTLw -/
  | lhSoundctl
  /-- LH_SOUNDADDRw -/
  | lhSoundaddr
  /-- LH_SOUNDSTATw -/
  | lhSoundstat
  /-- LH_STALL_WATCH -/
  | lhStallWatch
  /-- LH_RECOVERYn -/
  | lhRecovery
  /-- LH_LAYOUTADDR -/
  | lhLayoutaddr
  /-- LH_LAYOUTCTL -/
  | lhLayoutctl
  /-- LH_INTAKE -/
  | lhIntake
  /-- LH_STRATA_ADDRp -/
  | lhStrataAddr
  /-- LH_STRATA_CTLp -/
  | lhStrataCtl
  /-- LH_STRATA_STATUSp -/
  | lhStrataStatus
  /-- LH_STRATA_IDp -/
  | lhStrataId
  /-- LH_PACKAGE -/
  | lhPackage
  /-- LH_ROUTEq -/
  | lhRoute
  /-- LH_HOSTCTL -/
  | lhHostctl
  /-- LH_HOSTSTAT -/
  | lhHoststat
  /-- LH_HEARTBEAT -/
  | lhHeartbeat
  /-- LH_CLAIM -/
  | lhClaim
  /-- LH_SHAREBASEn -/
  | lhSharebase
  /-- LH_SHARELIMn -/
  | lhSharelim
  /-- LH_SECSTAT -/
  | lhSecstat
  /-- LH_SECCTL -/
  | lhSecctl
  /-- LH_FUSESVN -/
  | lhFusesvn
  /-- LH_PARTSECp -/
  | lhPartsec
  /-- LH_SEALCTLp -/
  | lhSealctl
  /-- LH_SEALSTATp -/
  | lhSealstat
  /-- LH_PILOTFWp -/
  | lhPilotfw
  /-- LH_POWERCAP -/
  | lhPowercap
  /-- LH_POWERSTAT -/
  | lhPowerstat
  /-- LH_THERMAL -/
  | lhThermal
  /-- LH_TELEMt -/
  | lhTelem
  /-- LH_QUOTAp,k -/
  | lhQuota
  /-- LH_BOOTSTAT -/
  | lhBootstat
  /-- LH_RESETCTL -/
  | lhResetctl
  /-- LH_PTBASEn -/
  | lhPtbase
  deriving DecidableEq, Repr

/-- The row of a register in the map. -/
def RegName.info : RegName → RegInfo
  | .rpCfg => ⟨"RP_CFGn", .core, 0x1000, 0x0, 0x8, 72, 72,
    [⟨"enable", 63, 63, .quiet, 0⟩, ⟨"producer", 55, 52, .quiet, 0⟩, ⟨"slots", 47, 44, .quiet, 0⟩, ⟨"slotsize", 26, 16, .quiet, 0⟩, ⟨"base", 9, 0, .quiet, 0⟩]⟩
  | .rpPtr => ⟨"RP_PTRn", .core, 0x1400, 0x0, 0x8, 72, 72,
    [⟨"count", 20, 16, .ro, 0⟩, ⟨"head", 11, 8, .ro, 0⟩, ⟨"tail", 3, 0, .ro, 0⟩]⟩
  | .cvBase => ⟨"CV_BASEn", .core, 0x2000, 0x0, 0x10, 4, 4,
    [⟨"base", 9, 0, .quiet, 0⟩]⟩
  | .cvBound => ⟨"CV_BOUNDn", .core, 0x2008, 0x0, 0x10, 4, 4,
    [⟨"valid", 63, 63, .quiet, 0⟩, ⟨"retain", 62, 62, .quiet, 0⟩, ⟨"limit", 9, 0, .quiet, 0⟩]⟩
  | .cvSize => ⟨"CV_SIZE", .core, 0x2040, 0x0, 0x8, 1, 1,
    [⟨"spares", 21, 16, .ro, 32⟩, ⟨"usable", 9, 0, .ro, 512⟩]⟩
  | .cvEcc => ⟨"CV_ECC", .core, 0x2048, 0x0, 0x8, 1, 1,
    [⟨"ue", 63, 63, .sticky, 0⟩, ⟨"ce", 62, 62, .sticky, 0⟩, ⟨"row", 58, 48, .ro, 0⟩, ⟨"bank", 47, 44, .ro, 0⟩, ⟨"corrected", 31, 0, .ro, 0⟩]⟩
  | .seGroyne => ⟨"SE_GROYNEn", .core, 0x3000, 0x0, 0x100, 2, 2,
    [⟨"remote", 11, 8, .ro, 0⟩, ⟨"write", 7, 4, .ro, 4⟩, ⟨"read", 3, 0, .ro, 4⟩]⟩
  | .seStatus => ⟨"SE_STATUSn", .core, 0x3008, 0x0, 0x100, 2, 2,
    [⟨"busy", 63, 63, .ro, 0⟩, ⟨"credit_wait", 62, 62, .ro, 0⟩, ⟨"order_wait", 61, 61, .ro, 0⟩, ⟨"tags_remote", 29, 20, .ro, 0⟩, ⟨"tags_write", 19, 10, .ro, 0⟩, ⟨"tags_read", 9, 0, .ro, 0⟩]⟩
  | .seFault => ⟨"SE_FAULTn", .core, 0x3010, 0x0, 0x100, 2, 2,
    [⟨"valid", 63, 63, .sticky, 0⟩, ⟨"handle", 59, 48, .ro, 0⟩, ⟨"code", 47, 32, .ro, 0⟩, ⟨"visit", 31, 0, .ro, 0⟩]⟩
  | .seFaddr => ⟨"SE_FADDRn", .core, 0x3018, 0x0, 0x100, 2, 2,
    [⟨"global", 60, 60, .ro, 0⟩, ⟨"package", 59, 52, .ro, 0⟩, ⟨"address", 51, 0, .ro, 0⟩]⟩
  | .seCombined => ⟨"SE_COMBINEDn", .core, 0x3020, 0x0, 0x100, 2, 2,
    [⟨"count", 47, 0, .ro, 0⟩]⟩
  | .seProgress => ⟨"SE_PROGRESSn", .core, 0x3028, 0x0, 0x100, 2, 2,
    [⟨"pending", 63, 63, .ro, 0⟩, ⟨"exempt", 62, 62, .ro, 0⟩, ⟨"count", 47, 0, .ro, 0⟩]⟩
  | .maCfg => ⟨"MA_CFGn", .core, 0x4000, 0x0, 0x100, 2, 2,
    [⟨"tol64", 13, 8, .task, 19⟩, ⟨"tol32", 3, 0, .task, 4⟩]⟩
  | .maStatus => ⟨"MA_STATUSn", .core, 0x4008, 0x0, 0x100, 2, 2,
    [⟨"busy", 63, 63, .ro, 0⟩, ⟨"set", 62, 62, .ro, 0⟩, ⟨"resident", 61, 61, .ro, 0⟩, ⟨"shadow_ready", 60, 60, .ro, 0⟩, ⟨"mode", 59, 58, .ro, 0⟩, ⟨"transposed", 57, 57, .ro, 0⟩]⟩
  | .maProgress => ⟨"MA_PROGRESSn", .core, 0x4010, 0x0, 0x100, 2, 2,
    [⟨"pending", 63, 63, .ro, 0⟩, ⟨"exempt", 62, 62, .ro, 0⟩, ⟨"count", 47, 0, .ro, 0⟩]⟩
  | .maCheck => ⟨"MA_CHECKn", .core, 0x4018, 0x0, 0x100, 2, 2,
    [⟨"valid", 63, 63, .sticky, 0⟩, ⟨"code", 47, 32, .ro, 0⟩, ⟨"nblock", 15, 12, .ro, 0⟩, ⟨"mblock", 11, 8, .ro, 0⟩, ⟨"row", 5, 0, .ro, 0⟩]⟩
  | .maAbftcnt => ⟨"MA_ABFTCNTn", .core, 0x4020, 0x0, 0x100, 2, 2,
    [⟨"skipped", 63, 32, .ro, 0⟩, ⟨"checked", 31, 0, .ro, 0⟩]⟩
  | .maLoads => ⟨"MA_LOADSn", .core, 0x4028, 0x0, 0x100, 2, 2,
    [⟨"loads", 63, 32, .ro, 0⟩, ⟨"empty", 31, 0, .ro, 0⟩]⟩
  | .maAccaddr => ⟨"MA_ACCADDRn", .core, 0x4030, 0x0, 0x100, 2, 2,
    [⟨"word", 18, 3, .quiet, 0⟩]⟩
  | .maAccdata => ⟨"MA_ACCDATAn", .core, 0x4038, 0x0, 0x100, 2, 2,
    [⟨"data", 63, 0, .ro, 0⟩]⟩
  | .maLookout => ⟨"MA_LOOKOUTn", .core, 0x4040, 0x0, 0x100, 2, 2,
    [⟨"kept", 63, 32, .ro, 0⟩, ⟨"decided", 31, 0, .ro, 0⟩]⟩
  | .maMaskskip => ⟨"MA_MASKSKIPn", .core, 0x4048, 0x0, 0x100, 2, 2,
    [⟨"zeroed", 63, 32, .ro, 0⟩, ⟨"rows", 31, 0, .ro, 0⟩]⟩
  | .ebCfg => ⟨"EB_CFGa", .core, 0x5000, 0x0, 0x100, 2, 2,
    [⟨"pool", 15, 12, .quiet, 0⟩, ⟨"ring", 11, 9, .quiet, 0⟩, ⟨"work", 7, 6, .quiet, 0⟩, ⟨"nops", 3, 0, .quiet, 0⟩]⟩
  | .ebStatus => ⟨"EB_STATUSa", .core, 0x5008, 0x0, 0x100, 2, 2,
    [⟨"busy", 63, 63, .ro, 0⟩, ⟨"ovf", 62, 62, .sticky, 0⟩, ⟨"iovf", 61, 61, .sticky, 0⟩, ⟨"nan", 60, 60, .sticky, 0⟩, ⟨"counted", 31, 0, .ro, 0⟩]⟩
  | .ebOp => ⟨"EB_OPn", .core, 0x5040, 0x100, 0x10, 8, 16,
    [⟨"op", 59, 56, .quiet, 0⟩, ⟨"src", 55, 54, .quiet, 0⟩, ⟨"handle", 51, 40, .live, 4095⟩, ⟨"sr", 37, 37, .quiet, 0⟩, ⟨"aux", 36, 32, .quiet, 0⟩]⟩
  | .ebImm => ⟨"EB_IMMn", .core, 0x5048, 0x100, 0x10, 8, 16,
    [⟨"imm1", 63, 32, .live, 0⟩, ⟨"imm0", 31, 0, .live, 0⟩]⟩
  | .pkStatus => ⟨"PK_STATUS", .core, 0x6000, 0x0, 0x8, 1, 1,
    [⟨"busy", 63, 63, .ro, 0⟩, ⟨"fault", 62, 62, .sticky, 0⟩, ⟨"code", 47, 32, .ro, 0⟩, ⟨"tile", 15, 0, .ro, 0⟩]⟩
  | .pkProgress => ⟨"PK_PROGRESS", .core, 0x6008, 0x0, 0x8, 1, 1,
    [⟨"pending", 63, 63, .ro, 0⟩, ⟨"exempt", 62, 62, .ro, 0⟩, ⟨"count", 47, 0, .ro, 0⟩]⟩
  | .pkCount => ⟨"PK_COUNTn", .core, 0x6010, 0x0, 0x8, 4, 4,
    [⟨"tiles", 63, 42, .ro, 0⟩, ⟨"empty", 41, 21, .ro, 0⟩, ⟨"fallback", 20, 0, .ro, 0⟩]⟩
  | .slCfg => ⟨"SL_CFG", .core, 0x7000, 0x0, 0x8, 1, 1,
    [⟨"outpool", 39, 36, .quiet, 0⟩, ⟨"outring", 34, 32, .quiet, 0⟩, ⟨"bval", 14, 12, .quiet, 0⟩, ⟨"bidx", 11, 9, .quiet, 0⟩, ⟨"aval", 8, 6, .quiet, 0⟩, ⟨"aidx", 5, 3, .quiet, 0⟩, ⟨"aptr", 2, 0, .quiet, 0⟩]⟩
  | .slStatus => ⟨"SL_STATUS", .core, 0x7008, 0x0, 0x8, 1, 1,
    [⟨"busy", 63, 63, .ro, 0⟩, ⟨"mode", 62, 60, .ro, 0⟩, ⟨"gallop", 59, 59, .ro, 0⟩, ⟨"resident", 58, 58, .ro, 0⟩]⟩
  | .slProgress => ⟨"SL_PROGRESS", .core, 0x7010, 0x0, 0x8, 1, 1,
    [⟨"pending", 63, 63, .ro, 0⟩, ⟨"exempt", 62, 62, .ro, 0⟩, ⟨"count", 47, 0, .ro, 0⟩]⟩
  | .slFault => ⟨"SL_FAULT", .core, 0x7018, 0x0, 0x8, 1, 1,
    [⟨"valid", 63, 63, .sticky, 0⟩, ⟨"code", 47, 32, .ro, 0⟩, ⟨"entry", 31, 0, .ro, 0⟩]⟩
  | .slCount => ⟨"SL_COUNTn", .core, 0x7020, 0x0, 0x8, 4, 4,
    [⟨"matches", 63, 32, .ro, 0⟩, ⟨"skipped", 31, 0, .ro, 0⟩]⟩
  | .esCfg => ⟨"ES_CFG", .core, 0x7800, 0x0, 0x8, 1, 1,
    [⟨"port", 63, 0, .quiet, 18446744073709551615⟩]⟩
  | .esOut => ⟨"ES_OUT", .core, 0x7808, 0x0, 0x8, 1, 1,
    [⟨"pool", 7, 4, .quiet, 0⟩, ⟨"ring", 2, 0, .quiet, 0⟩]⟩
  | .esStatus => ⟨"ES_STATUS", .core, 0x7810, 0x0, 0x8, 1, 1,
    [⟨"busy", 63, 63, .ro, 0⟩, ⟨"tile_open", 62, 62, .ro, 0⟩, ⟨"group", 31, 0, .ro, 0⟩]⟩
  | .esProgress => ⟨"ES_PROGRESS", .core, 0x7818, 0x0, 0x8, 1, 1,
    [⟨"pending", 63, 63, .ro, 0⟩, ⟨"exempt", 62, 62, .ro, 0⟩, ⟨"count", 47, 0, .ro, 0⟩]⟩
  | .esFault => ⟨"ES_FAULT", .core, 0x7820, 0x0, 0x8, 1, 1,
    [⟨"valid", 63, 63, .sticky, 0⟩, ⟨"port", 51, 48, .ro, 0⟩, ⟨"code", 47, 32, .ro, 0⟩, ⟨"group", 31, 0, .ro, 0⟩]⟩
  | .esCount => ⟨"ES_COUNTn", .core, 0x7828, 0x0, 0x8, 4, 4,
    [⟨"in", 63, 32, .ro, 0⟩, ⟨"out", 31, 0, .ro, 0⟩]⟩
  | .chCfg => ⟨"CH_CFGn", .core, 0x8000, 0x0, 0x20, 8, 8,
    [⟨"flush", 1, 1, .live, 0⟩, ⟨"mode", 0, 0, .live, 0⟩]⟩
  | .chStatus => ⟨"CH_STATUSn", .core, 0x8008, 0x0, 0x20, 8, 8,
    [⟨"full", 63, 63, .ro, 0⟩, ⟨"empty", 62, 62, .ro, 1⟩, ⟨"overrun", 61, 61, .sticky, 0⟩, ⟨"lvalid", 60, 60, .ro, 0⟩, ⟨"lend", 59, 59, .ro, 0⟩, ⟨"packets", 14, 8, .ro, 0⟩, ⟨"words", 6, 0, .ro, 0⟩]⟩
  | .chData => ⟨"CH_DATAn", .core, 0x8010, 0x0, 0x20, 8, 8,
    [⟨"data", 63, 0, .live, 0⟩]⟩
  | .chPushend => ⟨"CH_PUSHENDn", .core, 0x8018, 0x0, 0x20, 8, 8,
    [⟨"data", 63, 0, .live, 0⟩]⟩
  | .pilShape => ⟨"PIL_SHAPEn", .core, 0x9000, 0x80, 0x8, 16, 64,
    [⟨"value", 31, 0, .ro, 0⟩]⟩
  | .pilTm => ⟨"PIL_TMn", .core, 0xa000, 0x200, 0x8, 64, 256,
    [⟨"count", 31, 0, .ro, 0⟩]⟩
  | .pilSem => ⟨"PIL_SEMn", .core, 0xa800, 0x80, 0x8, 16, 64,
    [⟨"count", 15, 0, .ro, 0⟩]⟩
  | .pilLc => ⟨"PIL_LCn", .core, 0xb000, 0x40, 0x8, 8, 64,
    [⟨"value", 31, 0, .ro, 0⟩]⟩
  | .pilProgress => ⟨"PIL_PROGRESS", .core, 0xc000, 0x0, 0x8, 1, 1,
    [⟨"pending", 63, 63, .ro, 0⟩, ⟨"exempt", 62, 62, .ro, 0⟩, ⟨"count", 47, 0, .ro, 0⟩]⟩
  | .pilSrSeed => ⟨"PIL_SR_SEED", .core, 0xc008, 0x0, 0x8, 1, 1,
    [⟨"seed", 63, 0, .task, 0⟩]⟩
  | .pilQcount => ⟨"PIL_QCOUNTn", .core, 0xc100, 0x0, 0x8, 8, 8,
    [⟨"retired", 47, 0, .ro, 0⟩]⟩
  | .pilHscount => ⟨"PIL_HSCOUNTn", .core, 0xc200, 0x0, 0x8, 32, 32,
    [⟨"handshakes", 47, 0, .ro, 0⟩]⟩
  | .pilOob => ⟨"PIL_OOBn", .core, 0xc300, 0x0, 0x8, 4, 4,
    [⟨"dropped", 63, 32, .ro, 0⟩, ⟨"filled", 31, 0, .ro, 0⟩]⟩
  | .lgSize => ⟨"LG_SIZE", .die, 0x1000, 0x0, 0x8, 1, 1,
    [⟨"spares", 22, 16, .ro, 64⟩, ⟨"usable", 10, 0, .ro, 1024⟩]⟩
  | .lgEcc => ⟨"LG_ECC", .die, 0x1008, 0x0, 0x8, 1, 1,
    [⟨"ue", 63, 63, .sticky, 0⟩, ⟨"ce", 62, 62, .sticky, 0⟩, ⟨"row", 58, 44, .ro, 0⟩, ⟨"bank", 43, 39, .ro, 0⟩, ⟨"corrected", 31, 0, .ro, 0⟩]⟩
  | .dspCfg => ⟨"DSP_CFG", .die, 0x2000, 0x0, 0x8, 1, 1,
    [⟨"channel", 34, 32, .quiet, 7⟩, ⟨"cores", 31, 0, .quiet, 0⟩]⟩
  | .dspTailNnz => ⟨"DSP_TAIL_NNZ", .die, 0x2008, 0x0, 0x8, 1, 1,
    [⟨"depth", 34, 32, .quiet, 4⟩, ⟨"low", 31, 16, .quiet, 0⟩, ⟨"nnz", 15, 0, .quiet, 512⟩]⟩
  | .dspListbase => ⟨"DSP_LISTBASE", .die, 0x2010, 0x0, 0x8, 1, 1,
    [⟨"base", 51, 5, .quiet, 0⟩]⟩
  | .dspListctl => ⟨"DSP_LISTCTL", .die, 0x2018, 0x0, 0x8, 1, 1,
    [⟨"start", 63, 63, .quiet, 0⟩, ⟨"partition", 58, 56, .quiet, 0⟩, ⟨"slot", 33, 32, .quiet, 0⟩, ⟨"count", 31, 0, .quiet, 0⟩]⟩
  | .dspStatus => ⟨"DSP_STATUS", .die, 0x2020, 0x0, 0x8, 1, 1,
    [⟨"busy", 63, 63, .ro, 0⟩, ⟨"splits", 55, 32, .ro, 0⟩, ⟨"issued", 31, 0, .ro, 0⟩]⟩
  | .dspFault => ⟨"DSP_FAULT", .die, 0x2028, 0x0, 0x8, 1, 1,
    [⟨"valid", 63, 63, .sticky, 0⟩, ⟨"code", 47, 32, .ro, 0⟩, ⟨"item", 31, 0, .ro, 0⟩]⟩
  | .mtSize => ⟨"MT_SIZE", .tower, 0x0, 0x0, 0x8, 1, 1,
    [⟨"retired", 31, 16, .ro, 0⟩, ⟨"usable", 15, 0, .ro, 49152⟩]⟩
  | .hbPortstat => ⟨"HB_PORTSTAT", .harbour, 0x0, 0x0, 0x8, 1, 1,
    [⟨"ready", 63, 63, .ro, 0⟩, ⟨"role", 62, 61, .ro, 0⟩, ⟨"degraded", 60, 60, .ro, 0⟩, ⟨"rate", 59, 56, .ro, 0⟩, ⟨"width", 55, 51, .ro, 0⟩, ⟨"flit", 50, 50, .ro, 0⟩]⟩
  | .hbPortcfg => ⟨"HB_PORTCFG", .harbour, 0x8, 0x0, 0x8, 1, 1,
    [⟨"mgmtvec", 9, 0, .live, 0⟩]⟩
  | .hbMemwin => ⟨"HB_MEMWINn", .harbour, 0x100, 0x0, 0x8, 16, 16,
    [⟨"valid", 63, 63, .live, 0⟩, ⟨"read", 62, 62, .live, 0⟩, ⟨"write", 61, 61, .live, 0⟩, ⟨"partition", 54, 52, .live, 0⟩, ⟨"base", 51, 21, .live, 0⟩]⟩
  | .hbTqbase => ⟨"HB_TQBASEq", .harbour, 0x1000, 0x0, 0x20, 64, 64,
    [⟨"base", 63, 12, .quiet, 0⟩]⟩
  | .hbTqcfg => ⟨"HB_TQCFGq", .harbour, 0x1008, 0x0, 0x20, 64, 64,
    [⟨"enable", 63, 63, .live, 0⟩, ⟨"partition", 61, 59, .quiet, 0⟩, ⟨"cq", 53, 48, .quiet, 0⟩, ⟨"size", 3, 0, .quiet, 0⟩]⟩
  | .hbTqdb => ⟨"HB_TQDBq", .harbour, 0x1010, 0x0, 0x20, 64, 64,
    [⟨"tail", 15, 0, .live, 0⟩]⟩
  | .hbTqstat => ⟨"HB_TQSTATq", .harbour, 0x1018, 0x0, 0x20, 64, 64,
    [⟨"fetchfault", 63, 63, .sticky, 0⟩, ⟨"waiting", 62, 62, .ro, 0⟩, ⟨"head", 15, 0, .ro, 0⟩]⟩
  | .hbCqbase => ⟨"HB_CQBASEq", .harbour, 0x2000, 0x0, 0x20, 64, 64,
    [⟨"base", 63, 12, .quiet, 0⟩]⟩
  | .hbCqcfg => ⟨"HB_CQCFGq", .harbour, 0x2008, 0x0, 0x20, 64, 64,
    [⟨"enable", 63, 63, .live, 0⟩, ⟨"vector", 25, 16, .quiet, 0⟩, ⟨"threshold", 15, 8, .quiet, 1⟩, ⟨"size", 3, 0, .quiet, 0⟩]⟩
  | .hbCqhead => ⟨"HB_CQHEADq", .harbour, 0x2010, 0x0, 0x20, 64, 64,
    [⟨"head", 15, 0, .live, 0⟩]⟩
  | .hbCqstat => ⟨"HB_CQSTATq", .harbour, 0x2018, 0x0, 0x20, 64, 64,
    [⟨"held", 63, 63, .ro, 0⟩, ⟨"phase", 62, 62, .ro, 1⟩, ⟨"pending", 47, 32, .ro, 0⟩, ⟨"tail", 15, 0, .ro, 0⟩]⟩
  | .hbErrstat => ⟨"HB_ERRSTAT", .harbour, 0x3000, 0x0, 0x8, 1, 1,
    [⟨"full", 63, 63, .ro, 0⟩, ⟨"lost_count", 47, 32, .ro, 0⟩, ⟨"unread", 24, 16, .ro, 0⟩, ⟨"tail", 15, 8, .ro, 0⟩, ⟨"head", 7, 0, .ro, 0⟩]⟩
  | .hbErrhead => ⟨"HB_ERRHEAD", .harbour, 0x3008, 0x0, 0x8, 1, 1,
    [⟨"head", 7, 0, .live, 0⟩]⟩
  | .hbErrsum => ⟨"HB_ERRSUM", .harbour, 0x3010, 0x0, 0x8, 1, 1,
    [⟨"mgmt", 63, 63, .sticky, 0⟩, ⟨"task", 62, 62, .sticky, 0⟩, ⟨"notice", 61, 61, .sticky, 0⟩, ⟨"lost", 60, 60, .sticky, 0⟩, ⟨"block", 8, 1, .sticky, 0⟩]⟩
  | .hbErrseq => ⟨"HB_ERRSEQ", .harbour, 0x3018, 0x0, 0x8, 1, 1,
    [⟨"next", 63, 0, .ro, 0⟩]⟩
  | .hbErrlog => ⟨"HB_ERRLOGn", .harbour, 0x4000, 0x0, 0x8, 1024, 1024,
    [⟨"data", 63, 0, .ro, 0⟩]⟩
  | .msixTable => ⟨"MSIX_TABLE", .harbour, 0x8000, 0x0, 0x8, 2048, 2048,
    [⟨"entry", 63, 0, .live, 0⟩]⟩
  | .msixPba => ⟨"MSIX_PBA", .harbour, 0xc000, 0x0, 0x8, 16, 16,
    [⟨"pending", 63, 0, .ro, 0⟩]⟩
  | .blCfg => ⟨"BL_CFGn", .harbour, 0x10000, 0x0, 0x40, 9, 9,
    [⟨"enable", 63, 63, .quiet, 0⟩, ⟨"partition", 2, 0, .ro, 0⟩]⟩
  | .blStatus => ⟨"BL_STATUSn", .harbour, 0x10008, 0x0, 0x40, 9, 9,
    [⟨"up", 63, 63, .ro, 0⟩, ⟨"keyed", 62, 62, .ro, 0⟩, ⟨"epoch", 61, 61, .ro, 0⟩, ⟨"rotating", 60, 60, .ro, 0⟩, ⟨"held", 59, 59, .ro, 0⟩, ⟨"peer_package", 47, 40, .ro, 0⟩, ⟨"peer_link", 39, 34, .ro, 0⟩]⟩
  | .blKeyctl => ⟨"BL_KEYCTLn", .harbour, 0x10010, 0x0, 0x40, 9, 9,
    [⟨"agree", 63, 63, .quiet, 0⟩, ⟨"rotate", 62, 62, .quiet, 0⟩, ⟨"drop", 61, 61, .live, 0⟩]⟩
  | .blCount => ⟨"BL_COUNTn", .harbour, 0x10018, 0x0, 0x40, 9, 9,
    [⟨"sent", 63, 32, .ro, 0⟩, ⟨"received", 31, 0, .ro, 0⟩]⟩
  | .blErr => ⟨"BL_ERRn", .harbour, 0x10020, 0x0, 0x40, 9, 9,
    [⟨"auth", 63, 48, .ro, 0⟩, ⟨"fec", 47, 32, .ro, 0⟩, ⟨"replays", 31, 0, .ro, 0⟩]⟩
  | .cxCfg => ⟨"CX_CFGp", .harbour, 0x20000, 0x0, 0x40, 2, 2,
    [⟨"enable", 63, 63, .quiet, 1⟩, ⟨"partition", 2, 0, .ro, 0⟩]⟩
  | .cxStatus => ⟨"CX_STATUSp", .harbour, 0x20008, 0x0, 0x40, 2, 2,
    [⟨"state", 63, 61, .ro, 0⟩, ⟨"ide", 60, 60, .ro, 0⟩, ⟨"rate", 59, 56, .ro, 0⟩, ⟨"width", 55, 51, .ro, 0⟩, ⟨"code", 15, 0, .ro, 0⟩]⟩
  | .cxCap => ⟨"CX_CAPp", .harbour, 0x20010, 0x0, 0x40, 2, 2,
    [⟨"units", 14, 0, .ro, 0⟩]⟩
  | .cxErr => ⟨"CX_ERRp", .harbour, 0x20018, 0x0, 0x40, 2, 2,
    [⟨"poison", 63, 32, .ro, 0⟩, ⟨"replays", 31, 0, .ro, 0⟩]⟩
  | .cwCfg => ⟨"CW_CFG", .causeway, 0x0, 0x0, 0x8, 1, 1,
    [⟨"lanerr", 7, 0, .live, 64⟩]⟩
  | .cwStatus => ⟨"CW_STATUS", .causeway, 0x8, 0x0, 0x8, 1, 1,
    [⟨"failed", 63, 63, .ro, 0⟩, ⟨"swap", 62, 62, .ro, 0⟩, ⟨"spare_ew", 7, 4, .ro, 4⟩, ⟨"spare_we", 3, 0, .ro, 4⟩]⟩
  | .cwSparemap => ⟨"CW_SPAREMAPd", .causeway, 0x10, 0x0, 0x8, 2, 2,
    [⟨"map", 31, 0, .ro, 0⟩]⟩
  | .cwErr => ⟨"CW_ERRd", .causeway, 0x20, 0x0, 0x8, 2, 2,
    [⟨"replays", 63, 32, .ro, 0⟩, ⟨"crc", 31, 0, .ro, 0⟩]⟩
  | .lhSoundctl => ⟨"LH_SOUNDCTLw", .lighthouse, 0x0, 0x0, 0x20, 2, 2,
    [⟨"go", 63, 63, .live, 0⟩, ⟨"vector", 9, 0, .live, 0⟩]⟩
  | .lhSoundaddr => ⟨"LH_SOUNDADDRw", .lighthouse, 0x8, 0x0, 0x20, 2, 2,
    [⟨"base", 63, 12, .live, 0⟩]⟩
  | .lhSoundstat => ⟨"LH_SOUNDSTATw", .lighthouse, 0x10, 0x0, 0x20, 2, 2,
    [⟨"busy", 63, 63, .ro, 0⟩, ⟨"done", 62, 62, .sticky, 0⟩, ⟨"result", 47, 32, .ro, 0⟩, ⟨"sounds", 31, 0, .ro, 0⟩]⟩
  | .lhStallWatch => ⟨"LH_STALL_WATCH", .lighthouse, 0x100, 0x0, 0x8, 1, 1,
    [⟨"enable", 8, 8, .live, 1⟩, ⟨"samples", 7, 0, .live, 8⟩]⟩
  | .lhRecovery => ⟨"LH_RECOVERYn", .lighthouse, 0x200, 0x0, 0x8, 8, 8,
    [⟨"active", 63, 63, .ro, 0⟩, ⟨"level", 62, 60, .ro, 0⟩, ⟨"kind", 59, 56, .ro, 0⟩, ⟨"stage", 55, 52, .ro, 0⟩, ⟨"escalations", 51, 48, .ro, 0⟩, ⟨"unit", 47, 39, .ro, 0⟩, ⟨"shore", 32, 32, .ro, 0⟩, ⟨"first", 31, 0, .ro, 0⟩]⟩
  | .lhLayoutaddr => ⟨"LH_LAYOUTADDR", .lighthouse, 0x300, 0x0, 0x8, 1, 1,
    [⟨"base", 51, 12, .live, 0⟩]⟩
  | .lhLayoutctl => ⟨"LH_LAYOUTCTL", .lighthouse, 0x308, 0x0, 0x8, 1, 1,
    [⟨"apply", 63, 63, .live, 0⟩, ⟨"result", 47, 32, .ro, 0⟩]⟩
  | .lhIntake => ⟨"LH_INTAKE", .lighthouse, 0x400, 0x0, 0x8, 1, 1,
    [⟨"skip", 7, 0, .task, 0⟩]⟩
  | .lhStrataAddr => ⟨"LH_STRATA_ADDRp", .lighthouse, 0x500, 0x0, 0x20, 8, 8,
    [⟨"base", 51, 12, .live, 0⟩]⟩
  | .lhStrataCtl => ⟨"LH_STRATA_CTLp", .lighthouse, 0x508, 0x0, 0x20, 8, 8,
    [⟨"load", 63, 63, .live, 0⟩, ⟨"hold", 62, 62, .live, 0⟩]⟩
  | .lhStrataStatus => ⟨"LH_STRATA_STATUSp", .lighthouse, 0x510, 0x0, 0x20, 8, 8,
    [⟨"state", 63, 62, .ro, 0⟩, ⟨"modified", 61, 61, .sticky, 0⟩, ⟨"loaded", 60, 60, .ro, 0⟩, ⟨"result", 47, 32, .ro, 0⟩, ⟨"loads", 31, 0, .ro, 0⟩]⟩
  | .lhStrataId => ⟨"LH_STRATA_IDp", .lighthouse, 0x518, 0x0, 0x20, 8, 8,
    [⟨"identity", 63, 0, .ro, 0⟩]⟩
  | .lhPackage => ⟨"LH_PACKAGE", .lighthouse, 0x600, 0x0, 0x8, 1, 1,
    [⟨"number", 7, 0, .quiet, 0⟩]⟩
  | .lhRoute => ⟨"LH_ROUTEq", .lighthouse, 0x800, 0x0, 0x8, 256, 256,
    [⟨"links", 35, 0, .live, 0⟩]⟩
  | .lhHostctl => ⟨"LH_HOSTCTL", .lighthouse, 0x1000, 0x0, 0x8, 1, 1,
    [⟨"request", 63, 63, .live, 0⟩, ⟨"reqmode", 62, 62, .live, 0⟩, ⟨"reqport", 61, 61, .live, 0⟩, ⟨"gap", 9, 0, .live, 0⟩]⟩
  | .lhHoststat => ⟨"LH_HOSTSTAT", .lighthouse, 0x1008, 0x0, 0x8, 1, 1,
    [⟨"mode", 63, 62, .ro, 0⟩, ⟨"control", 61, 60, .ro, 0⟩, ⟨"stale", 59, 59, .ro, 0⟩, ⟨"pend_w", 58, 58, .ro, 0⟩, ⟨"pend_e", 57, 57, .ro, 0⟩, ⟨"claims", 31, 0, .ro, 0⟩]⟩
  | .lhHeartbeat => ⟨"LH_HEARTBEAT", .lighthouse, 0x1010, 0x0, 0x8, 1, 1,
    [⟨"value", 63, 0, .live, 0⟩]⟩
  | .lhClaim => ⟨"LH_CLAIM", .lighthouse, 0x1018, 0x0, 0x8, 1, 1,
    [⟨"claim", 63, 63, .live, 0⟩, ⟨"result", 15, 0, .ro, 0⟩]⟩
  | .lhSharebase => ⟨"LH_SHAREBASEn", .lighthouse, 0x1800, 0x0, 0x10, 128, 128,
    [⟨"valid", 63, 63, .quiet, 0⟩, ⟨"partner", 62, 60, .quiet, 0⟩, ⟨"base", 51, 16, .quiet, 0⟩]⟩
  | .lhSharelim => ⟨"LH_SHARELIMn", .lighthouse, 0x1808, 0x0, 0x10, 128, 128,
    [⟨"limit", 51, 16, .quiet, 0⟩]⟩
  | .lhSecstat => ⟨"LH_SECSTAT", .lighthouse, 0x2000, 0x0, 0x8, 1, 1,
    [⟨"open", 63, 63, .ro, 1⟩, ⟨"lockpend", 62, 62, .ro, 0⟩, ⟨"lhcopy", 61, 61, .ro, 0⟩, ⟨"hbcopy", 60, 60, .ro, 0⟩, ⟨"lhkey", 33, 32, .ro, 0⟩, ⟨"dbgtasks", 31, 0, .ro, 0⟩]⟩
  | .lhSecctl => ⟨"LH_SECCTL", .lighthouse, 0x2008, 0x0, 0x8, 1, 1,
    [⟨"fullres", 63, 63, .live, 0⟩, ⟨"commit_lh", 62, 62, .live, 0⟩, ⟨"commit_hb", 61, 61, .live, 0⟩, ⟨"commit_pil", 60, 60, .live, 0⟩, ⟨"lockfuse", 59, 59, .live, 0⟩]⟩
  | .lhFusesvn => ⟨"LH_FUSESVN", .lighthouse, 0x2010, 0x0, 0x8, 1, 1,
    [⟨"revoked", 45, 42, .ro, 0⟩, ⟨"lh_run", 41, 36, .ro, 0⟩, ⟨"hb_run", 35, 30, .ro, 0⟩, ⟨"lh", 17, 12, .ro, 0⟩, ⟨"hb", 11, 6, .ro, 0⟩, ⟨"pil", 5, 0, .ro, 0⟩]⟩
  | .lhPartsec => ⟨"LH_PARTSECp", .lighthouse, 0x2100, 0x0, 0x8, 8, 8,
    [⟨"state", 63, 62, .ro, 0⟩, ⟨"scrubbing", 61, 61, .ro, 0⟩, ⟨"port", 60, 60, .ro, 0⟩, ⟨"pilsvn", 59, 54, .ro, 0⟩, ⟨"pilotres", 47, 32, .ro, 0⟩, ⟨"refused", 31, 0, .ro, 0⟩]⟩
  | .lhSealctl => ⟨"LH_SEALCTLp", .lighthouse, 0x2200, 0x0, 0x10, 8, 8,
    [⟨"rotate", 63, 63, .live, 0⟩]⟩
  | .lhSealstat => ⟨"LH_SEALSTATp", .lighthouse, 0x2208, 0x0, 0x10, 8, 8,
    [⟨"slot1", 63, 63, .ro, 0⟩, ⟨"slot0", 62, 62, .ro, 0⟩, ⟨"epoch", 61, 61, .ro, 0⟩, ⟨"rotating", 60, 60, .ro, 0⟩, ⟨"oldpages", 23, 0, .ro, 0⟩]⟩
  | .lhPilotfw => ⟨"LH_PILOTFWp", .lighthouse, 0x2300, 0x0, 0x8, 8, 8,
    [⟨"load", 63, 63, .live, 0⟩, ⟨"base", 51, 12, .live, 0⟩]⟩
  | .lhPowercap => ⟨"LH_POWERCAP", .lighthouse, 0x2400, 0x0, 0x8, 1, 1,
    [⟨"board", 47, 32, .ro, 0⟩, ⟨"port_e", 31, 16, .live, 0⟩, ⟨"port_w", 15, 0, .live, 0⟩]⟩
  | .lhPowerstat => ⟨"LH_POWERSTAT", .lighthouse, 0x2408, 0x0, 0x8, 1, 1,
    [⟨"gating", 63, 63, .ro, 0⟩, ⟨"floor", 62, 62, .ro, 0⟩, ⟨"throttle", 61, 61, .ro, 0⟩, ⟨"critical", 60, 60, .ro, 0⟩, ⟨"effective", 47, 32, .ro, 3000⟩, ⟨"input", 31, 0, .ro, 0⟩]⟩
  | .lhThermal => ⟨"LH_THERMAL", .lighthouse, 0x2410, 0x0, 0x8, 1, 1,
    [⟨"throttle", 7, 0, .live, 95⟩]⟩
  | .lhTelem => ⟨"LH_TELEMt", .lighthouse, 0x2500, 0x0, 0x8, 26, 26,
    [⟨"power", 63, 40, .ro, 0⟩, ⟨"temp", 39, 28, .ro, 0⟩, ⟨"volts", 27, 16, .ro, 0⟩]⟩
  | .lhQuota => ⟨"LH_QUOTAp,k", .lighthouse, 0x2600, 0x20, 0x8, 4, 32,
    [⟨"over_quota", 63, 63, .ro, 0⟩, ⟨"usage", 62, 32, .ro, 0⟩, ⟨"limit", 31, 0, .live, 4294967295⟩]⟩
  | .lhBootstat => ⟨"LH_BOOTSTAT", .lighthouse, 0x2800, 0x0, 0x8, 1, 1,
    [⟨"done", 63, 63, .ro, 0⟩, ⟨"stage", 62, 60, .ro, 0⟩, ⟨"cause", 59, 56, .ro, 0⟩, ⟨"rerun", 55, 55, .ro, 0⟩, ⟨"cores_off", 39, 32, .ro, 0⟩, ⟨"boots", 31, 0, .ro, 1⟩]⟩
  | .lhResetctl => ⟨"LH_RESETCTL", .lighthouse, 0x2808, 0x0, 0x8, 1, 1,
    [⟨"reset", 63, 63, .live, 0⟩, ⟨"key", 15, 0, .live, 0⟩]⟩
  | .lhPtbase => ⟨"LH_PTBASEn", .lighthouse, 0x2a00, 0x0, 0x8, 24, 24,
    [⟨"base", 51, 12, .quiet, 0⟩, ⟨"valid", 0, 0, .quiet, 0⟩]⟩

/-- Every register name, in the order of the map. -/
def RegName.all : List RegName :=
  ([.rpCfg, .rpPtr, .cvBase, .cvBound, .cvSize, .cvEcc, .seGroyne, .seStatus, .seFault, .seFaddr, .seCombined, .seProgress, .maCfg, .maStatus, .maProgress, .maCheck, .maAbftcnt, .maLoads, .maAccaddr, .maAccdata, .maLookout, .maMaskskip, .ebCfg, .ebStatus, .ebOp, .ebImm, .pkStatus, .pkProgress, .pkCount, .slCfg, .slStatus, .slProgress] : List RegName) ++
  ([.slFault, .slCount, .esCfg, .esOut, .esStatus, .esProgress, .esFault, .esCount, .chCfg, .chStatus, .chData, .chPushend, .pilShape, .pilTm, .pilSem, .pilLc, .pilProgress, .pilSrSeed, .pilQcount, .pilHscount, .pilOob, .lgSize, .lgEcc, .dspCfg, .dspTailNnz, .dspListbase, .dspListctl, .dspStatus, .dspFault, .mtSize, .hbPortstat, .hbPortcfg] : List RegName) ++
  ([.hbMemwin, .hbTqbase, .hbTqcfg, .hbTqdb, .hbTqstat, .hbCqbase, .hbCqcfg, .hbCqhead, .hbCqstat, .hbErrstat, .hbErrhead, .hbErrsum, .hbErrseq, .hbErrlog, .msixTable, .msixPba, .blCfg, .blStatus, .blKeyctl, .blCount, .blErr, .cxCfg, .cxStatus, .cxCap, .cxErr, .cwCfg, .cwStatus, .cwSparemap, .cwErr, .lhSoundctl, .lhSoundaddr, .lhSoundstat] : List RegName) ++
  ([.lhStallWatch, .lhRecovery, .lhLayoutaddr, .lhLayoutctl, .lhIntake, .lhStrataAddr, .lhStrataCtl, .lhStrataStatus, .lhStrataId, .lhPackage, .lhRoute, .lhHostctl, .lhHoststat, .lhHeartbeat, .lhClaim, .lhSharebase, .lhSharelim, .lhSecstat, .lhSecctl, .lhFusesvn, .lhPartsec, .lhSealctl, .lhSealstat, .lhPilotfw, .lhPowercap, .lhPowerstat, .lhThermal, .lhTelem, .lhQuota, .lhBootstat, .lhResetctl, .lhPtbase] : List RegName)

/-- A register of the device: its name, the unit whose block it lies in (global core index, die, tower, harbour,
or 0), and its instance number in that block. -/
structure RegId where
  name : RegName
  unit : Nat
  idx : Nat
  deriving DecidableEq, Repr

/-- The control-space offset at which the block of a unit begins (R159). -/
def RegBlock.baseOf (b : RegBlock) (unit : Nat) : Nat :=
  match b with
  | .core => unit / 32 * 0x1000000 + unit % 32 * 0x40000
  | .die => unit * 0x1000000 + 0x800000
  | .tower => 0xC000000 + unit * 0x100000
  | .harbour => 0xD000000 + unit * 0x400000
  | .causeway => 0xE000000
  | .lighthouse => 0xF000000

/-- The control-space offset of a register: the BAR0 offset through which a host reaches it. -/
def RegId.addr (r : RegId) : Nat :=
  let i := r.name.info
  i.block.baseOf r.unit + i.base + i.s1 * (r.idx / i.c2) + i.s2 * (r.idx % i.c2)

/-- The block and unit that hold a control-space offset, with the offset in the block (R159). -/
def splitOffset (off : Nat) : Option (RegBlock × Nat × Nat) :=
  if off < 0xC000000 then
    let d := off / 0x1000000
    let o := off % 0x1000000
    if o < 0x800000 then
      if o / 0x40000 < 32 then some (.core, 32 * d + o / 0x40000, o % 0x40000) else none
    else some (.die, d, o - 0x800000)
  else if off < 0xC800000 then some (.tower, (off - 0xC000000) / 0x100000, (off - 0xC000000) % 0x100000)
  else if off < 0xD000000 then none
  else if off < 0xE000000 then some (.harbour, (off - 0xD000000) / 0x400000, (off - 0xD000000) % 0x400000)
  else if off < 0xF000000 then some (.causeway, 0, off - 0xE000000)
  else if off < 0x10000000 then some (.lighthouse, 0, off - 0xF000000)
  else none

/-- The instance of a row at an offset of its block, if one stands there. -/
def RegInfo.instanceAt (i : RegInfo) (off : Nat) : Option Nat :=
  if off < i.base then none
  else
    let d := off - i.base
    let hi := if i.s1 == 0 then 0 else d / i.s1
    let lo := d - hi * i.s1
    if lo % i.s2 == 0 && lo / i.s2 < i.c2 && hi * i.c2 + lo / i.s2 < i.count then some (hi * i.c2 + lo / i.s2) else none

/-- Whether a harbour block holds a register: host port registers stand in HW0 and HE0 and CXL registers in HW1 and
HE1 only (R390, R397, R451, R409). -/
def harbourHolds (n : RegName) (unit : Nat) : Bool :=
  match n with
  | .cxCfg | .cxStatus | .cxCap | .cxErr => unit % 2 == 1
  | .blCfg | .blStatus | .blKeyctl | .blCount | .blErr => true
  | _ => unit % 2 == 0

/-- The register at a control-space offset, or none where the offset is unassigned (R159). -/
def regAt (off : Nat) : Option RegId :=
  match splitOffset off with
  | none => none
  | some (b, unit, o) =>
    RegName.all.findSome? fun n =>
      let i := n.info
      if i.block = b ∧ (b = .harbour → harbourHolds n unit = true) then
        (i.instanceAt o).map fun k => ⟨n, unit, k⟩
      else none

/-- The reset value of a register, built from its fields. -/
def RegInfo.resetValue (i : RegInfo) : Nat := i.fields.foldl (fun v f => v + f.reset * 2 ^ f.lo) 0

/-- The bits of a register that no reserved span covers (R12). -/
def RegInfo.definedMask (i : RegInfo) : Nat :=
  i.fields.foldl (fun v f => v + (2 ^ (f.hi + 1 - f.lo) - 1) * 2 ^ f.lo) 0

end Sys2Proof.Machine
end

