-- ==== Sys2Proof/Machine/Tab.lean ====
section
/-! DEFINITION. Sparse tables: a list of key and value pairs in one canonical form, keys strictly rising under a numbering of
the keys and no entry equal to what an unlisted key reads as. Memory, the register file and every per-unit table are tables. -/

namespace Sys2Proof.Machine.Tab

variable {K V : Type} [DecidableEq K] [DecidableEq V]

/-- The value at a key: the listed one, or what an unlisted key reads as. -/
def get (dflt : V) : List (K × V) → K → V
  | [], _ => dflt
  | (k', v) :: t, k => if k' = k then v else get dflt t k

/-- The table without any entry for a key. -/
def erase : List (K × V) → K → List (K × V)
  | [], _ => []
  | (k', v) :: t, k => if k' = k then erase t k else (k', v) :: erase t k

/-- Insert an entry for a key that has none, in the order of num. -/
def insert (num : K → Nat) : List (K × V) → K → V → List (K × V)
  | [], k, v => [(k, v)]
  | (k', v') :: t, k, v => if num k < num k' then (k, v) :: (k', v') :: t else (k', v') :: insert num t k v

/-- Write a value at a key: the entry goes when the value is what an unlisted key reads as. -/
def put (num : K → Nat) (dflt : V) (t : List (K × V)) (k : K) (v : V) : List (K × V) :=
  if v = dflt then erase t k else insert num (erase t k) k v

/-- The canonical form: keys strictly rising, no entry equal to the default of its key. -/
def wf (num : K → Nat) (dflt : K → V) : List (K × V) → Bool
  | [] => true
  | [(k, v)] => !decide (v = dflt k)
  | (k, v) :: (k', v') :: t => !decide (v = dflt k) && decide (num k < num k') && wf num dflt ((k', v') :: t)

end Sys2Proof.Machine.Tab
end

