-- ==== Sys2Proof/Machine/Tiles.lean ====
section
/-! DEFINITION. Element sequences in memory (R69, R70), tiles and their six formats (R77 to R89), and directory entries (R90,
R91): reading a tile with the checks of R81, and writing one. -/

namespace Sys2Proof.Machine

/-! ## Element sequences -/

/-- The elements of a group of 32 from its plane words, bit 0 of an element first in the list (R69). -/
def groupElems (words : List Nat) : List Nat :=
  (List.range 32).map fun i => words.foldr (fun w v => 2 * v + b2n (bitOf w i)) 0

/-- Plane word k of a group of elements (R69). -/
def planeWord (k : Nat) (es : List Nat) : Nat := es.foldr (fun e v => 2 * v + b2n (bitOf e k)) 0

/-- A group of 32 elements of width w as its words, most significant bit first (R69). -/
def groupBytes (w : Nat) (es : List Nat) : List Byte :=
  (((List.range w).reverse).map fun k => leBytes 4 (planeWord k (padTo 32 0 es))).flatten

/-- The bytes that n elements of a type take in sequence, scales left out (R69, R83, R84). -/
def elemsLen (ty n : Nat) : Nat := if isPlanes ty then 4 * eltWidth ty * ceilDiv n 32 else n * (eltWidth ty / 8)

/-- An element as the device writes it: a zero of a plane-form type has sign 0 (R70). -/
def written (ty v : Nat) : Nat := if isPf ty && eltIsZero ty v then 0 else v

/-- A sequence of elements as the device writes it in memory (R69, R70). -/
def packElems (ty : Nat) (vs : List Nat) : List Byte :=
  let es := vs.map (written ty)
  if isPlanes ty then ((chunksOf 32 es.length es).map (groupBytes (eltWidth ty))).flatten
  else (es.map (leBytes (eltWidth ty / 8))).flatten

/-- Elements from their bytes; the pad elements of a final group are kept. -/
def unpackElems (ty : Nat) (bs : List Byte) : List Nat :=
  if isPlanes ty then
    ((chunksOf (4 * eltWidth ty) bs.length bs).map fun g => groupElems ((chunksOf 4 g.length g).map leNat).reverse).flatten
  else (chunksOf (eltWidth ty / 8) bs.length bs).map leNat

/-! ## Tiles -/

/-- A tile as the interpreting engine sees it (R77): its elements, scale bytes and stored entries in in-tile order, and the plane
masks of a PL or BP tile. -/
structure Tile where
  tag : Nat
  ty : Nat
  colmajor : Bool
  fallback : Bool
  nnz : Nat
  elems : List Nat
  scales : List Nat
  /-- whether entry e is stored (BM, CB, BP); every entry of a DN or PL tile -/
  stored : List Bool
  masks : List Nat
  deriving DecidableEq, Repr

/-- Whether a format holds a type (R80). -/
def tagAllows (tag ty : Nat) : Bool :=
  eltWidth ty != 0 && match tag with
  | 0 => true
  | 1 => true
  | 2 => !isPf ty
  | 3 => !isPf ty
  | 4 => isPf ty
  | 5 => isPf ty
  | _ => false

/-- Scale bytes of a tile (R71). -/
def scaleLen (ty : Nat) : Nat := if isMx ty then 128 else 0

/-- The bytes of a CB payload before its scales (R85). -/
def cbHead (n : Nat) : Nat := roundUp (2 + 3 * ceilDiv n 2) 8

/-- The longest payload that any format allows (R81). -/
def maxPayload : Nat := 38920

/-- The fields of a tile header (R78). -/
structure TileHeader where
  version : Nat
  tag : Nat
  ty : Nat
  nnz : Nat
  length : Nat
  colmajor : Bool
  fallback : Bool
  reserved : Nat
  crcOk : Bool
  deriving DecidableEq, Repr

/-- The header's fields from its 16 bytes (R78, R79). -/
def tileHeader (bs : List Byte) : TileHeader :=
  let b0 := fieldAt bs 0 1
  let b1 := fieldAt bs 1 1
  let fl := fieldAt bs 8 2
  { version := b0 / 16, tag := b0 % 16, ty := b1 % 32, nnz := fieldAt bs 2 2, length := fieldAt bs 4 4, colmajor := bitOf fl 1, fallback := bitOf fl 0,
    reserved := b1 / 32 + fl / 4 + fieldAt bs 10 4, crcOk := crc16 (bs.take 14) == fieldAt bs 14 2 }

/-- Bits of a bitmap, bit e mod 8 of byte e / 8 first (R84). -/
def bitsOf (bs : List Byte) : List Bool := (bs.map fun b => (List.range 8).map (bitOf b.toNat)).flatten

/-- A bitmap from its bits (R84). -/
def bitmapBytes (l : List Bool) : List Byte :=
  (chunksOf 8 l.length l).map fun c => BitVec.ofNat 8 (c.foldr (fun b v => 2 * v + b2n b) 0)

/-- Place entries at the stored positions, zero elsewhere. -/
def scatterBits : List Bool → List Nat → List Nat
  | [], _ => []
  | true :: bs, v :: vs => v :: scatterBits bs vs
  | true :: bs, [] => 0 :: scatterBits bs []
  | false :: bs, vs => 0 :: scatterBits bs vs

/-- The in-tile index of a 12-bit coordinate (R77, R85). -/
def coordIndex (colmajor : Bool) (c : Nat) : Nat := if colmajor then 64 * (c % 64) + c / 64 % 64 else c % 4096

/-- The coordinates of a CB payload (R85). -/
def cbCoords (n : Nat) (bs : List Byte) : List Nat :=
  (((chunksOf 3 bs.length bs).map fun u => [leNat u % 4096, leNat u / 4096]).flatten).take n

/-- Whether a list rises strictly. -/
def strictlyRising : List Nat → Bool
  | [] => true
  | [_] => true
  | a :: b :: t => decide (a < b) && strictlyRising (b :: t)

/-- The bits at the positions of a strictly rising list, from position k on. -/
def markBits : Nat → Nat → List Nat → List Bool
  | 0, _, _ => []
  | n + 1, k, [] => false :: markBits n (k + 1) []
  | n + 1, k, p :: ps => if p == k then true :: markBits n (k + 1) ps else false :: markBits n (k + 1) (p :: ps)

/-! ### Plane group sets (R86) -/

/-- The word of plane j for a group with a given mask, and the words left in the plane's section. -/
def popWord (has : Bool) (ws : List Nat) : Nat × List Nat := if has then (ws.headD 0, ws.tail) else (0, ws)

/-- The groups of a set from the sign section and the plane sections, plane 0 first. -/
def setGroups : List (Nat × Bool) → List Nat → List (List Nat) → List (List Nat)
  | [], _, _ => []
  | (mask, sgn) :: gs, signs, planes =>
    let s := popWord sgn signs
    let ps := planes.mapIdx fun j ws => popWord (bitOf mask j) ws
    groupElems (ps.map (·.1) ++ [s.1]) :: setGroups gs s.2 (ps.map (·.2))

/-- Section offsets of a set: sign section, then planes 0 to 7 (R86). -/
def setOffsets (b G : Nat) (masks : List Nat) (nsigns : Nat) : List Nat × Nat :=
  let M := 16 * ceilDiv G 16
  let n (j : Nat) := (masks.filter fun m => bitOf m j).length
  let start (j : Nat) := M + 48 + 4 * (nsigns + ((List.range b).filter (j < ·)).foldl (fun a k => a + n k) 0)
  let total := M + 48 + 4 * (nsigns + (List.range b).foldl (fun a k => a + n k) 0)
  ((M + 48) :: (List.range 8).map (fun j => if j < b then start j else total), total)

/-- A plane group set of G groups of PFb read (R86): its elements and masks, or none where a mask, a reserved byte, an offset or the
length breaks the layout. -/
def readSet (b G : Nat) (bs : List Byte) : Option (List Nat × List Nat) :=
  let M := 16 * ceilDiv G 16
  let masks := (bs.take G).map (·.toNat)
  let pres := fieldAt bs M 16
  let offs := (List.range 9).map fun k => fieldAt bs (M + 16 + 2 * k) 2
  let sgn := (List.range G).map (bitOf pres)
  let nsigns := (sgn.filter id).length
  let (want, total) := setOffsets b G masks nsigns
  if bs.length != total || offs != want || pres / 2 ^ G != 0 || ((bs.drop G).take (M - G)).any (· != 0)
      || ((bs.drop (M + 34)).take 14).any (· != 0) || masks.any (fun m => m / 2 ^ b != 0) then none
  else
    let words (off n : Nat) := (chunksOf 4 n ((bs.drop off).take (4 * n))).map leNat
    let planes := (List.range b).map fun j => words (want.getD (1 + j) 0) (masks.filter fun m => bitOf m j).length
    some ((setGroups (masks.zip sgn) (words (M + 48) nsigns) planes).flatten, masks)

/-- A plane group set as the Packer writes it: only words that are not zero (R86, R226). -/
def writeSet (b : Nat) (es : List Nat) : List Byte :=
  let groups := chunksOf 32 es.length es
  let G := groups.length
  let M := 16 * ceilDiv G 16
  let plane (j : Nat) := groups.map (planeWord j)
  let sgn := plane b
  let masks := groups.map fun g => ((List.range b).map fun j => if planeWord j g == 0 then 0 else 2 ^ j).sum
  let nz (l : List Nat) := l.filter (· != 0)
  let (offs, _) := setOffsets b G masks (nz sgn).length
  let pres := sgn.foldr (fun w v => 2 * v + b2n (w != 0)) 0
  masks.map (BitVec.ofNat 8) ++ zeros (M - G) ++ leBytes 16 pres ++ (offs.map (leBytes 2)).flatten ++ zeros 14 ++
  ((nz sgn).map (leBytes 4)).flatten ++ (((List.range b).reverse).map fun j => ((nz (plane j)).map (leBytes 4)).flatten).flatten

/-! ### Reading a tile (R81 to R88) -/

/-- Whether an element counts as zero: ±0 outside a block of scale 0xFF (R71, R89). -/
def isZeroElt (ty scale v : Nat) : Bool := eltIsZero ty v && (scale != 0xFF || !isMx ty)

/-- Pair the elements of a tile with the scale byte of their block of 32 (R71). -/
def withScales (scales elems : List Nat) : List (Nat × Nat) :=
  if scales.isEmpty then elems.map fun e => (0x7F, e)
  else ((scales.zip (chunksOf 32 elems.length elems)).map fun p => p.2.map fun e => (p.1, e)).flatten

/-- The count of elements that are not zero. -/
def countNonzero (ty : Nat) (scales elems : List Nat) : Nat :=
  ((withScales scales elems).filter fun p => !isZeroElt ty p.1 p.2).length

/-- The payload of a checked header, or none where it breaks the format's rules (R81). R81 names lengths, counts and reserved bits alone: that none is
answered too where CB's coordinates do not ascend strictly, the upper half of a final unpaired unit or CB's pad bytes are not zero (R85), or a pad element
of the last group of a BM, CB or BP payload is not zero (R69, R84) is a reading of ours (DESIGN CHOICE, log entry 107). -/
def readPayload (h : TileHeader) (p : List Byte) : Option Tile :=
  let sl := scaleLen h.ty
  let base : Tile := ⟨h.tag, h.ty, h.colmajor, h.fallback, h.nnz, [], [], [], []⟩
  let all := List.replicate 4096 true
  let scalesAt (off : Nat) := ((p.drop off).take sl).map (·.toNat)
  /- the n values that begin at an offset, with the zero pad of a final group checked -/
  let values (off n : Nat) : Option (List Nat) :=
    let vs := unpackElems h.ty (p.drop off)
    if (vs.drop n).any (· != 0) then none else some (vs.take n)
  match h.tag with
  | 0 => if h.nnz != 0 || h.length != 0 then none
         else some { base with elems := List.replicate 4096 0, scales := List.replicate sl 0x7F, stored := List.replicate 4096 false }
  | 1 =>
    if h.length != sl + elemsLen h.ty 4096 then none
    else
      let es := unpackElems h.ty (p.drop sl)
      if h.nnz != 0xFFFF && h.nnz != countNonzero h.ty (scalesAt 0) es then none
      else some { base with elems := es, scales := scalesAt 0, stored := all }
  | 2 =>
    let bits := bitsOf (p.take 512)
    if h.nnz > 4096 || h.length != 512 + sl + elemsLen h.ty h.nnz || (bits.filter id).length != h.nnz then none
    else (values (512 + sl) h.nnz).map fun vs => { base with elems := scatterBits bits vs, scales := scalesAt 512, stored := bits }
  | 3 =>
    let hd := cbHead h.nnz
    let units := (p.drop 2).take (3 * ceilDiv h.nnz 2)
    let idx := (cbCoords h.nnz units).map (coordIndex h.colmajor)
    if h.nnz > 4096 || h.length != hd + sl + elemsLen h.ty h.nnz || fieldAt p 0 2 != h.nnz || !strictlyRising idx
        || (h.nnz % 2 == 1 && leNat (units.drop (units.length - 3)) / 4096 != 0)
        || ((p.drop (2 + units.length)).take (hd - 2 - units.length)).any (· != 0) then none
    else
      let bits := markBits 4096 0 idx
      (values (hd + sl) h.nnz).map fun vs => { base with elems := scatterBits bits vs, scales := scalesAt hd, stored := bits }
  | 4 => (readSet (h.ty - 0x17) 128 p).map fun r => { base with elems := r.1, stored := all, masks := r.2 }
  | 5 =>
    let bits := bitsOf (p.take 512)
    if h.nnz > 4096 || h.nnz == 0 || (bits.filter id).length != h.nnz then none
    else match readSet (h.ty - 0x17) (ceilDiv h.nnz 32) (p.drop 512) with
      | some r =>
        if (r.1.drop h.nnz).any (· != 0) then none
        else some { base with elems := scatterBits bits (r.1.take h.nnz), stored := bits, masks := r.2 }
      | none => none
  | _ => none

/-- Why a tile fails its check (R81). -/
inductive TileFault where
  | crc | format
  deriving DecidableEq, Repr

/-- The first check of a header (R81): its crc, then its version, tag, reserved bits, type and length. -/
def checkHeader (h : TileHeader) (want : Option Nat) : Option TileFault :=
  if !h.crcOk then some .crc
  else if h.version != 1 || h.tag > 5 || h.reserved != 0 || !tagAllows h.tag h.ty || h.length > maxPayload
      || (match want with | some ty => h.ty != ty | none => false) then some .format
  else none

/-- A whole tile read and checked from the bytes that begin at its header (R81); want is the descriptor's type. -/
def readTile (want : Option Nat) (bs : List Byte) : Except TileFault Tile :=
  let h := tileHeader (bs.take 16)
  match checkHeader h want with
  | some e => .error e
  | none =>
    if bs.length < 16 + h.length then .error .format
    else match readPayload h ((bs.drop 16).take h.length) with
      | some t => .ok t
      | none => .error .format

/-- The empty tile of a type (R82, R91). -/
def emTile (ty : Nat) : Tile :=
  ⟨0, ty, false, false, 0, List.replicate 4096 0, List.replicate (scaleLen ty) 0x7F, List.replicate 4096 false, []⟩

/-! ### Writing a tile -/

/-- A header's 16 bytes, crc by R79. -/
def headerBytes (tag ty nnz length : Nat) (colmajor fallback : Bool) : List Byte :=
  let h := leBytes 1 (16 + tag) ++ leBytes 1 ty ++ leBytes 2 nnz ++ leBytes 4 length ++ leBytes 2 (2 * b2n colmajor + b2n fallback) ++ zeros 4
  h ++ leBytes 2 (crc16 h)

/-- The 16-byte header of an EM tile (R82, R497). -/
def emHeader (ty : Nat) : List Byte := headerBytes 0 ty 0 0 false false

/-- Pairs of coordinates in 3-byte units (R85). -/
def coordUnits : List Nat → List Byte
  | [] => []
  | [a] => leBytes 3 a
  | a :: b :: t => leBytes 3 (a + 4096 * b) ++ coordUnits t

/-- The payload of a format, from the elements in row-major in-tile order (R83 to R88). -/
def payloadOf (tag ty : Nat) (scales elems : List Nat) : List Byte :=
  let sc := scales.map (BitVec.ofNat 8)
  let zs := (withScales scales elems).map fun p => !isZeroElt ty p.1 p.2
  let kept := ((zs.zip elems).filter (·.1)).map (·.2)
  match tag with
  | 1 => sc ++ packElems ty elems
  | 2 => bitmapBytes zs ++ sc ++ packElems ty kept
  | 3 =>
    let coords := (((List.range 4096).zip zs).filter (·.2)).map (·.1)
    let hd := leBytes 2 coords.length ++ coordUnits coords
    hd ++ zeros (cbHead coords.length - hd.length) ++ sc ++ packElems ty kept
  | 4 => writeSet (ty - 0x17) (elems.map (written ty))
  | 5 => bitmapBytes zs ++ writeSet (ty - 0x17) kept
  | _ => []

/-- A tile of uncounted elements written DN (R165, R497): nnz 0xFFFF, fallback 0. R165 says nothing of colmajor, which is written 0 (DESIGN CHOICE, log
entry 107). -/
def dnTile (ty : Nat) (scales elems : List Nat) : List Byte :=
  let p := payloadOf 1 ty scales elems
  headerBytes 1 ty 0xFFFF p.length false false ++ p

/-- The tag, the nnz and the bytes with which the Packer writes a tile (R226): 0 AUTO, 1 DN, 2 BM, 3 CB, 4 PL, 5 BP asked for. The
flag says that it fell back to DN. -/
def packTile (want ty : Nat) (scales elems : List Nat) : Nat × Nat × List Byte × Bool :=
  let n := countNonzero ty scales elems
  let dn := payloadOf 1 ty scales elems
  let plain (fb : Bool) : Nat × Nat × List Byte × Bool := (1, n, headerBytes 1 ty n dn.length false fb ++ dn, fb)
  if n == 0 then (0, 0, [], false)
  else if want == 1 then plain false
  else
    let first := if want == 0 then (if isPf ty then 5 else 3) else want
    let second := if want == 0 then (if isPf ty then 4 else 2) else want
    let p1 := payloadOf first ty scales elems
    let p2 := payloadOf second ty scales elems
    let (tag, p) := if p1.length ≤ p2.length then (first, p1) else (second, p2)
    if dn.length ≤ p.length then plain true
    else (tag, n, headerBytes tag ty n p.length false false ++ p, false)

/-! ## Directory entries (R90, R91) -/

/-- A directory entry. -/
def dirEntry (tag nnz off : Nat) : Nat := tag * 2 ^ 60 + nnz % 8192 * 2 ^ 47 + off % 2 ^ 40

/-- Whether an entry agrees with its tile's header: tag, and nnz with 0x1FFF for 0xFFFF (R91). -/
def dirMatches (entry : Nat) (h : TileHeader) : Bool :=
  fld entry 63 60 == h.tag && (fld entry 59 47 == h.nnz || (fld entry 59 47 == 0x1FFF && h.tag == 1 && h.nnz == 0xFFFF))

/-! ## Rows and columns -/

/-- The transpose of a list of rows of equal length. -/
def transposeRows {α : Type} : Nat → List (List α) → List (List α)
  | 0, _ => []
  | n + 1, rows => rows.filterMap List.head? :: transposeRows n (rows.map List.tail)

/-- 64 rows of 64 from a list in in-tile order, rows first. -/
def tileRows {α : Type} (colmajor : Bool) (l : List α) : List (List α) :=
  let rs := chunksOf 64 64 l
  if colmajor then transposeRows 64 rs else rs

/-- The rows of a tile's elements (R77). -/
def Tile.rows (t : Tile) : List (List Nat) := tileRows t.colmajor t.elems

/-- The elements of a tile in row-major order. -/
def Tile.rowMajor (t : Tile) : List Nat := t.rows.flatten

end Sys2Proof.Machine
end

