-- ==== Sys2Proof/Machine/State.lean ====
section
/-! DEFINITION. The state of the DN25 as plain data: the register file, the memories, the tasks, the engines with their queues
and rings, the fabric with its frames and pools, the hosts' ports, the links, the Lighthouse and the root of trust, the
free-value counter, what has left the block, and the queue of waiting commands. Every table is canonical (Tab). -/

namespace Sys2Proof.Machine

/-- Why a step stops with a fault: no reason. Every error that the spec describes is an effect on the state (a log entry, a
task's abort, a recovery), so no command of the table ends a run. -/
inductive Fault where
  deriving DecidableEq, Repr

/-- Why a step refuses a command. -/
inductive Refusal where
  /-- Raised by exec's arm of a command that has no meaning yet. Safe. -/
  | notModelled (mnemonic : String)
  deriving DecidableEq, Repr

/-! ## Engines and cores -/

/-- A committed slot of a ring (R129, R135, R218): the bytes that its producer wrote, the number of the free value that the first byte after them
reads (log entry 5), the element type that the producer wrote (0xFF: none that the Packer could compare, R225), and whether a word of it has a parity
error that no read has met. -/
structure Slot where
  bytes : List Byte
  fill : Nat
  ty : Nat
  struck : Bool
  deriving DecidableEq, Repr

/-- What an engine has read of a ring and not used (R164, R180): the bytes of the head slot that it has read, and the bytes themselves. The slot stays
in the ring until its last byte is read. -/
structure Held where
  used : Nat
  bytes : List Byte
  deriving DecidableEq, Repr

/-- A slot that a producer has filled and not committed (R129, R218): its ring 8q + k, the element type and the bytes, and the accumulator tile that
stays live until the slot is committed. -/
structure OutSlot where
  ring : Nat
  ty : Nat
  bytes : List Byte
  frees : Option Nat
  deriving DecidableEq, Repr

/-- A ring of a Rockpool (R129, R132, R134): committed slots oldest first, the head and tail slots, and the tasks that have
committed to it or released from it. -/
structure Ring where
  slots : List Slot
  head : Nat
  tail : Nat
  users : List Nat
  deriving DecidableEq, Repr

/-- A channel FIFO (R275, R276, R278): its words with their end marks, oldest first. -/
structure Chan where
  words : List (Nat × Bool)
  overrun : Bool
  lvalid : Bool
  lend : Bool
  deriving DecidableEq, Repr

/-- Why an engine waits (R28, R171, R277, R304, R310, R311). -/
inductive Stall where
  | ge (number value : Nat)
  | take (number value : Nat)
  | acq (number value : Nat)
  | chrecv (channel lc : Nat) (tagen : Bool) (tlc : Nat)
  /-- a SIGNAL or CHSEND that waits for the engine's earlier writes and, to another die, for its credit; asked: the credit has been
  requested. A frame to the engine's own core is an effect on that core -/
  | send (i : Instr) (f : Frame) (asked : Bool)
  /-- a data instruction for which a ring is empty or full -/
  | ring (i : Instr)
  /-- a MOVE that waits for its predecessor's writes -/
  | order (i : Instr)
  /-- an items nest waits for an item -/
  | item
  deriving DecidableEq, Repr

/-- A work item (R263). -/
structure WorkItem where
  row : Nat
  first : Nat
  last : Nat
  slot : Nat
  owner : Nat
  split : Bool
  depth : Nat
  sub : Nat
  /-- the reserved bits of the 32 bytes, which R264 wants zero -/
  reserved : Nat
  deriving DecidableEq, Repr

/-- The nest that a loop frame runs (R302, R304): its table entry, the number of its points, whether it takes items, and the item. -/
structure NestPoint where
  table : Nat
  points : Nat
  items : Bool
  item : Option WorkItem
  deriving DecidableEq, Repr

/-- A body in progress (R297, R298): its length in words, the words of this pass already taken, the passes left after this one, and
whether this is the first pass, whose words still come from the queue. A nest is at point number points − 1 − left. words: the native words of the body as
its first pass takes them, for the passes after it; none where a word was not in the queue (log entry 16). -/
structure LoopFrame where
  len : Nat
  pos : Nat
  left : Nat
  first : Bool
  nest : Option NestPoint
  words : List (Option Nat) := []
  deriving DecidableEq, Repr

/-- Where an element of a MOVE goes: an address before translation (R105), with package, global bit and bit of a plane word. -/
inductive Dst where
  | drop
  | mem (a : Int) (package : Nat) (global : Bool) (bit : Nat)
  | ring
  deriving DecidableEq, Repr

/-- Bytes that a MOVE reads: known ones; len bytes at a place of the engine's own die (shown: before translation), read when the engine uses them and
then kept under a read number (0: not kept); or bytes at an offset of what a read has brought. -/
inductive Piece where
  | known (bs : List Byte)
  | here (a len id shown : Nat)
  | got (id off len : Nat)
  deriving DecidableEq, Repr

/-- Where an element of a MOVE comes from: a known encoding, or bytes, with the element's bit in each plane word. -/
inductive SrcElt where
  | value (v : Nat)
  | bytes (ps : List Piece) (bit : Nat)
  deriving DecidableEq, Repr

/-- A tile's place at a TILED destination (R165): its directory entry, its directory base, the offset that the entry holds, the
elements inside the interior (none listed: all), and the fill value. ring: one slot of a ring instead. -/
structure TileDst where
  ring : Bool
  entry : Int
  base : Int
  package : Nat
  global : Bool
  offset : Nat
  inside : List Bool
  fill : Nat
  deriving DecidableEq, Repr

/-- What one visit of a MOVE moves (R163, R165, R497). -/
inductive MoveUnit where
  | elem (visit : Nat) (src : SrcElt) (dst : Dst)
  /-- 4,096 elements, row by row, written as a DN tile -/
  | collect (visit : Nat) (src : List SrcElt) (dst : TileDst)
  /-- a tile copied, or written DN where the interior cuts it; em: an EM entry, which has no bytes -/
  | tile (visit : Nat) (em : Bool) (src : List Piece) (dst : TileDst)
  /-- a tile expanded into 4,096 elements, row by row -/
  | expand (visit : Nat) (em : Bool) (src : List Piece) (dst : List Dst)
  deriving DecidableEq, Repr

/-- A transaction of a Stream Engine (R160, R172): stage 0 waits for a tag, or for a tag's worth of room among the class's credit requests; 1 has
asked for credit under the number in tag and holds no tag; 3 holds its credit and waits for a tag; 2 is in flight under its tag. A transaction of the
engine's own die (here) goes and completes at once when a tag of its class is free. -/
structure Xact where
  id : Nat
  here : Bool
  /-- Groyne class: 0 read, 1 write, 2 remote (R169) -/
  cls : Nat
  isWrite : Bool
  /-- the package, 256 for this one -/
  package : Nat
  address : Nat
  epoch : Nat
  len : Nat
  data : List Byte
  /-- the bits of the data that are written; none listed: all of them -/
  mask : List Byte
  tag : Nat
  stage : Nat
  /-- the pool and its generation of a credit in hand -/
  target : Nat
  gen : Nat
  visit : Nat
  /-- the address before translation, as R179 shows it -/
  shown : Nat
  /-- a directory entry's write, which follows the writes of its tile (R165) -/
  final : Bool
  /-- the tenant bit and the handle of the descriptor that it serves -/
  tenant : Bool
  handle : Nat
  deriving DecidableEq, Repr

/-- A write transaction that may still grow (R167): its address before translation with the package number named there, where it goes (256: this
package), the first of its visits and the place in the order of the last, and its bytes with the bits of them that are written (none listed: all). -/
structure OpenTx where
  va : Int
  global : Bool
  named : Nat
  package : Nat
  address : Nat
  epoch : Nat
  first : Nat
  last : Nat
  bytes : List Byte
  mask : List Byte
  deriving DecidableEq, Repr

/-- A group of plane words that consecutive stores fill (R69, R112): its address before translation, the first of its visits, the places in the order
of its first and last stores, its bytes, and the bits of them that the stores have written. -/
structure OpenGroup where
  va : Int
  global : Bool
  named : Nat
  visit : Nat
  first : Nat
  last : Nat
  bytes : List Byte
  mask : List Byte
  deriving DecidableEq, Repr

/-- A MOVE that has not completed (R171, R172). -/
structure MoveSt where
  id : Nat
  arrive : Bool
  counter : Nat
  /-- element type of a scatter-add, or 0xFF -/
  add : Nat
  /-- element type of the sides -/
  ty : Nat
  srcHandle : Nat
  dstHandle : Nat
  /-- the destination's class is TENANT -/
  tenant : Bool
  /-- visits of the MOVE, and those that are planned -/
  total : Nat
  next : Nat
  /-- a transposed MOVE (R176), its units whose blocks of 8 x 8 visits are not complete, and the units carried out so far -/
  transpose : Bool
  strip : List MoveUnit
  done : Nat
  units : List MoveUnit
  /-- the present index entry (R173, R174): its number and value, whether the combiner serves it, and the elements of its predecessor and its own -/
  entry : Option (Nat × Int)
  combined : Bool
  prev : List SrcElt
  cur : List SrcElt
  /-- index entries that a read has brought or will bring (R173): the number of the first, their count, and the read's number -/
  ahead : Option (Nat × Nat × Nat)
  /-- the read that may still grow (R167): its number, its address with package number and global bit, and its last visit -/
  grow : Option (Nat × Int × Nat × Bool × Nat)
  /-- bytes that reads have brought, by read number -/
  got : List (Nat × List Byte)
  nextRead : Nat
  xacts : List Xact
  group : Option OpenGroup
  tx : Option OpenTx
  /-- a ring destination: Rockpool ring 8q + k, and its slot size in bytes -/
  ring : Option (Nat × Nat)
  /-- bytes of the present slot, and elements of a group of planes that is not full -/
  slot : List Byte
  vals : List Nat
  deriving DecidableEq, Repr

/-- A stationary load of an array (R184, R191, R196): the chunks that it spans, its blocks by chunk and column block, the groups of 32 columns that it
covers, whether it is the last one of its output block or span, and whether it is the block that keep finds (R189). -/
structure ArrayLoad where
  chunks : List Nat
  blocks : List (Nat × Nat × Tile)
  groups : List Nat
  last : Bool
  kept : Bool
  deriving DecidableEq, Repr

/-- An MMA, SPMM or LOOKOUT in progress (R184, R187, R193, R196): the output block or span that streams, and where the B feeder stands: its output block,
chunk, column block and half of it, and the blocks and groups of the load in progress; then the loads that are not streamed yet. -/
structure ArrayRun where
  ob : Nat
  lob : Nat
  rc : Nat
  col : Nat
  half : Nat
  taken : List (Nat × Nat × Tile)
  groups : List Nat
  loads : List ArrayLoad
  /-- the first load is in the active set (R188) -/
  active : Bool
  /-- the output block has streamed -/
  full : Bool
  /-- the streamed block that comes next -/
  mb : Nat
  ci : Nat
  /-- the rows that block row mb skips for the load are counted (R234) -/
  counted : Bool
  /-- the sliding form: the chunk's elements of X -/
  elems : List Nat
  /-- chunk partials by tile and chunk; none listed: every element +0 -/
  parts : List ((Nat × Nat) × List Nat)
  /-- the checksum sums of each tile (R200) -/
  c : List (Nat × List Nat)
  abar : List (Nat × List Nat)
  /-- the row statistics (R221): maximum and sum -/
  stats : List (Nat × (Nat × Nat))
  /-- a failure that the array has met (R202): its code, N block, M block, row -/
  doom : Option (Nat × Nat × Nat × Nat)
  /-- the block of an instruction of a single block, once it is loaded (R189) -/
  single : Option Tile
  /-- EB_OPn and EB_IMMn of the chain's slots as the instruction found them (R224) -/
  chain : List (Nat × Nat)
  deriving DecidableEq, Repr

/-- A PACK in progress (R227): the incoming tile that comes next, and the first free byte of the arena. -/
structure PackRun where
  tile : Nat
  pos : Nat
  deriving DecidableEq, Repr

/-- A port of a MERGE in the present group (R253): records of a Cove list taken so far, records taken in this group, the last key, the run as
combined so far, and whether it is closed. -/
structure MergePort where
  pos : Nat
  count : Nat
  prev : Option Nat
  run : List (Nat × Nat)
  closed : Bool
  deriving DecidableEq, Repr

/-- A MERGE in progress (R251 to R257): its table as read at the start, the present group, the ports, the next element of a Cove list, the
slot under assembly, and the tile under assembly with the last key. -/
structure MergeRun where
  table : List Byte
  group : Nat
  ports : List (Nat × MergePort)
  outPos : Nat
  slot : List Byte
  tile : Nat
  cells : List (Nat × Nat)
  last : Option Nat
  deriving DecidableEq, Repr

/-- An ISECT in progress (R241 to R247): the run that comes next, the entries of A and B before it, the row pointer before it, the next byte of
a record array, and the slot under assembly. -/
structure IsectRun where
  run : Nat
  aSeen : Nat
  bSeen : Nat
  pointer : Option Nat
  outPos : Nat
  slot : List Byte
  /-- the expand form: entries of the rows so far, (row, index, value) -/
  entries : List (Nat × Nat × Nat)
  deriving DecidableEq, Repr

/-- A data instruction that an engine has begun and not retired. -/
inductive Run where
  | none
  | array (r : ArrayRun)
  | pack (r : PackRun)
  | merge (r : MergeRun)
  | isect (r : IsectRun)
  deriving DecidableEq, Repr

/-- What an engine holds for the task of a slot: its queue (R322), operand registers (R318), bodies in progress, item queue
(R304), incomplete MOVEs, operand slots already taken from its rings, and output slots not yet committed. -/
structure EngCtx where
  queue : List Nat
  /-- words that arrived before the task started on the core: they are decoded at its start, which fixes the intake mode (R321, R326) -/
  early : List Nat
  /-- words accepted from the stream: the position of the next word (R327) -/
  position : Nat
  /-- the next word is the data word of a CHSEND: 1 kept, 2 skipped with it (R328) -/
  dataNext : Nat
  /-- the operand registers as intake has seen them loaded (R321) -/
  seen : List Nat
  params : List Nat
  frames : List LoopFrame
  /-- words of a skipped body that have not arrived yet -/
  skip : Nat
  ended : Bool
  retired : Nat
  blocked : Option Stall
  abandoned : Bool
  /-- items in the order in which the Pilot delivered them; none stands for the end of a list (R304) -/
  items : List (Option WorkItem)
  /-- ends of lists without items that the Pilot still owes its slot's items nests (R307) -/
  zeros : Nat
  moves : List MoveSt
  nextId : Nat
  inbuf : List (Nat × Held)
  outbuf : List OutSlot
  run : Run
  /-- an array's MA_CFG as the task's start latched it (R13, R205) -/
  cfg : Nat
  deriving DecidableEq, Repr

/-- An accumulator tile (R206): 0 FP32, 1 INT32, 2 FP64; its elements row by row, none where its contents are undefined (R208); the sums
c and a-bar of R200. Tile t of 4-byte elements is kept under number t, FP64 tile t under 16 + t. -/
structure AccTile where
  ty : Nat
  live : Bool
  vals : List Nat
  c : List Nat
  abar : List Nat
  deriving DecidableEq, Repr

/-- What a Matrix Array holds beside its registers: the active set (R187), the block in it (R189), the accumulator (R206), the stochastic
generator (R76), and the stationary registers with a parity error that no stream has met: set and cell row (R202). -/
structure ArraySt where
  set : Nat
  resident : Bool
  block : Option Tile
  acc : List (Nat × AccTile)
  gen : BitVec 64
  /-- draws already taken from the generator's present step, 0 to 4; 4: the next draw steps it -/
  drawn : Nat
  struck : List (Nat × Nat)
  deriving DecidableEq, Repr

/-! ## Tasks -/

/-- A task that the harbour has taken (R17, R284): number states of R394. -/
structure Task where
  id : Nat
  number : Nat
  partition : Nat
  slot : Nat
  port : Port
  tq : Nat
  cq : Nat
  tag : Nat
  cores : List Nat
  state : Nat
  /-- the launch record's address, and its bytes as last read -/
  launchAt : Nat
  launch : List Byte
  map : List Byte
  /-- Pilots that have started it -/
  started : List Nat
  release : Bool
  skip : Bool
  /-- an abort is under way: DRAINING ends ABORTED -/
  aborting : Bool
  /-- its truncation point has been reached (R334): the completion entry's flag, and DRAINING ends DONE unless aborting -/
  truncated : Bool
  logged : Bool
  error : Nat
  errCore : Nat
  errSeq : Nat
  /-- the port lost its completion (R404, R478) -/
  discarded : Bool
  deriving DecidableEq, Repr

/-! ## Fabric -/

/-- A Breakwater pool (R37, R361, R364). -/
structure Pool where
  size : Nat
  avail : Nat
  gen : Nat
  queue : List Frame
  deriving DecidableEq, Repr

/-- One direction of a hop (R358, R360): the sequence numbers of the next frame sent and expected, the replay buffer (sequence number and frame),
and the replays of its oldest frame in a row. -/
structure Hop where
  next : Nat
  expected : Nat
  buffer : List (Nat × Frame)
  replays : Nat
  deriving DecidableEq, Repr

/-- A row dispenser (R265 to R268): its list, the number of its next item, the rest of a split head, and the cores whose end packet
has been written and read. -/
structure Disp where
  running : Bool
  base : Nat
  count : Nat
  next : Nat
  head : Option WorkItem
  partition : Nat
  slot : Nat
  lastServed : Nat
  sent : List Nat
  ended : List Nat
  /-- the number of the task whose LIST started the list; none for a write of another sender -/
  task : Option Nat
  deriving DecidableEq, Repr

/-- A Bangeby link (R371 to R380). Keys are numbered; slots are (epoch 0, epoch 1). -/
structure Link where
  cable : Bool
  sendKeys : Option Nat × Option Nat
  recvKeys : Option Nat × Option Nat
  sendCounter : Nat
  expected : Nat
  /-- frames sent and received under the present keys -/
  sentUnder : Nat
  recvUnder : Nat
  authFails : Nat
  /-- steps of the exchange in progress: 0 none; agreement 1 offer sent, 2 accept sent, 3 confirm sent; 4 request sent; rotation 5 offer
  sent, 6 accept sent; 7 ready sent; 8 offer to be signed -/
  stage : Nat
  transcript : List Byte
  secret : Nat
  newKeys : Option (Nat × Nat)
  peerReady : Bool
  readySent : Bool
  /-- frames sent and not acknowledged, oldest first (R372, R373) -/
  replay : List LinkOut
  /-- a message in reassembly: subtype, fragments so far, fragment count, and its bytes so far; a whole message stays until the next one begins -/
  frag : Nat × Nat × Nat
  parts : List Byte
  /-- writes in the harbour's outbound queue (R375): 0 waits for the peer's credit, k + 1 sent under counter k -/
  outbound : List (Frame × Nat)
  /-- read requests that the peer has not answered -/
  reads : List Frame
  /-- frames that wait for room, or while the direction stops sending data frames (R359, R373, R380); their counters are not set yet -/
  waiting : List LinkOut
  /-- the generation of the peer's pools, as far as this module counts it (R376) -/
  peerGen : Nat
  deriving DecidableEq, Repr

/-- A CXL port beside its registers (R406 to R408, R431). -/
structure CxlPort where
  bringUp : Bool
  ideKey : Option Nat
  capacity : Nat
  perst : Bool
  deriving DecidableEq, Repr

/-! ## Hosts, package, Lighthouse, trust -/

/-- A host port beside its registers (R383, R394 to R396, R402, R423). -/
structure HostPort where
  linkUp : Bool
  perst : Bool
  seq : Nat
  /-- held completion entries: queue and bytes less phase and sequence number, oldest first (R395) -/
  held : List (Nat × List Byte)
  /-- entries written to queue q since its vector last fired (R396) -/
  sinceFired : List (Nat × Nat)
  /-- express words held for room (R325) -/
  heldWords : List (EngRef × Nat)
  /-- BAR4 writes held for credit (R388) -/
  heldWrites : List Frame
  /-- doorbells that wait for those writes (R389): queue and tail -/
  heldBells : List (Nat × Nat)
  /-- partitions whose selective IDE stream the host has keyed (R423) -/
  ide : List Nat
  /-- the round-robin place among the task queues -/
  lastQueue : Nat
  /-- BAR4 holds 2^bar4 bytes (R384) -/
  bar4 : Nat
  deriving DecidableEq, Repr

/-- A range of tower pages of the layout (R463). -/
structure LayoutRange where
  partition : Nat
  count : Nat
  first : Nat
  deriving DecidableEq, Repr

/-- The package: mode and layout (R46 to R50, R463), the Causeway's lanes, and what start-up fixed. -/
structure Package where
  split : Bool
  control : Nat
  requests : List (Port × Bool × Bool)
  changing : Option (Bool × Bool)
  die : List Nat
  cxl : List Nat
  link : List Nat
  ranges : List LayoutRange
  powered : Bool
  /-- RESET_N holds the package at step 5 -/
  heldReset : Bool
  thermtrip : Bool
  pwrGood : Bool
  /-- an undervoltage, overvoltage or thermal shutdown left the rails off -/
  railsOff : Bool
  gradeB : Bool
  coresOff : List Nat
  towersOff : List Nat
  hopsDown : List Nat
  causewayFailed : Bool
  /-- a lane swap in progress, by direction: the failing lane, or none -/
  swaps : List (Nat × Nat)
  halted : Bool
  claims : List Port
  alerts : Nat
  /-- the SMBus address, 0x4C + the straps sampled at power-on -/
  address : Nat
  /-- the test port's present instruction -/
  testInstruction : Nat
  deriving DecidableEq, Repr

/-- A recovery in progress (R453 to R458). -/
structure Recovery where
  level : Nat
  kind : Nat
  unit : Nat
  first : Nat
  escalations : Nat
  restarts : Nat
  /-- slots of a core recovery whose tasks it aborted (R145) -/
  slots : List Nat
  deriving DecidableEq, Repr

/-- One error log (R445, R450): unread and read entries by position, the next sequence number and the counts. -/
structure ErrLog where
  entries : List (Nat × List Byte)
  seq : Nat
  head : Nat
  tail : Nat
  unread : Nat
  lost : Nat
  deriving DecidableEq, Repr

/-- Readings of the 26 voltage domains (R440, R468): power in mW, temperature in 1/16 of a degree C and voltage in mV, and the module's input
power in mW (R467). -/
structure Readings where
  power : List Nat
  temp : List Nat
  volts : List Nat
  input : Nat
  deriving DecidableEq, Repr

/-- The Lighthouse's own records. -/
structure Lighthouse where
  west : ErrLog
  east : ErrLog
  recoveries : List (Nat × Recovery)
  waiting : List Recovery
  /-- stall watch: engine (8 core + code), last count, unchanged samples -/
  runs : List (Nat × Nat × Nat)
  /-- engines that the last sample found hung (R63, R64) -/
  due : List Nat
  silence : Nat
  samples : Nat
  /-- row reports: unit base, bank, row, samples that reported it -/
  rows : List (Nat × Nat × Nat × Nat)
  repairMap : List (Nat × Nat × Nat)
  retired : List Nat
  unowned : List (Nat × Nat)
  voltage : List Nat
  gating : List (Nat × Nat)
  /-- holding span: die, span number mod 16 -/
  spans : List (Nat × Nat)
  throttled : List Nat
  critical : List Nat
  inputBand : Bool
  /-- the last sample's readings; the sums of the present 20 ms window and its samples; the means of the latest complete one -/
  last : Readings
  sum : Readings
  summed : Nat
  mean : Readings
  generation : Nat
  summaries : List (Nat × List Byte)
  deriving DecidableEq, Repr

/-- The session of a partition (R422 to R435). -/
structure Session where
  state : Nat
  port : Nat
  log : List (List Byte)
  chain : List Byte
  key0 : Option Nat
  key1 : Option Nat
  epoch : Nat
  rotating : Bool
  /-- whether the scrub of a session's end runs (R438) -/
  scrub : Bool
  /-- units that the partition may not map before their scrub ends: base, bytes, and the partition that held them (8: none) -/
  units : List (Nat × Nat × Nat)
  /-- a STOP waits for the scrub -/
  stopping : Bool
  pilotDigest : List Byte
  pilotSvn : Nat
  pilotOk : Bool
  deriving DecidableEq, Repr

/-- A partition's phase (R336, R347): its loaded image and what a load in progress will write. -/
structure Phase where
  image : List Byte
  imageAt : Nat
  /-- an image that has passed its check and is not written yet, with its address: until it is written, recoveries reload from the old one -/
  loading : Option (List Byte)
  loadAt : Nat := 0
  dropHold : Bool
  shardMap : List (List Byte)
  /-- mesh routes and port select of its dies (R342) -/
  routes : List (Nat × List Byte)
  deriving DecidableEq, Repr

/-- A measured firmware (R415, R421). -/
structure FwRun where
  digest : List Byte
  svn : Nat
  key : Nat
  copy : Nat
  version : Nat
  deriving DecidableEq, Repr

/-- The root of trust (R413 to R421, R430). -/
structure Trust where
  svnLh : Nat
  svnHb : Nat
  svnPil : Nat
  revoked : Nat
  lockBlown : Bool
  lockClosed : Bool
  lh : FwRun
  hb : FwRun
  /-- the Pilot image that start-up verified -/
  pil : FwRun
  lhOk : Bool
  hbOk : Bool
  pilOk : Bool
  staged : List FwImage
  entropyOk : Bool
  draws : Nat
  debugTasks : Nat
  /-- requests that wait for a signature (R420): medium, kind (1 CHALLENGE, 2 MEASUREMENTS, 3 KEY_EXCHANGE, 4 link), what is to be signed (an
  SPDM response's bytes, or a link transcript's digest), link -/
  signing : List (Medium × Nat × List Byte × Nat)
  eids : List (Nat × Nat)
  boots : Nat
  deriving DecidableEq, Repr

/-- What has left the block for the outside world, in order. -/
inductive OutEvent where
  /-- a completion entry written to the completion queue (port, queue, position, 32 bytes) -/
  | completion (port : Port) (q pos : Nat) (entry : List Byte)
  /-- an MSI-X message -/
  | msix (port : Port) (vector : Nat)
  /-- an answered register or BAR4 read -/
  | readData (port : Port) (data : List Byte)
  | completerAbort (port : Port)
  | unsupportedRequest (port : Port)
  /-- a configuration request: completed normally with what the function presents, or Request Retry Status -/
  | config (port : Port) (space : Option ConfigSpace)
  | summary (port : Port) (addr : Nat) (bytes : List Byte)
  | tdisp (port : Port) (p : Nat) (ok : Bool)
  | tdispReport (port : Port) (p : Nat) (ranges : List (Nat × Nat)) (measurement : List Byte)
  | spdm (m : Medium) (kind : Nat) (bytes : List Byte)
  | responseNotReady (m : Medium)
  | pldm (kind : Nat) (values : List Nat)
  /-- a management frame sent on a link: subtype and message -/
  | linkMessage (link subtype : Nat) (bytes : List Byte)
  /-- acknowledgement (true) or negative acknowledgement of a link counter -/
  | linkAck (link : Nat) (ok : Bool) (counter : Nat)
  /-- frames of a link sent again from a counter on (R373) -/
  | linkReplay (link counter count : Nat)
  /-- a frame sent on a link (R371) -/
  | linkFrame (link : Nat) (f : LinkOut)
  | testPort (code : Nat)
  deriving DecidableEq, Repr

/-- The DN25. -/
structure State where
  regs : List (RegId × Word)
  mem : List Host.Cell
  /-- poisoned segments (16 bytes, R147) and blocks (64 bytes, R153), by address -/
  poison : List (Nat × Nat)
  /-- memory errors that no read has met (R146, R147, R153): an address, and whether the error is uncorrectable -/
  struck : List (Nat × Bool)
  /-- sealed 256-byte units: address and the number of the key they were written under (R155) -/
  seals : List (Nat × Nat)
  tasks : List Task
  engs : List (EngRef × EngCtx)
  rings : List ((Nat × Nat) × Ring)
  chans : List ((Nat × Nat) × Chan)
  arrays : List ((Nat × Nat) × ArraySt)
  /-- credited arrivals not yet returned: core, slot, counter, partition, generation, oldest first (R363) -/
  landed : List (Nat × Nat × Nat × Nat × Nat)
  /-- rotation of the TAKE order: engine code after the one last served, by core (R312) -/
  rotation : List (Nat × Nat)
  /-- the slot after the one from which an engine took its last instruction, by 8 · core + engine (R322) -/
  turns : List (Nat × Nat)
  pools : List ((Nat × Nat) × Pool)
  frames : List Frame
  /-- frames that wait for room on a hop of their way, oldest first (R359, R360, R366, R368) -/
  backlog : List Frame
  hops : List ((Nat × Nat) × Hop)
  disps : List (Nat × Disp)
  links : List (Nat × Link)
  cxls : List (Nat × CxlPort)
  ports : HostPort × HostPort
  pkg : Package
  lh : Lighthouse
  sessions : List (Nat × Session)
  phases : List (Nat × Phase)
  trust : Trust
  /-- tasks named so far -/
  nextTask : Nat
  /-- the model's own counter of free values (log entry 5) -/
  free : Nat
  out : List OutEvent
  pending : List Instr
  deriving DecidableEq, Repr

/-! ## Defaults of the tables -/

def Ring.empty : Ring := ⟨[], 0, 0, []⟩
def Chan.empty : Chan := ⟨[], false, false, false⟩
def EngCtx.idle : EngCtx :=
  { queue := [], early := [], position := 0, dataNext := 0, seen := [0, 0, 0, 0], params := [0, 0, 0, 0], frames := [], skip := 0, ended := false, retired := 0,
    blocked := none, abandoned := false, items := [], zeros := 0, moves := [], nextId := 0, inbuf := [], outbuf := [], run := .none, cfg := 0x1304 }
def ArraySt.idle : ArraySt := ⟨0, false, none, [], 1, 4, []⟩
def Pool.zero : Pool := ⟨0, 0, 0, []⟩
def Hop.idle : Hop := ⟨0, 0, [], 0⟩
def Disp.idle : Disp := ⟨false, 0, 0, 0, none, 0, 0, 31, [], [], none⟩
def Link.down : Link :=
  { cable := true, sendKeys := (none, none), recvKeys := (none, none), sendCounter := 0, expected := 0, sentUnder := 0, recvUnder := 0, authFails := 0,
    stage := 0, transcript := [], secret := 0, newKeys := none, peerReady := false, readySent := false, replay := [], frag := (0, 0, 0), parts := [], outbound := [], reads := [], waiting := [], peerGen := 0 }
def CxlPort.down : CxlPort := ⟨false, none, 0, true⟩
def CxlPort.begun : CxlPort := ⟨true, none, 0, false⟩
def HostPort.fresh : HostPort := ⟨true, false, 0, [], [], [], [], [], [], 63, 30⟩
def ErrLog.empty : ErrLog := ⟨[], 0, 0, 0, 0, 0⟩
def Session.none : Session := ⟨0, 0, [], List.replicate 32 0, Option.none, Option.none, 0, false, false, [], false, List.replicate 32 0, 0, true⟩
def Phase.none : Phase := ⟨[], 0, Option.none, 0, false, [], []⟩
def FwRun.reset : FwRun := ⟨List.replicate 32 0, 0, 0, 0, 0⟩

/-- The layout after a package reset (R463): every unit in partition 0, one range over every tower page. A range of the record
counts at most 2^20 - 1 pages and begins at a page number, DPA >> 21. -/
def Package.reset : Package :=
  { split := false, control := 0, requests := [], changing := none, die := List.replicate 12 0, cxl := List.replicate 4 0,
    link := List.replicate 36 0, ranges := [⟨0, 393216, 0⟩], powered := true, heldReset := false, thermtrip := false, pwrGood := true,
    railsOff := false, gradeB := false, coresOff := [], towersOff := [], hopsDown := [], causewayFailed := false, swaps := [], halted := false,
    claims := [], alerts := 0, address := 0x4C, testInstruction := 0 }

def Readings.zero : Readings := ⟨List.replicate 26 0, List.replicate 26 0, List.replicate 26 0, 0⟩

def Lighthouse.reset : Lighthouse :=
  { west := ErrLog.empty, east := ErrLog.empty, recoveries := [], waiting := [], runs := [], due := [], silence := 0, samples := 0, rows := [], repairMap := [],
    retired := [], unowned := [], voltage := List.replicate 26 750, gating := [], spans := [], throttled := [], critical := [],
    inputBand := false, last := Readings.zero, sum := Readings.zero, summed := 0, mean := Readings.zero, generation := 0, summaries := [] }

def Trust.reset : Trust :=
  { svnLh := 0, svnHb := 0, svnPil := 0, revoked := 0, lockBlown := false, lockClosed := false, lh := FwRun.reset, hb := FwRun.reset, pil := FwRun.reset, lhOk := true,
    hbOk := true, pilOk := true, staged := [], entropyOk := true, draws := 0, debugTasks := 0, signing := [], eids := [], boots := 1 }

/-- The machine as a package reset leaves it once start-up has run (R473 step 10, R477, R481): no port controls, every unit is in
partition 0, no image is loaded, no queue is enabled, every memory reads zero. The registers that start-up itself sets are listed
(the ports' ready bits and widths, the bring-up that has begun at every CXL port, LH_BOOTSTAT); every other register reads its reset value (log entries 2 to 4). -/
def State.reset : State :=
  { regs :=
      [(⟨.hbPortstat, 0, 0⟩, 0x8684000000000000),
       (⟨.hbPortstat, 2, 0⟩, 0x8684000000000000),
       (⟨.cxStatus, 1, 0⟩, 0x2000000000000000), (⟨.cxStatus, 1, 1⟩, 0x2000000000000000),
       (⟨.cxStatus, 3, 0⟩, 0x2000000000000000), (⟨.cxStatus, 3, 1⟩, 0x2000000000000000),
       (⟨.lhBootstat, 0, 0⟩, 0xE000000000000001)]
    mem := [], poison := [], struck := [], seals := [], tasks := [], engs := [], rings := [], chans := [], arrays := [], landed := [], rotation := [], turns := [],
    pools := [], frames := [], backlog := [], hops := [], disps := [], links := [],
    cxls := (List.range 4).map fun p => (p, CxlPort.begun), ports := (HostPort.fresh, HostPort.fresh), pkg := Package.reset,
    lh := Lighthouse.reset, sessions := [], phases := [], trust := Trust.reset, nextTask := 0, free := 0, out := [], pending := [] }

end Sys2Proof.Machine
end

