-- ==== Sys2Proof/Machine/Ops.lean ====
section
/-! DEFINITION. The named operations over registers, memory and the tables of State; the error log (R445 to R451); MSI-X
(R396); what an address of the map names (R156, R157); free values. -/

namespace Sys2Proof

/-- The harbour block of a port: HW0 is 0 and HE0 is 2 (R159). -/
def Port.harbour : Port → Nat
  | .w => 0
  | .e => 2

/-- The shore of a port. -/
def Port.shore : Port → Nat
  | .w => 0
  | .e => 1

def Port.other : Port → Port
  | .w => .e
  | .e => .w

end Sys2Proof

namespace Sys2Proof.Machine

/-! ## Registers -/

/-- The place of a register in the register file's order. -/
def regNum (r : RegId) : Nat := (r.name.ctorIdx * 512 + r.unit) * 4096 + r.idx

/-- The reset value of a register: its fields' (R13), the East log's sequence numbers with bit 63 set (R445), and the vector
control of an MSI-X entry masked (R396, log entry 4). -/
def RegId.resetWord (r : RegId) : Word :=
  match r.name with
  | .hbErrseq => if r.unit < 2 then 0 else BitVec.ofNat 64 (2 ^ 63)
  | .msixTable => if r.idx % 2 == 1 then BitVec.ofNat 64 (2 ^ 32) else 0
  | _ => BitVec.ofNat 64 r.name.info.resetValue

namespace State

/-- The stored value of a register. -/
def reg (s : State) (r : RegId) : Word := Tab.get r.resetWord s.regs r

/-- Store a register. -/
def setReg (s : State) (r : RegId) (w : Word) : State :=
  { s with regs := Tab.put regNum r.resetWord s.regs r w }

/-- Bits hi to lo of a stored register. -/
def rf (s : State) (r : RegId) (hi lo : Nat) : Nat := wfld (s.reg r) hi lo

/-- Bit i of a stored register. -/
def rb (s : State) (r : RegId) (i : Nat) : Bool := wbit (s.reg r) i

/-- Store bits hi to lo of a register. -/
def setRf (s : State) (r : RegId) (hi lo v : Nat) : State := s.setReg r (wput (s.reg r) hi lo v)

/-- Add to a counter field that saturates (R109, R148, R205). -/
def satRf (s : State) (r : RegId) (hi lo n : Nat) : State :=
  s.setRf r hi lo (sat (hi + 1 - lo) (s.rf r hi lo + n))

/-- Add to a counter field that wraps (R60, R175). -/
def addRf (s : State) (r : RegId) (hi lo n : Nat) : State :=
  s.setRf r hi lo (s.rf r hi lo + n)

/-! ## Tables -/

/-- The place of a pair of small numbers. -/
def pairNum (p : Nat × Nat) : Nat := p.1 * 4096 + p.2

/-- The place of an engine. -/
def engNum (x : EngRef) : Nat := (x.core * 4 + x.slot) * 8 + x.eng

def eng (s : State) (x : EngRef) : EngCtx := Tab.get EngCtx.idle s.engs x
def setEng (s : State) (x : EngRef) (c : EngCtx) : State := { s with engs := Tab.put engNum EngCtx.idle s.engs x c }
def ring (s : State) (core n : Nat) : Ring := Tab.get Ring.empty s.rings (core, n)
def setRing (s : State) (core n : Nat) (r : Ring) : State := { s with rings := Tab.put pairNum Ring.empty s.rings (core, n) r }
def chan (s : State) (core n : Nat) : Chan := Tab.get Chan.empty s.chans (core, n)
def setChan (s : State) (core n : Nat) (c : Chan) : State := { s with chans := Tab.put pairNum Chan.empty s.chans (core, n) c }
def array (s : State) (core a : Nat) : ArraySt := Tab.get ArraySt.idle s.arrays (core, a)
def setArray (s : State) (core a : Nat) (v : ArraySt) : State := { s with arrays := Tab.put pairNum ArraySt.idle s.arrays (core, a) v }
def pool (s : State) (p t : Nat) : Pool := Tab.get Pool.zero s.pools (p, t)
def setPool (s : State) (p t : Nat) (v : Pool) : State := { s with pools := Tab.put pairNum Pool.zero s.pools (p, t) v }
def hop (s : State) (h d : Nat) : Hop := Tab.get Hop.idle s.hops (h, d)
def setHop (s : State) (h d : Nat) (v : Hop) : State := { s with hops := Tab.put pairNum Hop.idle s.hops (h, d) v }
def disp (s : State) (d : Nat) : Disp := Tab.get Disp.idle s.disps d
def setDisp (s : State) (d : Nat) (v : Disp) : State := { s with disps := Tab.put id Disp.idle s.disps d v }
def link (s : State) (n : Nat) : Link := Tab.get Link.down s.links n
def setLink (s : State) (n : Nat) (v : Link) : State := { s with links := Tab.put id Link.down s.links n v }
def cxl (s : State) (p : Nat) : CxlPort := Tab.get CxlPort.down s.cxls p
def setCxl (s : State) (p : Nat) (v : CxlPort) : State := { s with cxls := Tab.put id CxlPort.down s.cxls p v }
def session (s : State) (p : Nat) : Session := Tab.get Session.none s.sessions p
def setSession (s : State) (p : Nat) (v : Session) : State := { s with sessions := Tab.put id Session.none s.sessions p v }
def phase (s : State) (p : Nat) : Phase := Tab.get Phase.none s.phases p
def setPhase (s : State) (p : Nat) (v : Phase) : State := { s with phases := Tab.put id Phase.none s.phases p v }
def turnAt (s : State) (x : EngRef) : Nat := Tab.get 0 s.turns (8 * x.core + x.eng)
def setTurn (s : State) (x : EngRef) (v : Nat) : State := { s with turns := Tab.put id 0 s.turns (8 * x.core + x.eng) v }
def rotationAt (s : State) (core : Nat) : Nat := Tab.get 0 s.rotation core
def setRotation (s : State) (core v : Nat) : State := { s with rotation := Tab.put id 0 s.rotation core v }
def port (s : State) (p : Port) : HostPort := match p with | .w => s.ports.1 | .e => s.ports.2
def setPort (s : State) (p : Port) (v : HostPort) : State :=
  match p with | .w => { s with ports := (v, s.ports.2) } | .e => { s with ports := (s.ports.1, v) }
def setPkg (s : State) (v : Package) : State := { s with pkg := v }
def setLh (s : State) (v : Lighthouse) : State := { s with lh := v }
def setTrust (s : State) (v : Trust) : State := { s with trust := v }
def setTasks (s : State) (v : List Task) : State := { s with tasks := v }
def setFrames (s : State) (v : List Frame) : State := { s with frames := v }
def setBacklog (s : State) (v : List Frame) : State := { s with backlog := v }
def setLanded (s : State) (v : List (Nat × Nat × Nat × Nat × Nat)) : State := { s with landed := v }
def setMem (s : State) (v : List Host.Cell) : State := { s with mem := v }
def setPoison (s : State) (v : List (Nat × Nat)) : State := { s with poison := v }
def setStruck (s : State) (v : List (Nat × Bool)) : State := { s with struck := v }
def setSeals (s : State) (v : List (Nat × Nat)) : State := { s with seals := v }
/-- Registers go back to their reset values. -/
def dropRegs (s : State) (p : RegId → Bool) : State := { s with regs := s.regs.filter fun e => !p e.1 }
def setEngs (s : State) (v : List (EngRef × EngCtx)) : State := { s with engs := v }
def setRings (s : State) (v : List ((Nat × Nat) × Ring)) : State := { s with rings := v }
def setPending (s : State) (v : List Instr) : State := { s with pending := v }
def setFree (s : State) (v : Nat) : State := { s with free := v }
def setNextTask (s : State) (v : Nat) : State := { s with nextTask := v }

/-- Something leaves the block. -/
def emit (s : State) (o : OutEvent) : State := { s with out := s.out ++ [o] }

/-! ## Memory -/

/-- The byte at an address: the stored one, or 0 (R475, log entry 4). -/
def byteAt (s : State) (a : Nat) : Byte := Tab.get 0 s.mem a

/-- Write one byte. -/
def setByte (s : State) (a : Nat) (b : Byte) : State := s.setMem (Tab.put id 0 s.mem a b)

/-- The n bytes from an address on. -/
def bytes (s : State) (a : Nat) : Nat → List Byte
  | 0 => []
  | n + 1 => s.byteAt a :: bytes s (a + 1) n

/-- Write bytes from an address on. -/
def setBytes (s : State) (a : Nat) : List Byte → State
  | [] => s
  | b :: bs => setBytes (s.setByte a b) (a + 1) bs

/-- A range of memory with every byte zero (R145, R438). -/
def zeroFill (s : State) (a n : Nat) : State :=
  s.setMem (s.mem.filter fun c => !(decide (a ≤ c.1) && decide (c.1 < a + n)))

/-- The poison of a range cleared. -/
def clearPoison (s : State) (a n : Nat) : State :=
  s.setPoison (s.poison.filter fun c => !(decide (a ≤ c.1) && decide (c.1 + c.2 ≤ a + n)))

/-- A free value, and the state with the counter advanced (log entry 5). -/
def fresh (s : State) : Nat × State := ((Config.freeValue s.free).toNat, s.setFree (s.free + 1))

end State

/-- The canonical form of memory: addresses strictly rising, no zero byte listed. -/
def Memory.wf (m : List Host.Cell) : Bool := Tab.wf id (fun _ => 0) m

/-! ## The address map (R156 to R158) -/

/-- Where a device physical address lies. -/
inductive Place where
  /-- tower t, offset -/
  | tower (t off : Nat)
  /-- Lagoon of die d, offset -/
  | lagoon (d off : Nat)
  /-- Cove of global core g, offset in its 256 MiB slot -/
  | cove (g off : Nat)
  /-- CXL port p, offset from its base -/
  | cxl (p off : Nat)
  | control (off : Nat)
  | reserved
  deriving DecidableEq, Repr

/-- The first address of die d's slot (R156). -/
def dieBase (d : Nat) : Nat := 0x10000000000 + d * 0x1000000000

/-- The first address of the slot of core g's Cove (R157). -/
def coveBase (g : Nat) : Nat := dieBase (g / 32) + 0x800000000 + g % 32 * 0x10000000

/-- The first address of the CXL range (R156). -/
def cxlBase : Nat := 0x1000000000000

/-- What an address of the map names (R156, R157). -/
def placeOf (a : Nat) : Place :=
  if a < 0xC000000000 then .tower (a / 0x1800000000) (a % 0x1800000000)
  else if a < 0x10000000000 then .reserved
  else if a < 0x1C000000000 then
    let d := (a - 0x10000000000) / 0x1000000000
    let o := (a - 0x10000000000) % 0x1000000000
    if o < 0x4000000 then .lagoon d o
    else if o < 0x800000000 then .reserved
    else if o < 0xA00000000 then .cove (32 * d + (o - 0x800000000) / 0x10000000) ((o - 0x800000000) % 0x10000000)
    else .reserved
  else if a < cxlBase then .reserved
  else if a < 0x1100000000000 then .cxl ((a - cxlBase) / 0x40000000000) ((a - cxlBase) % 0x40000000000)
  else if a < 0xF000000000000 then .reserved
  else .control (a - 0xF000000000000)

/-- The pool that a write to a place draws on: the target number of R342. -/
def Place.target : Place → Nat
  | .tower t _ => 12 + t
  | .lagoon d _ => d
  | .cove g _ => g / 32
  | .cxl p _ => if p < 2 then 21 else 23
  | _ => 0

/-- The shore of a target of R342: 0 West, 1 East. -/
def targetShore (t : Nat) : Nat :=
  if t < 12 then (if t < 6 then 0 else 1) else if t < 20 then (if t < 16 then 0 else 1) else if t < 22 then 0 else 1

/-- The port of a shore. -/
def portOfShore (n : Nat) : Port := if n == 0 then .w else .e

/-! ## Frames and hops (R358 to R360, R365 to R368) -/

/-- The class of a frame by its type (R358): 0 command, 1 request, 2 response, 3 write. R358 gives an idle frame none: it takes that of the management
frames, which have its type (R378; DEDUCED, log entry 117). -/
def frameClass (kind : Nat) : Nat :=
  if kind == 0 then 3 else if [1, 3, 6, 7].contains kind then 1 else if [2, 4, 5, 10].contains kind then 2 else 0

/-- Sequence number a is at or before b on a ring of 2^16. -/
def seqLe (a b : Nat) : Bool := decide ((b + 65536 - a) % 65536 < 32768)

/-- Grid hops of a shore between routers: 0 and 1 join the columns of the first row, 2 and 3 those of the second, 4 to 6 the rows of each column
(log entry 25). The direction is 0 away from router 0. -/
def rowHop (row col : Nat) : Nat := 2 * row + col

/-- The hops along a row from column a to column b, and down a column. -/
def alongRow (base row a b : Nat) : List (Nat × Nat) :=
  if a ≤ b then (List.range (b - a)).map fun k => (base + rowHop row (a + k), 0)
  else (List.range (a - b)).map fun k => (base + rowHop row (a - 1 - k), 1)

def alongColumn (base col a b : Nat) : List (Nat × Nat) :=
  if a < b then [(base + 4 + col, 0)] else if b < a then [(base + 4 + col, 1)] else []

/-- The hop number of the Causeway in the model; 15 + 2 d + k is die port k of die d, outward. -/
def causewayHop : Nat := 14
def portHop (d k : Nat) : Nat × Nat := (15 + 2 * d + k, 0)

/-- The row at whose inner edge a shore meets the Causeway is the frame's own: column 2 in the West, column 0 in the East (R367). -/
def edgeColumn (d : Nat) : Nat := if d < 6 then 2 else 0

/-- The two ways of a frame from die to die: along the column first and then the row, and the row first (R365, R366). To the other shore it goes along the
row to the inner edge, over the Causeway and on along the row (DEDUCED, log entry 25). -/
def gridWays (a b : Nat) : List (Nat × Nat) × List (Nat × Nat) :=
  let base := 7 * (a / 6)
  let base' := 7 * (b / 6)
  let (r, c) := (a % 6 / 3, a % 3)
  let (r', c') := (b % 6 / 3, b % 3)
  if a / 6 = b / 6 then (alongColumn base c r r' ++ alongRow base r' c c', alongRow base r c c' ++ alongColumn base c' r r')
  else
    let across (row : Nat) : List (Nat × Nat) := alongRow base row c (edgeColumn a) ++ [(causewayHop, a / 6)] ++ alongRow base' row (edgeColumn b) c'
    (alongColumn base c r r' ++ across r', across r ++ alongColumn base' c' r r')

/-- The way that a frame takes: the second one where a hop of the first is down and its traffic is sent round (R366). -/
def gridPath (away : List Nat) (a b : Nat) : List (Nat × Nat) :=
  let w := gridWays a b
  if w.1.any fun h => away.contains h.1 then w.2 else w.1

/-- The end of a frame's way: a target of R342. -/
def frameEnd (f : Frame) : Nat :=
  match f.kind with
  | 3 => f.target
  | 5 => f.target
  | _ => (placeOf f.address).target

/-- The way of a frame as targets of R342: responses, grants and completions go back to the issuer. -/
def frameWay (f : Frame) : Nat × Nat :=
  let issuer := if f.source < 384 then f.source / 32 else if f.source < 512 then 20 + 2 * f.engine else 20 + (f.source - 512) / 9
  match f.kind with
  | 2 => (frameEnd f, issuer)
  | 4 => (f.target, issuer)
  | 10 => (frameEnd f, issuer)
  | _ => (issuer, frameEnd f)

/-- The frames of a class that a hop takes and does not deliver, and those that its sender keeps (R359, R360). -/
def classLimit (h : Nat) : Nat := if h = causewayHop then 64 else 32
def replayLimit (h : Nat) : Nat := if h = causewayHop then 128 else 64

namespace State

/-- The die port by which a die sends to a target, by the port select of its section (R342, R365); port 0 without an image. -/
def portSelect (s : State) (d t : Nat) : Nat := b2n (bitOf (fieldAt (Tab.get [] (s.phase (s.pkg.die.getD d 255)).routes d) 0x28 8) t)

/-- Whether a recovery of a shore is under way or waits. -/
def shoreRecovers (s : State) (shore : Nat) : Bool :=
  let r (v : Recovery) : Bool := v.level == 4 || (v.level == 3 && v.unit == shore)
  s.lh.recoveries.any (fun v => r v.2) || s.lh.waiting.any r

/-- The hops whose traffic goes round: those that are down, once the recovery of their shore has ended (R366). -/
def hopsAway (s : State) : List Nat := s.pkg.hopsDown.filter fun h => !s.shoreRecovers (h / 7)

/-- The hops of a frame's way that the model numbers: out of a die, between routers, and the Causeway; those beside towers and harbours, whose routers the
spec does not name, are left out (log entry 25). -/
def framePath (s : State) (f : Frame) : List (Nat × Nat) :=
  let (a, b) := frameWay f
  if a = b then []
  else
    let out := if a < 12 then [portHop a (s.portSelect a b)] else []
    if a < 12 ∧ b < 12 then out ++ gridPath s.hopsAway a b
    else if targetShore a ≠ targetShore b then out ++ [(causewayHop, targetShore a)]
    else out

/-- Whether a hop takes a frame of a class now: the class has a transport credit and the sender's replay buffer has room (R359, R360); the hop is not down, is
not in retraining (R366), and no lane swap is under way in its direction (R368). -/
def hopTakes (s : State) (c : Nat) (h : Nat × Nat) : Bool :=
  let v := s.hop h.1 h.2
  decide ((s.frames.filter fun g => frameClass g.kind == c && (s.framePath g).contains h).length < classLimit h.1)
  && decide (v.buffer.length < replayLimit h.1)
  && if h.1 = causewayHop then !s.pkg.causewayFailed && !s.pkg.swaps.any fun w => w.1 == h.2
     else decide (v.replays < 32) && !s.pkg.hopsDown.contains h.1

/-- Whether a frame can go now: every hop of its way takes it, and no earlier frame of its class waits for one of them. -/
def maySend (s : State) (f : Frame) : Bool :=
  let way := s.framePath f
  way.all (s.hopTakes (frameClass f.kind)) && !s.backlog.any fun g => frameClass g.kind == frameClass f.kind && (s.framePath g).any way.contains

/-- A frame goes onto the fabric: on each hop it takes the next sequence number and a place in the replay buffer (R360). -/
def launch (s : State) (f : Frame) : State :=
  (s.framePath f).foldl (fun s h =>
    let v := s.hop h.1 h.2
    s.setHop h.1 h.2 { v with next := (v.next + 1) % 65536, buffer := v.buffer ++ [(v.next, f)] }) (s.setFrames (s.frames ++ [f]))

/-- A frame is sent: it goes, or waits for room (R359). -/
def send (s : State) (f : Frame) : State := if s.maySend f then s.launch f else s.setBacklog (s.backlog ++ [f])

/-- Frames that waited go, in order, as far as there is room. -/
def sendWaiting (s : State) : State := s.backlog.foldl send (s.setBacklog [])

/-- A hop's receiver has accepted the frames up to a sequence number, in their order (R360). -/
def accepts (s : State) (h : Nat × Nat) (seq : Nat) : State :=
  let v := s.hop h.1 h.2
  if seqLe v.expected seq then s.setHop h.1 h.2 { v with expected := (seq + 1) % 65536 } else s

/-- A frame that arrives is no longer in flight: every hop of its way has accepted it and those before it, and its transport credits are free. -/
def arrived (s : State) (f : Frame) : State :=
  if s.frames.contains f then
    let s := (s.framePath f).foldl (fun s h =>
      match (s.hop h.1 h.2).buffer.find? fun e => decide (e.2 = f) with
      | some e => s.accepts h e.1
      | none => s) s
    (s.setFrames (s.frames.erase f)).sendWaiting
  else s

end State

/-! ## Enabled cores and ownership -/

/-- Whether logical core c of a die exists, by grade (R4), and the self-test left it enabled (R475). -/
def State.enabled (s : State) (g : Nat) : Bool :=
  decide (g < 384) && decide (g % 32 < if s.pkg.gradeB then 28 else 32) && !s.pkg.coresOff.contains g

/-- The partition of die d; 255 for none (R463). -/
def State.dieOwner (s : State) (d : Nat) : Nat := s.pkg.die.getD d 255
def State.cxlOwner (s : State) (p : Nat) : Nat := s.pkg.cxl.getD p 255
def State.linkOwner (s : State) (n : Nat) : Nat := s.pkg.link.getD n 255

/-- The partition that owns a tower page by the layout (R463); 255 for none. -/
def State.pageOwner (s : State) (page : Nat) : Nat :=
  match s.pkg.ranges.find? (fun r => decide (r.first ≤ page) && decide (page < r.first + r.count)) with
  | some r => r.partition
  | none => 255

/-- The partition that owns a physical place (R41, R463): the whole die, port or tower page. A unit whose scrub failed has no owner (R439), and
a unit whose scrub runs is not yet the new owner's to map (R438). -/
def State.ownerOf (s : State) (a : Nat) : Nat :=
  if s.lh.unowned.any (fun u => decide (u.1 ≤ a) && decide (a < u.1 + u.2)) || s.sessions.any (fun e => e.2.units.any fun u => decide (u.1 ≤ a) && decide (a < u.1 + u.2.1)) then 255
  else match placeOf a with
    | .tower _ _ => s.pageOwner (a / 0x200000)
    | .lagoon d _ => s.dieOwner d
    | .cove g _ => s.dieOwner (g / 32)
    | .cxl p _ => s.cxlOwner p
    | _ => 255

/-- The port that owns partition p (R46, R48, R400): the controlling port in unified mode, in split mode port W for partition 0
and port E for partition 1. -/
def State.portOwns (s : State) (port : Port) (p : Nat) : Bool :=
  if s.pkg.split then p == port.shore
  else s.pkg.control == port.shore + 1

/-- Whether a port is a standby port (R46, R481). -/
def State.standby (s : State) (port : Port) : Bool :=
  !s.pkg.split && s.pkg.control != port.shore + 1

/-! ## The error log -/

/-- What an entry of the error log says (R446); shore is used when the unit names none. -/
structure ErrInfo where
  code : Nat
  severity : Nat
  kind : Nat := 0
  unit : Nat := 0
  engine : Nat := 15
  partition : Option Nat := none
  task : Nat := 0xFFFFFFFF
  detail : Nat := 0
  qualifier : Bool := false
  cause : Option Nat := none
  shore : Nat := 0

/-- The logs that an error is entered in (R445): 0 West, 1 East, 2 both. -/
def ErrInfo.where' (e : ErrInfo) : Nat :=
  match e.kind with
  | 1 => if e.unit / 32 < 6 then 0 else 1
  | 2 => if e.unit < 6 then 0 else 1
  | 3 => if e.unit < 4 then 0 else 1
  | 4 => if e.unit < 2 then 0 else 1
  | 5 => if e.unit < 18 then 0 else 1
  | 6 => if e.unit < 2 then 0 else 1
  | 8 => if e.unit < 7 then 0 else 1
  | 10 => e.unit
  | 7 | 9 | 11 => 2
  | _ => e.shore

/-- The 32 bytes of an entry (R446). -/
def ErrInfo.bytes (e : ErrInfo) (seq : Nat) (both : Bool) : List Byte :=
  leBytes 8 seq ++ leBytes 8 (e.cause.getD (2 ^ 64 - 1)) ++ leBytes 2 e.code ++
  leBytes 1 (b2n e.qualifier * 16 + b2n both * 4 + e.severity) ++
  leBytes 1 (e.kind * 16 + b2n e.partition.isSome * 8 + e.partition.getD 0 % 8) ++
  leBytes 2 ((if e.kind == 1 then e.engine else 15) * 4096 + e.unit % 512) ++
  leBytes 4 e.task ++ leBytes 6 e.detail

/-- Enter an entry in a log, or drop it when 256 are unread (R450). -/
def ErrLog.enter (l : ErrLog) (east both : Bool) (e : ErrInfo) : ErrLog :=
  let seq := b2n east * 2 ^ 63 + l.seq
  if l.unread == 256 then { l with seq := l.seq + 1, lost := sat 16 (l.lost + 1) }
  else { l with entries := Tab.put id [] l.entries l.tail (e.bytes seq both), seq := l.seq + 1, tail := (l.tail + 1) % 256, unread := l.unread + 1 }

namespace State

/-- A log by shore. -/
def log (s : State) (shore : Nat) : ErrLog := if shore == 0 then s.lh.west else s.lh.east

def setLog (s : State) (shore : Nat) (l : ErrLog) : State :=
  s.setLh (if shore == 0 then { s.lh with west := l } else { s.lh with east := l })

/-- The sequence number that the next entry of a log takes (R445). -/
def nextSeq (s : State) (shore : Nat) : Nat := b2n (shore != 0) * 2 ^ 63 + (s.log shore).seq

/-- An MSI-X message, or its pending bit where the vector is masked (R396). -/
def fireVector (s : State) (p : Port) (v : Nat) : State :=
  if s.rb ⟨.msixTable, p.harbour, 2 * v + 1⟩ 32 then
    s.setReg ⟨.msixPba, p.harbour, v / 64⟩ (s.reg ⟨.msixPba, p.harbour, v / 64⟩ ||| BitVec.ofNat 64 (2 ^ (v % 64)))
  else s.emit (.msix p v)

/-- The bits of HB_ERRSUM that an entry sets (R450, R451). -/
def setErrsum (s : State) (shore : Nat) (e : ErrInfo) (dropped : Bool) : State :=
  let bits := 2 ^ (61 + e.severity) + b2n dropped * 2 ^ 60 + (if 1 ≤ e.code / 256 ∧ e.code / 256 ≤ 8 then 2 ^ (e.code / 256) else 0)
  let r : RegId := ⟨.hbErrsum, 2 * shore, 0⟩
  s.setReg r (s.reg r ||| BitVec.ofNat 64 bits)

/-- Enter an error in one log. -/
def logOne (s : State) (shore : Nat) (both : Bool) (e : ErrInfo) : State :=
  ((s.setLog shore ((s.log shore).enter (shore != 0) both e)).setErrsum shore e ((s.log shore).unread == 256))

/-- Enter an error in the log or logs of R445, and signal a management entry on both ports (R448) and to the board controller as a PLDM event (R488,
log entry 31). -/
def logErr (s : State) (e : ErrInfo) : State :=
  let s := match e.where' with
    | 0 => s.logOne 0 false e
    | 1 => s.logOne 1 false e
    | _ => (s.logOne 0 true e).logOne 1 true e
  if e.severity == 2 then
    let s := s.setPkg { s.pkg with alerts := s.pkg.alerts + 1 }
    (s.fireVector .w (s.rf ⟨.hbPortcfg, 0, 0⟩ 9 0)).fireVector .e (s.rf ⟨.hbPortcfg, 2, 0⟩ 9 0)
  else s

/-- The sequence number that an error takes when it is entered now: the West entry's where both logs take one. -/
def seqOf (s : State) (e : ErrInfo) : Nat := s.nextSeq (if e.where' == 1 then 1 else 0)

end State

/-! ## Error codes -/

namespace E
def coveUe := 0x0101
def lagoonUe := 0x0102
def cvWindow := 0x0103
def ringConfig := 0x0104
def ringResidue := 0x0105
def rockpoolParity := 0x0106
def rowMapped := 0x0107
def repairFull := 0x0108
def towerUe := 0x0110
def towerLink := 0x0111
def cxlRange := 0x0117
def cxlPoison := 0x0118
def arrayCheck := 0x0201
def mmaInvalid := 0x0202
def arrayParity := 0x0203
def keepStale := 0x0204
def accState := 0x0205
def ebbConfig := 0x0206
def packArena := 0x0210
def packInvalid := 0x0211
def isectInvalid := 0x0301
def mergeInvalid := 0x0302
def isectOrder := 0x0310
def isectFit := 0x0311
def mergeOrder := 0x0320
def runMismatch := 0x0321
def mergeRange := 0x0322
def rpOrder := 0x0330
def handle := 0x0400
def descInvalid := 0x0401
def streamInvalid := 0x0402
def windowFault := 0x0410
def xlateFault := 0x0411
def permFault := 0x0412
def tierClass := 0x0413
def scatterTarget := 0x0414
def shardMap := 0x0415
def groyneEmpty := 0x0420
def streamSlot := 0x0421
def tileCrc := 0x0440
def tileFormat := 0x0441
def regAddr := 0x0506
def errlogHead := 0x0507
def busyWrite := 0x0508
def standbyWrite := 0x0509
def engineHung := 0x0520
def dspItem := 0x0530
def dspFault := 0x0531
def chOverrun := 0x0532
def chDspWrite := 0x0533
def dspConfig := 0x0534
def launchInvalid := 0x0540
def syncRange := 0x0541
def tidemarkOvf := 0x0542
def semaOvf := 0x0543
def nestInvalid := 0x0544
def loopDepth := 0x0545
def signalTarget := 0x0546
def nativeInvalid := 0x0550
def skipped := 0x0551
def fusedTarget := 0x0552
def shapeExceedsPlan := 0x0553
def intakeLocked := 0x0554
def streamFetch := 0x0555
def expressClosed := 0x0556
def notSlack := 0x0560
def strataCrc := 0x0561
def strataFormat := 0x0562
def strataTarget := 0x0563
def strataAbandoned := 0x0564
def queueEntry := 0x0571
def queuePartition := 0x0572
def claimRefused := 0x0573
def modeRefused := 0x0574
def splitWrite := 0x0575
def memwinFault := 0x0576
def queueConfig := 0x0577
def queueFetch := 0x0578
def layoutRefused := 0x0579
def quotaRefused := 0x0580
def recoveryDone := 0x0590
def recoveryEscalated := 0x0591
def recoveryFailed := 0x0592
def resetFailed := 0x0593
def soundWrite := 0x0594
def selftestFail := 0x0595
def resetRefused := 0x0596
def cwLaneSpared := 0x0601
def cwFailed := 0x0603
def fabricHop := 0x0605
def blAuth := 0x0610
def blNokey := 0x0611
def blDown := 0x0612
def noRoute := 0x0613
def blKeyFail := 0x0614
def blMisrouted := 0x0615
def blPackage := 0x0616
def targetRecovering := 0x0620
def cxlDown := 0x0630
def cxlTopology := 0x0631
def cxlNoide := 0x0632
def cxlIdeFail := 0x0634
def protectedWrite := 0x0701
def fwVerify := 0x0702
def fwRollback := 0x0703
def sealNokey := 0x0704
def tdispRefused := 0x0705
def tdiAccess := 0x0706
def debugClosed := 0x0707
def debugInSession := 0x0708
def entropy := 0x0709
def attlogFull := 0x070A
def scrubFault := 0x070B
def powerGated := 0x0801
def thermalThrottle := 0x0802
def thermalCritical := 0x0803
def vrFault := 0x0804
def capRange := 0x0805
def inputRange := 0x0806
def canaryMargin := 0x0810
end E

end Sys2Proof.Machine
end

