-- ==== Sys2Proof/Machine/Operands.lean ====
section
/-! DEFINITION. The operand forms: the launch record (R284), page tables and translation (R121 to R127), Cove windows (R140, R157),
tensor descriptors (R98 to R106), bounds and interior (R107, R108), shards (R118, R119), stream records (R161, R162), loop-nest
entries (R299 to R301) and the stream map (R323). -/

namespace Sys2Proof.Machine

/-- Why an access or a check fails: the error code, and what the entries of R179 and R446 say of it. -/
structure Fail where
  code : Nat
  /-- device physical address presented to the failing step, with the global bit and package of R179 -/
  addr : Nat := 0
  handle : Nat := 0xFFF
  visit : Nat := 0
  /-- the Estuary's port (R260) -/
  port : Nat := 0
  detail : Nat := 0
  /-- where in memory an uncorrectable error stopped a read (R147, R153) -/
  met : Option (Nat × Nat) := none
  deriving DecidableEq, Repr

/-! ## The launch record (R284) -/

namespace Task

def lrPartition (t : Task) : Nat := fieldAt t.launch 4 1 % 8
def lrSlot (t : Task) : Nat := fld (fieldAt t.launch 4 1) 5 4
def debug (t : Task) : Bool := bitOf (fieldAt t.launch 4 1) 7
def retain (t : Task) : Bool := bitOf (fieldAt t.launch 4 1) 6
def nests (t : Task) : Nat := fieldAt t.launch 5 1
def windows (t : Task) : Nat := fieldAt t.launch 6 1
def descriptors (t : Task) : Nat := fieldAt t.launch 8 2
def streams (t : Task) : Nat := fieldAt t.launch 10 2
def cvbase (t : Task) : Nat := fieldAt t.launch 12 2 % 1024
def cvlimit (t : Task) : Nat := fieldAt t.launch 14 2 % 1024
def desctable (t : Task) : Nat := fieldAt t.launch 16 8
def streamtable (t : Task) : Nat := fieldAt t.launch 24 8
def windowtable (t : Task) : Nat := fieldAt t.launch 32 8
def nesttable (t : Task) : Nat := fieldAt t.launch 40 8
def seed (t : Task) : Nat := fieldAt t.launch 48 8
def trunc (t : Task) : Bool := bitOf (fieldAt t.launch 56 8) 63
def truncEngine (t : Task) : Nat := fld (fieldAt t.launch 56 8) 50 48
def truncCount (t : Task) : Nat := fieldAt t.launch 56 8 % 2 ^ 48
def shape (t : Task) (i : Nat) : Nat := fieldAt t.launch (64 + 4 * i) 4
def plan (t : Task) (i : Nat) : Nat := fieldAt t.launch (128 + 4 * i) 4

end Task

/-- The participating cores that a launch record names, as global indices (R284). -/
def launchCores (rec : List Byte) : List Nat :=
  (List.range 384).filter fun g => bitOf (fieldAt rec (192 + 4 * (g / 32)) 4) (g % 32)

/-! ## The stream map (R323) -/

def mapDpa (m : List Byte) (e : Nat) : Bool := bitOf (fieldAt m (16 * e) 8) 63
def mapAddress (m : List Byte) (e : Nat) : Nat := fieldAt m (16 * e) 8 % 2 ^ 63
def mapCount (m : List Byte) (e : Nat) : Nat := fieldAt m (16 * e + 8) 4
def mapExpress (m : List Byte) (e : Nat) : Bool := bitOf (fieldAt m (16 * e + 12) 4) 0
def mapReport (m : List Byte) : Nat := fieldAt m 128 8
def mapDump (m : List Byte) : Nat := fieldAt m 136 8

/-! ## Translation (R122, R124, R125) -/

/-- Whether a place lies in control space, which no engine reaches (R122). -/
def Place.isControl : Place → Bool
  | .control _ => true
  | _ => false

/-- The first physical address past what tower t's slot holds (R156). -/
def State.towerSize (s : State) : Nat := if s.pkg.gradeB then 0x1000000000 else 0x1800000000

/-- The page table of R124 and the page number of R158 for an address, with the page size; none for an address of no paged tier. -/
def pageOf (a : Nat) : Option (Nat × Nat × Nat) :=
  match placeOf a with
  | .tower _ _ => some (0, a / 0x200000, 0x200000)
  | .cxl _ _ => some (1, (a - cxlBase) / 0x200000, 0x200000)
  | .lagoon d o => some (2, d * 1024 + o / 0x10000, 0x10000)
  | _ => none

/-- Whether partitions p and q have each declared the bytes from a to b shared with the other (R401). -/
def State.declares (s : State) (p q a b : Nat) : Bool :=
  (List.range 16).any fun i =>
    s.rb ⟨.lhSharebase, 0, 16 * p + i⟩ 63 && s.rf ⟨.lhSharebase, 0, 16 * p + i⟩ 62 60 == q &&
    decide (s.rf ⟨.lhSharebase, 0, 16 * p + i⟩ 51 16 * 0x10000 ≤ a) &&
    decide (b ≤ s.rf ⟨.lhSharelim, 0, 16 * p + i⟩ 51 16 * 0x10000)

/-- Whether a frame of a table's tier names usable bytes of that tier (R125, R156, R157). -/
def State.frameOk (s : State) (table a : Nat) : Bool :=
  match table, placeOf a with
  | 0, .tower _ o => decide (o < s.towerSize)
  | 1, .cxl _ _ => true
  | 2, .lagoon d o => decide (o < s.rf ⟨.lgSize, d, 0⟩ 10 0 * 0x10000)
  | _, _ => false

/-- The number of partition p's sealing key in an epoch's slot (R431, R432). -/
def State.sealKey (s : State) (p epoch : Nat) : Option Nat :=
  match epoch with
  | 0 => (s.session p).key0
  | 1 => (s.session p).key1
  | _ => none

/-- Steps 5 to 8 of R122: the physical address and the epoch of a sealed page (2 when it is not sealed), or the code of the first
step that fails; an access to a sealed page needs a key in its slot (R432). An address of control space, of a Cove or of a reserved range translates in no table (R156). -/
def State.translate (s : State) (p : Nat) (tenant write : Bool) (a : Nat) : Except Nat (Nat × Nat) :=
  match pageOf a with
  | none => .error E.xlateFault
  | some (table, page, size) =>
    let base := s.reg ⟨.lhPtbase, 0, 3 * p + table⟩
    let e := leNat (s.bytes (wfld base 51 12 * 4096 + 8 * page) 8)
    let phys := fld e 35 0 * 0x10000
    if !wbit base 0 || !s.frameOk table a && table == 0 || !bitOf e 63 || fld e 57 36 != 0
        || (table != 2 && fld e 4 0 != 0) || (table != 1 && bitOf e 59) || !s.frameOk table phys then .error E.xlateFault
    else if !(if write then bitOf e 61 else bitOf e 62) then .error E.permFault
    else
      let owner := s.ownerOf phys
      if owner != p && !(bitOf e 60 && owner < 8 && s.declares p owner phys (phys + size) && s.declares owner p phys (phys + size)) then
        .error E.permFault
      else if tenant && table == 1 && !bitOf e 59 then .error E.tierClass
      else if bitOf e 59 && (s.sealKey p (fld e 58 58)).isNone then .error E.sealNokey
      else .ok (phys + a % size, if bitOf e 59 then fld e 58 58 else 2)

/-- The bytes that CXL port p maps (R154, R408). -/
def State.cxlCapacity (s : State) (p : Nat) : Nat := s.rf ⟨.cxCap, if p < 2 then 1 else 3, p % 2⟩ 14 0 * 0x10000000

/-- Whether any poisoned segment or block meets the n bytes from an address on (R147, R153). -/
def State.poisoned (s : State) (a n : Nat) : Bool := s.poison.any fun c => decide (c.1 < a + n) && decide (a < c.1 + c.2)

/-- The bytes that one code word of a memory covers: a 128-bit segment of a Cove or Lagoon, or a 64-byte block (R146, R153). -/
def segmentOf (a : Nat) : Nat :=
  match placeOf a with
  | .cove _ _ => 16
  | .lagoon _ _ => 16
  | _ => 64

/-- Whether a read of n bytes at an address meets an error that has struck a segment (R146, R147, R153). -/
def meets (a n : Nat) (e : Nat × Bool) : Bool :=
  let u := segmentOf e.1
  decide (e.1 / u * u < a + n) && decide (a < e.1 / u * u + u)

/-- Whether a read of n bytes cannot be corrected: a segment is poisoned, or an uncorrectable error has struck it (R147, R153). -/
def State.spoilt (s : State) (a n : Nat) : Bool := s.poisoned a n || s.struck.any fun e => e.2 && meets a n e

/-- What stops a read of n bytes at a physical address (R147, R153, R154); none when it can be served. -/
def State.readFault (s : State) (a n : Nat) : Option Nat :=
  match placeOf a with
  | .tower _ _ => if s.spoilt a n then some E.towerUe else none
  | .lagoon _ _ => if s.spoilt a n then some E.lagoonUe else none
  | .cove _ _ => if s.spoilt a n then some E.coveUe else none
  | .cxl p o => if s.cxlCapacity p < o + n then some E.cxlRange else if s.spoilt a n then some E.cxlPoison else none
  | _ => none

/-- What stops a write (R147, R154): a write of part of a poisoned segment, or past a port's capacity. -/
def State.writeFault (s : State) (a n : Nat) : Option Nat :=
  let part := s.poison.any fun c => decide (c.1 < a + n) && decide (a < c.1 + c.2) && !(decide (a ≤ c.1) && decide (c.1 + c.2 ≤ a + n))
  match placeOf a with
  | .cxl p o => if s.cxlCapacity p < o + n then some E.cxlRange else none
  | .lagoon _ _ => if part then some E.lagoonUe else none
  | .cove _ _ => if part then some E.coveUe else none
  | .tower _ _ => if part then some E.towerUe else none
  | _ => none

/-- The key that the 256-byte unit of an address was last written under; 0 for none (R155, log entry 9). -/
def State.unitKey (s : State) (a : Nat) : Nat := Tab.get 0 s.seals (a / 256)

/-- What the expander holds of unit u, 256 bytes, that was written under a key, 0 for none: AES-256-XTS of the plaintext, with the unit's number from
the base of the CXL range as tweak (R155). -/
def sealUnit (key u : Nat) (bs : List Byte) : List Byte :=
  if key = 0 then bs else Aes.unit false (Config.sealKeyBits key) (u - cxlBase / 256) bs

/-- What a read under a key sees of what the expander holds (R155). -/
def openUnit (key u : Nat) (bs : List Byte) : List Byte :=
  if key = 0 then bs else Aes.unit true (Config.sealKeyBits key) (u - cxlBase / 256) bs

/-- The 256 bytes of a unit as a read under a key sees them: the plaintext that was written, when it was written under that key (log entry 9). -/
def State.unitBytes (s : State) (key u : Nat) : List Byte :=
  let k := s.unitKey (256 * u)
  let bs := s.bytes (256 * u) 256
  if k = key then bs else openUnit key u (sealUnit k u bs)

/-- The bytes that a read of partition p under an epoch sees (R155): State holds plaintext, with the key of each unit. -/
def State.readBytes (s : State) (p epoch a n : Nat) : List Byte :=
  let key := (s.sealKey p epoch).getD 0
  let us := (List.range (ceilDiv (a % 256 + n) 256)).map (a / 256 + ·)
  if us.all (fun u => s.unitKey (256 * u) == key) then s.bytes a n
  else (((us.map (s.unitBytes key)).flatten).drop (a % 256)).take n

/-- Mark the units of a range as written under a key. -/
def State.sealUnits (s : State) (key : Nat) : Nat → Nat → State
  | _, 0 => s
  | u, n + 1 => State.sealUnits (s.setSeals (Tab.put id 0 s.seals u key)) key (u + 1) n

/-- A write of a whole segment replaces what had struck it (R147). -/
def State.clearStruck (s : State) (a n : Nat) : State :=
  if s.struck.isEmpty then s
  else s.setStruck (s.struck.filter fun e => let u := segmentOf e.1; !(decide (a ≤ e.1 / u * u) && decide (e.1 / u * u + u ≤ a + n)))

/-- Write bytes under an epoch (R155), clearing the poison of the segments they cover whole (R147). -/
def State.writeBytes (s : State) (p epoch a : Nat) (bs : List Byte) : State :=
  let s := (s.clearPoison a bs.length).clearStruck a bs.length
  match placeOf a with
  | .cxl _ _ =>
    let key := (s.sealKey p epoch).getD 0
    let u := a / 256
    let whole := s.readBytes p epoch (256 * u) 256
    let off := a - 256 * u
    ((s.setBytes (256 * u) (whole.take off ++ bs ++ whole.drop (off + bs.length))).sealUnits key u 1)
  | _ => s.setBytes a bs

/-- A read of a table or record through steps 5 to 8 of R122 (R265, R284), in pieces that no page boundary cuts; poison stops it. -/
def State.fetchPieces (s : State) (p : Nat) : Nat → Nat → Nat → Except Fail (List Byte)
  | 0, _, _ => .ok []
  | k + 1, a, n =>
    if n = 0 then .ok []
    else
      let m := min n (256 - a % 256)
      match s.translate p false false a with
      | .error c => .error { code := c, addr := a }
      | .ok (phys, ep) =>
        match s.readFault phys m with
        | some c => .error { code := c, addr := a, met := some (phys, m) }
        | none =>
          match s.fetchPieces p k (a + m) (n - m) with
          | .error f => .error f
          | .ok r => .ok (s.readBytes p ep phys m ++ r)

def State.fetch (s : State) (p a n : Nat) : Except Fail (List Byte) := s.fetchPieces p (n / 256 + 2) a n

/-! ## Windows (R121, R286) and Coves (R140, R157) -/

/-- A window: base, limit, read and write permission. -/
structure Window where
  base : Nat
  limit : Nat
  read : Bool
  write : Bool
  deriving DecidableEq, Repr

def windowOf (bs : List Byte) : Window :=
  let b := fieldAt bs 0 8
  ⟨fld b 51 12 * 4096, fld (fieldAt bs 8 8) 51 12 * 4096, bitOf b 0, bitOf b 1⟩

/-- The task's window table. -/
def State.windowTable (s : State) (t : Task) : Except Fail (List Window) :=
  match s.fetch t.partition t.windowtable (16 * t.windows) with
  | .error f => .error f
  | .ok bs => .ok ((chunksOf 16 t.windows bs).map windowOf)

/-- Step 3 of R122. -/
def inWindows (ws : List Window) (write : Bool) (a : Nat) : Bool :=
  ws.any fun w => decide (w.base ≤ a) && decide (a < w.limit) && (if write then w.write else w.read)

/-- The window of a slot of a core: base, limit in units of 4 KiB, and validity (R142). -/
def State.cvWindow (s : State) (g slot : Nat) : Nat × Nat × Bool :=
  (s.rf ⟨.cvBase, g, slot⟩ 9 0, s.rf ⟨.cvBound, g, slot⟩ 9 0, s.rb ⟨.cvBound, g, slot⟩ 63)

/-- Step 4 of R122: the physical place of a Cove address for a task in a slot, as an address of the core's Cove slot (R140, R141). -/
def State.coveAddr (s : State) (p slot g off : Nat) : Option Nat :=
  let (b, l, v) := s.cvWindow g slot
  if s.enabled g && s.dieOwner (g / 32) == p && v && off < (l - b) * 4096 then some (coveBase g + b * 4096 + off) else none

/-- A register of Bangeby link n, in the harbour that carries it (R381). -/
def blReg (n : RegName) (link : Nat) : RegId := ⟨n, link / 9, link % 9⟩

/-- The link that a transaction to a peer takes (R374): among the links of LH_ROUTEq that are up, keyed and owned by the partition, the
one at position (address >> 8) mod k. -/
def State.routeLink (s : State) (p q a : Nat) : Option Nat :=
  let ls := (List.range 36).filter fun n =>
    s.rb ⟨.lhRoute, 0, q⟩ n && s.rb (blReg .blStatus n) 63 && s.rb (blReg .blStatus n) 62 && s.linkOwner n == p
  if ls.isEmpty then none else ls[a / 256 % ls.length]?

/-- This module's package number (R382). -/
def State.packageNumber (s : State) : Nat := s.rf ⟨.lhPackage, 0, 0⟩ 7 0

/-- Where an access goes after steps 3 to 8: a physical address with its epoch, or a peer. -/
inductive Target where
  | phys (a epoch : Nat)
  | peer (package a : Nat)
  deriving DecidableEq, Repr

/-- Steps 3 to 8 of R122 for an address with its global bit and package number (R100, R122). -/
def State.resolve (s : State) (t : Task) (ws : List Window) (tenant write global : Bool) (package : Nat) (a : Int) : Except Fail Target :=
  let n := a.toNat
  let shown := n % 2 ^ 52 + (if global then 2 ^ 60 + package * 2 ^ 52 else 0)
  if a < 0 ∨ 2 ^ 52 ≤ n ∨ !inWindows ws write n ∨ (placeOf n).isControl then
    .error { code := E.windowFault, addr := shown }
  else if global && package != s.packageNumber then
    (if (s.routeLink t.partition package n).isSome then .ok (.peer package n) else .error { code := E.noRoute, addr := shown })
  else match placeOf n with
    | .cove g off =>
      match s.coveAddr t.partition t.slot g off with
      | some pa => .ok (.phys pa 2)
      | none => .error { code := E.windowFault, addr := shown }
    | _ =>
      match s.translate t.partition tenant write n with
      | .ok (pa, ep) => .ok (.phys pa ep)
      | .error c => .error { code := c, addr := shown }

/-! ## Tensor descriptors (R98 to R106) -/

/-- A tensor descriptor with its run-time extents patched (R100, R101, R103). -/
structure Desc where
  base : Nat
  package : Nat
  global : Bool
  ty : Nat
  format : Nat
  layout : Nat
  rank : Nat
  tenant : Bool
  partition : Nat
  rpwide : Bool
  keyword : Bool
  shardmap : Nat
  shard : List Nat
  extent : List Nat
  stride : List Int
  lower : List Nat
  upper : List Nat
  fill : Nat
  deriving DecidableEq, Repr

/-- The n-byte fields of a descriptor from a byte offset on, one for each dimension. -/
def dimFields (bs : List Byte) (off n : Nat) : List Nat := (List.range 8).map fun k => fieldAt bs (off + n * k) n

/-- Bits 0 to 60 of a base word or a pointer-list entry: address, package, global (R100, R113). -/
def baseFields (w : Nat) : Nat × Nat × Bool := (fld w 51 0, fld w 59 52, bitOf w 60)

/-- The descriptor of 128 bytes, before any run-time extent is patched. -/
def descOf (bs : List Byte) : Desc :=
  let b := fieldAt bs 0 8
  let c := fieldAt bs 8 8
  { base := fld b 51 0, package := fld b 59 52, global := bitOf b 60, ty := fld c 4 0, format := fld c 7 5, layout := fld c 10 8,
    rank := fld c 14 11, tenant := bitOf c 15, partition := fld c 18 16, rpwide := bitOf c 19, keyword := bitOf c 28,
    shardmap := fld c 39 32, shard := (List.range 8).map fun k => fld c (41 + 2 * k) (40 + 2 * k),
    extent := dimFields bs 16 4, stride := (dimFields bs 48 5).map (sext 40), lower := dimFields bs 88 2, upper := dimFields bs 104 2,
    fill := fieldAt bs 120 8 }

namespace Desc

def ext (d : Desc) (k : Nat) : Nat := d.extent.getD k 0
def str (d : Desc) (k : Nat) : Int := d.stride.getD k 0
def low (d : Desc) (k : Nat) : Nat := d.lower.getD k 0
def upp (d : Desc) (k : Nat) : Nat := d.upper.getD k 0

/-- Formats of R104. -/
def isTiled (d : Desc) : Bool := d.format == 1 || d.format == 4
def isList (d : Desc) : Bool := d.format == 3 || d.format == 4
def isDense (d : Desc) : Bool := d.format == 0 || d.format == 3
def isRp (d : Desc) : Bool := d.format == 2

/-- The width of an element in bytes, for a type stored as bytes. -/
def bytes (d : Desc) : Nat := eltWidth d.ty / 8

/-- The field rules of R102, R104 and R110, on the raw control word and the fields. -/
def fieldsOk (d : Desc) (b c : Nat) (p : Nat) : Bool :=
  let above (l : List Nat) := (l.drop d.rank).all (· == 0)
  let runtime := (List.range 8).map fun k => b2n (bitOf c (20 + k))
  fld b 63 61 == 0 && fld c 63 60 == 0 && fld c 31 29 == 0
  && decide (1 ≤ d.rank) && decide (d.rank ≤ 8)
  && above d.extent && (d.stride.drop d.rank).all (· == 0) && above d.lower && above d.upper && above runtime && above d.shard
  && (d.shardmap != 0xFF || d.shard.all (· == 0))
  && d.partition == p
  && (d.extent.take d.rank).all (· != 0)
  && decide (fld c 59 56 + d.rank ≤ 16)
  && decide (d.format ≤ 4)
  && (!d.isTiled || (d.stride.all (· == 0) && d.layout == 0 && decide (2 ≤ d.rank) && d.ext 0 % 64 == 0 && d.ext 1 % 64 == 0))
  && (!d.isRp || (d.rank == 2 && d.lower.all (· == 0) && d.upper.all (· == 0)))
  && (!d.isList || (decide ((if d.format == 4 then 3 else 2) ≤ d.rank) && decide (d.ext (d.rank - 1) ≤ 65536) && d.str (d.rank - 1) == 0
        && d.low (d.rank - 1) == 0 && d.upp (d.rank - 1) == 0))
  && (d.fill / 2 ^ (if isMx d.ty then 0 else eltWidth d.ty)) == 0

/-- Whether the extents, run-time ones in place, keep the multiples of 64 of R104 and R106. -/
def blocksOk (d : Desc) : Bool :=
  !(d.isTiled || (d.isDense && (d.layout == 2 || d.layout == 3))) || (d.ext 0 % 64 == 0 && d.ext 1 % 64 == 0)

/-- Whether the directory base of a TILED descriptor lies on a 16-byte boundary (R104). -/
def baseOk (d : Desc) : Bool := d.format != 1 || d.base % 16 == 0

/-- The combinations of type, format and layout of R105 and R106. R105's "rank at least 2" of a column-major layout counts every
dimension of the descriptor, the list dimension of a DENSE_PTRLIST too: the spec does not say which (DESIGN CHOICE, log entry 107). -/
def layoutOk (d : Desc) : Bool :=
  let w := eltWidth d.ty
  let v := w / 8
  w != 0 && match d.format with
  | 1 => true
  | 4 => true
  | 2 => [0x00, 0x01, 0x02, 0x03, 0x04, 0x05, 0x0F, 0x10, 0x12, 0x13].contains d.ty
  | _ =>
    if isMx d.ty then false
    else if isPlanes d.ty then d.layout == 4 && d.str 0 == 0 && d.stride.all (fun z => z % 4 == 0)
    else match d.layout with
      | 0 => d.str 0 == 0
      | 1 => decide (2 ≤ d.rank) && d.str 1 == 0
      | 2 | 3 => decide (2 ≤ d.rank) && d.ext 0 % 64 == 0 && d.ext 1 % 64 == 0
          && d.str 1 % (4096 * v : Nat) == 0 && decide ((ceilDiv (d.ext 0) 64 * 4096 * v : Nat) ≤ d.str 1)
      | _ => false

/-- Whether every coordinate of dimensions 0 to r − 1 lies inside its extent (R107). -/
def inExtent (d : Desc) (x : List Int) : Bool :=
  (List.range d.rank).all fun k => decide (0 ≤ x.getD k 0) && decide (x.getD k 0 < d.ext k)

/-- Whether every coordinate lies inside the interior box (R108). -/
def inInterior (d : Desc) (x : List Int) : Bool :=
  (List.range d.rank).all fun k => decide ((d.low k : Int) ≤ x.getD k 0) && decide (x.getD k 0 < (d.ext k : Int) - d.upp k)

/-- The byte offset of an element from its base, and for the plane layout the bit within each plane word (R105). -/
def offset (d : Desc) (x : List Int) : Int × Nat :=
  let xk (k : Nat) : Int := x.getD k 0
  let v : Int := d.bytes
  let dims := if d.isList then d.rank - 1 else d.rank
  let outer := ((List.range dims).filter (2 ≤ ·)).foldl (fun (a : Int) k => a + xk k * d.str k) 0
  let x1 := if 2 ≤ dims then xk 1 else 0
  match d.layout with
  | 0 => (outer + x1 * d.str 1 + xk 0 * v, 0)
  | 1 => (outer + xk 0 * d.str 0 + x1 * v, 0)
  | 2 => (outer + x1 / 64 * d.str 1 + xk 0 / 64 * 4096 * v + (64 * ((x1 % 64 + xk 0 % 64) % 64) + x1 % 64) * v, 0)
  | 3 => (outer + x1 / 64 * d.str 1 + xk 0 / 64 * 4096 * v + (64 * (xk 0 % 64) + x1 % 64) * v, 0)
  | _ => (outer + x1 * d.str 1 + xk 0 / 32 * (4 * eltWidth d.ty : Nat), (xk 0 % 32).toNat)

/-- The number of entries of one instance's directory, and the entry of the tile that holds a coordinate (R90). -/
def dirCount (d : Desc) : Nat :=
  let dims := if d.isList then d.rank - 1 else d.rank
  ((List.range dims).filter (2 ≤ ·)).foldl (fun a k => a * d.ext k) (d.ext 0 / 64 * (d.ext 1 / 64))

def dirIndex (d : Desc) (ext : List Nat) (x : List Int) : Nat :=
  let dims := if d.isList then d.rank - 1 else d.rank
  let e (k : Nat) := ext.getD k 0
  let outer := ((List.range dims).filter (2 ≤ ·)).reverse.foldl (fun a k => a * e k + (x.getD k 0).toNat) 0
  (outer * (e 1 / 64) + (x.getD 1 0).toNat / 64) * (e 0 / 64) + (x.getD 0 0).toNat / 64

/-- The coordinates of element (0, 0) of the tile at entry n, counted across the instances of a list (R90, R296). -/
def tileCoords (d : Desc) (n : Nat) : List Int :=
  let c := d.ext 0 / 64
  let r := d.ext 1 / 64
  let start : List Int × Nat := ([((n % c * 64 : Nat) : Int), ((n / c % r * 64 : Nat) : Int)], n / c / r)
  ((List.range d.rank).filter (2 ≤ ·)).foldl (fun a k => (a.1 ++ [((a.2 % d.ext k : Nat) : Int)], a.2 / d.ext k)) start |>.1

/-- The number of tiles that a TILED descriptor holds. -/
def tileCount (d : Desc) : Nat := d.dirCount * (if d.isList then d.ext (d.rank - 1) else 1)

end Desc

/-- A descriptor as an engine of a task's slot fetches it (R98, R99, R102 to R106); off: the code of a directory base off its 16-byte
boundary (R104, R225). -/
def State.descriptorOr (s : State) (t : Task) (core handle off : Nat) : Except Fail Desc :=
  if handle = 0xFFF ∨ t.descriptors ≤ handle then .error { code := E.handle, handle := handle }
  else match s.fetch t.partition (t.desctable + 128 * handle) 128 with
    | .error f => .error { f with handle := handle }
    | .ok bs =>
      let d := descOf bs
      let b := fieldAt bs 0 8
      let c := fieldAt bs 8 8
      if !(d.fieldsOk b c t.partition && d.layoutOk) then .error { code := E.descInvalid, handle := handle }
      else if !d.baseOk then .error { code := off, handle := handle }
      else
        let marked := (List.range d.rank).filter fun k => bitOf c (20 + k)
        let reg (k : Nat) := fld c 59 56 + k
        let value (k : Nat) := s.rf ⟨.pilShape, core, 16 * t.slot + reg k⟩ 31 0
        match marked.find? fun k => t.plan (reg k) == 0 with
        | some _ => .error { code := E.launchInvalid, handle := handle }
        | none =>
          match marked.find? fun k => d.ext k < value k with
          | some k => .error { code := E.shapeExceedsPlan, handle := handle, detail := reg k * 2 ^ 32 + value k }
          | none =>
            let d := { d with extent := d.extent.mapIdx fun k e => if marked.contains k then value k else e }
            if d.blocksOk then .ok d else .error { code := E.descInvalid, handle := handle }

/-- A descriptor that is no PACK destination. -/
def State.descriptor (s : State) (t : Task) (core handle : Nat) : Except Fail Desc := s.descriptorOr t core handle E.descInvalid

/-! ### Instances and shards (R113, R118, R119) -/

/-- Bytes of a list, directory or header that no 256-byte boundary cuts, read when they are used: through R122, with what a peer holds
left open (log entry 15). -/
def State.readMetaPiece (s : State) (t : Task) (ws : List Window) (tenant global : Bool) (package : Nat) (a : Int) (n : Nat) : Except Fail (List Byte) :=
  match s.resolve t ws tenant false global package a with
  | .error f => .error f
  | .ok (.peer q pa) => .ok ((List.range n).map fun i => Config.peerByte s.free q (pa + i))
  | .ok (.phys pa ep) =>
    match s.readFault pa n with
    | some c => .error { code := c, addr := a.toNat, met := some (pa, n) }
    | none => .ok (s.readBytes t.partition ep pa n)

def State.readMetaPieces (s : State) (t : Task) (ws : List Window) (tenant global : Bool) (package : Nat) : Nat → Int → Nat → Except Fail (List Byte)
  | 0, _, _ => .ok []
  | k + 1, a, n =>
    if n = 0 then .ok []
    else
      let m := min n (256 - (a % 256).toNat)
      match s.readMetaPiece t ws tenant global package a m with
      | .error f => .error f
      | .ok bs =>
        match s.readMetaPieces t ws tenant global package k (a + m) (n - m) with
        | .error f => .error f
        | .ok r => .ok (bs ++ r)

/-- The n bytes of a list, directory or header at an address. -/
def State.readMeta (s : State) (t : Task) (ws : List Window) (tenant global : Bool) (package : Nat) (a : Int) (n : Nat) : Except Fail (List Byte) :=
  s.readMetaPieces t ws tenant global package (n / 256 + 2) a n

/-- The base of an instance whose base field stands at a base: that base, or the pointer-list entry (R113, R114), read when it is used; off:
the code of a directory base off its 16-byte boundary (R104, R225). -/
def State.instanceBase (s : State) (t : Task) (ws : List Window) (handle : Nat) (d : Desc) (base inst off : Nat) : Except Fail (Nat × Nat × Bool) :=
  if !d.isList then .ok (base, d.package, d.global)
  else
    let a := base + 8 * inst
    match s.readMeta t ws d.tenant d.global d.package a 8 with
    | .error f => .error { f with handle := handle }
    | .ok bs =>
        let w := leNat bs
        if fld w 63 61 != 0 then .error { code := E.descInvalid, addr := a, handle := handle }
        else if d.format == 4 && fld w 51 0 % 16 != 0 then .error { code := off, addr := a, handle := handle }
        else .ok (baseFields w)

/-- A shard map entry's shard counts, block sizes and members (R343). -/
def shardCount (e : List Byte) (k : Nat) : Nat := fieldAt e (8 + 2 * k) 2
def shardBlock (e : List Byte) (k : Nat) : Nat := fieldAt e (24 + 4 * k) 4

/-- The shard and local coordinate of a coordinate in a dimension of a kind (R118): 1 block, 2 cyclic, 3 block-cyclic. -/
def shardOf (kind P b extent : Nat) (x : Int) : Nat × Int :=
  let n := x.toNat
  match kind with
  | 1 => let B := ceilDiv extent P; (n / B, ((n - n / B * B : Nat) : Int))
  | 2 => (n % P, ((n / P : Nat) : Int))
  | 3 => (n / b % P, ((n / (b * P) * b + n % b : Nat) : Int))
  | _ => (0, x)

/-- The local extent of shard s (R118). -/
def shardExtent (kind P b extent s : Nat) : Nat :=
  match kind with
  | 1 => min (ceilDiv extent P) (extent - s * ceilDiv extent P)
  | 2 => ceilDiv (extent - s) P
  | 3 => extent / (b * P) * b + min b (extent % (b * P) - s * b)
  | _ => extent

/-- The member that holds a coordinate, the local coordinates, and the local extents (R118, R119). -/
def shardPlace (d : Desc) (e : List Byte) (x : List Int) : Nat × List Int × List Nat :=
  let parts := (List.range d.rank).map fun k => (shardOf (d.shard.getD k 0) (shardCount e k) (shardBlock e k) (d.ext k) (x.getD k 0), k)
  let member := parts.foldl (fun (acc : Nat × Nat) p =>
    if d.shard.getD p.2 0 == 0 then acc else (acc.1 + p.1.1 * acc.2, acc.2 * shardCount e p.2)) (0, 1)
  (member.1, parts.map (·.1.2),
    parts.map fun p => shardExtent (d.shard.getD p.2 0) (shardCount e p.2) (shardBlock e p.2) (d.ext p.2) p.1.1)

/-- The shard map entry of a distributed tensor (R343), or E_SHARD_MAP. -/
def State.shardEntry (s : State) (t : Task) (handle : Nat) (d : Desc) : Except Fail (Option (List Byte)) :=
  if d.shardmap == 0xFF then .ok none
  else match (s.phase t.partition).shardMap[d.shardmap]? with
    | some e => .ok (some e)
    | none => .error { code := E.shardMap, handle := handle }

/-- What places the element of a coordinate that lies inside every extent: the base of its shard and instance with package and global
bit, and the local coordinates and extents (R113, R119). The base field of a shard is the member's base plus the descriptor's. -/
def State.elementBase (s : State) (t : Task) (ws : List Window) (handle : Nat) (d : Desc) (x : List Int) (off : Nat := E.descInvalid) :
    Except Fail (Nat × Nat × Bool × List Int × List Nat) :=
  match s.shardEntry t handle d with
  | .error f => .error f
  | .ok entry =>
    let (extra, x', ext') : Nat × List Int × List Nat := match entry with
      | none => (0, x, d.extent)
      | some e => let (m, l, le) := shardPlace d e x; (fieldAt e (64 + 16 * m + 8) 8 % 2 ^ 52, l, le)
    match s.instanceBase t ws handle d (extra + d.base) (if d.isList then (x'.getD (d.rank - 1) 0).toNat else 0) off with
    | .error f => .error f
    | .ok (b, pk, gl) => .ok (b, pk, gl, x', ext')

/-- The place of an element: its address before translation with package and global bit, and the bit of a plane word (R105). -/
def State.elementAddr (s : State) (t : Task) (ws : List Window) (handle : Nat) (d : Desc) (x : List Int) :
    Except Fail (Int × Nat × Bool × Nat) :=
  match s.elementBase t ws handle d x with
  | .error f => .error f
  | .ok (b, pk, gl, x', _) => let (o, bit) := d.offset x'; .ok ((b : Int) + o, pk, gl, bit)

/-- The place of a tile's directory entry, and the directory base (R90). -/
def State.tilePlace (s : State) (t : Task) (ws : List Window) (handle : Nat) (d : Desc) (x : List Int) (off : Nat := E.descInvalid) :
    Except Fail (Nat × Nat × Nat × Bool) :=
  match s.elementBase t ws handle d x off with
  | .error f => .error f
  | .ok (b, pk, gl, x', ext') => .ok (b + 8 * d.dirIndex ext' x', b, pk, gl)

/-! ## Stream records (R161, R162) -/

/-- A side of a stream record. -/
structure Side where
  start : List Int
  step : List Int
  dim : List Nat
  ring : Bool
  kind : Nat
  handle : Nat
  k : Nat
  pool : Nat
  reserved : Nat
  deriving DecidableEq, Repr

/-- A stream record (R161). -/
structure StreamRec where
  count : List Nat
  op : Nat
  srank : Nat
  transpose : Bool
  overlap : Bool
  idim : Nat
  index : Nat
  arrive : Bool
  counter : Nat
  src : Side
  dst : Side
  reserved : Nat
  deriving DecidableEq, Repr

def sideOf (bs : List Byte) : Side :=
  let dm := fieldAt bs 42 2
  let kh := fieldAt bs 44 2
  let rp := fieldAt bs 46 2
  { start := (List.range 8).map fun k => sext 32 (fieldAt bs (4 * k) 4), step := (List.range 5).map fun j => sext 16 (fieldAt bs (32 + 2 * j) 2),
    dim := (List.range 5).map fun j => fld dm (3 * j + 2) (3 * j), ring := kh / 4096 == 1, kind := kh / 4096, handle := kh % 4096,
    k := fld rp 6 4, pool := rp % 16, reserved := fld dm 15 15 + fld rp 15 7 }

def streamRecOf (bs : List Byte) : StreamRec :=
  let w := fieldAt bs 20 4
  { count := (List.range 5).map fun j => fieldAt bs (4 * j) 4, op := fld w 31 29, srank := fld w 28 26, transpose := bitOf w 25,
    overlap := bitOf w 24, idim := fld w 23 21, index := fieldAt bs 24 2 % 4096, arrive := bitOf (fieldAt bs 26 2) 15,
    counter := fieldAt bs 26 2 % 256, src := sideOf ((bs.drop 32).take 48), dst := sideOf ((bs.drop 80).take 48),
    reserved := fld w 20 0 + fieldAt bs 24 2 / 4096 + fld (fieldAt bs 26 2) 14 8 + fieldAt bs 28 4 }

/-- A side's coordinates at an iteration (R163). -/
def Side.coords (sd : Side) (srank : Nat) (i : List Nat) : List Int :=
  (List.range 8).map fun k =>
    (List.range srank).foldl (fun (a : Int) j => if sd.dim.getD j 0 == k then a + (i.getD j 0 : Int) * sd.step.getD j 0 else a) (sd.start.getD k 0)

/-- The record of a MOVE (R291): an index at or past the count is E_STREAM_INVALID. -/
def State.streamRecord (s : State) (t : Task) (n : Nat) : Except Fail StreamRec :=
  if t.streams ≤ n then .error { code := E.streamInvalid }
  else match s.fetch t.partition (t.streamtable + 128 * n) 128 with
    | .error f => .error f
    | .ok bs => .ok (streamRecOf bs)

/-! ## Loop-nest entries (R299 to R301) -/

/-- A level of a loop nest (R301). -/
structure NestLevel where
  bound : Nat
  runtime : Bool
  reg : Nat
  stride : List Int
  deriving DecidableEq, Repr

/-- A loop-nest table entry (R299). -/
structure NestEntry where
  levels : Nat
  items : Bool
  order : List Nat
  engines : Nat
  binding : List Nat
  level : List NestLevel
  deriving DecidableEq, Repr

def nestOf (bs : List Byte) : NestEntry :=
  { levels := fieldAt bs 0 1, items := bitOf (fieldAt bs 1 1) 0, order := (List.range 6).map fun p => fieldAt bs (2 + p) 1,
    engines := fieldAt bs 8 1, binding := (List.range 4).map fun b => fieldAt bs (12 + 2 * b) 2,
    level := (List.range 6).map fun l =>
      let o := 32 + 16 * l
      ⟨fieldAt bs o 4, bitOf (fieldAt bs (o + 4) 1) 4, fieldAt bs (o + 4) 1 % 16, (List.range 4).map fun b => sext 16 (fieldAt bs (o + 8 + 2 * b) 2)⟩ }

/-- Fields of a binding (R300). -/
def bindSource (b : Nat) : Nat := fld b 8 6
def bindDim (b : Nat) : Nat := fld b 5 3
def bindTarget (b : Nat) : Nat := fld b 2 0

/-- The rules of R299 to R301 on an entry's bytes. -/
def nestOk (bs : List Byte) : Bool :=
  let n := nestOf bs
  let L := n.levels
  let zeroAt (off len : Nat) := ((bs.drop off).take len).all (· == 0)
  decide (1 ≤ L) && decide (L ≤ 6) && fld (fieldAt bs 1 1) 7 1 == 0 && zeroAt 9 3 && zeroAt 20 12
  && (List.range L).all (fun l => (n.order.take L).contains l) && (n.order.drop L).all (· == 0)
  && zeroAt (32 + 16 * L) (128 - 32 - 16 * L)
  && (n.level.take L).all (fun v => v.bound != 0)
  && (List.range L).all (fun l => fld (fieldAt bs (36 + 16 * l) 1) 7 5 == 0 && zeroAt (37 + 16 * l) 3)
  && (if n.items then n.engines != 0 else n.engines == 0)
  && n.binding.all (fun b => b / 512 == 0 && bindTarget b != 7 && (n.items || !(1 ≤ bindSource b && bindSource b ≤ 5)))

/-- A loop-nest entry of a task as the Pilot patched it (R305). -/
def State.nestEntry (s : State) (t : Task) (core n : Nat) : Except Fail NestEntry :=
  match s.fetch t.partition (t.nesttable + 128 * n) 128 with
  | .error f => .error f
  | .ok bs =>
    let e := nestOf bs
    .ok { e with level := e.level.map fun v => if v.runtime then { v with bound := s.rf ⟨.pilShape, core, 16 * t.slot + v.reg⟩ 31 0 } else v }

/-- The base value of a binding source (R300). -/
def bindBase (core source : Nat) (item : Option WorkItem) : Int :=
  match source, item with
  | 1, some w => (w.first : Int)
  | 2, some w => (w.last : Int) - w.first
  | 3, some w => (w.row : Int)
  | 4, some w => (w.slot : Int)
  | 5, some w => (w.sub : Int)
  | 6, _ => ((core / 32 : Nat) : Int)
  | 7, _ => ((core % 32 : Nat) : Int)
  | _, _ => 0

/-- The value of binding b at a point (R302): the point lists i_l for level l. -/
def NestEntry.bindValue (e : NestEntry) (core : Nat) (item : Option WorkItem) (point : List Nat) (b : Nat) : Int :=
  (List.range e.levels).foldl (fun (a : Int) l => a + (point.getD l 0 : Int) * ((e.level.getD l ⟨0, false, 0, []⟩).stride.getD b 0))
    (bindBase core (bindSource (e.binding.getD b 0)) item)

/-- The next point of a nest, the level at the last nesting position fastest (R302); none after the last point. The points are numbered:
point number n. -/
def NestEntry.pointAt (e : NestEntry) (n : Nat) : List Nat :=
  let lv := e.order.take e.levels
  let step := lv.reverse.foldl (fun (acc : List (Nat × Nat) × Nat) l =>
    let b := (e.level.getD l ⟨1, false, 0, []⟩).bound
    ((l, acc.2 % b) :: acc.1, acc.2 / b)) ([], n)
  (List.range 6).map fun l => ((step.1.find? fun p => p.1 == l).map (·.2)).getD 0

/-- The number of points of a nest. -/
def NestEntry.points (e : NestEntry) : Nat := (e.level.take e.levels).foldl (fun a v => a * v.bound) 1

end Sys2Proof.Machine
end

