-- ==== Sys2Proof/Machine/Media.lean ====
section
/-! DEFINITION. Errors of stored bits (R135, R146 to R149, R153, R154, R202): what strikes a memory, a ring or an array, and what the read that meets an
error does: it notes the row, poisons the segment or block, retires a tower's page, and enters a row in the repair map. -/

namespace Sys2Proof.Machine

/-- The Cove bank and row of an offset (R136), and those of a Lagoon (R152). -/
def coveBank (o : Nat) : Nat × Nat := ((o / 64 % 16 + o / 1024) % 16, o / 1024)
def lagoonBank (o : Nat) : Nat × Nat := ((o / 64) ^^^ (o / 2048) |> (· % 32), o / 2048)

/-- A register of CXL port p. -/
def cxReg (n : RegName) (p : Nat) : RegId := ⟨n, if p < 2 then 1 else 3, p % 2⟩

namespace State

/-- The unit, as the error log names it, that holds an address. -/
def unitAt (a : Nat) : Nat × Nat :=
  match placeOf a with
  | .cove g _ => (1, g)
  | .lagoon d _ => (2, d)
  | .tower t _ => (3, t)
  | .cxl p _ => (6, p)
  | _ => (9, 0)

/-- A row that an error names: its flag (63 uncorrectable, 62 corrected), bank and row in CV_ECC or LG_ECC (R148). -/
def noteEcc (s : State) (a : Nat) (ue : Bool) : State :=
  match placeOf a with
  | .cove g o =>
    let r : RegId := ⟨.cvEcc, g, 0⟩
    let s := (s.setRf r 58 48 (coveBank o).2).setRf r 47 44 (coveBank o).1
    if ue then s.setRf r 63 63 1 else (s.setRf r 62 62 1).satRf r 31 0 1
  | .lagoon d o =>
    let r : RegId := ⟨.lgEcc, d, 0⟩
    let s := (s.setRf r 58 44 (lagoonBank o).2).setRf r 43 39 (lagoonBank o).1
    if ue then s.setRf r 63 63 1 else (s.setRf r 62 62 1).satRf r 31 0 1
  | _ => s

/-- The repair map takes a row, unless it is full (R149). -/
def mapRow (s : State) (base bank row : Nat) : State :=
  let d := match placeOf base with
    | .cove g _ => g / 32
    | .lagoon d _ => d
    | _ => 0
  let mine := s.lh.repairMap.filter fun m => match placeOf m.1 with
    | .cove g _ => g / 32 == d
    | .lagoon e _ => e == d
    | _ => false
  let (kind, unit) := unitAt base
  if s.lh.repairMap.contains (base, bank, row) then s
  else if 256 ≤ mine.length then s.logErr { code := E.repairFull, severity := 0, kind := kind, unit := unit, detail := row }
  else (s.setLh { s.lh with repairMap := s.lh.repairMap ++ [(base, bank, row)] }).logErr
    { code := E.rowMapped, severity := 0, kind := kind, unit := unit, detail := row }

/-- An uncorrectable error: the segment or block is poisoned; a tower's page is retired, a row enters the repair map, and a poisoned return of an
expander is counted (R147, R149, R153, R154, R409). -/
def spoil (s : State) (a : Nat) : State :=
  let add (s : State) (n : Nat) : State := if s.poison.contains (a / n * n, n) then s else s.setPoison (s.poison ++ [(a / n * n, n)])
  match placeOf a with
  | .cove g o => ((add s 16).noteEcc a true).mapRow (coveBase g) (coveBank o).1 (coveBank o).2
  | .lagoon d o => ((add s 16).noteEcc a true).mapRow (dieBase d) (lagoonBank o).1 (lagoonBank o).2
  | .tower t _ =>
    let s := add s 64
    let page := a / 0x200000
    if s.lh.retired.contains page then s
    else (s.setLh { s.lh with retired := s.lh.retired ++ [page] }).setRf ⟨.mtSize, t, 0⟩ 31 16 (s.rf ⟨.mtSize, t, 0⟩ 31 16 + 1)
  | .cxl p _ => (add s 64).satRf (cxReg .cxErr p) 63 32 1
  | _ => s

/-- A read of n bytes meets what has struck them (R146, R147, R153): a corrected error is noted and the segment put right, an uncorrectable one spoils its
segment. -/
def meet (s : State) (a n : Nat) : State :=
  if s.struck.isEmpty then s
  else
    let hit := s.struck.filter (meets a n)
    hit.foldl (fun s e => if e.2 then s.spoil e.1 else s.noteEcc e.1 false) (s.setStruck (s.struck.filter fun e => !meets a n e))

/-- A read through R122 that is served meets what has struck its bytes (R146). -/
def meetRead (s : State) (t : Task) (ws : List Window) (tenant global : Bool) (package : Nat) (a : Int) (n : Nat) : State :=
  if s.struck.isEmpty then s
  else match s.resolve t ws tenant false global package a with
    | .ok (.phys pa _) => s.meet pa n
    | _ => s

/-- Upsets of stored bits (log entry 109): an error of a memory waits for the read that meets it; a word of a committed slot, or a row of stationary
registers, is marked. -/
def strikeOne (s : State) (k : Strike) : State :=
  match k with
  | .memory a ue => if s.struck.contains (a, ue) then s else s.setStruck (s.struck ++ [(a, ue)])
  | .slot core n i =>
    let r := s.ring core n
    if i < r.slots.length then s.setRing core n { r with slots := r.slots.modify i fun v => { v with struck := true } } else s
  | .cell core a set row =>
    let v := s.array core a
    if a < 2 && set < 2 && row < 64 && !v.struck.contains (set, row) then s.setArray core a { v with struck := v.struck ++ [(set, row)] } else s

def strike (s : State) (ks : List Strike) : State := ks.foldl strikeOne s

/-- What a failing read met in memory (R147, R153). -/
def meetFail (s : State) (f : Fail) : State :=
  match f.met with
  | some (a, n) => s.meet a n
  | none => s

end State
end Sys2Proof.Machine
end

