-- ==== Sys2Proof/Machine/Credits.lean ====
section
/-! DEFINITION. Breakwater pools (R36, R37, R361 to R364, R469): grants in the order of requests, returns, resets; and the fences of
R454. -/

namespace Sys2Proof.Machine
namespace State

/-- The sum of a partition's present pool sizes: its usage of quota 2 (R469). -/
def poolUsage (s : State) (p : Nat) : Nat :=
  (s.pools.filter fun e => e.1.1 == p).foldl (fun a e => a + e.2.size) 0

/-- A partition's limit of quota k; none without one (R470). -/
def quotaLimit (s : State) (p k : Nat) : Option Nat :=
  let l := s.rf ⟨.lhQuota, 0, 4 * p + k⟩ 31 0
  if l == 0xFFFFFFFF then none else some l

/-- Whether a partition uses more than a limit (R469). -/
def overQuota (s : State) (p : Nat) : Bool :=
  match s.quotaLimit p 2 with
  | some l => decide (l < s.poolUsage p)
  | none => false

/-- The frame of a credit grant (R361, R362), back to the requester's source and tag. -/
def grantFrame (req : Frame) (n gen : Nat) : Frame :=
  { req with kind := 4, count := n, gen := gen, payload := [] }

/-- Serve the requests at the head of a pool's queue for as long as the head can be served (R361). -/
def grantPool (s : State) (p t : Nat) : Nat → State
  | 0 => s
  | fuel + 1 =>
    let v := s.pool p t
    match v.queue with
    | [] => s
    | f :: rest =>
      let n := min f.count v.size
      if n = 0 ∨ v.avail < n then s
      else
        let s := s.setPool p t { v with avail := v.avail - n, queue := rest }
        grantPool (s.send (grantFrame f n v.gen)) p t fuel

/-- Serve a pool's queue. -/
def serve (s : State) (p t : Nat) : State := s.grantPool p t ((s.pool p t).queue.length)

/-- One credit back in its pool, or retired while its partition is over its quota (R469). -/
def returnOne (s : State) (p t : Nat) : State :=
  let v := s.pool p t
  if s.overQuota p then s.setPool p t { v with size := v.size - 1 }
  else s.setPool p t { v with avail := v.avail + 1 }

def returnMany (s : State) (p t : Nat) : Nat → State
  | 0 => s
  | n + 1 => (s.returnOne p t).returnMany p t n

/-- Credits return to a pool (R363); a return of an older generation is discarded (R364). -/
def returnCredits (s : State) (p t gen n : Nat) : State :=
  if gen != (s.pool p t).gen then s else (s.returnMany p t n).serve p t

/-- A pool reset to its size, its generation advanced (R364). -/
def resetPool (s : State) (p t : Nat) : State :=
  let v := s.pool p t
  (s.setPool p t { v with avail := v.size, gen := (v.gen + 1) % 16 }).serve p t

/-! ## Fences (R454) -/

/-- The units of a recovery's domain: level 1 core, 2 die, 3 shore, 4 package; kind and unit as in R446. -/
def inDomain (r : Recovery) (kind unit : Nat) : Bool :=
  let shoreOf : Nat := match kind with
    | 1 => if unit / 32 < 6 then 0 else 1
    | 2 => if unit < 6 then 0 else 1
    | 3 => if unit < 4 then 0 else 1
    | 4 => if unit < 2 then 0 else 1
    | 5 => if unit < 18 then 0 else 1
    | 6 => if unit < 2 then 0 else 1
    | 8 => if unit < 7 then 0 else 1
    | 10 => unit
    | _ => 2
  match r.level with
  | 1 => r.kind == kind && r.unit == unit
  | 2 => (r.kind == kind && r.unit == unit) || (r.kind == 2 && kind == 1 && unit / 32 == r.unit)
      || (r.kind == 4 && kind == 5 && unit / 9 == r.unit) || (r.kind == 4 && kind == 6 && unit / 2 * 2 + 1 == r.unit)
  | 3 => shoreOf == r.unit
  | _ => true

/-- Whether a unit lies in a domain under recovery (R454). -/
def fenced (s : State) (kind unit : Nat) : Bool :=
  s.lh.recoveries.any (fun r => inDomain r.2 kind unit) || s.lh.waiting.any (fun r => inDomain r kind unit)

/-- The unit kind and number of a target of R342. -/
def targetUnit (t : Nat) : Nat × Nat :=
  if t < 12 then (2, t) else if t < 20 then (3, t - 12) else (4, t - 20)

/-- Whether the unit at a target answers with an error response (R364, R454). -/
def targetFenced (s : State) (t : Nat) : Bool := s.fenced (targetUnit t).1 (targetUnit t).2

end State
end Sys2Proof.Machine
end

