-- ==== Sys2Proof/Machine/Tasks.lean ====
section
/-! DEFINITION. Tasks and their states (R17, R394): aborting one (R123, R178, R449), its final state (R134, R144, R363), completion
entries and their queues (R394 to R397), and the engines' bookkeeping of a task. -/

namespace Sys2Proof.Machine

/-- Whether a task is QUEUED, RUNNING or DRAINING: states 1, 2 and 3 of R394. -/
def Task.active (t : Task) : Bool := t.state == 1 || t.state == 2 || t.state == 3

/-- The engines of a core (R5): code of the Rockpool's owner, by the numbers of R128. -/
def poolEngine (q : Nat) : Nat :=
  match q with
  | 0 => 0
  | 1 => 0
  | 2 => 1
  | 3 => 1
  | 4 => 2
  | 5 => 3
  | 6 => 4
  | 7 => 5
  | _ => 6

/-- An array with no live tile and no resident block (R189, R208). -/
def ArraySt.cleared (a : ArraySt) : ArraySt := { a with resident := false, acc := a.acc.map fun t => (t.1, { t.2 with live := false }) }

/-- A MOVE that issues nothing more (R178): its transactions in flight complete. -/
def MoveSt.stop (m : MoveSt) : MoveSt :=
  { m with units := [], strip := [], next := m.total, ring := none, tx := none, group := none, prev := [], cur := [], grow := none,
           xacts := m.xacts.filter fun v => v.stage == 2 }

/-- An engine's context when its task stops (R178): it issues nothing more; what is in flight stays until it completes. -/
def EngCtx.stop (c : EngCtx) : EngCtx :=
  { c with
    abandoned := c.abandoned || c.blocked.isSome, blocked := none, inbuf := [], outbuf := [], run := .none
    moves := (c.moves.map MoveSt.stop).filter fun m => !m.xacts.isEmpty }

/-- Whether a MOVE waits for a ring or for credit (R334). -/
def MoveSt.waiting (m : MoveSt) : Bool := m.ring.isSome || m.xacts.any fun v => v.stage == 1

/-- An engine's context when its task reaches its truncation point (R334): an instruction that is blocked on a ring, a WAIT, a credit, an
item or a channel is abandoned; any other runs to its end. -/
def EngCtx.truncate (c : EngCtx) : EngCtx :=
  match c.blocked with
  | some (.order _) => c
  | some (.send _ _ false) => c
  | _ =>
    { c with
      abandoned := c.abandoned || c.blocked.isSome || c.moves.any MoveSt.waiting, blocked := none, inbuf := [], outbuf := [], run := .none
      moves := (c.moves.map fun m => if m.waiting then m.stop else m).filter fun m => !m.xacts.isEmpty || !m.units.isEmpty }

/-- An error of a core's engine as the log shows it (R446). -/
def coreError (core eng : Nat) (t : Option Task) (code severity detail : Nat) : ErrInfo :=
  { code := code, severity := severity, kind := 1, unit := core, engine := eng, partition := t.map (·.partition),
    task := (t.map (·.number)).getD 0xFFFFFFFF, detail := detail }

/-- The progress register of an engine (R60). -/
def progressReg (core eng : Nat) : RegId :=
  match eng with
  | 0 => ⟨.maProgress, core, 0⟩
  | 1 => ⟨.maProgress, core, 1⟩
  | 2 => ⟨.slProgress, core, 0⟩
  | 3 => ⟨.esProgress, core, 0⟩
  | 4 => ⟨.pkProgress, core, 0⟩
  | 5 => ⟨.seProgress, core, 0⟩
  | 6 => ⟨.seProgress, core, 1⟩
  | _ => ⟨.pilProgress, core, 0⟩

/-- Whether an engine's context is in the middle of an instruction. -/
def EngCtx.midway (c : EngCtx) : Bool := c.blocked.isSome || decide (c.run ≠ .none) || !c.moves.isEmpty

namespace State

/-! ## Counts (R60, R61) -/

/-- Handshakes that an engine takes for a task without output: a wait, or work that is given up (R61, log entry 11). -/
def countWait (s : State) (x : EngRef) : State :=
  let (v, s) := s.fresh
  s.addRf ⟨.pilHscount, x.core, 4 * x.eng + x.slot⟩ 47 0 (Config.handshakes (8 + x.eng) v)

/-- A unit of progress, the retirement of an instruction or a handshake of the output stage that moves data, with the further handshakes that go with it
(R60, R61, log entry 11). -/
def countUnits (s : State) (x : EngRef) : State :=
  let (v, s) := s.fresh
  let s := s.addRf (progressReg x.core x.eng) 47 0 (1 + Config.handshakes x.eng v)
  s.addRf ⟨.pilHscount, x.core, 4 * x.eng + x.slot⟩ 47 0 (Config.handshakes (8 + x.eng) v)

/-! ## Tasks -/

/-- The task in a slot of a core (R141). -/
def taskAt (s : State) (core slot : Nat) : Option Task :=
  s.tasks.find? fun t => t.active && t.slot == slot && t.cores.contains core

/-- The task of a number of the model's own. -/
def taskId (s : State) (id : Nat) : Option Task := s.tasks.find? fun t => t.id == id

def updTask (s : State) (id : Nat) (f : Task → Task) : State := s.setTasks (s.tasks.map fun t => if t.id == id then f t else t)

/-- Fold a change over a list of numbers. -/
def forAll (s : State) (l : List Nat) (f : State → Nat → State) : State := l.foldl f s

/-- Change an engine's context. -/
def updEng (s : State) (x : EngRef) (f : EngCtx → EngCtx) : State := s.setEng x (f (s.eng x))

/-- Change every engine's context of a task's cores. -/
def updEngines (s : State) (t : Task) (f : EngCtx → EngCtx) : State :=
  s.forAll t.cores fun s g => s.forAll (List.range 8) fun s e => s.updEng ⟨g, t.slot, e⟩ f

/-- A dispenser that stops (R268): its items are discarded, its channel is flushed on every participating core, and busy clears
without end packets. -/
def stopDispenser (s : State) (d : Nat) : State :=
  let v := s.disp d
  if !v.running then s
  else
    let ch := s.rf ⟨.dspCfg, d, 0⟩ 34 32
    let cores := (List.range 32).filter fun c => s.rb ⟨.dspCfg, d, 0⟩ c
    let s := s.forAll cores fun s c => s.setChan (32 * d + c) ch { s.chan (32 * d + c) ch with words := [] }
    (s.setDisp d { v with running := false, next := v.count, head := none, sent := [], ended := [] }).setRf ⟨.dspStatus, d, 0⟩ 63 63 0

/-- Every engine of a task stops, and credits that it holds and has not used go back (R178); what it had begun has taken handshakes (R61). -/
def stopEngines (s : State) (t : Task) : State :=
  s.forAll t.cores fun s g => s.forAll (List.range 8) fun s e =>
    let x : EngRef := ⟨g, t.slot, e⟩
    let c := s.eng x
    let s := (c.moves.map fun m => m.xacts.filter fun v => v.stage == 3).flatten.foldl (fun s v => s.returnCredits t.partition v.target v.gen 1) (s.setEng x c.stop)
    if c.midway then s.countWait x else s

/-- Whether a list with a partition and slot of DSP_LISTCTL on a die is a task's: the task whose LIST started it; for one that another sender started, the
task of that partition and slot on a core of DSP_CFG.cores (log entry 113). -/
def namesList (s : State) (t : Task) (d : Nat) (by' : Option Nat) (p slot : Nat) : Bool :=
  match by' with
  | some id => t.id == id
  | none => t.partition == p && t.slot == slot && t.cores.any fun g => g / 32 == d && s.rb ⟨.dspCfg, d, 0⟩ (g % 32)

/-- Whether the list that a die runs is a task's. -/
def ownsList (s : State) (t : Task) (d : Nat) : Bool :=
  (s.disp d).running && s.namesList t d (s.disp d).task (s.disp d).partition (s.disp d).slot

/-- Stop the dispensers that run a task's list (R268). -/
def stopLists (s : State) (t : Task) : State := s.forAll (List.range 12) fun s d => if s.ownsList t d then s.stopDispenser d else s

/-- The arrays that a task uses lose their live and resident bits at its abort (R189, R208). -/
def clearArrays (s : State) (t : Task) : State :=
  s.forAll t.cores fun s g => s.forAll [0, 1] fun s a =>
    if mapCount t.map a != 0 || mapExpress t.map a then s.setArray g a (s.array g a).cleared else s

/-! ## Completion (R394 to R397) -/

/-- Entries of a queue with a size field of R397; a field past 12 acts as 12 (log entry 19). -/
def queueSize (field : Nat) : Nat := 2 ^ (min field 12 + 4)

/-- Whether a completion queue can take an entry now (R395). -/
def cqOpen (s : State) (p : Port) (q : Nat) : Bool :=
  let h := p.harbour
  let size := queueSize (s.rf ⟨.hbCqcfg, h, q⟩ 3 0)
  s.rb ⟨.hbCqcfg, h, q⟩ 63 && (s.port p).linkUp && (s.rf ⟨.hbCqstat, h, q⟩ 15 0 + 1) % size != s.rf ⟨.hbCqhead, h, q⟩ 15 0

/-- Whether a task taken from a task queue that names a completion queue is not yet final (R396). -/
def cqPending (s : State) (p : Port) (q : Nat) : Bool :=
  s.tasks.any fun t => t.active && decide (t.port = p) && t.cq == q

/-- Fire a completion queue's vector when R396 says so. -/
def fireCq (s : State) (p : Port) (q : Nat) : State :=
  let n := Tab.get 0 (s.port p).sinceFired q
  let th := max 1 (s.rf ⟨.hbCqcfg, p.harbour, q⟩ 15 8)
  if th ≤ n ∨ (1 ≤ n ∧ s.cqPending p q = false) then
    (s.setPort p { s.port p with sinceFired := Tab.put id 0 (s.port p).sinceFired q 0 }).fireVector p (s.rf ⟨.hbCqcfg, p.harbour, q⟩ 25 16)
  else s

/-- Write an entry at the tail of a completion queue with its phase and sequence number (R394, R395). -/
def writeEntry (s : State) (p : Port) (q : Nat) (e : List Byte) : State :=
  let h := p.harbour
  let tail := s.rf ⟨.hbCqstat, h, q⟩ 15 0
  let phase := s.rf ⟨.hbCqstat, h, q⟩ 62 62
  let size := queueSize (s.rf ⟨.hbCqcfg, h, q⟩ 3 0)
  let full := e.take 11 ++ leBytes 1 (fieldAt e 11 1 % 128 + 128 * phase) ++ (e.drop 12).take 4 ++ leBytes 8 (s.port p).seq ++ e.drop 24
  let s := s.emit (.completion p q tail full)
  let s := s.setPort p { s.port p with seq := (s.port p).seq + 1, sinceFired := Tab.put id 0 (s.port p).sinceFired q (Tab.get 0 (s.port p).sinceFired q + 1) }
  let s := s.setRf ⟨.hbCqstat, h, q⟩ 15 0 ((tail + 1) % size)
  if tail + 1 = size then s.setRf ⟨.hbCqstat, h, q⟩ 62 62 (1 - phase) else s

/-- A completion entry for a queue: written, or held while the queue is full, not enabled or behind held entries, or the link is
down (R395). -/
def complete (s : State) (p : Port) (q : Nat) (e : List Byte) : State :=
  if s.cqOpen p q && !(s.port p).held.any (fun h => h.1 == q) then (s.writeEntry p q e).fireCq p q
  else s.setPort p { s.port p with held := (s.port p).held ++ [(q, e)] }

/-- The bytes of a completion entry but for its phase and sequence number (R394). -/
def completionBytes (number tag tq state : Nat) (truncated logged : Bool) (error core : Nat) (errseq : Nat) : List Byte :=
  leBytes 4 number ++ leBytes 4 tag ++ leBytes 1 tq ++ leBytes 1 0 ++ leBytes 1 state ++ leBytes 1 (b2n truncated + 2 * b2n logged) ++
  leBytes 2 error ++ leBytes 2 core ++ leBytes 8 0 ++ leBytes 8 errseq

/-- A task's completion entry. -/
def taskEntry (t : Task) (state : Nat) : List Byte :=
  completionBytes t.number t.tag t.tq state t.truncated t.logged t.error t.errCore t.errSeq

/-! ## Final states -/

/-- A task's ring at the task's end (R134): emptied with a notice where slots are left, unless another task of the core has used it. -/
def endRing (s : State) (t : Task) (g n : Nat) : State :=
  let r := s.ring g n
  if !r.users.contains t.id then s
  else
    let users := r.users.erase t.id
    if !users.isEmpty then s.setRing g n { r with users := users }
    else if r.slots.isEmpty then s.setRing g n { r with users := [] }
    else
      let s := s.setRing g n Ring.empty
      if t.truncated then s else s.logErr (coreError g (poolEngine (n / 8)) (some t) E.ringResidue 0 0)

/-- A task's window at its end (R144): it stays valid where CV_BOUND.retain says so, be it an earlier task's that this one never replaced, and the task has
not released it. -/
def endWindow (s : State) (t : Task) (g : Nat) : State :=
  if s.rb ⟨.cvBound, g, t.slot⟩ 62 && !t.release then s else s.setRf ⟨.cvBound, g, t.slot⟩ 63 63 0

/-- The credits of landing space that a slot of a core still holds go back (R363). -/
def returnLanded (s : State) (g slot : Nat) : State :=
  let mine := s.landed.filter fun l => l.1 == g && l.2.1 == slot
  let s := s.setLanded (s.landed.filter fun l => !(l.1 == g && l.2.1 == slot))
  mine.foldl (fun s l => s.returnCredits l.2.2.2.1 (g / 32) l.2.2.2.2 1) s

/-- A task reaches a final state (R17, R134, R144, R283, R363, R394): its rings, its window, its landing space and its engines are
given up, and its completion entry is written. -/
def finish (s : State) (t : Task) (state : Nat) : State :=
  let s := s.updTask t.id fun t => { t with state := state }
  let s := s.forAll t.cores fun s g => ((s.forAll (List.range 72) fun s n => s.endRing t g n).endWindow t g).returnLanded g t.slot
  let s := s.updEngines t fun _ => EngCtx.idle
  let drop (v : HostPort) : HostPort := { v with heldWords := v.heldWords.filter fun w => !(w.1.slot == t.slot && t.cores.contains w.1.core) }
  let s := (s.setPort .w (drop (s.port .w))).setPort .e (drop (s.port .e))
  if t.discarded then s.fireCq t.port t.cq else (s.complete t.port t.cq (taskEntry t state)).fireCq t.port t.cq

/-- Whether every engine of a task has retired END and every MOVE has completed (R283). -/
def allEnded (s : State) (t : Task) : Bool :=
  t.cores.all fun g => t.started.contains g && (List.range 8).all fun e => (s.eng ⟨g, t.slot, e⟩).ended && (s.eng ⟨g, t.slot, e⟩).moves.isEmpty

/-- Whether an engine has reached its task's truncation point, so that the task drains instead of ending (R334). -/
def truncDue (s : State) (t : Task) : Bool := t.trunc && t.cores.any fun g => t.started.contains g && decide (t.truncCount ≤ (s.eng ⟨g, t.slot, t.truncEngine⟩).retired)

/-- A running task becomes DONE once R283 allows it. -/
def tryDone (s : State) (core slot : Nat) : State :=
  match s.taskAt core slot with
  | some t => if t.state == 2 && s.allEnded t && !s.truncDue t then s.finish t 4 else s
  | none => s

/-- Whether everything a draining task had in flight has completed (R178). -/
def drained (s : State) (t : Task) : Bool :=
  t.cores.all fun g => (List.range 8).all fun e =>
    (s.eng ⟨g, t.slot, e⟩).blocked.isNone && (s.eng ⟨g, t.slot, e⟩).moves.all fun m => m.xacts.isEmpty && m.units.isEmpty

/-! ## Aborts -/

/-- Stop a task (R178): a running task enters DRAINING; one that has not issued anything becomes ABORTED at once (R285, R333). -/
def abortTask (s : State) (id : Nat) : State :=
  match s.taskId id with
  | none => s
  | some t =>
    if t.state == 1 then ((s.updTask id fun t => { t with aborting := true }).stopLists t).finish { t with aborting := true } 5
    else if t.state == 2 ∨ t.state == 3 then
      let s := s.updTask id fun t => { t with state := 3, aborting := true }
      ((s.stopEngines t).stopLists t).clearArrays t
    else s

/-- Record an error of a task: the first one goes into its completion entry (R394). -/
def noteError (s : State) (id code core seq : Nat) : State :=
  s.updTask id fun t =>
    if t.error == 0 then { t with logged := true, error := code, errCore := core, errSeq := seq } else { t with logged := true }

/-- The entry that an error met while a task drains names as its cause (R449). -/
def causeOf (t : Task) : Option Nat := if t.state == 3 && t.error != 0 then some t.errSeq else none

/-- An engine records the fault that begins an abort; those met during the drain change nothing (R178, R179, R229, R249, R260, R261). -/
def noteFault (s : State) (t : Task) (core eng : Nat) (f : Fail) : State :=
  if t.aborting then s
  else match eng with
    | 2 => s.setReg ⟨.slFault, core, 0⟩ (BitVec.ofNat 64 (2 ^ 63 + f.code * 2 ^ 32 + sat 32 f.visit))
    | 3 => s.setReg ⟨.esFault, core, 0⟩ (BitVec.ofNat 64 (2 ^ 63 + f.port % 16 * 2 ^ 48 + f.code * 2 ^ 32 + sat 32 f.visit))
    | 4 => ((s.setRf ⟨.pkStatus, core, 0⟩ 62 62 1).setRf ⟨.pkStatus, core, 0⟩ 47 32 f.code).setRf ⟨.pkStatus, core, 0⟩ 15 0 (f.visit % 2 ^ 16)
    | 5 | 6 =>
      (s.setReg ⟨.seFault, core, eng - 5⟩ (BitVec.ofNat 64 (2 ^ 63 + f.handle * 2 ^ 48 + f.code * 2 ^ 32 + sat 32 f.visit))).setReg
        ⟨.seFaddr, core, eng - 5⟩ (BitVec.ofNat 64 f.addr)
    | _ => s

/-- An engine's error aborts its task (R123, R178, R447, R449). -/
def failTask (s : State) (t : Task) (core eng : Nat) (f : Fail) : State :=
  let s := s.meetFail f
  let t := (s.taskId t.id).getD t
  let e := { coreError core eng (some t) f.code 1 (if f.detail == 0 then f.visit else f.detail) with cause := causeOf t }
  let seq := s.seqOf e
  ((((s.logErr e).noteFault t core eng f).noteError t.id f.code core seq)).abortTask t.id

/-- An error that a unit which is no core reports of a task aborts it (R394, R447, R449): 0x1FF stands for the core. -/
def abortWith (s : State) (t : Task) (e : ErrInfo) : State :=
  let t := (s.taskId t.id).getD t
  let e := { e with partition := some t.partition, task := t.number, cause := if e.cause.isSome then e.cause else causeOf t }
  let seq := s.seqOf e
  ((s.logErr e).noteError t.id e.code 0x1FF seq).abortTask t.id

/-- An error of the task in a slot of a core, if there is one. -/
def fail (s : State) (x : EngRef) (f : Fail) : State :=
  match s.taskAt x.core x.slot with
  | some t => s.failTask t x.core x.eng f
  | none => s

end State
end Sys2Proof.Machine
end

