-- ==== Sys2Proof/Machine/Native.lean ====
section
/-! DEFINITION. Native words (R318 to R321): the command that a word of an engine's stream spells, and queue intake with its decode
faults (R326 to R329). -/

namespace Sys2Proof.Machine

/-- Whether a handle field may stand in a word: below the task's descriptor count, or 0xFFF (R98, R321). -/
def handleOk (descs h : Nat) : Bool := h == 0xFFF || decide (h < descs)

/-- The words that every engine decodes (R319). data is the word after a CHSEND; nests is the launch record's count. -/
def commonWord (x : EngRef) (nests w data : Nat) : Option Instr :=
  let z (hi lo : Nat) : Bool := fld w hi lo == 0
  let coreOk (c : Nat) : Bool := decide (c < 384) || c == 0x1FF
  match w / 2 ^ 58 with
  | 0x00 => if z 57 0 then some (.nop x) else none
  | 0x01 => if z 57 0 then some (.endSeq x) else none
  | 0x02 => if z 49 32 then some (.setlc x (fld w 57 55) (bitOf w 54) (fld w 53 50) (fld w 31 0)) else none
  | 0x03 => if z 54 54 && z 41 0 && fld w 53 42 != 0 then some (.loop x (fld w 57 55) (fld w 53 42)) else none
  | 0x04 => if z 41 0 && fld w 53 42 != 0 && decide (fld w 57 54 < nests) then some (.nest x (fld w 57 54) (fld w 53 42)) else none
  | 0x05 =>
    if z 41 16 && coreOk (fld w 56 48) && fld w 15 0 != 0 then
      (if bitOf w 57 then some (.signalPost x (fld w 56 48) (fld w 47 42) (fld w 15 0))
       else some (.signalAdd x (fld w 56 48) (fld w 47 42) (fld w 15 0)))
    else none
  | 0x06 =>
    if z 55 54 && z 47 32 then
      match fld w 57 56 with
      | 0 => some (.waitGe x (fld w 53 48) (fld w 31 0))
      | 1 => some (.waitTake x (fld w 53 48) (fld w 31 0))
      | 2 => if 1 ≤ fld w 31 0 ∧ fld w 31 0 < 65536 then some (.waitAcq x (fld w 53 48) (fld w 31 0)) else none
      | _ => none
    else none
  | 0x07 => if z 44 0 && coreOk (fld w 53 45) then some (.chsend x (fld w 57 55) (bitOf w 54) (fld w 53 45) data) else none
  | 0x08 => if z 47 0 then some (.chrecv x (fld w 57 55) (fld w 54 52) (bitOf w 51) (fld w 50 48)) else none
  | 0x09 => if z 55 48 then some (.param x (fld w 57 56) (fld w 47 0)) else none
  | _ => none

/-- The shared fields of MMA, SPMM and LOOKOUT words (R320). -/
def mmaFields (w p0 : Nat) : MmaOps :=
  { m := fld w 55 52, n := fld w 51 48, k := fld w 47 42, aring := fld w 41 39, bring := fld w 38 36, keep := bitOf w 35, drain := bitOf w 34,
    zero := bitOf w 33, acc := fld w 32 29, bmask := fld w 28 25, bind := bitOf w 24, mask := fld p0 35 24, b := fld p0 23 12, a := fld p0 11 0 }

/-- The words of one engine (R320). -/
def engineWord (x : EngRef) (descs w p0 p1 : Nat) : Option Instr :=
  let z (hi lo : Nat) : Bool := fld w hi lo == 0
  let op := w / 2 ^ 58
  if x.eng == 5 || x.eng == 6 then
    if op == 0x10 && z 40 0 then some (.move x ⟨fld w 57 46, fld w 45 42, bitOf w 41⟩) else none
  else if x.eng == 0 || x.eng == 1 then
    let o := mmaFields w p0
    let ok := z 23 0 && p0 / 2 ^ 36 == 0 && handleOk descs o.a && handleOk descs o.b && handleOk descs o.mask
    match op with
    | 0x10 => if !ok then none else match fld w 57 56 with
      | 0 => some (.mmaDense x o)
      | 1 => some (.mmaSliding x o)
      | 2 => some (.mmaTransposed x o)
      | _ => some (.mmaPlane x o)
    | 0x11 => if ok && z 57 56 then some (.spmm x o) else none
    | 0x12 =>
      let lim := 2 * b2n o.drain + b2n o.zero
      if ok && z 57 57 && lim != 0 && o.mask != 0xFFF && p1 / 2 ^ 32 == 0 then
        some (.lookout x {
          m := o.m, n := o.n, k := o.k, aring := o.aring, bring := o.bring, absolute := bitOf w 56, topk := o.keep, planes := lim,
          acc := o.acc, mask := o.mask, b := o.b, a := o.a, param := p1, bmask := o.bmask, bind := o.bind })
      else none
    | 0x13 => if z 54 32 && p0 / 2 ^ 32 == 0 then some (.ebbSetimm x (fld w 57 55) (fld w 31 0) p0) else none
    | 0x14 => if z 54 12 && handleOk descs (fld w 11 0) then some (.ebbSetvec x (fld w 57 55) (fld w 11 0)) else none
    | _ => none
  else if x.eng == 2 then
    let ok := z 39 0 && decide (fld w 57 55 ≤ 4) && decide (fld w 54 52 ≤ 4) && fld w 51 50 != 3 && p0 / 2 ^ 36 == 0 && p1 / 2 ^ 31 == 0
      && p1 != 0x7FFFFFFF && (bitOf w 47 || fld p0 35 24 == 0xFFF) && handleOk descs (fld p0 35 24) && handleOk descs (fld p0 23 12) && handleOk descs (fld p0 11 0)
    if op == 0x10 && ok then
      some (.isect x {
        akind := fld w 57 55, bkind := fld w 54 52, form := fld w 51 50, rowKey := bitOf w 49, fp64 := bitOf w 48, dest := bitOf w 47,
        avals := bitOf w 46, bvals := bitOf w 45, out := fld p0 35 24, bh := fld p0 23 12, ah := fld p0 11 0, r0 := p1,
        bmask := fld w 44 41, bind := bitOf w 40 })
    else none
  else if x.eng == 3 then
    if op == 0x10 && z 57 12 && handleOk descs (fld w 11 0) then some (.merge x (fld w 11 0)) else none
  else if x.eng == 4 then
    let ok := z 21 0 && decide (fld w 57 55 ≤ 5) && p0 / 2 ^ 32 == 0 && p0 != 0 && p1 / 2 ^ 32 == 0 && (bitOf w 54 || fld w 38 27 == 0xFFF) && handleOk descs (fld w 50 39)
      && handleOk descs (fld w 38 27)
    if op == 0x10 && ok then
      some (.pack x {
        fmt := fld w 57 55, append := bitOf w 54, ring := fld w 53 51, dest := fld w 50 39, arena := fld w 38 27, tiles := p0,
        first := p1, bmask := fld w 26 23, bind := bitOf w 22 })
    else none
  else match op with
    | 0x10 => if z 52 12 && handleOk descs (fld w 11 0) then some (.list x (fld w 57 53) (fld w 11 0)) else none
    | 0x11 => if z 57 0 then some (.release x) else none
    | _ => none

/-- The command that a native word spells for an engine of a task, with the operand registers it reads; none is a decode fault. -/
def nativeInstr (x : EngRef) (t : Task) (w data : Nat) (params : List Nat) : Option Instr :=
  if w / 2 ^ 58 < 0x10 then commonWord x t.nests w data
  else engineWord x t.descriptors w (params.getD 0 0) (params.getD 1 0)

/-- The body length of a LOOP or NEST word. -/
def wordBody (w : Nat) : Option Nat := if w / 2 ^ 58 = 3 ∨ w / 2 ^ 58 = 4 then some (fld w 53 42) else none

/-- The core field of a SIGNAL or CHSEND word (R319). -/
def wordCore (w : Nat) : Option Nat :=
  if w / 2 ^ 58 = 5 then some (fld w 56 48) else if w / 2 ^ 58 = 7 then some (fld w 53 45) else none

/-- Words in an engine's queue (R322). -/
def EngCtx.words (c : EngCtx) : Nat := c.queue.length + c.early.length

namespace State

/-- A word that intake discards, with its log entry (R328, R329). -/
def discardWord (s : State) (x : EngRef) (t : Task) (code pos w : Nat) : State :=
  let s := s.logErr (coreError x.core x.eng (some t) code 0 pos)
  s.updEng x fun c => { c with position := pos + 1, dataNext := if w / 2 ^ 58 == 7 then 2 else 0 }

/-- One word enters an engine's queue (R321, R327 to R329). -/
def intakeWord (s : State) (x : EngRef) (t : Task) (w : Nat) : State :=
  let c := s.eng x
  let pos := c.position
  let keep (c : EngCtx) : EngCtx := if c.skip == 0 then { c with queue := c.queue ++ [w] } else { c with skip := c.skip - 1 }
  if c.dataNext == 1 then s.setEng x { keep c with position := pos + 1, dataNext := 0 }
  else if c.dataNext == 2 then s.setEng x { c with position := pos + 1, dataNext := 0 }
  else
    let count := mapCount t.map x.eng
    let pastEnd := match wordBody w with
      | some b => !mapExpress t.map x.eng && decide (count < pos + 1 + b)
      | none => false
    match nativeInstr x t w 0 c.seen with
    | none =>
      if t.skip then s.discardWord x t E.skipped pos w
      else s.failTask t x.core x.eng { code := E.nativeInvalid, detail := pos }
    | some i =>
      let fused := match wordCore w with
        | some g => g != 0x1FF && !s.enabled g
        | none => false
      if pastEnd then
        (if t.skip then s.discardWord x t E.skipped pos w else s.failTask t x.core x.eng { code := E.nativeInvalid, detail := pos })
      else if fused then
        (if t.skip then s.discardWord x t E.fusedTarget pos w else s.failTask t x.core x.eng { code := E.fusedTarget, detail := pos })
      else
        let seen := match i with
          | .param _ p v => c.seen.set p v
          | _ => c.seen
        s.setEng x { keep c with position := pos + 1, seen := seen, dataNext := if w / 2 ^ 58 == 7 then 1 else 0 }

/-- Words are decoded into an engine's queue in order, for as long as the task lives. -/
def decodeWords (s : State) (x : EngRef) (id : Nat) : List Nat → State
  | [] => s
  | w :: ws =>
    match s.taskId id with
    | some t => if t.aborting then s else (s.intakeWord x t w).decodeWords x id ws
    | none => s

/-- Words enter an engine's queue and are decoded there; before the task's start, which reads the counts that decoding needs and fixes the intake mode, they
wait for it undecoded (log entry 33). -/
def intake (s : State) (x : EngRef) (id : Nat) (ws : List Nat) : State :=
  match s.taskId id with
  | some t => if !t.started.isEmpty then s.decodeWords x id ws else s.updEng x fun c => { c with early := c.early ++ ws }
  | none => s

/-- The words that arrived early are decoded. -/
def decodeEarly (s : State) (x : EngRef) (id : Nat) : State :=
  let ws := (s.eng x).early
  (s.updEng x fun c => { c with early := [] }).decodeWords x id ws

end State
end Sys2Proof.Machine
end

