-- ==== Sys2Proof/Machine/Sync.lean ====
section
/-! DEFINITION. How an engine issues and retires words (R60, R61, R297, R298, R304, R334), Tidemarks and semaphores (R308 to R313),
channels and the row dispenser's packets (R266, R267, R275 to R280), and the control words NOP to NEST (R297 to R312). -/

namespace Sys2Proof.Machine

/-! ## Words and bodies -/

/-- Whether the words that come next come from the queue: no body is being repeated. -/
def EngCtx.fromQueue (c : EngCtx) : Bool := c.frames.all (·.first)

/-- The innermost body has taken n more words; its first pass keeps them. -/
def EngCtx.advance (c : EngCtx) (n : Nat) (ws : List (Option Nat)) : EngCtx :=
  match c.frames with
  | [] => c
  | f :: fs => { c with frames := { f with pos := f.pos + n, words := if f.first then f.words ++ ws else f.words } :: fs }

/-- The next n words as far as the queue holds them; none for the others. -/
def EngCtx.ahead (c : EngCtx) (n : Nat) : List (Option Nat) := (c.queue.take n).map some ++ List.replicate (n - c.queue.length) none

/-- The first n words leave the queue, as far as it holds them; those that have not arrived do not enter it. The innermost body has taken them. -/
def EngCtx.drop (c : EngCtx) (n : Nat) : EngCtx :=
  if c.fromQueue then ({ c with queue := c.queue.drop n, skip := c.skip + (n - c.queue.length) }).advance n (c.ahead n) else c.advance n []

/-- The native word that an engine takes next and the one after it, as far as they are known: the head of the queue, or the next of a body that is repeated
(R297, R322). -/
def EngCtx.next (c : EngCtx) : Option (Nat × Option Nat) :=
  if c.fromQueue then c.queue.head?.map fun w => (w, c.queue[1]?)
  else match c.frames with
    | f :: _ => match f.words.getD f.pos none with
      | some w => some (w, f.words.getD (f.pos + 1) none)
      | none => none
    | [] => none

/-- The instruction that a known next word spells; a CHSEND spells one once its data word is there (R317). -/
def EngCtx.spelled (c : EngCtx) (x : EngRef) (t : Task) : Option Instr :=
  match c.next with
  | some (w, d) => if w / 2 ^ 58 == 7 && d.isNone then none else nativeInstr x t w (d.getD 0) c.params
  | none => none

/-- Whether an instruction is the one that an engine takes next: its next word spells it, or no word of a stream stands there (R322, log entry 16). -/
def EngCtx.takes (c : EngCtx) (x : EngRef) (t : Task) (i : Instr) : Bool := c.next.isNone || c.spelled x t == some i

/-- An instruction's n words have been taken: those at the head of the queue leave it. -/
def EngCtx.consume (c : EngCtx) (n : Nat) : EngCtx :=
  (if c.fromQueue then { c with queue := c.queue.drop n } else c).advance n (if c.fromQueue then c.ahead n else [])

/-- The innermost body ends: its words count as words of the body around it. -/
def EngCtx.pop (c : EngCtx) (f : LoopFrame) (outer : List LoopFrame) : EngCtx :=
  ({ c with frames := outer }).advance f.len f.words

/-- Ends the passes that are complete (R297, R302, R304): the next pass, the next item, a wait for an item, or the end of the body. A
body that never ran leaves the queue. -/
def EngCtx.settle : Nat → EngCtx → EngCtx
  | 0, c => c
  | fuel + 1, c =>
    match c.frames with
    | [] => c
    | f :: outer =>
      if f.pos < f.len then c
      else if f.left ≠ 0 then { c with frames := { f with pos := 0, left := f.left - 1, first := false } :: outer }
      else match f.nest with
        | none => settle fuel (c.pop f outer)
        | some n =>
          if !n.items then settle fuel (c.pop f outer)
          else match c.items with
            | some w :: rest =>
              { c with frames := { f with pos := 0, left := n.points - 1, first := f.first && n.item.isNone, nest := some { n with item := some w } } :: outer
                       items := rest }
            | none :: rest =>
              let c := { c with items := rest, frames := outer }
              settle fuel (if n.item.isNone then c.drop f.len else c.advance f.len f.words)
            | [] => { c with blocked := some .item }

/-- The words of a body of len words that begins after its header: those of the body around it where that one is repeated. -/
def EngCtx.bodyWords (c : EngCtx) (len : Nat) : List (Option Nat) :=
  if c.fromQueue then []
  else match c.frames with
    | f :: _ => (f.words.drop f.pos).take len
    | [] => []

/-- Body depth (R298). -/
def EngCtx.depth (c : EngCtx) : Nat := c.frames.length

/-- Words left in the innermost body after a header of n words; none outside every body. -/
def EngCtx.room (c : EngCtx) (n : Nat) : Option Nat :=
  match c.frames with
  | [] => none
  | f :: _ => some (f.len - f.pos - n)

/-- Native words of an instruction: CHSEND has its data word (R317). -/
def wordsOf (i : Instr) : Nat :=
  match i with
  | .chsend _ _ _ _ _ => 2
  | _ => 1

/-! ## Registers that count -/

def tmReg (core slot n : Nat) : RegId := ⟨.pilTm, core, 64 * slot + n⟩
def semReg (core slot n : Nat) : RegId := ⟨.pilSem, core, 16 * slot + n⟩
def lcReg (core eng n : Nat) : RegId := ⟨.pilLc, core, 8 * eng + n⟩

/-- Whether an engine waits for something other than this very instruction's rings or predecessor. -/
def EngCtx.waits (c : EngCtx) (i : Instr) : Bool :=
  match c.blocked with
  | none => false
  | some (.ring j) => j != i
  | some (.order j) => j != i
  | some _ => true

/-- Whether an engine has retired the count of words of its task's truncation point (R334). -/
def EngCtx.truncated (c : EngCtx) (t : Task) (e : Nat) : Bool := t.trunc && t.truncEngine == e && decide (t.truncCount ≤ c.retired)

/-- Whether no word of a queue can still issue: it is empty, or holds the header of a CHSEND whose data word would lie past the stream's end (log entry 112). -/
def EngCtx.spent (c : EngCtx) : Bool := c.queue.isEmpty || (c.dataNext == 1 && c.queue.length == 1)

/-- After the last word of a stream the engine acts as if it had decoded END, in a body as well (R324); not at its task's truncation point (R334). -/
def EngCtx.endOfStream (c : EngCtx) (t : Task) (e : Nat) : EngCtx :=
  if !mapExpress t.map e && decide (0 < mapCount t.map e) && decide (mapCount t.map e ≤ c.position) && c.fromQueue && c.spent && c.blocked.isNone
      && !c.truncated t e
  then { c with ended := true, queue := [], frames := [] } else c

/-- The number of end-marked words of a channel (R275). -/
def packets (c : Chan) : Nat := (c.words.filter (·.2)).length

/-- The end packet of R267. -/
def endPacket : Nat × Bool := (0xFFFFFFFFFFFFFFFF, true)

/-- A work item as four words, and back (R263, R266). -/
def itemOf (ws : List Nat) : WorkItem :=
  let w (k : Nat) := ws.getD k 0
  { row := fld (w 0) 47 0, first := fld (w 1) 47 0, last := fld (w 2) 47 0, slot := fld (w 3) 31 0, owner := fld (w 3) 40 32,
    split := bitOf (w 3) 55, depth := fld (w 3) 54 52, sub := fld (w 3) 51 48,
    reserved := fld (w 0) 63 48 + fld (w 1) 63 48 + fld (w 2) 63 48 + fld (w 3) 47 41 + fld (w 3) 63 56 }

def itemWords (i : WorkItem) : List Nat :=
  [i.row, i.first, i.last, i.slot + i.owner * 2 ^ 32 + i.sub * 2 ^ 48 + i.depth * 2 ^ 52 + b2n i.split * 2 ^ 55]

/-- The tag that the credit of a SIGNAL or channel write carries in the model: one past the tags of the Stream Engines (log entry 8). -/
def syncTag : Nat := 512

/-- A frame from an engine of a core. -/
def coreFrame (x : EngRef) (t : Task) (kind address : Nat) : Frame :=
  { kind := kind, partition := t.partition, arrive := false, address := address, package := 256, payload := [], count := 0, counter := 0,
    source := x.core, engine := x.eng, tag := syncTag, slot := t.slot, add := 0xFF, post := false, amount := 0, target := 0, gen := 0, epoch := 2 }

/-- A credit request for n transactions to a target number of R342 (R361). -/
def creditRequest (x : EngRef) (t : Task) (target tag n : Nat) : Frame :=
  { coreFrame x t 3 0 with target := target, tag := tag, count := n }

/-- LOOP and NEST check their arrangement (R298): the code of the first rule that the body breaks. -/
def bodyFault (c : EngCtx) (body : Nat) : Option Nat :=
  if 4 ≤ c.depth then some E.loopDepth
  else match c.room 1 with
    | some r => if r < body then some E.loopDepth else none
    | none => none

/-- Whether an engine runs inside a NEST. -/
def inNest (c : EngCtx) : Bool := c.frames.any (·.nest.isSome)

namespace State

/-! ## Issue and retirement -/

/-- Whether a task's truncation point holds an engine back (R334). -/
def atTruncation (s : State) (x : EngRef) (t : Task) : Bool := (s.eng x).truncated t x.eng

/-- Whether gating holds issue on a core (R465): the Pilot's present span of 16 is among the first g (log entry 29). -/
def gated (s : State) (core : Nat) : Bool := decide (Tab.get 0 s.lh.spans (core / 32) < Tab.get 0 s.lh.gating (core / 32))

/-- Whether the word at the head of an engine's queue for a slot can issue (R322). -/
def ready (s : State) (x : EngRef) : Bool :=
  match s.taskAt x.core x.slot with
  | some t =>
    let c := s.eng x
    t.state == 2 && t.started.contains x.core && !c.ended && c.blocked.isNone && c.run == .none && !s.atTruncation x t && (c.spelled x t).isSome
  | none => false

/-- Whether an engine stands at a word boundary and a slot's turn has come (R322): no other slot's data instruction is under way, and no slot before it in
the round has a word that can issue. -/
def hasTurn (s : State) (x : EngRef) : Bool :=
  let first := s.turnAt x
  ((List.range 4).all fun n => n == x.slot || (s.eng ⟨x.core, n, x.eng⟩).run == .none)
  && (List.range ((x.slot + 4 - first) % 4)).all fun k => !s.ready ⟨x.core, (first + k) % 4, x.eng⟩

/-- Whether an engine can execute an instruction now for a task (R287, R322, R334, log entry 16): the task runs, or it drains at its
truncation point and the instruction is a MOVE that had waited for its predecessor; the instruction is the next of the slot's queue, and the slot's turn has
come. -/
def canIssue (s : State) (x : EngRef) (t : Task) (i : Instr) : Bool :=
  (t.state == 2 || (t.state == 3 && t.truncated && !t.aborting && (s.eng x).blocked == some (.order i))) && t.started.contains x.core && !(s.eng x).ended && !(s.eng x).waits i && !s.atTruncation x t
  && (s.eng x).takes x t i && ((s.eng x).blocked.isSome || (!s.gated x.core && s.hasTurn x))

/-- An engine begins an instruction: the round of its slots goes on (R322), and before the first one of a task it clears its loop registers (R287). -/
def begin' (s : State) (x : EngRef) : State :=
  if (s.eng x).blocked.isSome then s
  else
    let s := s.setTurn x ((x.slot + 1) % 4)
    if (s.eng x).retired == 0 then s.forAll (List.range 8) fun s r => s.setReg (lcReg x.core x.eng r) 0 else s

/-- Execute an instruction on an engine of a list for the task in its slot, when it can issue. -/
def issue (s : State) (engines : List Nat) (x : EngRef) (i : Instr) (f : State → Task → State) : State :=
  match s.taskAt x.core x.slot with
  | none => s
  | some t => if engines.contains x.eng && s.canIssue x t i then f (s.begin' x) t else s

/-- The counts of a retirement (R60, R61): one instruction, and the handshakes that it took since its last count (log entry 11). -/
def countRetired (s : State) (x : EngRef) : State := (s.addRf ⟨.pilQcount, x.core, x.eng⟩ 47 0 1).countUnits x

/-! ## Channels (R275 to R280) -/

/-- Whether the dispenser of a core's die is running its list into a channel of that core (R280). -/
def dispChannel (s : State) (core ch : Nat) : Bool :=
  (s.disp (core / 32)).running && s.rb ⟨.dspCfg, core / 32, 0⟩ (core % 32) && s.rf ⟨.dspCfg, core / 32, 0⟩ 34 32 == ch

/-- A dispenser's core has read its end packet; busy clears when every one has (R267). -/
def tookEnd (s : State) (core : Nat) : State :=
  let d := core / 32
  let v := s.disp d
  let v := { v with ended := if v.ended.contains (core % 32) then v.ended else v.ended ++ [core % 32] }
  let cores := (List.range 32).filter fun c => s.rb ⟨.dspCfg, d, 0⟩ c
  if cores.all v.ended.contains then s.setDisp d { v with running := false, sent := [], ended := [] } else s.setDisp d v

/-- End packets are written into the channels of the cores that have read their last items (R267). -/
def pushEnds (s : State) (d : Nat) : State :=
  let v := s.disp d
  let ch := s.rf ⟨.dspCfg, d, 0⟩ 34 32
  if v.running && v.next == v.count && v.head.isNone then
    s.forAll ((List.range 32).filter fun c => s.rb ⟨.dspCfg, d, 0⟩ c) fun s c =>
      let v := s.disp d
      let q := s.chan (32 * d + c) ch
      if q.words.isEmpty && !v.sent.contains c then
        (s.setChan (32 * d + c) ch { q with words := [endPacket] }).setDisp d { v with sent := v.sent ++ [c] }
      else s
  else s

/-- The engines that run an items nest on a core for a slot (R304). -/
def itemEngines (s : State) (t : Task) (core : Nat) : List Nat :=
  let tables := ((List.range 8).map fun e => ((s.eng ⟨core, t.slot, e⟩).frames.filterMap (·.nest)).filterMap
    fun n => if n.items then some n.table else none).flatten
  match tables with
  | [] => []
  | n :: _ =>
    match s.nestEntry t core n with
    | .ok e => (List.range 8).filter fun k => bitOf e.engines k
    | .error _ => []

/-- Something enters an engine's item queue; an engine that waits for it goes on (R304). -/
def giveItem (s : State) (x : EngRef) (w : Option WorkItem) : State :=
  let c := s.eng x
  let c := { c with items := c.items ++ [w] }
  match c.blocked with
  | some .item =>
    let c := ({ c with blocked := none }).settle (c.frames.length + 1)
    s.setEng x (match s.taskAt x.core x.slot with
      | some t => c.endOfStream t x.eng
      | none => c)
  | _ => s.setEng x c

/-- The end of a list reaches the engines of a slot's items nest, behind the items before it (R304, R307). -/
def giveEnd (s : State) (core slot : Nat) (es : List Nat) : State := s.forAll es fun s e => s.giveItem ⟨core, slot, e⟩ none

/-- The ends of lists without items that a Pilot owes a slot reach its items nest once engines run one (R307). -/
def giveZeros (s : State) (core slot : Nat) : State :=
  let p : EngRef := ⟨core, slot, 7⟩
  match s.taskAt core slot with
  | none => s
  | some t =>
    let es := s.itemEngines t core
    if (s.eng p).zeros == 0 || es.isEmpty then s
    else (s.updEng p fun c => { c with zeros := c.zeros - 1 }).giveEnd core slot es

/-- The Pilot moves whole packets from the dispenser's channel to the engines of an items nest, for as long as every one of them has
room (R304). -/
def pumpItems (s : State) (core : Nat) : Nat → State
  | 0 => s
  | fuel + 1 =>
    let d := core / 32
    let v := s.disp d
    let ch := s.rf ⟨.dspCfg, d, 0⟩ 34 32
    if !s.dispChannel core ch then s
    else match s.taskAt core v.slot with
      | none => s
      | some t =>
        let es := s.itemEngines t core
        let q := s.chan core ch
        if es.isEmpty then s
        else if q.words.head? == some endPacket then
          let s := s.setChan core ch { q with words := q.words.drop 1 }
          (s.giveEnd core t.slot es).tookEnd core
        else if 4 ≤ q.words.length ∧ es.all (fun e => decide (((s.eng ⟨core, t.slot, e⟩).items.filter (·.isSome)).length < 4)) then
          let w := itemOf ((q.words.take 4).map (·.1))
          let s := s.setChan core ch { q with words := q.words.drop 4 }
          let s := s.forAll es fun s e => s.giveItem ⟨core, t.slot, e⟩ (some w)
          (s.pushEnds d).pumpItems core fuel
        else s

/-! ## Retirement -/

/-- Express words held for room enter their queues in order, for as long as the oldest one's queue has room (R325). -/
def admitPort (s : State) (p : Port) : Nat → State
  | 0 => s
  | fuel + 1 =>
    match (s.port p).heldWords with
    | [] => s
    | (x, w) :: rest =>
      if 256 ≤ (s.eng x).words then s
      else
        let s := s.setPort p { s.port p with heldWords := rest }
        match s.taskAt x.core x.slot with
        | some t => (s.intake x t.id [w]).admitPort p fuel
        | none => s.admitPort p fuel

def admitHeld (s : State) : State := (s.admitPort .w (s.port .w).heldWords.length).admitPort .e (s.port .e).heldWords.length

/-- An instruction retires: its words leave the queue, passes and bodies end, counts advance, and with the last one the task ends (R60, R61, R283, R304,
R324). upd is the instruction's own change of the context. -/
def retireWord (s : State) (x : EngRef) (t : Task) (i : Instr) (upd : EngCtx → EngCtx := id) : State :=
  let c := s.eng x
  let c := { upd (c.consume (wordsOf i)) with blocked := none, retired := c.retired + 1 }
  let c := (c.settle (c.frames.length + 1)).endOfStream t x.eng
  ((s.setEng x c).countRetired x).tryDone x.core x.slot

/-- A word that cannot be executed as it stands has a decode fault (R321): it aborts the task, or with skip-and-log intake it is discarded and logged (R327,
R328). It reaches the machine as a command without having passed intake (log entry 16). -/
def decodeFault (s : State) (x : EngRef) (t : Task) : State :=
  let pos := (s.eng x).position - (s.eng x).queue.length
  if t.skip then s.logErr (coreError x.core x.eng (some t) E.skipped 0 pos) else s.failTask t x.core x.eng { code := E.nativeInvalid, detail := pos }

/-! ## Channels: reading (R277) -/

/-- An engine takes a channel's answer (R277, R306, R319): word, valid and end. -/
def deliver (s : State) (x : EngRef) (t : Task) (i : Instr) (lc : Nat) (tagen : Bool) (tlc w : Nat) (valid endMark : Bool) : State :=
  let v := if !valid || (w == endPacket.1 && endMark) then 0 else w % 2 ^ 32
  let s := s.setReg (lcReg x.core x.eng lc) (BitVec.ofNat 64 v)
  let s := if tagen then s.setReg (lcReg x.core x.eng tlc) (BitVec.ofNat 64 (b2n valid + 2 * b2n endMark)) else s
  s.retireWord x t i

/-- The oldest word of a channel leaves it; a dispenser's core may so read its end packet (R266, R267, R277). -/
def popWord (s : State) (core ch : Nat) : Option (Nat × Bool) × State :=
  let q := s.chan core ch
  match q.words with
  | [] => (none, s)
  | w :: r =>
    let mine := s.dispChannel core ch
    let s := s.setChan core ch { q with words := r }
    (some w, if mine && w == endPacket then s.tookEnd core else s)

/-- A stalled CHRECV takes a word that has landed; slots and engines in ascending order (log entry 17). -/
def serveRecv (s : State) (core slot e : Nat) : State :=
  let x : EngRef := ⟨core, slot, e⟩
  match (s.eng x).blocked, s.taskAt core slot with
  | some (.chrecv ch lc tagen tlc), some t =>
    match s.popWord core ch with
    | (some w, s) => s.deliver x t (.chrecv x ch lc tagen tlc) lc tagen tlc w.1 true w.2
    | (none, s) => s
  | _, _ => s

def serveRecvs (s : State) (core : Nat) : State :=
  s.forAll (List.range 4) fun s slot => s.forAll (List.range 8) fun s e => s.serveRecv core slot e

/-! ## What follows on a retirement or a word -/

/-- Once a list is exhausted, end packets are written where they can be, and the engines and Pilots that wait for them read them (R267, R277, R304). A core
reads at most the rest of its last item before its end packet, so that two rounds are enough. -/
def pumpEnds (s : State) (d : Nat) : Nat → State
  | 0 => s
  | k + 1 =>
    let v := s.disp d
    if v.running && v.next == v.count && v.head.isNone then
      ((s.pushEnds d).forAll ((List.range 32).filter fun c => s.rb ⟨.dspCfg, d, 0⟩ c) fun s c => (s.serveRecvs (32 * d + c)).pumpItems (32 * d + c) 16).pumpEnds d k
    else s

/-- The Pilot's part after anything that may have freed an item queue, filled the channel or begun an items nest. -/
def pump (s : State) (core : Nat) : State := (((s.forAll (List.range 4) fun s n => s.giveZeros core n).pumpItems core 16).pumpEnds (core / 32) 3)

/-- An instruction retires, and what follows on it happens: held express words find room, and the Pilot's items move (R325, R304). -/
def retire (s : State) (x : EngRef) (t : Task) (i : Instr) (upd : EngCtx → EngCtx := id) : State :=
  ((s.retireWord x t i upd).admitHeld).pump x.core

/-- An instruction waits, and its engine takes waiting handshakes (R61). -/
def stall (s : State) (x : EngRef) (w : Stall) : State := (s.updEng x fun c => { c with blocked := some w }).countWait x

/-! ## Tidemarks and semaphores (R308 to R313) -/

/-- Take credits of landing space from those that a counter of a slot still holds, oldest first (R363). -/
def takeLanded (s : State) (core slot counter n : Nat) : State :=
  let mine := (s.landed.filter fun l => l.1 == core && l.2.1 == slot && l.2.2.1 == counter).take n
  let s := s.setLanded (mine.foldl (fun l m => l.erase m) s.landed)
  mine.foldl (fun s l => s.returnCredits l.2.2.2.1 (core / 32) l.2.2.2.2 1) s

/-- A TAKE that is satisfied: the counter falls and landing space is released (R311, R363). -/
def doTake (s : State) (x : EngRef) (t : Task) (number value : Nat) : State :=
  let r := tmReg x.core x.slot number
  let s := s.setRf r 31 0 (s.rf r 31 0 - value)
  (s.takeLanded x.core x.slot number value).retire x t (.waitTake x number value)

/-- An ACQ that is satisfied (R311). -/
def doAcq (s : State) (x : EngRef) (t : Task) (number value : Nat) : State :=
  let r := semReg x.core x.slot number
  (s.setRf r 15 0 (s.rf r 15 0 - value)).retire x t (.waitAcq x number value)

/-- Test a waiting GE (R312). -/
def serveGe (s : State) (core slot e : Nat) : State :=
  let x : EngRef := ⟨core, slot, e⟩
  match (s.eng x).blocked, s.taskAt core slot with
  | some (.ge n v), some t => if v ≤ s.rf (tmReg core slot n) 31 0 then s.retire x t (.waitGe x n v) else s
  | _, _ => s

/-- Test a waiting TAKE or ACQ; the next rotation begins after an engine that is served (R312). -/
def serveTake (s : State) (core slot e : Nat) : State :=
  let x : EngRef := ⟨core, slot, e⟩
  match (s.eng x).blocked, s.taskAt core slot with
  | some (.take n v), some t =>
    if v ≤ s.rf (tmReg core slot n) 31 0 then (s.doTake x t n v).setRotation core ((e + 1) % 8) else s
  | some (.acq n v), some t =>
    if v ≤ s.rf (semReg core slot n) 15 0 then (s.doAcq x t n v).setRotation core ((e + 1) % 8) else s
  | _, _ => s

/-- Steps 2 and 3 of R312. -/
def serveWaits (s : State) (core slot : Nat) : State :=
  let first := s.rotationAt core
  let s := s.forAll (List.range 8) fun s e => s.serveGe core slot e
  s.forAll ((List.range 8).map fun e => (first + e) % 8) fun s e => s.serveTake core slot e

/-- An increment of a counter or semaphore of a slot (R308, R312, R313). core and eng name who made it, for the error log. -/
def incr (s : State) (target slot : Nat) (sem : Bool) (number amount core eng : Nat) : State :=
  let (r, hi, limit, code) : RegId × Nat × Nat × Nat :=
    if sem then (semReg target slot number, 15, 16, E.semaOvf) else (tmReg target slot number, 31, 64, E.tidemarkOvf)
  let v := s.rf r hi 0 + amount
  if limit ≤ number then
    match s.taskAt target slot with
    | some t => s.failTask t core eng { code := E.syncRange, detail := number }
    | none => s
  else if 2 ^ (hi + 1) ≤ v then
    match s.taskAt target slot with
    | some t => s.failTask t core eng { code := code, detail := number }
    | none => s
  else (s.setRf r hi 0 v).serveWaits target slot

/-! ## Channels: reading and writing -/

/-- An error at a channel, which no task's abort follows. -/
def chanError (s : State) (core code : Nat) (ch : Nat) : State := s.logErr { code := code, severity := 0, kind := 1, unit := core, detail := ch }

/-- A transaction of words lands in a channel whole, or none of it (R276, R277, R280). fromDisp: the dispenser writes. -/
def pushWords (s : State) (core ch : Nat) (ws : List (Nat × Bool)) (fromDisp : Bool := false) : State :=
  let q := s.chan core ch
  if !fromDisp && s.dispChannel core ch then s.chanError core E.chDspWrite ch
  else if 64 < q.words.length + ws.length then
    let s := s.setChan core ch { q with overrun := true }
    if q.overrun then s else s.chanError core E.chOverrun ch
  else ((s.setChan core ch { q with words := q.words ++ ws }).serveRecvs core).pump core

/-! ## Frames that engines send for synchronisation (R276, R310) -/

/-- A SIGNAL or a channel write takes effect on the core that it names: at once on the engine's own core, by a frame on another. -/
def deliverSync (s : State) (x : EngRef) (f : Frame) : State :=
  let g := match placeOf f.address with
    | .cove g _ => g
    | _ => x.core
  if g != x.core then s.send f
  else if f.kind == 6 then s.incr g x.slot f.post f.counter f.amount x.core x.eng
  else s.pushWords g f.counter ((chunksOf 8 8 f.payload).mapIdx fun k b => (leNat b, bitOf f.amount k))

/-- A SIGNAL or CHSEND whose engine's earlier writes are complete (R31, R276, R310): to another die it asks for its credit first. -/
def sendSync (s : State) (x : EngRef) (t : Task) (i : Instr) (f : Frame) : State :=
  match placeOf f.address with
  | .cove g _ =>
    if g / 32 == x.core / 32 then (s.retire x t i).deliverSync x f
    else (s.send (creditRequest x t (g / 32) syncTag 1)).stall x (.send i f true)
  | _ => s

/-- A SIGNAL or CHSEND waits until every write before it in its sequence is complete (R31, R310, R315). -/
def startSync (s : State) (x : EngRef) (t : Task) (i : Instr) (f : Frame) : State :=
  if (s.eng x).moves.isEmpty then s.sendSync x t i f else s.stall x (.send i f false)

/-- The writes of an engine have become complete: a SIGNAL or CHSEND that waited for them goes on. -/
def resumeSync (s : State) (x : EngRef) : State :=
  match (s.eng x).blocked, s.taskAt x.core x.slot with
  | some (.send i f false), some t => if (s.eng x).moves.isEmpty then s.sendSync x t i f else s
  | _, _ => s

/-- The core that the core field of SIGNAL and CHSEND names: 0x1FF is the engine's own (R306, R309); or the error. -/
def syncTarget (s : State) (x : EngRef) (t : Task) (core : Nat) : Except Nat Nat :=
  if core = 0x1FF then .ok x.core
  else if !s.enabled core then .error E.fusedTarget
  else if t.cores.contains core then .ok core
  else .error E.signalTarget

/-- SIGNAL ADD and POST (R309, R310); a core field past the global indices is a decode fault (R321). -/
def signalInstr (s : State) (x : EngRef) (t : Task) (i : Instr) (post : Bool) (core number amount : Nat) : State :=
  if 384 ≤ core ∧ core ≠ 0x1FF then s.decodeFault x t else
  match s.syncTarget x t core with
  | .error c => s.failTask t x.core x.eng { code := c, detail := core }
  | .ok g =>
    if (if post then 16 else 64) ≤ number then s.failTask t x.core x.eng { code := E.syncRange, detail := number }
    else s.startSync x t i { coreFrame x t 6 (coveBase g) with counter := number, post := post, amount := amount }

/-! ## Loops and nests -/

/-- A body of len words with left passes after its first begins after the header retires. -/
def enterBody (s : State) (x : EngRef) (t : Task) (i : Instr) (f : LoopFrame) : State :=
  s.retire x t i fun c => { c with frames := { f with first := c.fromQueue, words := c.bodyWords f.len } :: c.frames }

end State

/-! ## The commands -/

/-- Codes of the eight engines of R5, and of the kinds that take the data instructions. -/
def allEngines : List Nat := [0, 1, 2, 3, 4, 5, 6, 7]

/-- NOP (R306). -/
def execNop (x : EngRef) (s : State) : Host.Outcome State Fault Refusal :=
  .next (s.issue allEngines x (.nop x) fun s t => s.retire x t (.nop x))

/-- END (R283, R306): the engine's sequence ends for the task. -/
def execEndSeq (x : EngRef) (s : State) : Host.Outcome State Fault Refusal :=
  .next (s.issue allEngines x (.endSeq x) fun s t => s.retire x t (.endSeq x) fun c => { c with ended := true, frames := [] })

/-- SETLC (R306). -/
def execSetlc (x : EngRef) (lc : Nat) (fromShape : Bool) (i imm : Nat) (s : State) : Host.Outcome State Fault Refusal :=
  let self : Instr := .setlc x lc fromShape i imm
  .next (s.issue allEngines x self fun s t =>
    let v := if fromShape then s.rf ⟨.pilShape, x.core, 16 * x.slot + i⟩ 31 0 else imm % 2 ^ 32
    (s.setReg (lcReg x.core x.eng lc) (BitVec.ofNat 64 v)).retire x t self)

/-- RELEASE (R306): the task's window becomes invalid at its final state. -/
def execRelease (x : EngRef) (s : State) : Host.Outcome State Fault Refusal :=
  .next (s.issue [7] x (.release x) fun s t => (s.updTask t.id fun t => { t with release := true }).retire x t (.release x))

/-- CHSEND (R306): one word to a channel of a participating core. -/
def execChsend (x : EngRef) (channel : Nat) (endMark : Bool) (core data : Nat) (s : State) : Host.Outcome State Fault Refusal :=
  let self : Instr := .chsend x channel endMark core data
  .next (s.issue allEngines x self fun s t =>
    if 384 ≤ core ∧ core ≠ 0x1FF then s.decodeFault x t else
    match s.syncTarget x t core with
    | .error c => s.failTask t x.core x.eng { code := c, detail := core }
    | .ok g => s.startSync x t self { coreFrame x t 7 (coveBase g) with counter := channel, payload := leBytes 8 data, amount := b2n endMark })

/-- CHRECV (R277, R306, R319): one word of the engine's own core, or the TAGGED answer, or a wait. -/
def execChrecv (x : EngRef) (channel lc : Nat) (tagen : Bool) (tlc : Nat) (s : State) : Host.Outcome State Fault Refusal :=
  let self : Instr := .chrecv x channel lc tagen tlc
  .next (s.issue allEngines x self fun s t =>
    match s.popWord x.core channel with
    | (some w, s) => ((s.deliver x t self lc tagen tlc w.1 true w.2).admitHeld).pump x.core
    | (none, s) =>
      if s.rb ⟨.chCfg, x.core, channel⟩ 0 then ((s.deliver x t self lc tagen tlc 0 false false).admitHeld).pump x.core
      else s.stall x (.chrecv channel lc tagen tlc))

/-- PARAM (R318). -/
def execParam (x : EngRef) (p value : Nat) (s : State) : Host.Outcome State Fault Refusal :=
  .next (s.issue allEngines x (.param x p value) fun s t =>
    s.retire x t (.param x p value) fun c => { c with params := c.params.set p (value % 2 ^ 48) })

/-- SIGNAL ADD (R309, R310). -/
def execSignalAdd (x : EngRef) (core number amount : Nat) (s : State) : Host.Outcome State Fault Refusal :=
  .next (s.issue allEngines x (.signalAdd x core number amount) fun s t => s.signalInstr x t (.signalAdd x core number amount) false core number amount)

/-- SIGNAL POST (R309, R310). -/
def execSignalPost (x : EngRef) (core number amount : Nat) (s : State) : Host.Outcome State Fault Refusal :=
  .next (s.issue allEngines x (.signalPost x core number amount) fun s t => s.signalInstr x t (.signalPost x core number amount) true core number amount)

/-- WAIT GE (R311). -/
def execWaitGe (x : EngRef) (number value : Nat) (s : State) : Host.Outcome State Fault Refusal :=
  .next (s.issue allEngines x (.waitGe x number value) fun s t =>
    if 64 ≤ number then s.failTask t x.core x.eng { code := E.syncRange, detail := number }
    else (s.stall x (.ge number value)).serveGe x.core x.slot x.eng)

/-- WAIT TAKE (R311, R312, R363). -/
def execWaitTake (x : EngRef) (number value : Nat) (s : State) : Host.Outcome State Fault Refusal :=
  .next (s.issue allEngines x (.waitTake x number value) fun s t =>
    if 64 ≤ number then s.failTask t x.core x.eng { code := E.syncRange, detail := number }
    else (s.stall x (.take number value)).serveTake x.core x.slot x.eng)

/-- WAIT ACQ (R311, R312). -/
def execWaitAcq (x : EngRef) (number value : Nat) (s : State) : Host.Outcome State Fault Refusal :=
  .next (s.issue allEngines x (.waitAcq x number value) fun s t =>
    if 16 ≤ number then s.failTask t x.core x.eng { code := E.syncRange, detail := number }
    else (s.stall x (.acq number value)).serveTake x.core x.slot x.eng)

/-- LOOP (R297, R298): the body runs LCn times; a count of 0 skips it. -/
def execLoop (x : EngRef) (lc body : Nat) (s : State) : Host.Outcome State Fault Refusal :=
  .next (s.issue allEngines x (.loop x lc body) fun s t =>
    match bodyFault (s.eng x) body with
    | some c => s.failTask t x.core x.eng { code := c, detail := body }
    | none =>
      let n := s.rf (lcReg x.core x.eng lc) 31 0
      if n = 0 then s.retire x t (.loop x lc body) fun c => c.drop body
      else s.enterBody x t (.loop x lc body) ⟨body, 0, n - 1, true, none, []⟩)

/-- NEST (R298 to R304): the body runs once for every point, or every point of every item. -/
def execNest (x : EngRef) (n body : Nat) (s : State) : Host.Outcome State Fault Refusal :=
  .next (s.issue allEngines x (.nest x n body) fun s t =>
    if t.nests ≤ n then s.decodeFault x t
    else if inNest (s.eng x) then s.failTask t x.core x.eng { code := E.nestInvalid, detail := n }
    else match bodyFault (s.eng x) body, s.nestEntry t x.core n with
      | some c, _ => s.failTask t x.core x.eng { code := c, detail := body }
      | none, .error f => s.failTask t x.core x.eng f
      | none, .ok e =>
        if !e.items then s.enterBody x t (.nest x n body) ⟨body, 0, e.points - 1, true, some ⟨n, e.points, false, none⟩, []⟩
        else if !bitOf e.engines x.eng then s.failTask t x.core x.eng { code := E.nestInvalid, detail := n }
        else s.enterBody x t (.nest x n body) ⟨body, body, 0, true, some ⟨n, e.points, true, none⟩, []⟩)

end Sys2Proof.Machine
end

