-- ==== Sys2Proof/Machine/Access.lean ====
section
/-! DEFINITION. Register writes as a class of access: who may write which register now (R11, R15, R46, R159, R329, R386, R399, R426,
R427, R481), when a block is busy (R13, R495 and the chapters' own rules), and what a write does field by field (R12, R13, R495,
R356). -/

namespace Sys2Proof.Machine

/-- The CXL port of a register of a harbour block (R409). -/
def cxlPortOf (r : RegId) : Nat := 2 * (r.unit / 2) + r.idx

/-- The link of a register of a harbour block (R381). -/
def linkOf (r : RegId) : Nat := 9 * r.unit + r.idx

/-- The unit that an error at a register names (R446). -/
def RegId.errUnit (r : RegId) : Nat × Nat :=
  match r.name.info.block with
  | .core => (1, r.unit)
  | .die => (2, r.unit)
  | .tower => (3, r.unit)
  | .harbour =>
    match r.name with
    | .blCfg | .blStatus | .blKeyctl | .blCount | .blErr => (5, linkOf r)
    | .cxCfg | .cxStatus | .cxCap | .cxErr => (6, cxlPortOf r)
    | _ => (4, r.unit)
  | .causeway => (7, 0)
  | .lighthouse => (9, 0)

/-- A notice about a register. -/
def RegId.notice (r : RegId) (code : Nat) : ErrInfo := { code := code, severity := 0, kind := r.errUnit.1, unit := r.errUnit.2 }

/-- A notice about a harbour. -/
def portNotice (p : Port) (code : Nat) : ErrInfo := { code := code, severity := 0, kind := 4, unit := p.harbour }

/-- The registers that are protected by R15: the chapters' own statements, and every field that a strata image sets (R356). -/
def RegName.isProtected (n : RegName) : Bool :=
  match n with
  | .rpCfg | .cvBase | .cvBound | .maCfg | .ebCfg | .ebStatus | .ebOp | .ebImm | .slCfg | .esCfg | .esOut | .chCfg | .seGroyne => true
  | .dspCfg | .dspTailNnz | .dspListbase | .dspListctl | .dspStatus | .dspFault => true
  | .lhStrataAddr | .lhStrataCtl | .lhStrataStatus | .lhStrataId | .cwCfg => true
  | .blCfg | .blStatus | .blKeyctl | .blCount | .blErr | .lhPackage | .lhRoute => true
  | .hbMemwin | .lhSharebase | .lhSharelim | .lhHostctl | .cxCfg | .lhSecctl | .lhPilotfw | .lhPowercap | .lhQuota | .lhResetctl | .lhPtbase => true
  | _ => false

/-- The fields that a strata image sets: a register of these names (R337, R356). -/
def RegName.inImage (n : RegName) : Bool :=
  match n with
  | .rpCfg | .ebCfg | .ebOp | .ebImm | .maCfg | .slCfg | .esCfg | .esOut | .chCfg | .dspCfg | .dspTailNnz => true
  | _ => false

/-- The bits whose writing of 1 performs an action, though the field is of class Q (R495). -/
def RegName.actionBits (n : RegName) : List Nat :=
  match n with
  | .rpCfg => [63]
  | .cvBound => [63]
  | .dspListctl => [63]
  | .blKeyctl => [63, 62]
  | .cxCfg => [63]
  | _ => []

/-! ## Who may write -/

namespace State

/-- The partition that a register belongs to (R426). -/
def regPartition (s : State) (r : RegId) : Option Nat :=
  let own (p : Nat) : Option Nat := if p < 8 then some p else none
  match r.name.info.block with
  | .core => own (s.dieOwner (r.unit / 32))
  | .die => own (s.dieOwner r.unit)
  | .harbour =>
    match r.name with
    | .blCfg | .blStatus | .blKeyctl | .blCount | .blErr => own (s.linkOwner (linkOf r))
    | .cxCfg | .cxStatus | .cxCap | .cxErr => own (s.cxlOwner (cxlPortOf r))
    | .hbMemwin => some (s.rf r 54 52)
    | .hbTqbase | .hbTqcfg | .hbTqdb | .hbTqstat => some (s.rf ⟨.hbTqcfg, r.unit, r.idx⟩ 61 59)
    | _ => none
  | .lighthouse =>
    match r.name with
    | .lhPtbase => some (r.idx / 3)
    | .lhStrataAddr | .lhStrataCtl | .lhStrataStatus | .lhStrataId | .lhPartsec | .lhSealctl | .lhSealstat | .lhPilotfw => some r.idx
    | .lhSharebase | .lhSharelim => some (r.idx / 16)
    | .lhQuota => some (r.idx / 4)
    | _ => none
  | _ => none

/-- Whether a partition is in a session: CONFIG_LOCKED or RUN (R412, R426). -/
def inSession (s : State) (p : Nat) : Bool := (s.session p).state == 1 || (s.session p).state == 2

/-- Whether a protected Lighthouse or Causeway field affects every partition (R426). -/
def protectsAll (s : State) (r : RegId) : Bool :=
  r.name.isProtected && (r.name.info.block == .lighthouse || r.name.info.block == .causeway) && (s.regPartition r).isNone && (List.range 8).any s.inSession

/-- The writes of a standby port that take effect (R399), and the mode request before any port controls (R481). -/
def standbyMay (s : State) (p : Port) (r : RegId) : Bool :=
  match r.name with
  | .lhClaim | .lhSoundctl | .lhSoundaddr | .lhSoundstat => true
  | .msixTable | .msixPba | .hbPortcfg => r.unit == p.harbour
  | .lhHostctl => s.pkg.control == 0
  | _ => false

/-- The blocks that a port reaches in split mode (R386): its own shore's, the Causeway's, and the Lighthouse registers of its partition
and of the port itself (log entry 18). -/
def splitMay (s : State) (p : Port) (r : RegId) : Bool :=
  match r.name.info.block with
  | .core => r.unit / 192 == p.shore
  | .die => r.unit / 6 == p.shore
  | .tower => r.unit / 4 == p.shore
  | .harbour => r.unit / 2 == p.shore
  | .causeway => true
  | .lighthouse =>
    match r.name with
    | .lhSoundctl | .lhSoundaddr | .lhSoundstat => r.idx == p.shore
    | .lhQuota => false
    | .lhHostctl | .lhClaim | .lhSecctl | .lhResetctl | .lhPowercap | .lhLayoutctl => true
    | _ => s.regPartition r == some p.shore

/-- Whether a write reaches a register: none when it does; otherwise the notice of its refusal, if there is one. Nothing arrives over a link that is
down. -/
def gate (s : State) (by' : Agent) (tbit : Bool) (r : RegId) : Option (Option ErrInfo) :=
  let off := r.name.info.block == .core && !s.enabled r.unit
  match by' with
  | .board => if r.name = .lhSecctl then none else some none
  | .pilot => if (r.name.info.block == .core && s.enabled r.unit) || r.name.info.block == .die then none else some none
  | .host p =>
    if !(s.port p).linkUp then some none
    else if s.pkg.split && !s.splitMay p r then some (some (portNotice p E.splitWrite))
    else if s.standby p && !s.standbyMay p r then some (some (portNotice p E.standbyWrite))
    else if off then some none
    else if s.protectsAll r then some (some (r.notice E.protectedWrite))
    else match s.regPartition r with
      | some q =>
        if !s.inSession q then none
        else if r.name.isProtected then some (some { r.notice E.protectedWrite with partition := some q })
        else if tbit then none
        else some (some { r.notice E.tdiAccess with partition := some q })
      | none => none

/-- What a refused write leaves: its notice, and the count of R426. -/
def refuse (s : State) (e : Option ErrInfo) : State :=
  match e with
  | none => s
  | some e =>
    let s := s.logErr e
    match e.code == E.protectedWrite, e.partition with
    | true, some q => s.satRf ⟨.lhPartsec, 0, q⟩ 31 0 1
    | _, _ => s

/-! ## When a block is busy -/

/-- Whether the engines of a core have a task (R13): one that is RUNNING or DRAINING, be its sequence for an engine empty (R283; log entry 34). -/
def coreBusy (s : State) (core : Nat) : Bool := s.tasks.any fun t => (t.state == 2 || t.state == 3) && t.cores.contains core

/-- The state of a partition's phase: 0 FLOWING, 1 EBBING, 2 SLACK, 3 LOADING (R347). -/
def strataState (s : State) (p : Nat) : Nat := s.rf ⟨.lhStrataStatus, 0, p⟩ 63 62

/-- Whether the block of a register is busy for a write of a value by an agent (R13). The link block is never busy for the field enable of BL_CFGn: R381 says
when it is busy for BL_KEYCTLn alone, and that no task runs on a link is the model's choice (log entry 108). -/
def busy (s : State) (by' : Agent) (r : RegId) (new : Word) : Bool :=
  match r.name with
  | .rpCfg | .maAccaddr | .ebCfg | .ebOp | .ebImm | .slCfg | .esCfg | .esOut => s.coreBusy r.unit
  | .cvBase | .cvBound =>
    s.tasks.any fun t => t.slot == r.idx && t.cores.contains r.unit && (if by' = .pilot then t.state == 2 || t.state == 3 else t.active)
  | .dspCfg | .dspTailNnz | .dspListbase | .dspListctl => (s.disp r.unit).running
  | .hbTqbase | .hbTqcfg => s.rb ⟨.hbTqcfg, r.unit, r.idx⟩ 63
  | .hbCqbase | .hbCqcfg => s.rb ⟨.hbCqcfg, r.unit, r.idx⟩ 63
  | .blKeyctl =>
    let l := s.link (linkOf r)
    l.stage != 0 || s.rb (blReg .blStatus (linkOf r)) 60 || (wbit new 63 && s.rb (blReg .blStatus (linkOf r)) 62)
  | .cxCfg => s.rf (cxReg .cxStatus (cxlPortOf r)) 63 61 == 4 && decide (s.cxlOwner (cxlPortOf r) < 8) && s.strataState (s.cxlOwner (cxlPortOf r)) != 2
  | .lhPackage => (List.range 36).any fun n => s.rb (blReg .blStatus n) 62
  | .lhPtbase => s.strataState (r.idx / 3) != 2
  | .lhSharebase | .lhSharelim =>
    s.strataState (r.idx / 16) != 2 || s.strataState (s.rf ⟨.lhSharebase, 0, r.idx⟩ 62 60) != 2
      || (r.name = .lhSharebase && s.strataState (wfld new 62 60) != 2)
  | _ => false

end State

/-! ## The write itself -/

/-- One field after a write, by its class (R13, R495). -/
def RegField.after (f : RegField) (busy : Bool) (old new : Nat) : Nat :=
  let o := fld old f.hi f.lo
  let n := fld new f.hi f.lo
  match f.cls with
  | .live => n
  | .task => n
  | .quiet => if busy then o else n
  | .sticky => o - (o &&& n)
  | .ro => o

/-- A register after a write, field by field; reserved spans keep reading zero (R12, R13). -/
def RegInfo.after (i : RegInfo) (busy : Bool) (old new : Nat) : Nat :=
  i.fields.foldl (fun v f => putFld v f.hi f.lo (f.after busy old new)) old

/-- Whether a write to a busy block is logged (R495). -/
def RegName.logsBusy (n : RegName) (old new : Nat) : Bool :=
  n.info.fields.any (fun f => f.cls == .quiet && fld old f.hi f.lo != fld new f.hi f.lo) || n.actionBits.any (bitOf new)

namespace State

/-- Whether a write changes a field that the loaded image of its partition sets: LH_STRATA_STATUSp.modified (R356). -/
def noteModified (s : State) (r : RegId) (old : Word) : State :=
  match s.regPartition r with
  | some p =>
    if r.name.inImage && old != s.reg r && s.rb ⟨.lhStrataStatus, 0, p⟩ 60 then s.setRf ⟨.lhStrataStatus, 0, p⟩ 61 61 1 else s
  | none => s

/-- A write that reaches its register, by the classes of its fields (R13, R495, R356). -/
def store (s : State) (by' : Agent) (r : RegId) (v : Word) : State :=
  let b := s.busy by' r v
  let old := s.reg r
  let s := if b && r.name.logsBusy old.toNat v.toNat then s.logErr (r.notice E.busyWrite) else s
  (s.setReg r (BitVec.ofNat 64 (r.name.info.after b old.toNat v.toNat))).noteModified r old

/-- A write with its checks, and what happens when it reaches the register. -/
def access (s : State) (by' : Agent) (tbit : Bool) (r : RegId) (f : State → State) : State :=
  match s.gate by' tbit r with
  | some e => s.refuse e
  | none => f s

end State

/-! ## Windows and rings -/

namespace State

/-- Whether a ring's fields pass R131 beside the other enabled rings of its Rockpool. -/
def ringOk (s : State) (core n : Nat) (w : Word) : Bool :=
  let base (w : Word) := wfld w 9 0
  let units (w : Word) := (wfld w 47 44 + 1) * wfld w 26 16
  decide (2 ≤ wfld w 47 44) && decide (base w + units w ≤ 1024) &&
  (List.range 8).all fun k =>
    let m := 8 * (n / 8) + k
    let o := s.reg ⟨.rpCfg, core, m⟩
    m == n || !wbit o 63 || decide (base o + units o ≤ base w) || decide (base w + units w ≤ base o)

/-- A write of RP_CFGn (R130, R131, R134): enabling resets the pointers when the fields pass, and fails otherwise. -/
def writeRing (s : State) (by' : Agent) (core n : Nat) (v : Word) : State :=
  let r : RegId := ⟨.rpCfg, core, n⟩
  let b := s.busy by' r v
  let s := s.store by' r v
  if b || !wbit v 63 then s
  else if s.ringOk core n (s.reg r) then s.setRing core n Ring.empty
  else (s.setRf r 63 63 0).logErr (r.notice E.ringConfig)

/-- Whether a window passes the check of R143 beside the other valid windows of its core. -/
def windowOk (s : State) (core n : Nat) : Bool :=
  let (b, l, _) := s.cvWindow core n
  decide (b < l) && decide (l ≤ s.rf ⟨.cvSize, core, 0⟩ 9 0) &&
  (List.range 4).all fun m =>
    let (b', l', v') := s.cvWindow core m
    m == n || !v' || decide (l ≤ b') || decide (l' ≤ b)

/-- A write of CV_BASEn or CV_BOUNDn (R142, R143). The Pilot's write of valid does not act while bytes that another partition owned last wait for their
scrub (R145, log entry 116). -/
def writeWindow (s : State) (by' : Agent) (r : RegId) (v : Word) : State :=
  if by' = .pilot ∧ r.name = .cvBound ∧ wbit v 63 ∧ s.ownerOf (coveBase r.unit) ≠ s.dieOwner (r.unit / 32) then s else
  let (_, _, valid) := s.cvWindow r.unit r.idx
  let b := s.busy by' r v
  let moves := wfld v 9 0 != s.rf r 9 0
  if !b && valid && moves then s.logErr (r.notice E.cvWindow)
  else
    let s := s.store by' r v
    if b || r.name != .cvBound || !wbit v 63 then s
    else if s.windowOk r.unit r.idx then s
    else (s.setRf r 63 63 0).logErr (r.notice E.cvWindow)

/-- A flush of a channel discards its words; a stalled read keeps waiting (R279). -/
def flushChan (s : State) (core n : Nat) : State :=
  s.setChan core n { s.chan core n with words := [] }

/-- A mode change of a channel (R281): a read that is stalled when the mode becomes TAGGED returns at once. -/
def tagStalled (s : State) (core n : Nat) : State :=
  s.forAll (List.range 4) fun s slot => s.forAll (List.range 8) fun s e =>
    let x : EngRef := ⟨core, slot, e⟩
    match (s.eng x).blocked, s.taskAt core slot with
    | some (.chrecv ch lc tagen tlc), some t => if ch == n then ((s.deliver x t (.chrecv x ch lc tagen tlc) lc tagen tlc 0 false false).admitHeld).pump core else s
    | _, _ => s

/-- A write of CH_CFGn: mode and flush (R279, R281). -/
def writeChan (s : State) (by' : Agent) (core n : Nat) (v : Word) : State :=
  let s := if wbit v 1 then (s.flushChan core n).pump core else s
  let s := s.store by' ⟨.chCfg, core, n⟩ (BitVec.ofNat 64 (b2n (wbit v 0)))
  if wbit v 0 then s.tagStalled core n else s

end State

/-! ## The commands -/

/-- RING_ENABLE (R131): a write of RP_CFGn. -/
def execRingEnable (by' : Agent) (core n value : Nat) (s : State) : Host.Outcome State Fault Refusal :=
  .next (s.access by' false ⟨.rpCfg, core, n⟩ fun s => s.writeRing by' core n (BitVec.ofNat 64 value))

/-- WINDOW_VALID (R143): a write of CV_BOUNDn. -/
def execWindowValid (by' : Agent) (core n value : Nat) (s : State) : Host.Outcome State Fault Refusal :=
  .next (s.access by' false ⟨.cvBound, core, n⟩ fun s => s.writeWindow by' ⟨.cvBound, core, n⟩ (BitVec.ofNat 64 value))

/-- CHANNEL_FLUSH (R279): a write of 1 to CH_CFGn.flush that leaves the mode. -/
def execChannelFlush (by' : Agent) (core n : Nat) (s : State) : Host.Outcome State Fault Refusal :=
  .next (s.access by' false ⟨.chCfg, core, n⟩ fun s =>
    s.writeChan by' core n (BitVec.ofNat 64 (2 + s.rf ⟨.chCfg, core, n⟩ 0 0)))

/-- CHANNEL_MODE_CHANGE (R281): a write of CH_CFGn.mode. -/
def execChannelModeChange (by' : Agent) (core n : Nat) (tagged : Bool) (s : State) : Host.Outcome State Fault Refusal :=
  .next (s.access by' false ⟨.chCfg, core, n⟩ fun s => s.writeChan by' core n (BitVec.ofNat 64 (b2n tagged)))

/-- HOST_CHANNEL_READ (R278): a read of CH_DATAn, which never stalls. A narrower read takes the word and gives the addressed bytes of it (R11). -/
def execHostChannelRead (port : Port) (core : Nat) (n : RegPart) (s : State) : Host.Outcome State Fault Refusal :=
  .next (
    if !(s.port port).linkUp then s
    else if (s.pkg.split && core / 192 != port.shore) || !s.enabled core then s.emit (.readData port (zeros n.size))
    else match s.popWord core n.reg with
      | (some w, s) =>
        (s.setChan core n.reg { s.chan core n.reg with lvalid := true, lend := w.2 }).pump core |>.emit (.readData port (partOf n.off n.size (leBytes 8 w.1)))
      | (none, s) => (s.setChan core n.reg { s.chan core n.reg with lvalid := false, lend := false }).emit (.readData port (zeros n.size)))

/-- HOST_CHANNEL_PUSH (R278): a write of CH_DATAn. -/
def execHostChannelPush (port : Port) (core n data : Nat) (s : State) : Host.Outcome State Fault Refusal :=
  .next (s.access (.host port) true ⟨.chData, core, n⟩ fun s => s.pushWords core n [(data % 2 ^ 64, false)])

/-- HOST_CHANNEL_PUSH_END (R278): a write of CH_PUSHENDn. -/
def execHostChannelPushEnd (port : Port) (core n data : Nat) (s : State) : Host.Outcome State Fault Refusal :=
  .next (s.access (.host port) true ⟨.chPushend, core, n⟩ fun s => s.pushWords core n [(data % 2 ^ 64, true)])

end Sys2Proof.Machine
end

