-- ==== Sys2Proof/Machine/Acc.lean ====
section
/-! DEFINITION. Accumulator memory (R206 to R210): its tiles and their overlap, the accumulator image, and reads of it in debug mode. -/

namespace Sys2Proof.Machine

/-- The number under which an accumulator tile is kept: 16 + t for FP64. -/
def accKey (ty t : Nat) : Nat := if ty == 2 then 16 + t else t

/-- A tile of an accumulator memory; none where nothing has used it since start-up, when it reads zero (R475). -/
def ArraySt.tile (a : ArraySt) (ty t : Nat) : Option AccTile := (a.acc.find? fun p => p.1 == accKey ty t).map (·.2)

/-- Put a tile in place of what is kept under its number. -/
def ArraySt.putTile (a : ArraySt) (t : Nat) (v : AccTile) : ArraySt :=
  { a with acc := Tab.insert id (Tab.erase a.acc (accKey v.ty t)) (accKey v.ty t) v }

/-- The halves of an FP64 tile as raw 4-byte elements. -/
def halfTile (v : AccTile) (upper : Bool) : AccTile :=
  let vs := (if upper then v.vals.drop 2048 else v.vals.take 2048)
  { v with ty := 1, live := false, vals := (vs.map fun x => [x % 2 ^ 32, x / 2 ^ 32]).flatten }

/-- The memory of FP64 tile t is given up to 4-byte tiles: what it held stays as raw bytes, not live. -/
def ArraySt.split64 (a : ArraySt) (t : Nat) : ArraySt :=
  match a.acc.find? fun p => p.1 == 16 + t with
  | some p =>
    let a := { a with acc := Tab.erase a.acc (16 + t) }
    (a.putTile (2 * t) (halfTile p.2 false)).putTile (2 * t + 1) (halfTile p.2 true)
  | none => a

/-- Start a tile: what overlaps it is no longer live (R206, R208). -/
def ArraySt.startTile (a : ArraySt) (t : Nat) (v : AccTile) : ArraySt :=
  if v.ty == 2 then
    ({ a with acc := Tab.erase (Tab.erase a.acc (2 * t)) (2 * t + 1) }).putTile t v
  else (a.split64 (t / 2)).putTile t v

/-- A word of the accumulator image (R209); none where the tile's contents are undefined. -/
def ArraySt.imageWord (a : ArraySt) (w : Nat) : Option Nat :=
  let at64 (t : Nat) := a.acc.find? fun p => p.1 == 16 + t
  let at32 (t : Nat) := a.acc.find? fun p => p.1 == t
  if w < 0x8000 then
    match at64 (w / 0x1000) with
    | some p => p.2.vals[w % 0x1000]?
    | none =>
      match at32 (w / 0x800) with
      | some p =>
        let k := 2 * (w % 0x800)
        match p.2.vals[k]?, p.2.vals[k + 1]? with
        | some lo, some hi => some (lo + hi * 2 ^ 32)
        | _, _ => none
      | none => some 0
  else
    let k := w - 0x8000
    let t := k / 0x80
    let i := k % 0x80 / 2
    match (if at64 t |>.isSome then at64 t else at32 t) with
    | some p => if k % 2 == 0 then p.2.c[i]? else p.2.abar[i]?
    | none => some 0

/-- Words of the accumulator image (R209). -/
def imageWords : Nat := 0x8800

/-- The live bits of an accumulator memory, FP64 tile t on its own number (R208, R335). -/
def ArraySt.liveBits (a : ArraySt) : Nat :=
  (List.range 16).foldl (fun v t => if a.acc.any (fun p => p.1 % 16 == t && p.2.live) then v + 2 ^ t else v) 0

namespace State

/-- Image words of an array, a free value where the contents are undefined. -/
def imageBytes (s : State) (a : ArraySt) : Nat → Nat → List Byte × State
  | _, 0 => ([], s)
  | w, n + 1 =>
    match a.imageWord w with
    | some v => let (r, s) := s.imageBytes a (w + 1) n; (leBytes 8 v ++ r, s)
    | none => let (f, s) := s.fresh; let (r, s) := s.imageBytes a (w + 1) n; (leBytes 8 f ++ r, s)

/-- Whether accumulator memory of a core is in debug mode: the lock is open, and a task that runs or drains on the core, or with none the last that
started there, is a debug-mode task (R209, R210, R442; log entry 35). -/
def debugReads (s : State) (core : Nat) : Bool :=
  let mine := s.tasks.filter fun t => t.started.contains core
  let now := mine.filter fun t => t.state == 2 || t.state == 3
  !s.trust.lockClosed && (if now.isEmpty then (mine.getLast?.map Task.debug).getD false else now.any Task.debug)

end State

/-- ACC_DATA_READ (R210): a host read of MA_ACCDATAn, which advances MA_ACCADDRn.word. A narrower read gives the addressed bytes of the word (R11). -/
def execAccDataRead (port : Port) (core : Nat) (a : RegPart) (s : State) : Host.Outcome State Fault Refusal :=
  .next (
    if !(s.port port).linkUp then s
    else if (s.pkg.split && core / 192 != port.shore) || !s.enabled core then s.emit (.readData port (zeros a.size))
    else
      let r : RegId := ⟨.maAccaddr, core, a.reg⟩
      let w := s.rf r 18 3
      let s := s.setRf r 18 3 (if imageWords ≤ w + 1 then 0 else w + 1)
      if !s.debugReads core then s.emit (.readData port (zeros a.size))
      else
        let (bs, s) := s.imageBytes (s.array core a.reg) w 1
        s.emit (.readData port (partOf a.off a.size bs)))

end Sys2Proof.Machine
end

