-- ==== Sys2Proof/Machine/Rings.lean ====
section
/-! DEFINITION. What the data instructions share: Rockpool rings (R128 to R134), the binding values that an instruction of a NEST takes
(R300, R302), the out-of-bounds counts (R109), free bytes, and the wait for a ring (R28, R334). -/

namespace Sys2Proof.Machine

/-- A free byte (log entry 5). -/
def freeByte (k : Nat) : Byte := BitVec.ofNat 8 (Config.freeValue k).toNat

/-- The n bytes of a slot from an offset on: after those that its producer wrote, free values (R218, log entry 5). -/
def Slot.read (v : Slot) (off n : Nat) : List Byte :=
  let own := (v.bytes.drop off).take n
  own ++ (List.range (n - own.length)).map fun i => freeByte (v.fill + (off + own.length + i - v.bytes.length))

namespace State

/-! ## Rings -/

def ringCfg (s : State) (core n : Nat) : Word := s.reg ⟨.rpCfg, core, n⟩
def ringEnabled (s : State) (core n : Nat) : Bool := wbit (s.ringCfg core n) 63
def ringSlots (s : State) (core n : Nat) : Nat := wfld (s.ringCfg core n) 47 44 + 1
/-- A ring's slot size in bytes (R130). -/
def slotSize (s : State) (core n : Nat) : Nat := wfld (s.ringCfg core n) 26 16 * 64
def ringProducer (s : State) (core n : Nat) : Nat := wfld (s.ringCfg core n) 55 52

/-- Whether a producer can commit a slot (R28, R133). -/
def ringRoom (s : State) (core n : Nat) : Bool :=
  s.ringEnabled core n && decide ((s.ring core n).slots.length < s.ringSlots core n)

/-- The number of slots a consumer can take now (R28, R133). -/
def ringCount (s : State) (core n : Nat) : Nat := if s.ringEnabled core n then (s.ring core n).slots.length else 0

def useRing (r : Ring) (id : Nat) : List Nat := if r.users.contains id then r.users else r.users ++ [id]

/-- n free bytes (log entry 5). -/
def freeBytes (s : State) (n : Nat) : List Byte × State :=
  ((List.range n).map fun i => freeByte (s.free + i), s.setFree (s.free + n))

/-- A producer commits the slot at the tail on behalf of a task (R129, R133, R134); what it has not written of the slot is undefined (R218, log
entry 5). -/
def commitSlot (s : State) (core n id ty : Nat) (bs : List Byte) : State :=
  let r := s.ring core n
  (s.setRing core n { r with slots := r.slots ++ [⟨bs, s.free, ty, false⟩], tail := (r.tail + 1) % s.ringSlots core n, users := useRing r id }).setFree
    (s.free + (s.slotSize core n - bs.length))

/-- A consumer releases k slots at the head (R129, R133, R134). -/
def releaseSlots (s : State) (core n id k : Nat) : State :=
  let r := s.ring core n
  if k = 0 then s
  else s.setRing core n { r with slots := r.slots.drop k, head := (r.head + k) % s.ringSlots core n, users := useRing r id }

/-- The first k slots that a consumer can take now. -/
def seeSlots (s : State) (core n k : Nat) : List Slot := (s.ring core n).slots.take (min k (s.ringCount core n))

/-- Where an engine stands in what it has begun, as its fault register counts: the tile pair or the entry of A, the group, the tile (R229, R249, R260). -/
def runPlace (s : State) (x : EngRef) : Nat :=
  match (s.eng x).run with
  | .isect r => if r.pointer.isSome then r.aSeen else r.run
  | .merge r => r.group
  | .pack r => r.tile
  | _ => 0

/-- The source of a port of the Estuary (R250). -/
def portSource (s : State) (core p : Nat) : Nat := s.rf ⟨.esCfg, core, 0⟩ (4 * p + 3) (4 * p)

/-- A parity error of a word of ring n that an engine reads aborts its task (R135). -/
def parityFail (s : State) (x : EngRef) (n : Nat) : State :=
  s.fail x { code := E.rockpoolParity, detail := n, visit := s.runPlace x,
             port := ((List.range 16).find? fun p => 40 + s.portSource x.core p == n).getD 0 }

/-- A consumer takes whole slots from the head, k of them or as many as are there, and releases them (R129, R135). -/
def takeSlots (s : State) (x : EngRef) (id n k : Nat) : List (List Byte) × State :=
  let v := s.seeSlots x.core n k
  if v.any (·.struck) then ([], s.parityFail x n)
  else (v.map (·.read 0 (s.slotSize x.core n)), s.releaseSlots x.core n id v.length)

/-- The next whole slot of ring n, or none while there is none. -/
def takeSlot (s : State) (x : EngRef) (id n : Nat) : Option (List Byte) × State :=
  let r := s.takeSlots x id n 1
  (r.1.head?, r.2)

/-- An accumulator tile that has left its array is free (R208, R218). -/
def freeAcc (s : State) (core a key : Nat) : State :=
  let v := s.array core a
  s.setArray core a { v with acc := v.acc.map fun t => if t.1 == key then (t.1, { t.2 with live := false, vals := [], c := [], abar := [] }) else t }

/-- Commit the finished slots that an engine holds for a ring, as far as there is room; the accumulator tile of the last one is free then (R218). -/
def flushSlots (s : State) (x : EngRef) (id : Nat) : Nat → State
  | 0 => s
  | fuel + 1 =>
    match (s.eng x).outbuf with
    | [] => s
    | o :: rest =>
      if s.ringRoom x.core o.ring then
        let s := (((s.updEng x fun c => { c with outbuf := rest }).commitSlot x.core o.ring id o.ty o.bytes).countUnits x)
        (match o.frees with | some k => s.freeAcc x.core x.eng k | none => s).flushSlots x id fuel
      else s

/-- Commit what can be committed. -/
def flush (s : State) (x : EngRef) (id : Nat) : State := s.flushSlots x id (s.eng x).outbuf.length

/-! ## Rings as byte streams (R164, R180) -/

/-- What an engine has read of ring n and not used. -/
def held (s : State) (x : EngRef) (n : Nat) : Held := Tab.get ⟨0, []⟩ (s.eng x).inbuf n

def setHeld (s : State) (x : EngRef) (n : Nat) (h : Held) : State :=
  s.updEng x fun c => { c with inbuf := Tab.put id ⟨0, []⟩ c.inbuf n h }

/-- The bytes of ring n that an engine can read now beside those that it holds. -/
def streamLen (s : State) (x : EngRef) (n : Nat) : Nat := s.ringCount x.core n * s.slotSize x.core n - (s.held x n).used

/-- The first k of those bytes, and whether a parity error is in their slots. -/
def streamBytes (s : State) (x : EngRef) (n k : Nat) : List Byte × Bool :=
  let size := s.slotSize x.core n
  let u := (s.held x n).used
  let v := s.seeSlots x.core n (ceilDiv (u + k) size)
  ((((v.map (·.read 0 size)).flatten).drop u).take k, v.any (·.struck))

/-- Read whole units of ring n's stream until the engine holds len bytes, as far as they are there. A slot is released with its last byte that is read,
not before a unit that runs on into the next slot is whole (R164, R180); a parity error aborts the task (R135). -/
def load (s : State) (x : EngRef) (id n unit len : Nat) : State :=
  let h := s.held x n
  let size := s.slotSize x.core n
  let k := min (len - h.bytes.length) (s.streamLen x n) / unit * unit
  if k = 0 then s
  else match s.streamBytes x n k with
    | (_, true) => s.parityFail x n
    | (bs, false) => (s.releaseSlots x.core n id ((h.used + k) / size)).setHeld x n ⟨(h.used + k) % size, h.bytes ++ bs⟩

/-- The next len bytes of ring n's stream, read unit by unit, or none while they are not all there. -/
def takeBytes (s : State) (x : EngRef) (id n unit len : Nat) : Option (List Byte) × State :=
  let s := s.load x id n unit len
  let h := s.held x n
  if h.bytes.length < len then (none, s) else (some (h.bytes.take len), s.setHeld x n { h with bytes := h.bytes.drop len })

/-- The next bytes of ring n's stream, at most k, without taking them. -/
def peekBytes (s : State) (x : EngRef) (n k : Nat) : List Byte :=
  let h := s.held x n
  if k ≤ h.bytes.length then h.bytes.take k else h.bytes ++ (s.streamBytes x n (min (k - h.bytes.length) (s.streamLen x n))).1

/-- An instruction is done with ring n: the bytes of its last slot after its last word are ignored, and the next one begins at the next slot (R180). -/
def endStream (s : State) (x : EngRef) (id n : Nat) : State :=
  let h := s.held x n
  (s.releaseSlots x.core n id (if h.used = 0 then 0 else 1)).setHeld x n ⟨0, []⟩

/-! ## Counting (R109) -/

def countOob (s : State) (core slot filled dropped : Nat) : State :=
  let s := if filled == 0 then s else s.satRf ⟨.pilOob, core, slot⟩ 31 0 filled
  if dropped == 0 then s else s.satRf ⟨.pilOob, core, slot⟩ 63 32 dropped

/-! ## Waiting -/

/-- Whether a task that an instruction acts for has not been stopped by an error meanwhile. -/
def live (s : State) (id : Nat) : Bool :=
  match s.taskId id with
  | some t => (t.state == 2 || t.state == 3) && !t.aborting
  | none => false

/-- An instruction waits for a ring (R28); at the truncation point of its task it is abandoned (R334). -/
def stallRing (s : State) (x : EngRef) (t : Task) (i : Instr) : State :=
  if !s.live t.id then s
  else if t.state == 2 then s.stall x (.ring i)
  else s.updEng x fun c => { c.stop with abandoned := true }

/-! ## Bindings (R300, R302) -/

/-- The bindings that an instruction applies: target, dimension, value, and whether a stride is not zero. -/
def bindings (s : State) (x : EngRef) (t : Task) (bind : Bool) (bmask : Nat) : Except Fail (List (Nat × Nat × Int × Bool)) :=
  if !bind then .ok []
  else match (s.eng x).frames.find? fun f => f.nest.isSome with
    | none => .error { code := E.nestInvalid }
    | some f =>
      match f.nest with
      | none => .error { code := E.nestInvalid }
      | some n =>
        match s.nestEntry t x.core n.table with
        | .error e => .error e
        | .ok e =>
          let point := e.pointAt (n.points - 1 - f.left)
          .ok (((List.range 4).filter (bitOf bmask)).map fun b =>
            let v := e.binding.getD b 0
            (bindTarget v, bindDim v, e.bindValue x.core n.item point b,
              (e.level.take e.levels).any fun l => l.stride.getD b 0 != 0))

end State
end Sys2Proof.Machine
end

