-- ==== Sys2Proof/Machine/Stream.lean ====
section
/-! DEFINITION. The Stream Engines (R160 to R179, R496, R497): the checks of a stream record, the visits of a MOVE and where each takes
its data from and puts it, the joining of adjacent bytes into transactions, tags and Groyne classes, credit requests, and completion. -/

namespace Sys2Proof.Machine

/-- What a MOVE works with: its record with the bindings applied, and its descriptors; none for a ring side. -/
structure MoveEnv where
  t : Task
  ws : List Window
  sr : StreamRec
  src : Option Desc
  dst : Option Desc
  index : Option Desc
  ty : Nat
  deriving DecidableEq, Repr

namespace MoveEnv

/-- Bytes that an access to one element touches: a whole group for a type stored as planes (R69). -/
def len (e : MoveEnv) : Nat := if isPlanes e.ty then 4 * eltWidth e.ty else eltWidth e.ty / 8
def total (e : MoveEnv) : Nat := e.sr.count.foldl (· * ·) 1
def srcTiled (e : MoveEnv) : Bool := match e.src with | some d => d.isTiled | none => false
def dstTiled (e : MoveEnv) : Bool := match e.dst with | some d => d.isTiled | none => false

/-- The iteration indices of a visit, level 0 fastest (R163). -/
def point (e : MoveEnv) (n : Nat) : List Nat :=
  (e.sr.count.foldl (fun (a : List Nat × Nat) c => (a.1 ++ [a.2 % c], a.2 / c)) ([], n)).1

/-- The Rockpool ring of a ring side. -/
def ringOf (sd : Side) : Nat := 8 * sd.pool + sd.k

end MoveEnv

/-- The bindings of R300 applied to a record (R302). -/
def bindRec (rec : StreamRec) (bs : List (Nat × Nat × Int × Bool)) : StreamRec :=
  bs.foldl (fun r b =>
    match b.1 with
    | 0 => { r with src := { r.src with start := r.src.start.modify b.2.1 (· + b.2.2.1) } }
    | 1 => { r with dst := { r.dst with start := r.dst.start.modify b.2.1 (· + b.2.2.1) } }
    | 2 => { r with count := r.count.modify b.2.1 fun _ => if 0 ≤ b.2.2.1 then b.2.2.1.toNat else 0 }
    | _ => r) rec

/-- The rules of R161 to R164 on a record's fields, before any descriptor. -/
def recordFieldsOk (r : StreamRec) (eng : Nat) : Bool :=
  let ringZero (sd : Side) := sd.handle == 0xFFF && sd.start.all (· == 0) && sd.step.all (· == 0) && sd.dim.all (· == 0) && decide (sd.pool ≤ 8)
  decide (r.op ≤ 3) && decide (1 ≤ r.srank) && decide (r.srank ≤ 5) && r.reserved == 0 && r.src.reserved == 0 && r.dst.reserved == 0
  && decide (r.src.kind ≤ 1) && decide (r.dst.kind ≤ 1) && !(r.src.ring && r.dst.ring)
  && (r.op != 0 || r.index == 0xFFF)
  && (!r.src.ring || (ringZero r.src && r.src.pool == eng + 2)) && (!r.dst.ring || ringZero r.dst)

/-- The rule of R161 on the counts. -/
def countsOk (r : StreamRec) : Bool :=
  (r.count.take r.srank).all (fun c => decide (1 ≤ c) && decide (c < 2 ^ 32)) && (r.count.drop r.srank).all (· == 1)

/-- The rules of R163 and R165 on a memory side. -/
def sideOk (r : StreamRec) (sd : Side) (d : Desc) : Bool :=
  !d.isRp && (sd.start.drop d.rank).all (· == 0) && (sd.dim.take r.srank).all (fun k => decide (k < d.rank))
  && (!d.isTiled || ((sd.start.take 2).all (fun z => z % 64 == 0)
        && (List.range r.srank).all fun j => decide (2 ≤ sd.dim.getD j 0) || sd.step.getD j 0 % 64 == 0))

/-- The rules of R173 and R115 on the indexed side. -/
def indexedOk (r : StreamRec) (sd : Side) (d : Desc) : Bool :=
  d.format == 0 && decide (r.idim < d.rank) && (sd.dim.take r.srank).all (· != r.idim)

/-- The rules of R177. -/
def transposeOk (e : MoveEnv) : Bool :=
  let dims := e.sr.src.dim.take 2
  e.src.isSome && !e.srcTiled && !e.dstTiled && !isPlanes e.ty && decide (2 ≤ e.sr.srank) && dims.contains 0 && dims.contains 1
  && (e.sr.count.take 2).all (fun c => c % 8 == 0)

/-- The visit of a unit. -/
def MoveUnit.visit : MoveUnit → Nat
  | .elem n _ _ => n
  | .collect n _ _ => n
  | .tile n _ _ _ => n
  | .expand n _ _ _ => n

/-- A MOVE whose transactions have all completed leaves its engine (R172). -/
def MoveSt.isDone (m : MoveSt) : Bool :=
  m.units.isEmpty && m.strip.isEmpty && m.next == m.total && m.xacts.isEmpty && m.tx.isNone && m.group.isNone && m.ring.isNone

/-- Where an access goes: the package (256: this one), the address, and the epoch of a sealed page (2: none). -/
def Target.parts (t : Target) : Nat × Nat × Nat :=
  match t with
  | .phys a ep => (256, a, ep)
  | .peer q a => (q, a, 2)

namespace State

/-- A descriptor of a side; one with the keyword bit is no side's (R101, R115). -/
def sideDesc (s : State) (t : Task) (core : Nat) (sd : Side) : Except Fail (Option Desc) :=
  if sd.ring then .ok none
  else match s.descriptor t core sd.handle with
    | .error f => .error f
    | .ok d => if d.keyword then .error { code := E.descInvalid, handle := sd.handle } else .ok (some d)

/-- The index tensor (R115). -/
def indexDesc (s : State) (t : Task) (core : Nat) (r : StreamRec) : Except Fail (Option Desc) :=
  if r.op == 0 then .ok none
  else match s.descriptor t core r.index with
    | .error f => .error f
    | .ok d =>
      if d.keyword && d.ty != 0x12 then .error { code := E.descInvalid, handle := r.index }
      else if d.format != 0 || d.rank != 1 || !(d.ty == 0x12 || d.ty == 0x13) then .error { code := E.streamInvalid, handle := r.index }
      else .ok (some d)

/-- Whether a base lies in the core's own Cove (R303). -/
def ownCove (core : Nat) (d : Desc) : Bool :=
  !d.global && match placeOf d.base with
  | .cove g _ => g == core
  | _ => false

/-- Everything that R161 to R166, R173, R177, R291, R302 and R303 ask before a MOVE issues a transaction. -/
def moveEnv (s : State) (x : EngRef) (t : Task) (ops : MoveOps) : Except Fail MoveEnv :=
  match s.windowTable t, s.streamRecord t ops.stream, s.bindings x t ops.bind ops.bmask with
  | .error f, _, _ => .error f
  | _, .error f, _ => .error f
  | _, _, .error f => .error f
  | .ok ws, .ok raw, .ok bs =>
    let bad : Fail := { code := E.streamInvalid }
    let r := bindRec raw bs
    if !recordFieldsOk raw x.eng || !countsOk r then .error bad
    else match s.sideDesc t x.core r.src, s.sideDesc t x.core r.dst, s.indexDesc t x.core r with
      | .error f, _, _ => .error f
      | _, .error f, _ => .error f
      | _, _, .error f => .error f
      | .ok sd, .ok dd, .ok ix =>
        let ty := ((sd <|> dd).map (·.ty)).getD 0
        let e : MoveEnv := ⟨t, ws, r, sd, dd, ix, ty⟩
        let typesOk := match sd, dd with
          | some a, some b => a.ty == b.ty
          | _, _ => true
        let mixedOk := match sd, dd with
          | some a, some b => a.isTiled == b.isTiled || (decide (2 ≤ a.rank) && decide (2 ≤ b.rank))
          | _, _ => true
        let sidesOk := (sd.map (sideOk r r.src)).getD true && (dd.map (sideOk r r.dst)).getD true
        let indexedSide := match r.op with
          | 0 => true
          | 1 => (sd.map (indexedOk r r.src)).getD false
          | _ => (dd.map (indexedOk r r.dst)).getD false
        let n := MoveEnv.ringOf (if r.src.ring then r.src else r.dst)
        let ringsOk := !(r.src.ring || r.dst.ring) ||
          (s.slotSize x.core n != 0 && (r.src.ring || s.ringProducer x.core n == x.eng)
            && (e.srcTiled || e.dstTiled || elemsLen ty e.total % s.slotSize x.core n == 0))
        let strided := bs.find? fun b => b.2.2.2 && ((b.1 == 0 && !(sd.map (ownCove x.core)).getD true) || (b.1 == 1 && !(dd.map (ownCove x.core)).getD true))
        if !typesOk || !mixedOk || !sidesOk || !indexedSide || !ringsOk || (r.transpose && !transposeOk e) then .error bad
        else if strided.isSome then .error { code := E.nestInvalid }
        else if r.op == 3 && !([0x00, 0x01, 0x12, 0x13].contains ty) then .error { code := E.scatterTarget, handle := r.dst.handle }
        else if r.arrive && decide (64 ≤ r.counter) then .error { code := E.syncRange, detail := r.counter }
        else .ok e

/-! ## Places, classes and tags -/

/-- The address as R179 shows it. -/
def shown (va : Int) (global : Bool) (package : Nat) : Nat := va.toNat % 2 ^ 52 + (if global then 2 ^ 60 + package * 2 ^ 52 else 0)

/-- Whether a place lies on a core's own die, which its engines reach without a frame. -/
def onDie (core a : Nat) : Bool :=
  match placeOf a with
  | .cove g _ => g / 32 == core / 32
  | .lagoon d _ => d == core / 32
  | _ => false

/-- The Groyne class of a transaction (R169): 0 read, 1 write, 2 remote. -/
def accessClass (core : Nat) (write : Bool) (package a : Nat) : Nat :=
  if package != 256 || targetShore (placeOf a).target != core / 192 then 2 else b2n write

/-- The eighths of a class (R169). -/
def eighths (s : State) (core eng cls : Nat) : Nat :=
  let w := s.reg ⟨.seGroyne, core, eng - 5⟩
  match cls with
  | 0 => wfld w 3 0
  | 1 => wfld w 7 4
  | _ => wfld w 11 8

def move (s : State) (x : EngRef) (id : Nat) : Option MoveSt := (s.eng x).moves.find? fun m => m.id == id

def updMove (s : State) (x : EngRef) (id : Nat) (f : MoveSt → MoveSt) : State :=
  s.updEng x fun c => { c with moves := c.moves.map fun m => if m.id == id then f m else m }

/-- Transactions of an engine, over its tasks. -/
def xactsOf (s : State) (core eng : Nat) : List Xact :=
  ((List.range 4).map fun slot => ((s.eng ⟨core, slot, eng⟩).moves.map fun m => m.xacts).flatten).flatten

/-- The lowest number that no transaction of a stage has. -/
def lowest (used : List Xact) (stage : Nat) : Nat := ((List.range 512).find? fun n => !used.any fun v => v.stage == stage && v.tag == n).getD 512

/-- Tags of a class that are free (R169): 64 for each eighth, less the transactions in flight. -/
def tagsFree (s : State) (core eng cls : Nat) : Nat :=
  64 * s.eighths core eng cls - ((s.xactsOf core eng).filter fun v => v.stage == 2 && v.cls == cls).length

/-- Whether a transaction of a class can take a tag now. -/
def tagFree (s : State) (core eng cls : Nat) : Bool :=
  decide (0 < s.tagsFree core eng cls) && decide (lowest (s.xactsOf core eng) 2 < 512)

/-- A frame of a Stream Engine's transaction. -/
def xactFrame (x : EngRef) (t : Task) (v : Xact) (kind : Nat) : Frame :=
  { coreFrame x t kind v.address with package := v.package, tag := v.tag, epoch := v.epoch, tenant := v.tenant }

/-- The pool that a write draws on: of its target, or of the harbour that carries the link (R37, R375). -/
def writeTarget (s : State) (t : Task) (v : Xact) : Option Nat :=
  if v.package == 256 then some (placeOf v.address).target else (s.routeLink t.partition v.package v.address).map fun l => 20 + l / 9

/-- Whether a transaction may go on now: a directory entry follows its tile (R165), a write asks for credit when there is a tag to carry it (R361), and
whatever issues takes a tag of its class (R160, R169). -/
def mayIssue (s : State) (x : EngRef) (m : MoveSt) (v : Xact) : Bool :=
  (!v.final || !m.xacts.any fun u => u.isWrite && !u.final && u.visit == v.visit)
  && if v.isWrite && !v.here && v.stage == 0 then
       let asked := (s.xactsOf x.core x.eng).filter fun u => u.cls == v.cls && (u.stage == 1 || u.stage == 3)
       decide (asked.length < s.tagsFree x.core x.eng v.cls) && decide (lowest (s.xactsOf x.core x.eng) 1 < 512)
     else s.tagFree x.core x.eng v.cls

/-- Bytes of a write's adds, element by element (R116). -/
def addBytes (ty : Nat) (old new : List Byte) : List Byte :=
  let v := eltWidth ty / 8
  ((chunksOf v old.length old).zipWith (fun a b => leBytes v (scatterAdd ty (leNat a) (leNat b))) (chunksOf v new.length new)).flatten

/-- The bits of a mask come from the new bytes, the others from the old (R69, R112); no mask: all of them are new. -/
def maskBytes (mask old new : List Byte) : List Byte :=
  if mask.isEmpty then new else (old.zip (new.zip mask)).map fun b => (b.2.1 &&& b.2.2) ||| (b.1 &&& ~~~b.2.2)

/-- Bytes stored in memory: plain, added to what is there, or some of their bits (R29, R112, R116). -/
def landBytes (s : State) (p epoch a add : Nat) (bs mask : List Byte) : State :=
  if add != 0xFF then s.writeBytes p epoch a (addBytes add (s.readBytes p epoch a bs.length) bs)
  else if mask.isEmpty then s.writeBytes p epoch a bs
  else s.writeBytes p epoch a (maskBytes mask (s.readBytes p epoch a bs.length) bs)

/-- What stops a store (R147, R153, R154): also an error where it has to read what it keeps. -/
def landFault (s : State) (a add : Nat) (bs mask : List Byte) : Option Nat :=
  (s.writeFault a bs.length) <|> (if add != 0xFF || mask.any (· != 0xFF) then s.readFault a bs.length else none)

/-- Whether the unit that holds a place is fenced (R364, R454): its die, tower or harbour, or the core of a Cove. -/
def placeFenced (s : State) (core a : Nat) : Bool :=
  s.targetFenced (placeOf a).target || match placeOf a with
  | .cove g _ => g != core && s.fenced 1 g
  | _ => false

/-- A fault of a MOVE's destination side at a visit. -/
def failDst (s : State) (x : EngRef) (m : MoveSt) (code visit addr : Nat) : State :=
  s.fail x { code := code, addr := addr, handle := m.dstHandle, visit := visit }

/-- A write into the engine's own die lands and is complete (R29, R33, R160); an arrival counts at the core of the Cove, or of a Lagoon at the engine's own
(R496). -/
def landHere (s : State) (x : EngRef) (t : Task) (m : MoveSt) (v : Xact) : State :=
  if s.placeFenced x.core v.address then s.failDst x m E.targetRecovering v.visit v.shown
  else match s.landFault v.address m.add v.data v.mask with
    | some c => s.failDst x m c v.visit v.shown
    | none =>
      let s := (s.landBytes t.partition v.epoch v.address m.add v.data v.mask).countUnits x
      if !m.arrive then s
      else match placeOf v.address with
        | .cove g _ => s.incr g x.slot false m.counter 1 x.core x.eng
        | _ => s.incr x.core x.slot false m.counter 1 x.core x.eng

/-- One transaction goes on: a write of the own die lands; a read sends its request; a write asks for its credit, and issues with the credit in hand (R36,
R172, R361). -/
def issueXact (s : State) (x : EngRef) (t : Task) (m : MoveSt) (v : Xact) : State :=
  let all := s.xactsOf x.core x.eng
  let put (s : State) (stage tag : Nat) :=
    s.updMove x m.id fun m => { m with xacts := m.xacts.map fun u => if u.id == v.id then { u with stage := stage, tag := tag } else u }
  if v.here then (s.updMove x m.id fun m => { m with xacts := m.xacts.filter fun u => u.id != v.id }).landHere x t m v
  else
    let tag := lowest all 2
    if !v.isWrite then (put s 2 tag).send { xactFrame x t { v with tag := tag } 1 with count := v.len }
    else if v.stage == 3 then
      let cove := match placeOf v.address with
        | .cove _ _ => true
        | _ => false
      ((put s 2 tag).countUnits x).send { xactFrame x t { v with tag := tag } 0 with
        payload := v.data, mask := v.mask, arrive := m.arrive && cove, counter := m.counter, add := m.add, target := v.target, gen := v.gen }
    else match s.writeTarget t v with
      | some target => (put s 1 (lowest all 1)).send (creditRequest x t target (lowest all 1) 1)
      | none => s.failDst x m E.noRoute v.visit v.shown

/-- Transactions that wait for a tag go on in order, for one task of an engine. -/
def issueSlot (s : State) (x : EngRef) : State :=
  match s.taskAt x.core x.slot with
  | none => s
  | some t =>
    let waiting := ((s.eng x).moves.map fun m => (m.xacts.filter fun v => v.stage == 0 || v.stage == 3).map fun v => (m.id, v)).flatten
    waiting.foldl (fun s p =>
      match s.move x p.1 with
      | some m => if s.live t.id && s.mayIssue x m p.2 then s.issueXact x t m p.2 else s
      | none => s) s

/-- Transactions that wait for a tag go on, after anything that may have freed one. -/
def issueXacts (s : State) (core eng : Nat) : State := s.forAll [0, 1, 2, 3] fun s slot => s.issueSlot ⟨core, slot, eng⟩

/-! ## Planning visits -/

/-- The planning of a MOVE's visits: the state, the MOVE, the first failure, and whether the index entry that comes next is not there yet. -/
structure Plan where
  s : State
  m : MoveSt
  fail : Option Fail
  wait : Bool

def Plan.stopped (p : Plan) : Bool := p.fail.isSome || p.wait

/-- A planned transaction that reads. -/
def readXact (id cls package a epoch n visit shown : Nat) (tenant : Bool) (handle : Nat) : Xact :=
  { id := id, here := false, cls := cls, isWrite := false, package := package, address := a, epoch := epoch, len := n, data := [], mask := [], tag := 0,
    stage := 0, target := 0, gen := 0, visit := visit, shown := shown, final := false, tenant := tenant, handle := handle }

/-- A read of bytes that no 256-byte boundary cuts: of the own die, when the engine uses them, or by a transaction, which adjacent bytes of
consecutive visits share (R160, R167). -/
def Plan.piece (p : Plan) (x : EngRef) (e : MoveEnv) (d : Desc) (handle : Nat) (va : Int) (pk : Nat) (gl : Bool) (n visit : Nat) : Plan × List Piece :=
  match p.s.resolve e.t e.ws d.tenant false gl pk va with
  | .error f => ({ p with fail := some { f with handle := handle, visit := visit } }, [])
  | .ok tgt =>
    let (package, a, ep) := tgt.parts
    let cls := accessClass x.core false package a
    if p.s.eighths x.core x.eng cls == 0 then
      ({ p with fail := some { code := E.groyneEmpty, addr := shown va gl pk, handle := handle, visit := visit } }, [])
    else if package == 256 && onDie x.core a then
      let id := if e.sr.op == 1 then p.m.nextRead else 0
      ({ p with m := { p.m with nextRead := p.m.nextRead + 1, grow := none } }, [.here a n id (shown va gl pk)])
    else
      let fresh : Plan × List Piece :=
        let id := p.m.nextRead
        let v := readXact id cls package a ep n visit (shown va gl pk) d.tenant handle
        ({ p with m := { p.m with nextRead := id + 1, xacts := p.m.xacts ++ [v], grow := some (id, va, pk, gl, visit) } }, [.got id 0 n])
      match p.m.grow with
      | none => fresh
      | some (id, va0, pk0, gl0, last) =>
        match p.m.xacts.find? fun v => v.id == id && v.stage == 0 with
        | none => fresh
        | some r =>
          let off := va - va0
          let joins := gl0 == gl && (!gl || pk0 == pk) && decide (visit ≤ last + 1) && va / 256 == va0 / 256
            && (off == (r.len : Int) || (isPlanes e.ty && decide (0 ≤ off) && decide (off ≤ r.len)))
          if !joins then fresh
          else
            ({ p with m := { p.m with xacts := p.m.xacts.map fun v => if v.id == id then { v with len := max v.len (off.toNat + n) } else v
                                      grow := some (id, va0, pk0, gl0, visit) } }, [.got id off.toNat n])

/-- A read of n bytes, cut at 256-byte boundaries. -/
def Plan.read (x : EngRef) (e : MoveEnv) (d : Desc) (handle : Nat) (pk : Nat) (gl : Bool) (visit : Nat) : Nat → Plan → Int → Nat → Plan × List Piece
  | 0, p, _, _ => (p, [])
  | fuel + 1, p, va, n =>
    if n = 0 || p.stopped then (p, [])
    else
      let k := min n (256 - (va % 256).toNat)
      let (p, a) := p.piece x e d handle va pk gl k visit
      let (p, b) := Plan.read x e d handle pk gl visit fuel p (va + k) (n - k)
      (p, a ++ b)

/-- The index that an element of an index tensor holds (R115): of a key word, bits 30 to 0, with the void key past every extent. -/
def indexValue (d : Desc) (v : Nat) : Int :=
  if !d.keyword then eltInt d.ty v else if v % 2 ^ 31 = 2 ^ 31 - 1 then 2 ^ 32 else ((v % 2 ^ 31 : Nat) : Int)

/-- Index entries that a read brings together (R167, R173): those from t on that the MOVE uses, inside the extent and up to the 256-byte boundary. -/
def indexRun (e : MoveEnv) (d : Desc) (t : Nat) (va : Int) : Nat :=
  min (min (d.ext 0) (e.total / e.sr.count.getD 0 1) - t) ((256 - (va % 256).toNat) / d.bytes)

/-- The bytes of the own die with what a MOVE's open transaction will have written there (R29). -/
def hereBytes (s : State) (core part : Nat) (m : MoveSt) (a n : Nat) : List Byte :=
  let s := match m.tx with
    | some o =>
      if o.package == 256 && onDie core o.address && decide (o.address < a + n) && decide (a < o.address + o.bytes.length) then
        s.landBytes part o.epoch o.address m.add o.bytes o.mask
      else s
    | none => s
  s.bytes a n

/-- The index entry t of a gather or scatter (R115, R173): a filled one, one that a read has brought, one of the own die, or none yet. The engine reads the
tensor as read-class traffic: an entry of the own die takes a tag for the moment, any other a transaction. An entry of the own Cove follows the stores of
the visits before it (R29). -/
def Plan.indexAt (p : Plan) (x : EngRef) (e : MoveEnv) (t : Nat) : Plan × Option Int :=
  let visit := p.m.next
  match e.index with
  | none => (p, some 0)
  | some d =>
    let later : Plan × Option Int := ({ p with wait := true }, none)
    let stop (f : Fail) : Plan × Option Int := ({ p with fail := some { f with handle := e.sr.index, visit := visit } }, none)
    let fetch : Plan × Option Int :=
      match p.s.elementAddr e.t e.ws e.sr.index d [(t : Int)] with
      | .error f => stop f
      | .ok (va, pk, gl, _) =>
        match p.s.resolve e.t e.ws d.tenant false gl pk va with
        | .error f => stop f
        | .ok tgt =>
          let (package, a, ep) := tgt.parts
          let cls := accessClass x.core false package a
          if p.s.eighths x.core x.eng cls == 0 then stop { code := E.groyneEmpty, addr := shown va gl pk }
          else if package == 256 && onDie x.core a then
            let own := match placeOf a with
              | .cove g _ => g == x.core
              | _ => false
            if (own && (!p.m.units.isEmpty || p.m.group.isSome || p.m.xacts.any (·.here))) || !p.s.tagFree x.core x.eng cls then later
            else
              let s := p.s.meet a d.bytes
              match s.readFault a d.bytes with
              | some c => ({ p with s := s, fail := some { code := c, addr := shown va gl pk, handle := e.sr.index, visit := visit } }, none)
              | none => ({ p with s := s }, some (indexValue d (leNat (s.hereBytes x.core e.t.partition p.m a d.bytes))))
          else
            let k := max 1 (indexRun e d t va)
            let v := readXact p.m.nextRead cls package a ep (k * d.bytes) visit (shown va gl pk) d.tenant e.sr.index
            ({ p with m := { p.m with nextRead := v.id + 1, xacts := p.m.xacts ++ [v], ahead := some (t, k, v.id), grow := none }, wait := true }, none)
    if d.ext 0 ≤ t then ({ p with s := p.s.countOob x.core x.slot 1 0 }, some (indexValue d d.fill))
    else match p.m.ahead with
      | none => fetch
      | some (t0, k, id) =>
        if t < t0 || t0 + k ≤ t then fetch
        else if p.m.xacts.any fun v => !v.isWrite && v.id == id then later
        else (p, some (indexValue d (leNat (((Tab.get [] p.m.got id).drop ((t - t0) * d.bytes)).take d.bytes))))

/-- The index entry of a visit stands ready (R173), read once for all visits that share it; the repeat combiner compares it with its predecessor
(R174). -/
def Plan.entry (p : Plan) (x : EngRef) (e : MoveEnv) : Plan :=
  let t := p.m.next / e.sr.count.getD 0 1
  if e.sr.op == 0 || p.m.entry.map (·.1) == some t then p
  else match p.indexAt x e t with
    | (p, none) => p
    | (p, some v) =>
      let same := e.sr.op == 1 && decide (t ≠ 0) && p.m.entry == some (t - 1, v)
      let p := { p with m := { p.m with entry := some (t, v), combined := same, prev := p.m.cur, cur := [] } }
      if same then { p with s := p.s.addRf ⟨.seCombined, x.core, x.eng - 5⟩ 47 0 1 } else p

/-- The value of the present index entry. -/
def Plan.index (p : Plan) : Int := (p.m.entry.map (·.2)).getD 0

/-- Coordinates with the one of dimension k replaced. -/
def setCoord (x : List Int) (k : Nat) (v : Int) : List Int := x.modify k fun _ => v

/-- Dimensions 0 and 1 moved by a row and a column of a tile. -/
def inTile (x : List Int) (i j : Nat) : List Int := (x.modify 1 (· + i)).modify 0 (· + j)

/-- What a plan gives for each of n numbers from k on, in order. -/
def Plan.each {α : Type} (f : Plan → Nat → Plan × α) : Nat → Nat → Plan → Plan × List α
  | 0, _, p => (p, [])
  | n + 1, k, p =>
    let (p, v) := f p k
    let (p, r) := Plan.each f n (k + 1) p
    (p, v :: r)

/-- What a plan gives for the 4,096 elements of a tile, row by row. -/
def Plan.cells {α : Type} (p : Plan) (f : Plan → Nat → Plan × α) : Plan × List α := Plan.each f 4096 0 p

/-- One element of a DENSE source (R107, R113, R119). -/
def Plan.element (p : Plan) (x : EngRef) (e : MoveEnv) (d : Desc) (c : List Int) (visit : Nat) : Plan × SrcElt :=
  if p.stopped then (p, .value 0)
  else if !d.inExtent c then ({ p with s := p.s.countOob x.core x.slot 1 0 }, .value d.fill)
  else match p.s.elementAddr e.t e.ws e.sr.src.handle d c with
    | .error f => ({ p with fail := some { f with handle := e.sr.src.handle, visit := visit } }, .value 0)
    | .ok (va, pk, gl, bit) =>
      let (p, ps) := Plan.read x e d e.sr.src.handle pk gl visit 4 p va e.len
      (p, .bytes ps bit)

/-- The elements of a visit: one, or the 64 x 64 of a tile from (0, 0) on. -/
def Plan.elements (p : Plan) (x : EngRef) (e : MoveEnv) (d : Desc) (c : List Int) (visit : Nat) (whole : Bool) : Plan × List SrcElt :=
  if !whole then let (p, v) := p.element x e d c visit; (p, [v])
  else
    p.cells fun p k => p.element x e d (inTile c (k / 64) (k % 64)) visit

/-- What a combined entry delivers again (R174): a filled element counts as if it had been read. -/
def again (v : SrcElt) : SrcElt :=
  match v with
  | .value v => .value v
  | .bytes ps bit => .bytes (ps.map fun q => match q with | .here _ n id _ => .got id 0 n | q => q) bit

/-- The source elements of a visit on a DENSE memory side, through the index and the repeat combiner of a gather (R173 to R175). -/
def Plan.source (p : Plan) (x : EngRef) (e : MoveEnv) (d : Desc) (visit : Nat) (whole : Bool) : Plan × List SrcElt :=
  let c := e.sr.src.coords e.sr.srank (e.point visit)
  if e.sr.op != 1 then p.elements x e d c visit whole
  else
    let c0 := e.sr.count.getD 0 1
    let per := if whole then 4096 else 1
    let (p, vs) :=
      if p.m.combined then
        let vs := ((p.m.prev.drop (per * (visit % c0))).take per).map again
        ({ p with s := p.s.countOob x.core x.slot (vs.filter fun v => match v with | .value _ => true | _ => false).length 0 }, vs)
      else p.elements x e d (setCoord c e.sr.idim p.index) visit whole
    ({ p with m := { p.m with cur := p.m.cur ++ vs } }, vs)

/-- A tile of a TILED source (R82, R90, R91, R107, R110, R497): whether it is EM, its bytes, and whether its directory entry agrees with
its header. The spec gives no consequence for an EM entry whose offset, nnz or reserved bits are not zero, nor for any entry with a bit of 46 to 40 set: such
an entry counts as one that disagrees, so expanding it aborts with E_TILE_FORMAT, and an unchanged copy, which checks nothing, ignores it (DESIGN
CHOICE, log entry 107). -/
def Plan.tile (p : Plan) (x : EngRef) (e : MoveEnv) (d : Desc) (visit : Nat) : Plan × Bool × List Piece × Bool :=
  let h := e.sr.src.handle
  let c := e.sr.src.coords e.sr.srank (e.point visit)
  let stop (f : Fail) : Plan × Bool × List Piece × Bool := ({ p with fail := some { f with handle := h, visit := visit } }, true, [], true)
  if !d.inExtent c then
    let p := { p with s := p.s.countOob x.core x.slot 4096 0 }
    if d.fill == 0 then (p, true, [], true) else (p, false, [.known (dnTile e.ty [] (List.replicate 4096 d.fill))], true)
  else match p.s.tilePlace e.t e.ws h d c with
    | .error f => stop f
    | .ok (ea, b, pk, gl) =>
      match p.s.readMeta e.t e.ws d.tenant gl pk ea 8 with
      | .error f => stop f
      | .ok eb =>
        let p := { p with s := p.s.meetRead e.t e.ws d.tenant gl pk ea 8 }
        let entry := leNat eb
        let va : Int := ((b + 16 * fld entry 39 0 : Nat) : Int)
        if fld entry 63 60 == 0 then (p, true, [], fld entry 46 0 == 0 && fld entry 59 47 == 0)
        else match p.s.readMeta e.t e.ws d.tenant gl pk va 16 with
          | .error f => stop f
          | .ok hb =>
            let p := { p with s := p.s.meetRead e.t e.ws d.tenant gl pk va 16 }
            let hd := tileHeader hb
            if maxPayload < hd.length then stop { code := E.tileFormat, addr := shown va gl pk }
            else
              let (p, ps) := Plan.read x e d h pk gl visit ((16 + hd.length) / 256 + 2) p va (16 + hd.length)
              (p, false, ps, !hd.crcOk || (dirMatches entry hd && fld entry 46 40 == 0))

/-- The destination element of a visit (R108, R115, R173, R176). -/
def Plan.dest (p : Plan) (x : EngRef) (e : MoveEnv) (d : Desc) (c : List Int) (visit : Nat) : Plan × Dst :=
  if p.stopped then (p, .drop)
  else
    let c := if e.sr.transpose then setCoord (setCoord c 0 (c.getD 1 0)) 1 (c.getD 0 0) else c
    if !(d.inExtent c && d.inInterior c) then ({ p with s := p.s.countOob x.core x.slot 0 1 }, .drop)
    else match p.s.elementAddr e.t e.ws e.sr.dst.handle d c with
      | .error f => ({ p with fail := some { f with handle := e.sr.dst.handle, visit := visit } }, .drop)
      | .ok (va, pk, gl, bit) => (p, .mem va pk gl bit)

/-- The destination coordinates of a visit, with the scatter index in place (R173). -/
def Plan.destCoords (p : Plan) (e : MoveEnv) (visit : Nat) : List Int :=
  let c := e.sr.dst.coords e.sr.srank (e.point visit)
  if e.sr.op ≤ 1 then c else setCoord c e.sr.idim p.index

/-- A TILED destination (R108, R165, R497): none when the tile lies wholly outside the interior, with its 4,096 elements counted. -/
def Plan.tileDest (p : Plan) (x : EngRef) (e : MoveEnv) (d : Desc) (visit : Nat) : Plan × Option TileDst :=
  let h := e.sr.dst.handle
  let c := e.sr.dst.coords e.sr.srank (e.point visit)
  let inside := (List.range 4096).map fun k => d.inInterior (inTile c (k / 64) (k % 64))
  let out := (inside.filter (!·)).length
  let p := { p with s := p.s.countOob x.core x.slot 0 (if d.inExtent c then out else 4096) }
  if !d.inExtent c || out == 4096 then (p, none)
  else match p.s.tilePlace e.t e.ws h d c with
    | .error f => ({ p with fail := some { f with handle := h, visit := visit } }, none)
    | .ok (ea, b, pk, gl) =>
      match p.s.readMeta e.t e.ws d.tenant gl pk ea 8 with
      | .error f => ({ p with fail := some { f with handle := h, visit := visit } }, none)
      | .ok eb => ({ p with s := p.s.meetRead e.t e.ws d.tenant gl pk ea 8 }, some ⟨false, ea, b, pk, gl, fld (leNat eb) 39 0, if out == 0 then [] else inside, d.fill⟩)

/-- A tile that is to be delivered into a ring (R165). -/
def ringDst : TileDst := ⟨true, 0, 0, 256, false, 0, [], 0⟩

/-- One plan after another. -/
def planThen {α β : Type} (r : Plan × α) (f : Plan → α → Plan × β) : Plan × β := f r.1 r.2

/-- A tile whose directory entry disagrees with its header (R165). -/
def Plan.disagree (p : Plan) (e : MoveEnv) (visit : Nat) : Plan :=
  if p.fail.isSome then p else { p with fail := some { code := E.tileFormat, handle := e.sr.src.handle, visit := visit } }

/-- The unit of a tile that goes, whole, to a ring or a TILED destination (R165). -/
def Plan.toTile (p : Plan) (x : EngRef) (e : MoveEnv) (d : Desc) (visit : Nat) (em agree : Bool) (ps : List Piece) : Plan × List MoveUnit :=
  planThen (p.tileDest x e d visit) fun p td =>
    match td with
    | none => (p, [])
    | some td => if !td.inside.isEmpty && !em && !agree then (p.disagree e visit, []) else (p, [.tile visit em ps td])

/-- The unit of a tile whose elements go one by one to a DENSE destination. -/
def Plan.toElements (p : Plan) (x : EngRef) (e : MoveEnv) (d : Desc) (visit : Nat) (em : Bool) (ps : List Piece) : Plan × List MoveUnit :=
  let c := p.destCoords e visit
  planThen (p.cells fun p k => p.dest x e d (inTile c (k / 64) (k % 64)) visit) fun p ds => (p, [.expand visit em ps ds])

/-- The unit of a visit whose source is in memory (R163, R165). -/
def Plan.memVisit (p : Plan) (x : EngRef) (e : MoveEnv) (sd : Desc) (visit : Nat) : Plan × List MoveUnit :=
  if sd.isTiled then
    planThen (p.tile x e sd visit) fun p t =>
      match e.dst with
      | none => (p, [.tile visit t.1 t.2.1 ringDst])
      | some d =>
        if d.isTiled then p.toTile x e d visit t.1 t.2.2 t.2.1
        else if !t.2.2 then (p.disagree e visit, [])
        else p.toElements x e d visit t.1 t.2.1
  else
    match e.dst with
    | none => planThen (p.source x e sd visit false) fun p vs => (p, vs.map fun v => .elem visit v .ring)
    | some d =>
      if d.isTiled then
        planThen (p.tileDest x e d visit) fun p td =>
          planThen (p.source x e sd visit true) fun p vs =>
            match td with
            | none => (p, [])
            | some td => (p, [.collect visit vs td])
      else
        planThen (p.source x e sd visit false) fun p vs =>
          planThen (p.dest x e d (p.destCoords e visit) visit) fun p v => (p, vs.map fun u => .elem visit u v)

/-- The unit of a visit whose source is an element from a ring. -/
def Plan.ringElement (p : Plan) (x : EngRef) (e : MoveEnv) (v visit : Nat) : Plan × List MoveUnit :=
  match e.dst with
  | none => (p, [])
  | some d =>
    planThen (p.dest x e d (p.destCoords e visit) visit) fun p w => (p, [.elem visit (.value v) w])

/-- The unit of a visit whose source is a tile in a slot (R165, R497). -/
def Plan.ringTile (p : Plan) (x : EngRef) (e : MoveEnv) (bs : List Byte) (visit : Nat) : Plan × List MoveUnit :=
  let h := tileHeader (bs.take 16)
  if maxPayload < h.length then ({ p with fail := some { code := E.tileFormat, visit := visit } }, [])
  else if bs.length < 16 + h.length then ({ p with fail := some { code := E.streamSlot, visit := visit } }, [])
  else match e.dst with
    | none => (p, [])
    | some d =>
      let ps : List Piece := [.known (bs.take (16 + h.length))]
      if d.isTiled then p.toTile x e d visit (h.tag == 0) true ps else p.toElements x e d visit (h.tag == 0) ps

/-- Blocks of 8 x 8 visits of a transposed MOVE (R176) leave the network once their strip, 8 runs of level 0, is whole: block after block, level 1
fastest inside a block. -/
def exchange (c0 : Nat) (strip : List MoveUnit) : List MoveUnit :=
  (List.range (8 * c0)).filterMap fun k => strip[8 * (k / 64) + k % 64 / 8 + c0 * (k % 8)]?

/-- Plan one visit, unless an earlier one failed or waits. -/
def Plan.visit (p : Plan) (x : EngRef) (e : MoveEnv) (f : Plan → Nat → Plan × List MoveUnit) : Plan :=
  if p.stopped then p
  else
    let p := p.entry x e
    if p.stopped then p
    else
      let (p, us) := f p p.m.next
      if p.stopped then p
      else if !e.sr.transpose then { p with m := { p.m with units := p.m.units ++ us, next := p.m.next + 1 } }
      else
        let c0 := e.sr.count.getD 0 1
        let strip := p.m.strip ++ us
        if strip.length < 8 * c0 then { p with m := { p.m with strip := strip, next := p.m.next + 1 } }
        else { p with m := { p.m with strip := [], units := p.m.units ++ exchange c0 strip, next := p.m.next + 1 } }

/-! ## Carrying units out -/

/-- A write transaction is whole (R160, R33, R496): of the own die it lands and counts when a tag is free, of any other place it waits for a tag and
credit. The writes of one MOVE into its own die land in the order of its visits; of a scatter whose indices repeat, the later visit's value survives there
(the spec promises no order, R117: DESIGN CHOICE, log entry 111). -/
def closeTx (s : State) (x : EngRef) (t : Task) (id : Nat) (final : Bool := false) : State :=
  match s.move x id with
  | none => s
  | some m =>
    match m.tx with
    | none => s
    | some o =>
      let here := o.package == 256 && onDie x.core o.address
      let v : Xact :=
        { id := m.nextRead, here := here, cls := accessClass x.core true o.package o.address, isWrite := true, package := o.package, address := o.address,
          epoch := o.epoch, len := o.bytes.length, data := o.bytes, mask := o.mask, tag := 0, stage := 0, target := 0, gen := 0, visit := o.first,
          shown := shown o.va o.global o.named, final := final, tenant := m.tenant, handle := m.dstHandle }
      let s := s.updMove x id fun m => { m with tx := none, nextRead := m.nextRead + 1 }
      if here && s.tagFree x.core x.eng v.cls && !m.xacts.any (·.here) then s.landHere x t m v
      else s.updMove x id fun m => { m with xacts := m.xacts ++ [v] }

/-- Bytes that no 256-byte boundary cuts, of stores first to last in the order of the MOVE: they join the open transaction when they follow it (R167), or
begin the next. -/
def putChunk (s : State) (x : EngRef) (t : Task) (ws : List Window) (id : Nat) (va : Int) (pk : Nat) (gl : Bool) (visit first last : Nat)
    (bs mask : List Byte) : State :=
  match s.move x id with
  | none => s
  | some m =>
    let joins := match m.tx with
      | some o => o.va + o.bytes.length == va && va % 256 != 0 && o.global == gl && (!gl || o.named == pk) && decide (first ≤ o.last + 1)
      | none => false
    if joins then s.updMove x id fun m => { m with tx := m.tx.map fun o => { o with last := last, bytes := o.bytes ++ bs, mask := o.mask ++ mask } }
    else
      let s := s.closeTx x t id
      if !s.live t.id then s
      else match s.resolve t ws m.tenant true gl pk va with
        | .error f => s.fail x { f with handle := m.dstHandle, visit := visit }
        | .ok tgt =>
          let (package, a, ep) := tgt.parts
          let isCxl := match placeOf a with
            | .cxl _ _ => true
            | _ => false
          if m.add != 0xFF && isCxl then s.failDst x m E.scatterTarget visit (shown va gl pk)
          else if s.eighths x.core x.eng (accessClass x.core true package a) == 0 then s.failDst x m E.groyneEmpty visit (shown va gl pk)
          else s.updMove x id fun m => { m with tx := some ⟨va, gl, pk, package, a, ep, visit, last, bs, mask⟩ }

/-- Bytes are stored, cut at 256-byte boundaries. -/
def putBytes (x : EngRef) (t : Task) (ws : List Window) (id : Nat) (pk : Nat) (gl : Bool) (visit first last : Nat) :
    Nat → State → Int → List Byte → List Byte → State
  | 0, s, _, _, _ => s
  | fuel + 1, s, va, bs, mask =>
    if bs.isEmpty || !s.live t.id then s
    else
      let k := min bs.length (256 - (va % 256).toNat)
      putBytes x t ws id pk gl visit first last fuel (s.putChunk x t ws id va pk gl visit first last (bs.take k) (mask.take k)) (va + k) (bs.drop k) (mask.drop k)

/-- Whole bytes of the store at a place in the order of the MOVE. -/
def put (s : State) (x : EngRef) (t : Task) (ws : List Window) (id : Nat) (va : Int) (pk : Nat) (gl : Bool) (visit order : Nat) (bs : List Byte) : State :=
  putBytes x t ws id pk gl visit order order (bs.length / 256 + 2) s va bs []

/-- The group of plane words that stores have filled is stored, those of its bits that they wrote (R69, R112). -/
def closeGroup (s : State) (x : EngRef) (t : Task) (ws : List Window) (id : Nat) : State :=
  match s.move x id with
  | none => s
  | some m =>
    match m.group with
    | none => s
    | some g =>
      putBytes x t ws id g.named g.global g.visit g.first g.last (g.bytes.length / 256 + 2) (s.updMove x id fun m => { m with group := none }) g.va g.bytes g.mask

/-- Bit `bit` of each of the plane words, most significant first, set to the bits of v. -/
def planePut (bs : List Byte) (bit v : Nat) : List Byte :=
  let ws := chunksOf 4 bs.length bs
  (ws.mapIdx fun i w =>
    let b := b2n (bitOf v (ws.length - 1 - i))
    leBytes 4 (putFld (leNat w) bit bit b)).flatten

/-- The element at a bit of plane words, most significant first. -/
def planeGet (bs : List Byte) (bit : Nat) : Nat := (chunksOf 4 bs.length bs).foldl (fun a w => 2 * a + b2n (bitOf (leNat w) bit)) 0

/-- An element is stored in memory, at a place in the order of the MOVE (R69, R70, R112). -/
def putElt (s : State) (x : EngRef) (t : Task) (ws : List Window) (id : Nat) (va : Int) (pk : Nat) (gl : Bool) (bit visit order v : Nat) : State :=
  match s.move x id with
  | none => s
  | some m =>
    let v := written m.ty v
    if isPlanes m.ty then
      let n := 4 * eltWidth m.ty
      let ones := 2 ^ eltWidth m.ty - 1
      let same := match m.group with
        | some g => g.va == va && g.global == gl && (!gl || g.named == pk)
        | none => false
      if same then
        s.updMove x id fun m =>
          { m with group := m.group.map fun g => { g with last := order, bytes := planePut g.bytes bit v, mask := planePut g.mask bit ones } }
      else
        (s.closeGroup x t ws id).updMove x id fun m =>
          { m with group := some ⟨va, gl, pk, visit, order, order, planePut (zeros n) bit v, planePut (zeros n) bit ones⟩ }
    else
      let w := eltWidth m.ty / 8
      if m.add != 0xFF && va % (w : Int) != 0 then (s.closeTx x t id).failDst x m E.scatterTarget visit (shown va gl pk)
      else s.put x t ws id va pk gl visit order (leBytes w v)

/-- An element goes into the slot of a ring destination (R164). -/
def feedElt (s : State) (x : EngRef) (id v : Nat) : State :=
  match s.move x id with
  | none => s
  | some m =>
    let v := written m.ty v
    let (vals, new) : List Nat × List Byte :=
      if isPlanes m.ty then
        (let l := m.vals ++ [v]; if l.length == 32 then ([], groupBytes (eltWidth m.ty) l) else (l, []))
      else ([], leBytes (eltWidth m.ty / 8) v)
    s.updMove x id fun m => { m with vals := vals, slot := m.slot ++ new }

/-- Full slots go to the engine's output; whole: what is left goes too, the last group padded (R69, R164). -/
def cutSlots (s : State) (x : EngRef) (id : Nat) (whole : Bool) : State :=
  match s.move x id with
  | none => s
  | some m =>
    match m.ring with
    | none => s
    | some (n, size) =>
      let bs := if whole && !m.vals.isEmpty then m.slot ++ groupBytes (eltWidth m.ty) m.vals else m.slot
      if size == 0 then s
      else
        let k := bs.length / size
        let s := s.updMove x id fun m => { m with slot := bs.drop (k * size), vals := if whole then [] else m.vals }
        s.updEng x fun c => { c with outbuf := c.outbuf ++ (chunksOf size k bs).map fun b => ⟨n, m.ty, b, none⟩ }

/-- The bytes of pieces, or the address and code of what stops the read. Bytes of the own die are read now, with what the MOVE's open
transaction will have written there (R29). -/
def pieceBytes (s : State) (core p : Nat) (m : MoveSt) : List Piece → Except (Nat × Nat) (List Byte × List (Nat × List Byte))
  | [] => .ok ([], [])
  | q :: qs =>
    let r : Except (Nat × Nat) (List Byte × List (Nat × List Byte)) := match q with
      | .known bs => .ok (bs, [])
      | .got id off n => .ok (((Tab.get [] m.got id).drop off).take n, [])
      | .here a n id at' =>
        match s.readFault a n with
        | some c => .error (at', c)
        | none => let bs := s.hereBytes core p m a n; .ok (bs, if id == 0 then [] else [(id, bs)])
    match r with
    | .error f => .error f
    | .ok (a, k) =>
      match s.pieceBytes core p { m with got := k ++ m.got } qs with
      | .error f => .error f
      | .ok (b, k') => .ok (a ++ b, k ++ k')

/-- The pieces that a unit reads. -/
def unitPieces (u : MoveUnit) : List Piece :=
  let ofElt (v : SrcElt) : List Piece := match v with
    | .value _ => []
    | .bytes ps _ => ps
  match u with
  | .elem _ v _ => ofElt v
  | .collect _ vs _ => (vs.map ofElt).flatten
  | .tile _ _ ps _ => ps
  | .expand _ _ ps _ => ps

/-- The reads of the own die that a unit makes meet what has struck there (R146, R147). -/
def meetUnit (s : State) (u : MoveUnit) : State :=
  if s.struck.isEmpty then s
  else (unitPieces u).foldl (fun s q => match q with | .here a n _ _ => s.meet a n | _ => s) s

/-- The encodings of source elements. -/
def eltValues (s : State) (core p ty : Nat) (m : MoveSt) : List SrcElt → Except (Nat × Nat) (List Nat × List (Nat × List Byte))
  | [] => .ok ([], [])
  | e :: es =>
    let r : Except (Nat × Nat) (Nat × List (Nat × List Byte)) := match e with
      | .value v => .ok (v, [])
      | .bytes ps bit =>
        match s.pieceBytes core p m ps with
        | .error f => .error f
        | .ok (bs, k) => .ok (if isPlanes ty then planeGet bs bit else leNat bs, k)
    match r with
    | .error f => .error f
    | .ok (v, k) =>
      match s.eltValues core p ty { m with got := k ++ m.got } es with
      | .error f => .error f
      | .ok (vs, k') => .ok (v :: vs, k ++ k')

/-- Whether a unit can be carried out: the reads that it names have come back, a tag is free for its reads of the own die, and no write of the own die
waits for one (R29, R160). -/
def unitReady (s : State) (x : EngRef) (m : MoveSt) (u : MoveUnit) : Bool :=
  let ps := unitPieces u
  (ps.all fun q => match q with
    | .got id _ _ => !m.xacts.any fun v => !v.isWrite && v.id == id
    | _ => true)
  && (!(ps.any fun q => match q with | .here _ _ _ _ => true | _ => false) || s.tagFree x.core x.eng 0)
  && !m.xacts.any (·.here)

/-- A tile is written at a TILED destination, and then its directory entry (R165, R497). -/
def putTile (s : State) (x : EngRef) (t : Task) (ws : List Window) (id visit : Nat) (d : TileDst) (bs : List Byte) (entry : Nat) : State :=
  let s := (s.closeTx x t id).put x t ws id (d.base + 16 * d.offset) d.package d.global visit visit bs
  let s := (s.closeTx x t id).put x t ws id d.entry d.package d.global visit visit (leBytes 8 entry)
  s.closeTx x t id true

/-- The fill value in place of the elements outside the interior, in row-major order (R108). -/
def insideOr (inside : List Bool) (fill : Nat) (vs : List Nat) : List Nat :=
  if inside.isEmpty then vs else vs.zipWith (fun v b => if b then v else fill) inside

/-- The bytes of a tile cut by the interior: DN, its elements in its own in-tile order (R497). -/
def cutTile (t : Tile) (d : TileDst) : List Byte :=
  let mask := if d.inside.isEmpty then [] else (tileRows t.colmajor d.inside).flatten
  let p := payloadOf 1 t.ty t.scales (insideOr mask d.fill t.elems)
  headerBytes 1 t.ty 0xFFFF p.length t.colmajor false ++ p

/-- Carry out one unit whose data are known, at a place in the order of the MOVE. Of an EM tile that the interior cuts only the directory entry is written
where the fill value is 0, as it holds the same elements; else it is expanded like any other (R108, R497; DESIGN CHOICE, log entry 107). -/
def doUnit (s : State) (x : EngRef) (t : Task) (ws : List Window) (id : Nat) (m : MoveSt) (u : MoveUnit) : State :=
  let failSrc (f : Nat × Nat) : State := s.fail x { code := f.2, addr := f.1, handle := m.srcHandle, visit := u.visit }
  let keep (k : List (Nat × List Byte)) : State := if k.isEmpty then s else s.updMove x id fun m => { m with got := k ++ m.got }
  let tileFail (f : TileFault) : State := failSrc (0, match f with | .crc => E.tileCrc | .format => E.tileFormat)
  let tileOf (em : Bool) (bs : List Byte) : Except TileFault Tile := if em && bs.isEmpty then .ok (emTile m.ty) else readTile (some m.ty) bs
  match u with
  | .elem visit e d =>
    match s.eltValues x.core t.partition m.ty m [e] with
    | .error f => failSrc f
    | .ok (vs, k) =>
      let v := vs.headD 0
      match d with
      | .drop => keep k
      | .ring => ((keep k).feedElt x id v).cutSlots x id false
      | .mem va pk gl bit => (keep k).putElt x t ws id va pk gl bit visit (if m.transpose then m.done else visit) v
  | .collect visit es d =>
    match s.eltValues x.core t.partition m.ty m es with
    | .error f => failSrc f
    | .ok (vs, k) =>
      (keep k).putTile x t ws id visit d (dnTile m.ty [] (insideOr d.inside d.fill vs)) (dirEntry 1 0x1FFF d.offset)
  | .tile visit em ps d =>
    match s.pieceBytes x.core t.partition m ps with
    | .error f => failSrc f
    | .ok (bs, k) =>
      if d.ring then
        let bs := if em then emHeader m.ty else bs
        match m.ring with
        | none => s
        | some (n, size) =>
          if size < bs.length then s.fail x { code := E.streamSlot, visit := visit }
          else (keep k).updEng x fun c => { c with outbuf := c.outbuf ++ [⟨n, m.ty, bs, none⟩] }
      else if em && (d.inside.isEmpty || d.fill == 0) then (keep k).putTile x t ws id visit d [] (dirEntry 0 0 0)
      else if d.inside.isEmpty then
        let h := tileHeader (bs.take 16)
        (keep k).putTile x t ws id visit d bs (dirEntry h.tag (if h.nnz == 0xFFFF then 0x1FFF else h.nnz) d.offset)
      else match tileOf em bs with
        | .error f => tileFail f
        | .ok tl => (keep k).putTile x t ws id visit d (cutTile tl d) (dirEntry 1 0x1FFF d.offset)
  | .expand visit em ps ds =>
    match s.pieceBytes x.core t.partition m ps with
    | .error f => failSrc f
    | .ok (bs, k) =>
      match tileOf em bs with
      | .error f => tileFail f
      | .ok tl =>
        (tl.rowMajor.zip ds).foldl (fun s p =>
          match p.2 with
          | .mem va pk gl bit => if s.live t.id then s.putElt x t ws id va pk gl bit visit visit p.1 else s
          | _ => s) (keep k)

/-- Carry out units in order, for as long as their data are known and a ring destination has room. -/
def runUnits (s : State) (x : EngRef) (t : Task) (ws : List Window) (id : Nat) : Nat → State
  | 0 => s
  | fuel + 1 =>
    match s.move x id with
    | none => s
    | some m =>
      if !s.live t.id || !(s.eng x).outbuf.isEmpty then s
      else match m.units with
        | [] => s
        | u :: us =>
          if !s.unitReady x m u then s
          else
            let s := ((s.meetUnit u).updMove x id fun m => { m with units := us, done := m.done + 1 }).doUnit x t ws id m u
            (s.flush x t.id).runUnits x t ws id fuel

/-- Carry a MOVE on as far as it goes; with its last visit, what is still open is written. -/
def runMove (s : State) (x : EngRef) (t : Task) (ws : List Window) (id : Nat) : State :=
  let s := s.flush x t.id
  match s.move x id with
  | none => s
  | some m =>
    let s := s.runUnits x t ws id m.units.length
    match s.move x id with
    | none => s
    | some m =>
      let s := if s.live t.id && m.units.isEmpty && m.strip.isEmpty && m.next == m.total then
          (((s.closeGroup x t ws id).closeTx x t id).cutSlots x id true).flush x t.id
        else s
      s.issueXacts x.core x.eng

/-- The MOVEs of one task of an engine go on; one that feeds a ring goes on with its instruction. -/
def carrySlot (s : State) (x : EngRef) : State :=
  match s.taskAt x.core x.slot with
  | none => s
  | some t =>
    if t.aborting then s
    else match s.windowTable t with
      | .error f => s.failTask t x.core x.eng f
      | .ok ws => (s.eng x).moves.foldl (fun s m => if m.ring.isSome || !s.live t.id then s else s.runMove x t ws m.id) s

/-- An engine goes on after a read, a grant, a completion or anything else that may have freed a tag. -/
def carryOn (s : State) (core eng : Nat) : State :=
  (s.issueXacts core eng).forAll [0, 1, 2, 3] fun s slot => if (s.eng ⟨core, slot, eng⟩).moves.isEmpty then s else s.carrySlot ⟨core, slot, eng⟩

/-! ## The MOVE instruction -/

/-- Whether a MOVE may begin after the engine's earlier ones (R171). -/
def orderOk (c : EngCtx) (overlap : Bool) : Bool :=
  if overlap then c.moves.all fun m => m.units.isEmpty && m.tx.isNone && m.group.isNone && m.xacts.all fun v => v.stage == 2
  else c.moves.all fun m => m.units.isEmpty && m.xacts.all fun v => !v.isWrite

/-- A MOVE's record of its progress as it begins. -/
def newMove (s : State) (x : EngRef) (e : MoveEnv) (id : Nat) : MoveSt :=
  let n := MoveEnv.ringOf e.sr.dst
  { id := id, arrive := e.sr.arrive, counter := e.sr.counter, add := if e.sr.op == 3 then e.ty else 0xFF, ty := e.ty, srcHandle := e.sr.src.handle,
    dstHandle := e.sr.dst.handle, tenant := (e.dst.map (·.tenant)).getD false, total := e.total, next := 0, transpose := e.sr.transpose, strip := [],
    done := 0, units := [], entry := none, combined := false, prev := [], cur := [], ahead := none, grow := none, got := [], nextRead := 1,
    xacts := [], group := none, tx := none, ring := if e.sr.dst.ring then some (n, s.slotSize x.core n) else none, slot := [], vals := [] }

/-- Plan the visits whose source is in memory, or those that the slots of a source ring allow: a slot is released once its last byte is used (R164). -/
def planVisits (s : State) (x : EngRef) (e : MoveEnv) (m : MoveSt) : Plan :=
  let p0 : Plan := ⟨s, m, none, false⟩
  match e.src with
  | some sd => (List.range (m.total - m.next)).foldl (fun p _ => p.visit x e fun p n => p.memVisit x e sd n) p0
  | none =>
    let n := MoveEnv.ringOf e.sr.src
    if e.dstTiled || !(isPlanes e.ty || e.len != 0) then
      let v := s.seeSlots x.core n (m.total - m.next)
      if v.any (·.struck) then { p0 with s := s.parityFail x n }
      else
        let p := v.foldl (fun p b => p.visit x e fun p k => p.ringTile x e (b.read 0 (s.slotSize x.core n)) k) p0
        { p with s := p.s.releaseSlots x.core n e.t.id (p.m.next - m.next) }
    else
      let per := if isPlanes e.ty then 32 else 1
      let s := s.load x e.t.id n e.len (elemsLen e.ty m.total - elemsLen e.ty (m.next / per * per))
      let h := s.held x n
      let vs := ((unpackElems e.ty h.bytes).drop (m.next % per)).take (m.total - m.next)
      let p := if s.live e.t.id then vs.foldl (fun p v => p.visit x e fun p k => p.ringElement x e v k) { p0 with s := s } else { p0 with s := s }
      let done := if p.m.next == m.total then h.bytes.length else (p.m.next / per - m.next / per) * e.len
      { p with s := p.s.setHeld x n { h with bytes := h.bytes.drop done } }

/-- Plan what can be planned and carry it out, again for as long as an index entry of the own Cove had to wait for stores that are done now (R29). -/
def planRun (s : State) (x : EngRef) (t : Task) (e : MoveEnv) (id : Nat) : Nat → State × Option Fail
  | 0 => (s, none)
  | fuel + 1 =>
    match s.move x id with
    | none => (s, none)
    | some m =>
      let p := s.planVisits x e m
      let s := (p.s.updMove x id fun _ => p.m).runMove x t e.ws id
      match p.fail with
      | some f => (s, some f)
      | none =>
        match s.move x id with
        | none => (s, none)
        | some n =>
          if p.wait && s.live t.id && n.units.isEmpty && (decide (n.next ≠ m.next) || !m.units.isEmpty) then (s.closeGroup x t e.ws id).planRun x t e id fuel
          else (s, none)

/-- Plan what can be planned, carry it out, and end, wait or fail. -/
def goMove (s : State) (x : EngRef) (t : Task) (i : Instr) (e : MoveEnv) (id : Nat) : State :=
  match s.planRun x t e id (e.total + 1) with
  /- R178: what the visits before the failing one wrote is issued -/
  | (s, some f) =>
    let s := (s.closeGroup x t e.ws id).closeTx x t id
    if s.live t.id then s.fail x f else s
  | (s, none) =>
    if !s.live t.id then s
    else match s.move x id with
      | none => s
      | some m =>
        let wait := decide (m.next < m.total) || (e.sr.dst.ring && (!m.units.isEmpty || !(s.eng x).outbuf.isEmpty))
        if wait then s.stallRing x t i else (s.updMove x id fun m => { m with ring := none }).retire x t i

/-- MOVE (R291): it begins, or goes on where a ring had stopped it. -/
def moveInstr (s : State) (x : EngRef) (t : Task) (ops : MoveOps) : State :=
  let i : Instr := .move x ops
  let c := s.eng x
  match s.moveEnv x t ops with
  | .error f => s.failTask t x.core x.eng f
  | .ok e =>
    if c.blocked == some (.ring i) then s.goMove x t i e (c.nextId - 1)
    else if !orderOk c e.sr.overlap then s.stall x (.order i)
    else
      let s := s.updEng x fun c => { c with blocked := none, nextId := c.nextId + 1, moves := c.moves ++ [s.newMove x e c.nextId] }
      s.goMove x t i e c.nextId

/-! ## Completion (R160, R172) -/

/-- A transaction of an engine by its stage and tag, with the MOVE that it belongs to. -/
def findXact (s : State) (x : EngRef) (stage tag : Nat) : Option (Nat × Xact) :=
  ((s.eng x).moves.filterMap fun m => (m.xacts.find? fun v => v.stage == stage && v.tag == tag).map fun v => (m.id, v)).head?

def dropXact (s : State) (x : EngRef) (id : Nat) (v : Xact) : State :=
  s.updMove x id fun m => { m with xacts := m.xacts.filter fun u => u.id != v.id }

/-- A read's data return to the engine; a task that drains discards them (R178). -/
def readDone (s : State) (x : EngRef) (tag : Nat) (bs : List Byte) : State :=
  match s.findXact x 2 tag with
  | some (id, v) =>
    if v.isWrite then s
    else
      let s := s.dropXact x id v
      let s := if (match s.taskAt x.core x.slot with | some t => t.aborting | none => true) then s
        else s.updMove x id fun m => { m with got := (v.id, bs) :: m.got }
      s.carryOn x.core x.eng
  | none => s

/-- A write is acknowledged; of a Lagoon, be it a peer module's, it counts at the issuing core (R44, R160, R172, R496). -/
def writeDone (s : State) (x : EngRef) (tag : Nat) : State :=
  match s.findXact x 2 tag with
  | some (id, v) =>
    if !v.isWrite then s
    else
      let arrive := match s.move x id, placeOf v.address with
        | some m, .lagoon _ _ => if m.arrive then some m.counter else none
        | _, _ => none
      let s := s.dropXact x id v
      let s := match arrive with
        | some k => s.incr x.core x.slot false k 1 x.core x.eng
        | none => s
      s.carryOn x.core x.eng
  | none => s

/-- A transaction that is answered with an error ends, and its task aborts (R178, R179, R364). A fenced pool answers a credit request so. -/
def xactError (s : State) (x : EngRef) (tag code : Nat) (request : Bool := false) : State :=
  match s.findXact x (if request then 1 else 2) tag with
  | some (id, v) =>
    let s := s.dropXact x id v
    (s.fail x { code := code, addr := v.shown, handle := v.handle, visit := v.visit }).carryOn x.core x.eng
  | none => s

/-- A write of an engine has its credit (R36): it issues once a tag of its class is free. -/
def grantXact (s : State) (x : EngRef) (id : Nat) (v : Xact) (target gen : Nat) : State :=
  (s.updMove x id fun m => { m with xacts := m.xacts.map fun u => if u.id == v.id then { u with stage := 3, target := target, gen := gen } else u }).carryOn
    x.core x.eng

/-- The first complete MOVE of an engine completes; what waited for it goes on (R31, R172, R283). -/
def completeMove (s : State) (x : EngRef) : State :=
  match (s.eng x).moves.find? MoveSt.isDone with
  | none => s
  | some m => ((s.updEng x fun c => { c with moves := c.moves.filter fun n => n.id != m.id }).resumeSync x).tryDone x.core x.slot

end State

/-- MOVE (R160 to R178, R291, R497). -/
def execMove (x : EngRef) (ops : MoveOps) (s : State) : Host.Outcome State Fault Refusal :=
  .next (s.issue [5, 6] x (.move x ops) fun s t => s.moveInstr x t ops)

/-- MOVE_COMPLETE (R172): all transactions of a MOVE have completed. -/
def execMoveComplete (x : EngRef) (s : State) : Host.Outcome State Fault Refusal := .next (s.completeMove x).admitHeld

end Sys2Proof.Machine
end

