-- ==== Sys2Proof/Machine/Local.lean ====
section
/-! DEFINITION. What the engines other than the Stream Engines read and write in their own core's Cove: operand descriptors (R98, R199, R222,
R225, R250), elements through R107, R108 and R122. -/

namespace Sys2Proof.Machine

/-- How a run of ISECT, MERGE or PACK stands where it can go no further: its last slot or tile is out, so that the instruction retires; it waits; or it aborts. -/
inductive RunEnd where
  | done (s : State)
  | wait (s : State) (r : Run)
  | bad (s : State) (f : Fail)

namespace State

/-! ## Memory -/

/-- A descriptor of an operand that is no index tensor (R101, R115). -/
def operand (s : State) (t : Task) (core handle : Nat) : Except Fail Desc :=
  match s.descriptor t core handle with
  | .error f => .error f
  | .ok d => if d.keyword then .error { code := E.descInvalid, handle := handle } else .ok d

/-- A DENSE descriptor of a rank and type in the core's own Cove; any other fails with a code (R222, R232, R246, R250, R251, R296). -/
def localDesc (s : State) (t : Task) (core handle rank ty code : Nat) : Except Fail Desc :=
  match s.operand t core handle with
  | .error f => .error f
  | .ok d => if d.format == 0 && d.rank == rank && d.ty == ty && ownCove core d then .ok d else .error { code := code, handle := handle }

/-- Bytes of a unit's write that no 256-byte boundary cuts, through R122. -/
def storePiece (s : State) (t : Task) (ws : List Window) (tenant global : Bool) (package : Nat) (a : Int) (bs : List Byte) : Except Fail State :=
  match s.resolve t ws tenant true global package a with
  | .error f => .error f
  | .ok (.peer _ _) => .error { code := E.windowFault, addr := a.toNat }
  | .ok (.phys pa ep) =>
    match s.writeFault pa bs.length with
    | some c => .error { code := c, addr := a.toNat }
    | none => .ok (s.writeBytes t.partition ep pa bs)

def storePieces (t : Task) (ws : List Window) (tenant global : Bool) (package : Nat) : Nat → State → Int → List Byte → Except Fail State
  | 0, s, _, _ => .ok s
  | k + 1, s, a, bs =>
    if bs.isEmpty then .ok s
    else
      let m := 256 - (a % 256).toNat
      match s.storePiece t ws tenant global package a (bs.take m) with
      | .error f => .error f
      | .ok s => storePieces t ws tenant global package k s (a + m) (bs.drop m)

/-- Write bytes at an address, through R122. -/
def storeAt (s : State) (t : Task) (ws : List Window) (tenant global : Bool) (package : Nat) (a : Int) (bs : List Byte) : Except Fail State :=
  storePieces t ws tenant global package (bs.length / 256 + 2) s a bs

/-- Read an element of a DENSE operand stored as bytes: the fill value outside the extents (R107, R109). -/
def readElem (s : State) (x : EngRef) (t : Task) (ws : List Window) (handle : Nat) (d : Desc) (c : List Int) : Except Fail (Nat × State) :=
  if !d.inExtent c then .ok (d.fill, s.countOob x.core x.slot 1 0)
  else match s.elementAddr t ws handle d c with
    | .error f => .error f
    | .ok (va, pk, gl, _) =>
      match s.readMeta t ws d.tenant gl pk va d.bytes with
      | .error f => .error { f with handle := handle }
      | .ok bs => .ok (leNat bs, s.meetRead t ws d.tenant gl pk va d.bytes)

/-- Read elements i to i + n - 1 of a rank-1 operand. -/
def readElems (x : EngRef) (t : Task) (ws : List Window) (handle : Nat) (d : Desc) : Nat → State → Nat → Except Fail (List Nat × State)
  | 0, s, _ => .ok ([], s)
  | n + 1, s, i =>
    match s.readElem x t ws handle d [(i : Int)] with
    | .error f => .error f
    | .ok (v, s) =>
      match readElems x t ws handle d n s (i + 1) with
      | .error f => .error f
      | .ok (r, s) => .ok (v :: r, s)

/-- Write an element of a DENSE operand stored as bytes: dropped and counted outside the interior (R108, R109). -/
def writeElem (s : State) (x : EngRef) (t : Task) (ws : List Window) (handle : Nat) (d : Desc) (c : List Int) (v : Nat) : Except Fail State :=
  if !(d.inExtent c && d.inInterior c) then .ok (s.countOob x.core x.slot 0 1)
  else match s.elementAddr t ws handle d c with
    | .error f => .error f
    | .ok (va, pk, gl, _) =>
      match s.storeAt t ws d.tenant gl pk va (leBytes d.bytes v) with
      | .error f => .error { f with handle := handle }
      | .ok s => .ok s

/-- Write elements (coordinates and value) in order, as far as no write fails. -/
def writeElems (x : EngRef) (t : Task) (ws : List Window) (handle : Nat) (d : Desc) : State → List (List Int × Nat) → State × Option Fail
  | s, [] => (s, none)
  | s, (c, v) :: r =>
    match s.writeElem x t ws handle d c v with
    | .error f => (s, some f)
    | .ok s => writeElems x t ws handle d s r

/-! ## What an engine has under way -/

/-- Set what an engine has begun. -/
def setRun (s : State) (x : EngRef) (r : Run) : State := s.updEng x fun c => { c with run := r }

/-- An instruction that waits for a ring keeps what it has begun; one whose task an error has stopped has nothing left. -/
def keepRun (s : State) (x : EngRef) (t : Task) (r : Run) (i : Instr) : State := if s.live t.id then (s.setRun x r).stallRing x t i else s

/-- The instruction of a run retires, waits or aborts its task. -/
def endRun (x : EngRef) (t : Task) (i : Instr) : RunEnd → State
  | .done s => s.retire x t i
  | .wait s r => s.keepRun x t r i
  | .bad s f => s.failTask t x.core x.eng f

/-- A string of bytes of an element type in slots, the last one perhaps partly full (R218, R238), joins what an engine commits as there is room; with the last
one leaves the accumulator tile that it frees. -/
def putOut (s : State) (x : EngRef) (n ty : Nat) (bs : List Byte) (frees : Option Nat := none) : State :=
  let cs := chunksOf (max 1 (s.slotSize x.core n)) bs.length bs
  s.updEng x fun c => { c with outbuf := c.outbuf ++ cs.mapIdx fun i b => { ring := n, ty := ty, bytes := b, frees := if i + 1 = cs.length then frees else none } }

end State
end Sys2Proof.Machine
end

