-- ==== Sys2Proof/Machine/Packer.lean ====
section
/-! DEFINITION. The Packer (R225 to R229, R296): the checks of a PACK, the placing of its tiles in fixed and append mode, its registers, and the
command PACK. -/

namespace Sys2Proof.Machine

/-- A PACK with its operands: the destination, the first entry after the bindings, and the arena's first byte and end. -/
structure PackEnv where
  x : EngRef
  t : Task
  ws : List Window
  ops : PackOps
  d : Desc
  first : Int
  low : Nat
  high : Nat

/-- The ring that a PACK reads (R225). -/
def PackEnv.ring (e : PackEnv) : Nat := 48 + e.ops.ring

/-- Whether an address lies in the core's own Cove. -/
def inCove (core a : Nat) : Bool :=
  match placeOf a with
  | .cove g _ => g == core
  | _ => false

namespace State

/-- What a PACK asks before it reads its ring (R225, R296). -/
def packEnv (s : State) (x : EngRef) (t : Task) (o : PackOps) : Except Fail PackEnv :=
  match s.windowTable t, s.descriptorOr t x.core o.dest E.packInvalid, s.bindings x t o.bind o.bmask with
  | .error f, _, _ => .error f
  | _, .error f, _ => .error f
  | _, _, .error f => .error f
  | .ok ws, .ok d, .ok bs =>
    let first : Int := bs.foldl (fun (v : Int) b => if b.1 == 6 then v + b.2.2.1 else v) o.first
    if d.keyword then .error { code := E.descInvalid, handle := o.dest }
    else if !d.isTiled || (d.format == 1 && d.shardmap == 0xFF && !ownCove x.core d) || !(o.fmt == 0 || tagAllows o.fmt d.ty) then
      .error { code := E.packInvalid, handle := o.dest }
    else if !o.append then .ok ⟨x, t, ws, o, d, first, 0, 0⟩
    else match s.localDesc t x.core o.arena 1 0x10 E.packInvalid with
      | .error f => .error f
      | .ok a =>
        match s.elementAddr t ws o.arena a [0] with
        | .error f => .error f
        | .ok (va, _, _, _) => .ok ⟨x, t, ws, o, d, first, va.toNat, va.toNat + a.ext 0⟩

/-- The directory entry of the tile at entry n, and its directory's base, which lie in the own Cove (R225, R296). -/
def packPlace (s : State) (e : PackEnv) (n : Nat) : Except Fail (Nat × Nat) :=
  match s.tilePlace e.t e.ws e.ops.dest e.d (e.d.tileCoords n) E.packInvalid with
  | .error f => .error f
  | .ok (entry, b, _, gl) =>
    if gl || b % 16 != 0 || !inCove e.x.core b || !inCove e.x.core entry then .error { code := E.packInvalid, addr := b, handle := e.ops.dest }
    else .ok (entry, b)

/-- Where a tile of len bytes goes: the next place of the arena, or what its directory entry says, in the own Cove (R225, R227). -/
def packAddress (s : State) (e : PackEnv) (pos entry b len : Nat) : Except Fail Nat :=
  if e.ops.append then
    (if e.high < roundUp pos 16 + len then .error { code := E.packArena, addr := roundUp pos 16, handle := e.ops.arena } else .ok (roundUp pos 16))
  else match s.readMeta e.t e.ws e.d.tenant false 0 entry 8 with
    | .error f => .error { f with handle := e.ops.dest }
    | .ok w =>
      let a := b + 16 * fld (leNat w) 39 0
      if inCove e.x.core a && inCove e.x.core (a + len - 1) then .ok a else .error { code := E.packInvalid, addr := a, handle := e.ops.dest }

/-- Bytes of a tile or of its entry, by R122. -/
def packStore (s : State) (e : PackEnv) (a : Nat) (bs : List Byte) : Except Fail State :=
  match s.storeAt e.t e.ws e.d.tenant false 0 a bs with
  | .error f => .error { f with handle := e.ops.dest }
  | .ok s => .ok s

/-- Count a written tile (R229). -/
def packCount (s : State) (e : PackEnv) (empty fallback : Bool) : State :=
  let r : RegId := ⟨.pkCount, e.x.core, e.x.slot⟩
  let s := s.satRf r 63 42 1
  let s := if empty then s.satRf r 41 21 1 else s
  if fallback then s.satRf r 20 0 1 else s

/-- The elements of an incoming tile in row-major order, with the fill value outside the interior box (R108) and every zero as +0 (R226); none for
a tile wholly outside. Elements outside count as dropped. -/
def packTileElems (s : State) (e : PackEnv) (n : Nat) (bs : List Byte) : Option (List Nat × List Nat) × State :=
  let c := e.d.tileCoords n
  let inside := (List.range 4096).map fun k => e.d.inInterior (inTile c (k / 64) (k % 64))
  let out := (inside.filter (!·)).length
  let s := s.countOob e.x.core e.x.slot 0 out
  if out = 4096 then (none, s)
  else
    let sl := scaleLen e.d.ty
    let scales := (bs.take sl).map (·.toNat)
    let raw := insideOr (if out = 0 then [] else inside) e.d.fill (unpackElems e.d.ty (bs.drop sl))
    (some (scales, (withScales scales raw).map fun p => if isZeroElt e.d.ty p.1 p.2 then 0 else p.2), s)

/-- Write a tile's payload, header and directory entry, in this order (R226 to R228). -/
def packWrite (s : State) (e : PackEnv) (entry b a tag nnz : Nat) (blob : List Byte) : Except Fail State :=
  match s.packStore e (a + 16) (blob.drop 16) with
  | .error f => .error f
  | .ok s =>
    match s.packStore e a (blob.take 16) with
    | .error f => .error f
    | .ok s => (s.packStore e entry (leBytes 8 (dirEntry tag nnz ((a - b) / 16)))).map fun s => s.countUnits e.x

/-- Write one tile (R226 to R228). -/
def packOne (s : State) (e : PackEnv) (r : PackRun) (bs : List Byte) : Except (State × Fail) (State × PackRun) :=
  let next : PackRun := { r with tile := r.tile + 1 }
  let n := e.first + r.tile
  if n < 0 ∨ (e.d.tileCount : Int) ≤ n then .ok (s.countOob e.x.core e.x.slot 0 1, next)
  else match s.packTileElems e n.toNat bs with
    | (none, s) => .ok (s, next)
    | (some (scales, elems), s) =>
      match s.packPlace e n.toNat with
      | .error f => .error (s, f)
      | .ok (entry, b) =>
        if e.ops.append && decide (e.low < b) then .error (s, { code := E.packInvalid, addr := b, handle := e.ops.dest })
        else
          let (tag, nnz, blob, fb) := packTile e.ops.fmt e.d.ty scales elems
          if tag == 0 then
            match s.packStore e entry (leBytes 8 0) with
            | .error f => .error (s, f)
            | .ok s => .ok (s.packCount e true false, next)
          else match s.packAddress e r.pos entry b blob.length with
            | .error f => .error (s, f)
            | .ok a =>
              let s := if e.ops.append then s else s.meetRead e.t e.ws e.d.tenant false 0 entry 8
              match s.packWrite e entry b a tag nnz blob with
              | .error f => .error (s, f)
              | .ok s => .ok (s.packCount e false fb, if e.ops.append then { next with pos := a + blob.length } else next)

/-- A PACK aborts at a tile (R225 to R229). -/
def packFail (s : State) (x : EngRef) (t : Task) (tile : Nat) (f : Fail) : State := s.failTask t x.core x.eng { f with visit := tile }

/-- Tiles as they come, until the last one is written or no whole one is in the ring (R225, R228). -/
def packGo (e : PackEnv) : Nat → State → PackRun → RunEnd
  | 0, s, r => .wait s (.pack r)
  | fuel + 1, s, r =>
    let len := scaleLen e.d.ty + elemsLen e.d.ty 4096
    if e.ops.tiles ≤ r.tile then .done (s.setRun e.x .none)
    else if (s.seeSlots e.x.core e.ring 1).any (·.ty != e.d.ty) then .bad s { code := E.packInvalid, handle := e.ops.dest, visit := r.tile }
    else match s.takeBytes e.x e.t.id e.ring len len with
      | (none, s) => .wait s (.pack r)
      | (some bs, s) =>
        match (s.endStream e.x e.t.id e.ring).packOne e r bs with
        | .error (s, f) => .bad s { f with visit := r.tile }
        | .ok (s, r) => packGo e fuel s r

/-- PACK begins, or goes on where it waited. In fixed mode the field arena is 0xFFF (R296, R321). -/
def packInstr (s : State) (x : EngRef) (t : Task) (o : PackOps) : State :=
  if !o.append && o.arena != 0xFFF then s.decodeFault x t
  else match s.packEnv x t o with
    | .error f => s.packFail x t 0 f
    | .ok e =>
      let r : PackRun := match (s.eng x).run with
        | .pack r => r
        | _ => ⟨0, e.low⟩
      endRun x t (.pack x o) (packGo e (min (o.tiles - r.tile) (8 * 1024) + 1) s r)

end State

/-- PACK (R226). -/
def execPack (x : EngRef) (ops : PackOps) (s : State) : Host.Outcome State Fault Refusal :=
  .next (s.issue [4] x (.pack x ops) fun s t => s.packInstr x t ops)

end Sys2Proof.Machine
end

