-- ==== Sys2Proof/Machine/Sluice.lean ====
section
/-! DEFINITION. The Sluice (R235 to R249, R261, R295): records and runs, the checks of an ISECT, its bitmap, coordinate, probe and aligned
modes, the expand form, and the command ISECT. -/

namespace Sys2Proof.Machine

/-! ## Records (R235 to R238) -/

/-- The void key (R235). -/
def voidKey : Nat := 0x7FFFFFFF

/-- The length of a record: SINGLE, PAIR, IDX (R236). -/
def singleLen (fp64 : Bool) : Nat := if fp64 then 16 else 8
def pairLen (fp64 : Bool) : Nat := if fp64 then 24 else 16

/-- The key word with the last flag (R235). -/
def keyWord (key : Nat) (last : Bool) : List Byte := leBytes 4 (key + b2n last * 2 ^ 31)

/-- A SINGLE, a PAIR and an IDX record (R236). -/
def singleRec (fp64 : Bool) (key v : Nat) (last : Bool) : List Byte :=
  if fp64 then keyWord key last ++ zeros 4 ++ leBytes 8 v else keyWord key last ++ leBytes 4 v

def pairRec (fp64 : Bool) (key a b : Nat) (last : Bool) : List Byte :=
  if fp64 then keyWord key last ++ zeros 4 ++ leBytes 8 a ++ leBytes 8 b else keyWord key last ++ leBytes 4 a ++ leBytes 4 b ++ zeros 4

def idxRec (key posA posB : Nat) (last : Bool) : List Byte := keyWord key last ++ leBytes 4 posA ++ leBytes 4 posB ++ zeros 4

/-- Records into slots: a new slot when the next record does not fit; the full slots and what is left of the last one (R238). -/
def fillSlots (size : Nat) : List Byte → List (List Byte) → List (List Byte) × List Byte
  | cur, [] => ([], cur)
  | cur, r :: rs =>
    if cur.length + r.length ≤ size then fillSlots size (cur ++ r) rs
    else let (full, last) := fillSlots size r rs; (cur :: full, last)

/-! ## Coordinate matching (R242) -/

/-- One handshake of coordinate mode after another: the matches as places in both lists, and the entries that gallops pass over. ga and gb count
the handshakes in which a side took its whole window without a match while the other took nothing. -/
def matchRuns : Nat → List (Nat × Nat) → List (Nat × Nat) → Nat → Nat → List (Nat × Nat × Nat) × Nat
  | 0, _, _, _, _ => ([], 0)
  | fuel + 1, as, bs, ga, gb =>
    match as, bs with
    | [], _ => ([], 0)
    | _, [] => ([], 0)
    | a0 :: _, b0 :: _ =>
      let below (l : List (Nat × Nat)) (v : Nat) : Nat := (l.takeWhile fun p => decide (p.1 < v)).length
      if 2 ≤ ga then
        let k := below as b0.1 / 8 * 8
        let (m, n) := matchRuns fuel (as.drop k) bs 0 0
        (m, n + k)
      else if 2 ≤ gb then
        let k := below bs a0.1 / 8 * 8
        let (m, n) := matchRuns fuel as (bs.drop k) 0 0
        (m, n + k)
      else
        let wa := as.take 8
        let wb := bs.take 8
        let found := wa.filterMap fun p => (wb.find? fun q => q.1 == p.1).map fun q => (p.1, p.2, q.2)
        let t := min ((wa.getLast?.map (·.1)).getD 0) ((wb.getLast?.map (·.1)).getD 0)
        let ka := (wa.filter fun p => decide (p.1 ≤ t)).length
        let kb := (wb.filter fun p => decide (p.1 ≤ t)).length
        let ga := if found.isEmpty && ka == 8 && kb == 0 then ga + 1 else 0
        let gb := if found.isEmpty && kb == 8 && ka == 0 then gb + 1 else 0
        let (m, n) := matchRuns fuel (as.drop ka) (bs.drop kb) ga gb
        (found ++ m, n)

/-! ## An ISECT -/

/-- An ISECT with its operands: the mode of R240 (0 bitmap, 1 coordinate, 2 probe, 3 aligned), the count of A, the first row key, and the record
array, or none for the ring of SL_CFG. -/
structure IsectEnv where
  x : EngRef
  t : Task
  ws : List Window
  ops : IsectOps
  mode : Nat
  a : Desc
  b : Desc
  count : Nat
  r0 : Int
  arr : Option Desc
  aptr : Nat
  aidx : Nat
  aval : Nat
  bidx : Nat
  bval : Nat
  ring : Nat

/-- The mode that the kinds select, with the forms and keys of R240. -/
def isectMode (o : IsectOps) : Option Nat :=
  let rp := o.akind == 1
  match o.akind, o.bkind with
  | 2, 2 => if o.form ≤ 1 && !o.rowKey then some 0 else none
  | 0, 0 => if o.form ≤ 1 && !o.rowKey then some 1 else none
  | 1, 0 => if o.form ≤ 1 then some 1 else none
  | 0, 3 | 1, 3 => if (o.form ≤ 1 || (o.form == 2 && rp)) && (rp || !o.rowKey) then some 2 else none
  | 0, 4 | 1, 4 => if o.form == 1 && (rp || !o.rowKey) then some 3 else none
  | _, _ => none

/-- Whether a type's values may meet in the Sluice (R92, R239). -/
def slTypes (ty : Nat) : Bool := [0x00, 0x01, 0x02, 0x03, 0x04, 0x05, 0x0F, 0x10, 0x12, 0x13].contains ty

/-- Whether an operand's descriptor has the form of its kind (R295). -/
def isectForm (kind : Nat) (vals : Bool) (d : Desc) : Bool :=
  match kind with
  | 0 => d.format == 0 && d.rank == 1 && (if vals then slTypes d.ty else d.ty == 0x12)
  | 1 => d.isRp
  | 2 => d.isTiled && slTypes d.ty
  | 3 => d.format == 0 && d.rank == 1 && d.ty == 0x13
  | _ => d.format == 0 && d.rank == 1 && slTypes d.ty

/-- The rings that an ISECT reads, by SL_CFG's fields (R239, R244). -/
def isectRings (e : IsectEnv) : List Nat :=
  (match e.ops.akind with
   | 0 => e.aidx :: (if e.ops.avals then [e.aval] else [])
   | 1 => e.aptr :: ((if e.mode == 3 && e.ops.rowKey then [] else [e.aidx]) ++ (if e.ops.avals then [e.aval] else []))
   | _ => [e.aval])
  ++ (match e.ops.bkind with
   | 0 => e.bidx :: (if e.ops.bvals then [e.bval] else [])
   | 2 => [e.bval]
   | 3 => [e.bidx]
   | _ => if e.ops.bvals then [e.bval] else [])

/-- The length of the records of a form (R236). -/
def isectLen (o : IsectOps) : Nat := if o.form == 0 then 16 else pairLen o.fp64

/-- The value 1.0 in the work type (R239). -/
def oneOf (fp64 : Bool) : Nat := if fp64 then 0x3FF0000000000000 else 0x3F800000

/-- A value converted to the work type (R245). -/
def toWork (fp64 : Bool) (ty v : Nat) : Nat := (convert (if fp64 then 0x00 else 0x01) none (eltVal ty v)).1

/-- The stored entries of a tile: in-tile index and value (R241). -/
def tileEntries (t : Tile) : List (Nat × Nat) :=
  (((List.range 4096).zip t.elems).zip t.stored).filterMap fun p => if p.2 then some p.1 else none

namespace State

/-- Bytes that a ring can hold at once. -/
def ringRoomBytes (s : State) (core n : Nat) : Nat := s.ringSlots core n * s.slotSize core n

/-- What an ISECT asks at its start (R238, R240, R243, R246, R247, R295). -/
def isectEnv (s : State) (x : EngRef) (t : Task) (o : IsectOps) : Except Fail IsectEnv :=
  let bad : Except Fail IsectEnv := .error { code := E.isectInvalid }
  match isectMode o, s.windowTable t, s.operand t x.core o.ah, s.operand t x.core o.bh, s.bindings x t o.bind o.bmask with
  | none, _, _, _, _ => bad
  | _, .error f, _, _, _ => .error f
  | _, _, .error f, _, _ => .error f
  | _, _, _, .error f, _ => .error f
  | _, _, _, _, .error f => .error f
  | some mode, .ok ws, .ok a, .ok b, .ok bs =>
    let arr : Except Fail (Option Desc) := if o.dest then (s.localDesc t x.core o.out 1 0x10 E.isectInvalid).map some else .ok none
    match arr with
    | .error f => .error f
    | .ok arr =>
      let count0 := match o.akind with
        | 1 => a.ext 1
        | 2 => a.tileCount
        | _ => a.ext 0
      let count : Int := bs.foldl (fun (v : Int) b => if b.1 == 5 then b.2.2.1 else v) count0
      let r0 : Int := bs.foldl (fun (v : Int) b => if b.1 == 4 then v + b.2.2.1 else v) o.r0
      let cfg : RegId := ⟨.slCfg, x.core, 0⟩
      let e : IsectEnv :=
        { x := x, t := t, ws := ws, ops := o, mode := mode, a := a, b := b, count := count.toNat, r0 := r0, arr := arr,
          aptr := 32 + s.rf cfg 2 0, aidx := 32 + s.rf cfg 5 3, aval := 32 + s.rf cfg 8 6, bidx := 32 + s.rf cfg 11 9, bval := 32 + s.rf cfg 14 12,
          ring := 8 * s.rf cfg 39 36 + s.rf cfg 34 32 }
      let expand := o.form == 2
      let pool := s.rf cfg 39 36
      if !isectForm o.akind o.avals a || !isectForm o.bkind o.bvals b || decide (count < 0) || !(isectRings e).Nodup
          || (mode == 0 && decide (count ≠ (b.tileCount : Int)))
          || (expand && (o.dest || decide (64 < count) || isPlanes a.ty || isMx a.ty || !(pool == 0 || pool == 2)))
          || (!o.dest && (decide (8 < pool) || s.ringProducer x.core e.ring != 2 || (!expand && decide (s.slotSize x.core e.ring < isectLen o)))) then bad
      else if o.akind == 1 && ((o.bkind == 0 && (decide (s.ringRoomBytes x.core e.bidx < 4 * b.ext 0)
              || (o.bvals && decide (s.ringRoomBytes x.core e.bval < b.bytes * b.ext 0))))
            || (o.bkind == 3 && decide (s.ringRoomBytes x.core e.bidx < 8 * b.ext 0))) then
        .error { code := E.isectFit }
      else .ok e

/-- What an ISECT takes of a ring: n elements of a width. -/
structure SlTake where
  ring : Nat
  width : Nat
  n : Nat

/-- Read what the rings bring of the bytes that an ISECT is to take, and answer whether they are all there (R28, R135). -/
def loadAll (e : IsectEnv) : State → List SlTake → State × Bool
  | s, [] => (s, true)
  | s, v :: r =>
    let s := s.load e.x e.t.id v.ring v.width (v.width * v.n)
    let here := decide (v.width * v.n ≤ (s.held e.x v.ring).bytes.length)
    if !s.live e.t.id then (s, false) else let (s, ok) := loadAll e s r; (s, here && ok)

/-- Take the next elements of several rings, all of them or none (R28). -/
def takeAll (s : State) (e : IsectEnv) (l : List SlTake) : Option (List (List Byte)) × State :=
  match loadAll e s l with
  | (s, false) => (none, s)
  | (s, true) =>
    let (r, s) := l.foldl (fun (acc : List (List Byte) × State) v =>
      let h := acc.2.held e.x v.ring
      (acc.1 ++ [h.bytes.take (v.width * v.n)], acc.2.setHeld e.x v.ring { h with bytes := h.bytes.drop (v.width * v.n) })) ([], s)
    (some r, s)

/-- The next tile of a ring, still held: it begins at a slot boundary and may run on over slots (R239). -/
def peekTile (s : State) (e : IsectEnv) (n ty : Nat) : Option (Except TileFault Tile) × State :=
  let s := s.load e.x e.t.id n 1 16
  let hd := (s.held e.x n).bytes.take 16
  if hd.length < 16 then (none, s)
  else
    let h := tileHeader hd
    match checkHeader h (some ty) with
    | some f => (some (.error f), s)
    | none =>
      let s := s.load e.x e.t.id n 1 (16 + h.length)
      let bs := (s.held e.x n).bytes
      (if bs.length < 16 + h.length then none else some (readTile (some ty) bs), s)

/-- An ISECT aborts at an entry of A or a tile pair (R249, R261). -/
def isectFail (s : State) (x : EngRef) (t : Task) (entry : Nat) (f : Fail) : State := s.failTask t x.core x.eng { f with visit := entry }

/-- A run's records leave: into the slot under assembly and the ring, or into the record array (R238, R246). -/
def isectEmit (s : State) (e : IsectEnv) (r : IsectRun) (recs : List (List Byte)) : Except (State × Fail) (State × IsectRun) :=
  match e.arr with
  | some d =>
    let bs := recs.flatten
    match writeElems e.x e.t e.ws e.ops.out d s (bs.mapIdx fun k b => ([((r.outPos + k : Nat) : Int)], b.toNat)) with
    | (s, some f) => .error (s, f)
    | (s, none) => .ok (s.countUnits e.x, { r with outPos := r.outPos + bs.length })
  | none =>
    let (full, last) := fillSlots (s.slotSize e.x.core e.ring) r.slot recs
    .ok (full.foldl (fun s b => s.putOut e.x e.ring 0x10 b) s, { r with slot := last })

/-- The records of a run of matches: key, ordinals and values (R237, R245). A run without a match is one void record, whose other fields the spec
leaves open. -/
def isectRun (s : State) (e : IsectEnv) (r : IsectRun) (ms : List (Nat × Nat × Nat × Nat × Nat)) (skipped : Nat) :
    Except (State × Fail) (State × IsectRun) :=
  let c : RegId := ⟨.slCount, e.x.core, e.x.slot⟩
  let s := if ms.isEmpty then s else s.satRf c 63 32 ms.length
  let s := if skipped == 0 then s else s.satRf c 31 0 skipped
  if ms.isEmpty then
    let (f1, s) := s.fresh
    let (f2, s) := s.fresh
    s.isectEmit e r [if e.ops.form == 0 then idxRec voidKey f1 f2 true else pairRec e.ops.fp64 voidKey f1 f2 true]
  else
    let rowKey := (e.r0 + r.run).toNat
    let n := ms.length
    if e.ops.rowKey && (decide (e.r0 + r.run < 0) || decide (voidKey ≤ rowKey)) then .error (s, { code := E.isectOrder })
    else s.isectEmit e r (ms.mapIdx fun k m =>
      let key := if e.ops.rowKey then rowKey else m.1
      if e.ops.form == 0 then idxRec key m.2.1 m.2.2.1 (k + 1 == n) else pairRec e.ops.fp64 key m.2.2.2.1 m.2.2.2.2 (k + 1 == n))

/-- Where an ISECT stands after a run. -/
inductive SlStep where
  | more (s : State) (r : IsectRun)
  | wait (s : State)
  | bad (s : State) (entry : Nat) (f : Fail)

/-- The outcome of emitting a run. -/
def slEmitted (entry : Nat) (upd : IsectRun → IsectRun) (v : Except (State × Fail) (State × IsectRun)) : SlStep :=
  match v with
  | .error (s, f) => .bad s entry f
  | .ok (s, r) => .more s (upd { r with run := r.run + 1 })

/-- The matches of a tile pair (R241): their positions, ordinals and values. -/
def bitmapMatches (e : IsectEnv) (r : IsectRun) (ta tb : Tile) : List (Nat × Nat × Nat × Nat × Nat) :=
  let ea := tileEntries ta
  let eb := tileEntries tb
  let ib := (List.range eb.length).zip eb
  ((List.range ea.length).zip ea).filterMap fun p => (ib.find? fun q => q.2.1 == p.2.1).map fun q =>
    (4096 * r.run + p.2.1, r.aSeen + p.1, r.bSeen + q.1, toWork e.ops.fp64 e.a.ty p.2.2, toWork e.ops.fp64 e.b.ty q.2.2)

/-- A tile that does not decode ends the instruction. -/
def badTile (f : TileFault) : Fail := { code := match f with | .crc => E.tileCrc | .format => E.tileFormat }

/-- A tile pair of bitmap mode (R241); a match past position 0x7FFFFFFE aborts (R248). -/
def slBitmap (s : State) (e : IsectEnv) (r : IsectRun) : SlStep :=
  let (ta, s) := s.peekTile e e.aval e.a.ty
  let (tb, s) := s.peekTile e e.bval e.b.ty
  match ta, tb with
  | some (.error f), _ => .bad s r.run (badTile f)
  | _, some (.error f) => .bad s r.run (badTile f)
  | none, _ => .wait s
  | _, none => .wait s
  | some (.ok ta), some (.ok tb) =>
      let s := (s.endStream e.x e.t.id e.aval).endStream e.x e.t.id e.bval
      let ms := bitmapMatches e r ta tb
      if ta.colmajor != tb.colmajor then .bad s r.run { code := E.isectInvalid }
      else if ms.any fun m => decide (voidKey ≤ m.1) then .bad s r.run { code := E.isectOrder }
      else
        slEmitted r.run (fun r => { r with aSeen := r.aSeen + (tileEntries ta).length, bSeen := r.bSeen + (tileEntries tb).length })
          (s.isectRun e r ms 0)

/-- Indices of a list as signed 32-bit numbers. -/
def indices (bs : List Byte) : List Int := (chunksOf 4 bs.length bs).map fun b => sext 32 (leNat b)

/-- The first entry of a COORD list that breaks R248: out of 0 to 0x7FFFFFFE, or not above its predecessor. -/
def coordFault : Nat → Int → List Int → Option Nat
  | _, _, [] => none
  | k, p, i :: is => if i < 0 ∨ (voidKey : Int) ≤ i ∨ i ≤ p then some k else coordFault (k + 1) i is

/-- The first entry of a row that does not ascend (R93). -/
def rowFault : Nat → Option Int → List Int → Option Nat
  | _, _, [] => none
  | k, p, i :: is => if (match p with | some p => decide (i ≤ p) | none => false) then some k else rowFault (k + 1) (some i) is

/-- Values of a type from their bytes, or none listed for an operand without values. -/
def valuesOf (has : Bool) (ty : Nat) (bs : List Byte) : List Nat := if has then unpackElems ty bs else []

/-- What an ISECT with a resident B holds of each of B's rings: the ring and the bytes (R243). -/
def residentRings (e : IsectEnv) : List (Nat × Nat) :=
  if e.ops.akind != 1 then []
  else match e.ops.bkind with
    | 0 => (e.bidx, 4 * e.b.ext 0) :: (if e.ops.bvals then [(e.bval, e.b.bytes * e.b.ext 0)] else [])
    | 3 => [(e.bidx, 8 * e.b.ext 0)]
    | _ => []

/-- What is in the rings of a resident B, each as far as it has come, and whether a parity error is in it (R135). -/
def residentBytes (s : State) (e : IsectEnv) : List (List Byte) × Bool :=
  let l := (residentRings e).map fun p => s.streamBytes e.x p.1 p.2
  (l.map (·.1), l.any (·.2))

/-- B's resident slots are released when the instruction ends (R243). -/
def releaseB (s : State) (e : IsectEnv) : State :=
  (residentRings e).foldl (fun s p => s.releaseSlots e.x.core p.1 e.t.id (ceilDiv p.2 (max 1 (s.slotSize e.x.core p.1)))) s

/-- The matches of a run of A against B (R242, R244): entries of A are (index, ordinal), with the values of both sides. -/
def slMatches (e : IsectEnv) (r : IsectRun) (as : List (Nat × Nat)) (avals : List Nat) (bidx bvals : List Byte) : List (Nat × Nat × Nat × Nat × Nat) × Nat :=
  let one := oneOf e.ops.fp64
  let va (k : Nat) : Nat := if e.ops.avals then toWork e.ops.fp64 e.a.ty (avals.getD (k - r.aSeen) 0) else one
  let bvs := valuesOf (e.ops.bvals && e.ops.bkind != 3) e.b.ty bvals
  let vb (k : Nat) : Nat := if e.ops.bvals && e.ops.bkind != 3 then toWork e.ops.fp64 e.b.ty (bvs.getD k 0) else one
  match e.mode with
  | 1 =>
    let bi := (indices bidx).map Int.toNat
    let (ms, n) := matchRuns (as.length + bi.length + 8) as (bi.zip (List.range bi.length)) 0 0
    (ms.map fun m => (m.1, m.2.1, m.2.2, va m.2.1, vb m.2.2), n)
  | 2 =>
    let words := (chunksOf 8 bidx.length bidx).map leNat
    ((as.filter fun p => bitOf (words.getD (p.1 / 64) 0) (p.1 % 64)).map fun p => (p.1, p.2, p.1, va p.2, one), 0)
  | _ => (as.map fun p => (p.1, p.2, p.2, va p.2, vb (p.2 - r.aSeen)), 0)

/-- The single run of a COORD operand (R239, R242, R244, R248). -/
def slCoord (s : State) (e : IsectEnv) (r : IsectRun) : SlStep :=
  let n := e.count
  let m := e.b.ext 0
  let la : List SlTake := ⟨e.aidx, 4, n⟩ :: (if e.ops.avals then [⟨e.aval, e.a.bytes, n⟩] else [])
  let lb : List SlTake := match e.ops.bkind with
    | 0 => ⟨e.bidx, 4, m⟩ :: (if e.ops.bvals then [⟨e.bval, e.b.bytes, m⟩] else [])
    | 3 => [⟨e.bidx, 8, m⟩]
    | _ => if e.ops.bvals then [⟨e.bval, e.b.bytes, n⟩] else []
  if e.mode = 3 ∧ m < n then .bad s 0 { code := E.isectInvalid }
  else match s.takeAll e (la ++ lb) with
  | (none, s) => .wait s
  | (some bs, s) =>
    let ia := indices (bs.getD 0 [])
    let av := if e.ops.avals then unpackElems e.a.ty (bs.getD 1 []) else []
    let rest := bs.drop la.length
    let bi := if e.mode == 3 then [] else rest.getD 0 []
    let bv := if e.mode == 3 then rest.getD 0 [] else rest.getD 1 []
    match coordFault 0 (-1) ia, (if e.ops.bkind == 0 then coordFault 0 (-1) (indices bi) else none) with
    | some k, _ => .bad s k { code := E.isectOrder }
    | none, some _ => .bad s 0 { code := E.isectOrder }
    | none, none =>
      let (ms, sk) := slMatches e r ((ia.map Int.toNat).zip (List.range n)) av bi bv
      slEmitted n id (s.isectRun e r ms sk)

/-- The rest of a row whose next pointer is known (R239, R244): what it takes of each ring, the pointer first. -/
def rowTakes (e : IsectEnv) (n : Nat) : List SlTake :=
  [⟨e.aptr, if e.a.rpwide then 8 else 4, 1⟩] ++ (if e.mode == 3 && e.ops.rowKey then [] else [⟨e.aidx, 4, n⟩])
    ++ (if e.ops.avals then [⟨e.aval, e.a.bytes, n⟩] else []) ++ (if e.mode == 3 && e.ops.bvals then [⟨e.bval, e.b.bytes, n⟩] else [])

/-- The entries of a row that begins at row pointer p0, against B's resident bytes (R93, R244, R245, R247). -/
def rowEntries (s : State) (e : IsectEnv) (r : IsectRun) (p0 : Nat) (bi bv : List Byte) : SlStep :=
  let pw := if e.a.rpwide then 8 else 4
  let hd := s.peekBytes e.x e.aptr pw
  let p := sext (8 * pw) (leNat hd)
  let n := (p - p0).toNat
  if hd.length < pw then .wait s
  else if p < p0 then .bad s r.aSeen { code := E.rpOrder }
  else if e.mode = 3 ∧ e.b.ext 0 < r.aSeen + n then .bad s r.aSeen { code := E.isectInvalid }
  else match s.takeAll e (rowTakes e n) with
    | (none, s) => .wait s
    | (some bs, s) =>
      let reads := !(e.mode == 3 && e.ops.rowKey)
      let rest := bs.drop 1
      let ia := if reads then indices (rest.getD 0 []) else List.replicate n 0
      let rest := if reads then rest.drop 1 else rest
      let av := if e.ops.avals then unpackElems e.a.ty (rest.getD 0 []) else []
      let rest := if e.ops.avals then rest.drop 1 else rest
      let bv := if e.mode == 3 then rest.getD 0 [] else bv
      match (if reads then rowFault 0 none ia else none) with
      | some k => .bad s (r.aSeen + k) { code := E.rpOrder }
      | none =>
        let limit : Int := if e.ops.form == 2 then min (e.a.ext 0) (64 * e.b.ext 0) else e.a.ext 0
        let all := ia.zip ((List.range n).map (r.aSeen + ·))
        let good := all.filter fun q => !reads || (decide (0 ≤ q.1) && decide (q.1 < limit))
        let s := s.countOob e.x.core e.x.slot (n - good.length) 0
        let as := good.map fun q => (q.1.toNat, q.2)
        let upd (r : IsectRun) : IsectRun := { r with aSeen := r.aSeen + n, pointer := some p.toNat }
        if e.ops.form == 2 then
          let one := (convert e.a.ty none (Val.ofInt 1)).1
          let es := as.map fun q => (r.run, q.1, if e.ops.avals then av.getD (q.2 - r.aSeen) 0 else one)
          .more s (upd { r with run := r.run + 1, entries := r.entries ++ es })
        else
          let (ms, sk) := slMatches e r as av bi bv
          slEmitted r.aSeen upd (s.isectRun e r ms sk)

/-- A row of an RP operand, or its first row pointer (R93, R239, R243). Entry 0 may be any non-negative value (R92); a negative one aborts with E_RP_ORDER,
as the spec gives it no consequence of its own (DESIGN CHOICE, log entry 107). -/
def slRow (s : State) (e : IsectEnv) (r : IsectRun) : SlStep :=
  let pw := if e.a.rpwide then 8 else 4
  let (held, struck) := s.residentBytes e
  if struck then .wait (s.parityFail e.x e.bidx)
  else if (held.zip (residentRings e)).any fun p => decide (p.1.length < p.2.2) then .wait s
  else
    let bi := held.getD 0 []
    match (if e.ops.bkind == 0 then coordFault 0 (-1) (indices bi) else none) with
    | some _ => .bad s r.aSeen { code := E.isectOrder }
    | none =>
      match r.pointer with
      | some p0 => s.rowEntries e r p0 bi (held.getD 1 [])
      | none =>
        match s.takeAll e [⟨e.aptr, pw, 1⟩] with
        | (none, s) => .wait s
        | (some bs, s) =>
          let p := sext (8 * pw) (leNat (bs.getD 0 []))
          if p < 0 then .bad s r.aSeen { code := E.rpOrder } else .more s { r with pointer := some p.toNat }

/-- A block of the expand form as its 64 A-port words (R105, R247). -/
def expandBlock (e : IsectEnv) (r : IsectRun) (mask : List Nat) (kc : Nat) : List Byte :=
  let elem (m k : Nat) : Nat :=
    if bitOf (mask.getD kc 0) k then
      ((r.entries.find? fun p => p.1 == m && p.2.1 == 64 * kc + k).map fun p => p.2.2).getD 0
    else 0
  packElems e.a.ty ((List.range 64).map fun w => (List.range 64).map fun i => elem i ((w + 64 - i) % 64)).flatten

/-- The blocks of the expand form in ascending chunk order, after the last row (R247). -/
def slExpand (s : State) (e : IsectEnv) (r : IsectRun) : State × IsectRun :=
  let bi := (s.residentBytes e).1.getD 0 []
  let mask := (chunksOf 8 bi.length bi).map leNat
  let bs := ((List.range (e.b.ext 0)).map (expandBlock e r mask)).flatten
  (s.putOut e.x e.ring e.a.ty bs, { r with entries := [] })

/-- Runs as the rings bring them, until the last record is committed (R28, R238, R245). The first row pointer of an RP operand is read before its first row,
and also where there is none (R239). -/
def slGo (e : IsectEnv) : Nat → State → IsectRun → RunEnd
  | 0, s, r => .wait s (.isect r)
  | fuel + 1, s, r =>
    let s := (s.setRun e.x (.isect r)).flush e.x e.t.id
    let runs := if e.ops.akind == 0 then 1 else e.count
    if !(s.eng e.x).outbuf.isEmpty then .wait s (.isect r)
    else if runs < r.run then
      .done (((isectRings e).foldl (fun s n => s.endStream e.x e.t.id n) (s.releaseB e)).setRun e.x .none)
    else if r.run = runs ∧ (e.ops.akind ≠ 1 ∨ r.pointer.isSome) then
      let (s, r) := if e.ops.form == 2 then s.slExpand e r else (if r.slot.isEmpty then s else s.putOut e.x e.ring 0x10 r.slot, { r with slot := [] })
      slGo e fuel s { r with run := runs + 1 }
    else match (if e.mode == 0 then s.slBitmap e r else if e.ops.akind == 0 then s.slCoord e r else s.slRow e r) with
      | .more s r => slGo e fuel s r
      | .wait s => .wait s (.isect r)
      | .bad s k f => .bad s { f with visit := k }

/-- ISECT begins, or goes on where it waited. Without a record array the field out is 0xFFF (R295, R321). -/
def isectInstr (s : State) (x : EngRef) (t : Task) (o : IsectOps) : State :=
  if !o.dest && o.out != 0xFFF then s.decodeFault x t
  else match s.isectEnv x t o with
  | .error f => s.isectFail x t 0 f
  | .ok e =>
    let r : IsectRun := match (s.eng x).run with
      | .isect r => r
      | _ => ⟨0, 0, 0, none, 0, [], []⟩
    endRun x t (.isect x o) (slGo e (2 * e.count + 8) s r)

end State

/-- ISECT (R240). -/
def execIsect (x : EngRef) (ops : IsectOps) (s : State) : Host.Outcome State Fault Refusal :=
  .next (s.issue [2] x (.isect x ops) fun s t => s.isectInstr x t ops)

end Sys2Proof.Machine
end

