-- ==== Sys2Proof/Machine/Disp.lean ====
section
/-! DEFINITION. The row dispenser (R263 to R274): starting a list, by LIST (R307) or by a write of DSP_LISTCTL, and issuing work items
with tail splitting. -/

namespace Sys2Proof.Machine
namespace State

/-- The participating cores of a die's dispenser (R266, R273). -/
def dispCores (s : State) (d : Nat) : List Nat := (List.range 32).filter fun c => s.rb ⟨.dspCfg, d, 0⟩ c

/-- The task whose list a die runs. -/
def listTask (s : State) (d : Nat) : Option Task := s.tasks.find? fun t => t.active && s.ownsList t d

/-- An error of the dispenser: DSP_FAULT records it, and the list's task aborts (R264, R274). -/
def dispFail (s : State) (d code item : Nat) : State :=
  let s := s.setReg ⟨.dspFault, d, 0⟩ (BitVec.ofNat 64 (2 ^ 63 + code * 2 ^ 32 + item % 2 ^ 32))
  match s.listTask d with
  | some t => s.abortWith t { code := code, severity := 1, kind := 2, unit := d, detail := item }
  | none => (s.logErr { code := code, severity := 0, kind := 2, unit := d, partition := some (s.disp d).partition, detail := item }).stopDispenser d

/-- Whether a start passes the checks of R274. -/
def dispOk (s : State) (d : Nat) : Bool :=
  let cs := s.dispCores d
  !cs.isEmpty && cs.all (fun c => s.enabled (32 * d + c)) && cs.all (fun c => !s.rb ⟨.chCfg, 32 * d + c, s.rf ⟨.dspCfg, d, 0⟩ 34 32⟩ 0)

/-- Start a list (R265, R273, R274): a failed check aborts the starting task, the one whose LIST it is, or for a write of another sender the one that the
written fields and DSP_CFG.cores name (log entry 113). -/
def startList (s : State) (d : Nat) (by' : Option Nat) : State :=
  let c : RegId := ⟨.dspListctl, d, 0⟩
  let p := s.rf c 58 56
  let slot := s.rf c 33 32
  if !s.dispOk d then
    match s.tasks.find? fun t => t.active && s.namesList t d by' p slot with
    | some t => s.abortWith t { code := E.dspConfig, severity := 1, kind := 2, unit := d }
    | none => s.logErr { code := E.dspConfig, severity := 0, kind := 2, unit := d, partition := some p }
  else
    let v := s.disp d
    let s := s.setDisp d { v with running := true, base := s.rf ⟨.dspListbase, d, 0⟩ 51 5 * 32, count := s.rf c 31 0, next := 0, head := none, partition := p, slot := slot,
                                  sent := [], ended := [], task := by' }
    let s := (s.setReg ⟨.dspStatus, d, 0⟩ 0).setRf ⟨.dspFault, d, 0⟩ 63 63 0
    s.pumpEnds d 3

/-- A write of DSP_LISTCTL (R265, R273): start = 1 starts the list when none runs; the bit reads 0. -/
def writeListctl (s : State) (by' : Agent) (d : Nat) (v : Word) (starter : Option Nat := none) : State :=
  let r : RegId := ⟨.dspListctl, d, 0⟩
  let b := s.busy by' r v
  let s := (s.store by' r v).setRf r 63 63 0
  if b || !wbit v 63 then s else s.startList d starter

/-- Whether an item that is issued for the first time breaks R264. -/
def itemBad (s : State) (d : Nat) (i : WorkItem) : Bool :=
  i.reserved != 0 || decide (i.last < i.first) || i.depth != 0 || i.sub != 0 || !s.enabled i.owner || s.dieOwner (i.owner / 32) != (s.disp d).partition

/-- The item at the head of a die's list: the rest of one that was split, or the next of the list. -/
def headItem (s : State) (d : Nat) : Except Fail WorkItem :=
  let v := s.disp d
  match v.head with
  | some h => .ok h
  | none =>
    match s.fetch v.partition (v.base + 32 * v.next) 32 with
    | .error f => .error f
    | .ok bs => .ok (itemOf ((chunksOf 8 4 bs).map leNat))

/-- The participating core that is served next: ascending, starting after the one last served, with its channel empty (R266). -/
def nextCore (s : State) (d : Nat) : Option Nat :=
  let ch := s.rf ⟨.dspCfg, d, 0⟩ 34 32
  (((List.range 32).map fun k => ((s.disp d).lastServed + 1 + k) % 32).filter (s.dispCores d).contains).find?
    fun c => (s.chan (32 * d + c) ch).words.isEmpty

/-- The item that is issued and what stays at the head (R270). -/
def splitItem (s : State) (d : Nat) (h : WorkItem) : WorkItem × Option WorkItem :=
  let v := s.disp d
  let r : RegId := ⟨.dspTailNnz, d, 0⟩
  let low := if s.rf r 31 16 == 0 then (s.dispCores d).length else s.rf r 31 16
  let n := h.last - h.first
  if v.count - v.next < low ∧ s.rf r 15 0 < n ∧ h.depth < s.rf r 34 32 then
    let mid := h.first + n / 2
    ({ h with last := mid, depth := h.depth + 1, split := true },
     some { h with first := mid, depth := h.depth + 1, split := true, sub := h.sub ||| 2 ^ (3 - h.depth) })
  else (h, none)

/-- The dispenser issues the head item, split or whole, into the channel of the next core (R264, R266, R270). -/
def issueItem (s : State) (d : Nat) : State :=
  let v := s.disp d
  if !v.running || (v.next == v.count && v.head.isNone) then s
  else match s.nextCore d with
    | none => s
    | some c =>
      match s.headItem d with
      | .error _ => s.dispFail d E.dspFault v.next
      | .ok h =>
        if v.head.isNone && s.itemBad d h then s.dispFail d E.dspItem v.next
        else
          let (out, rest) := s.splitItem d h
          let s := s.setDisp d { v with head := rest, next := if rest.isSome then v.next else v.next + 1, lastServed := c }
          let s := s.satRf ⟨.dspStatus, d, 0⟩ 31 0 1
          let s := if rest.isSome then s.satRf ⟨.dspStatus, d, 0⟩ 55 32 1 else s
          let ws := itemWords out
          (s.pushWords (32 * d + c) (s.rf ⟨.dspCfg, d, 0⟩ 34 32) [(ws.getD 0 0, false), (ws.getD 1 0, false), (ws.getD 2 0, false), (ws.getD 3 0, true)] true).pumpEnds d 3

/-! ## Where partials meet (R271, R272)

The pieces of a split row and their marks are written by the program: MOVEs of the core that took the piece, the mark's after the partial's has completed, with
arrive set (landFrame, incr). What a mark says, and when the marks found say that a row is whole, is the rule's. -/

/-- The landing mark of a piece: 8 bytes, its depth + 1 in bits 3 to 0. -/
def landingMark (depth : Nat) : List Byte := leBytes 8 ((depth + 1) % 16)

/-- The sixteenths that a mark found in a landing place stands for; none where it is zero. -/
def markWeight (mark : Nat) : Nat := if mark % 16 = 0 then 0 else 2 ^ (5 - mark % 16)

/-- The marks that lie in landing places of the owner's Cove. -/
def marksAt (s : State) (places : List Nat) : List Nat := places.map fun a => leNat (s.bytes a 8)

/-- Whether the marks found in a row's places say that all partials of its segments have landed. -/
def rowLanded (s : State) (segments : Nat) (places : List Nat) : Bool := ((s.marksAt places).map markWeight).sum == 16 * segments

/-- What the owner's landing counter is waited for: the number of segments first, and one past its value while partials are missing. -/
def landingWait (s : State) (segments counter : Nat) (places : List Nat) : Option Nat :=
  if counter < segments then some segments else if s.rowLanded segments places then none else some (counter + 1)

/-- The two elements of LIST's descriptor for a die: address and item count (R307). -/
def listEntry (s : State) (t : Task) (ws : List Window) (core dir d : Nat) : Except Fail (Nat × Nat) :=
  match s.descriptor t core dir with
  | .error f => .error f
  | .ok desc =>
    if desc.format != 0 || desc.rank != 1 || desc.ty != 0x13 || desc.ext 0 != 24 then .error { code := E.descInvalid, handle := dir }
    else
      let one (k : Nat) : Except Fail Nat :=
        match s.elementAddr t ws dir desc [(k : Int)] with
        | .error f => .error f
        | .ok (a, pk, gl, _) => (s.readMeta t ws desc.tenant gl pk a 8).map leNat
      match one (2 * d), one (2 * d + 1) with
      | .ok a, .ok n => .ok (a, n)
      | .error f, _ => .error f
      | _, .error f => .error f

/-- A count of 0 ends the items nest of every participating core of the die, as if each had read an end packet: at once, or when the core comes to run one
(R307, log entry 114). -/
def endItems (s : State) (t : Task) (d : Nat) : State :=
  s.forAll (t.cores.filter fun g => g / 32 == d) fun s g => (s.updEng ⟨g, t.slot, 7⟩ fun c => { c with zeros := c.zeros + 1 }).giveZeros g t.slot

end State

/-- LIST (R307): the Pilot of the starter core writes DSP_LISTBASE and DSP_LISTCTL of its die. -/
def execList (x : EngRef) (starter dir : Nat) (s : State) : Host.Outcome State Fault Refusal :=
  .next (s.issue [7] x (.list x starter dir) fun s t =>
    if x.core % 32 ≠ starter then s.retire x t (.list x starter dir)
    else
      let d := x.core / 32
      match s.windowTable t with
      | .error f => s.failTask t x.core x.eng f
      | .ok ws =>
        match s.listEntry t ws x.core dir d with
        | .error f => s.failTask t x.core x.eng f
        | .ok (a, n) =>
          if n = 0 then (s.retire x t (.list x starter dir)).endItems t d
          else
            let s := s.retire x t (.list x starter dir)
            let s := s.store .pilot ⟨.dspListbase, d, 0⟩ (BitVec.ofNat 64 a)
            s.writeListctl .pilot d (BitVec.ofNat 64 (2 ^ 63 + t.partition * 2 ^ 56 + t.slot * 2 ^ 32 + n % 2 ^ 32)) (some t.id))

/-- DSP_LISTCTL_START (R265): a write of DSP_LISTCTL. -/
def execDspListctlStart (by' : Agent) (die value : Nat) (s : State) : Host.Outcome State Fault Refusal :=
  .next (s.access by' false ⟨.dspListctl, die, 0⟩ fun s => s.writeListctl by' die (BitVec.ofNat 64 value))

/-- WORK_ITEM (R266): the dispenser of a die issues its head item. -/
def execWorkItem (die : Nat) (s : State) : Host.Outcome State Fault Refusal := .next (s.issueItem die)

end Sys2Proof.Machine
end

