-- ==== Sys2Proof/Machine/Launch.lean ====
section
/-! DEFINITION. Tasks from queue to completion: doorbells and entries (R389 to R393), streams and express words (R323 to R325), the
start of a task on a core (R284 to R288, R332, R333), truncation (R334, R335), the end of a drain (R178), and completion queues
(R394 to R397). -/

namespace Sys2Proof.Machine

/-! ## Queue entries and launch records -/

/-- Whether a task queue entry and its stream map break R391 and R323 (R393). -/
def entryBad (e m : List Byte) : Bool :=
  let launch := fieldAt e 0 8
  let map := fieldAt e 8 8
  fld launch 63 52 != 0 || launch % 256 != 0 || map % 256 != 0 || fld (fieldAt e 20 1) 7 1 != 0 || fieldAt e 21 43 != 0
  || (List.range 8).any (fun k =>
      let a := fieldAt m (16 * k) 8
      let fl := fieldAt m (16 * k + 12) 4
      fl / 2 != 0 || a % 8 != 0 || (bitOf a 63 && fld a 62 52 != 0) || (bitOf fl 0 && (a != 0 || fieldAt m (16 * k + 8) 4 != 0)))
  || mapReport m % 128 != 0 || mapDump m % 256 != 0 || fieldAt m 144 112 != 0

namespace State

/-- Whether a launch record breaks a rule of R285 that its own bytes show. -/
def recordBad (s : State) (t : Task) : Bool :=
  let r := t.launch
  let addr (a al : Nat) : Bool := a % al != 0 || a / 2 ^ 52 != 0
  bitOf (fieldAt r 4 1) 3 || fieldAt r 7 1 != 0 || fld (fieldAt r 12 2) 15 10 != 0 || fld (fieldAt r 14 2) 15 10 != 0
  || fld (fieldAt r 56 8) 62 51 != 0 || fieldAt r 240 16 != 0
  || decide (16 < t.nests) || t.windows == 0 || decide (16 < t.windows) || t.descriptors == 0 || decide (4096 < t.descriptors) || decide (4096 < t.streams)
  || addr t.desctable 128 || addr t.streamtable 128 || addr t.windowtable 16 || addr t.nesttable 128
  || (t.debug && s.trust.lockClosed)
  || (launchCores r).any (fun g => !s.enabled g || s.dieOwner (g / 32) != t.partition)

/-! ## Taking entries (R392, R393) -/

/-- Whether a task queue of a port is served now (R385, R392, R397, R399, R425, R457). -/
def queueServed (s : State) (p : Port) (q : Nat) : Bool :=
  let h := p.harbour
  let part := s.rf ⟨.hbTqcfg, h, q⟩ 61 59
  s.rb ⟨.hbTqcfg, h, q⟩ 63 && s.rb ⟨.hbPortstat, h, 0⟩ 63 && (s.port p).linkUp && !s.pkg.halted && s.portOwns p part
  && s.rf ⟨.hbTqstat, h, q⟩ 15 0 != s.rf ⟨.hbTqdb, h, q⟩ 15 0

/-- A faulty entry is completed as ABORTED without a slot, and the head passes it (R393, R394). -/
def refuseEntry (s : State) (p : Port) (q : Nat) (entry : List Byte) (number code detail : Nat) : State :=
  let h := p.harbour
  let e : ErrInfo := { code := code, severity := 1, kind := 4, unit := h, partition := some (s.rf ⟨.hbTqcfg, h, q⟩ 61 59), task := number, detail := detail }
  let seq := s.seqOf e
  let cq := s.rf ⟨.hbTqcfg, h, q⟩ 53 48
  let s := (s.logErr e).setRf ⟨.hbTqstat, h, q⟩ 15 0 ((s.rf ⟨.hbTqstat, h, q⟩ 15 0 + 1) % queueSize (s.rf ⟨.hbTqcfg, h, q⟩ 3 0))
  (s.setRf ⟨.hbTqstat, h, q⟩ 62 62 0).complete p cq (completionBytes number (fieldAt entry 16 4) q 5 false true code 0x1FF seq)

/-- The tasks of a partition that are QUEUED, RUNNING or DRAINING: its usage of quota 3 (R469). -/
def taskUsage (s : State) (p : Nat) : Nat := (s.tasks.filter fun t => t.active && t.partition == p).length

/-- Whether a partition takes tasks: its interface, its Pilot image and its task quota (R417, R425, R428, R469). -/
def takesTasks (s : State) (p : Nat) : Bool :=
  ((s.session p).state == 0 || (s.session p).state == 2) && !(s.session p).stopping && (s.session p).pilotOk &&
  match s.quotaLimit p 3 with
  | some l => decide (s.taskUsage p < l)
  | none => true

/-- The harbour looks at the head entry of a queue and takes it, refuses it, or leaves it waiting (R392, R393). -/
def takeEntry (s : State) (p : Port) (q : Nat) (entry map : List Byte) : State :=
  let h := p.harbour
  let part := s.rf ⟨.hbTqcfg, h, q⟩ 61 59
  let wait := s.setRf ⟨.hbTqstat, h, q⟩ 62 62 1
  let earlier := s.tasks.any fun t => t.active && decide (t.port = p) && t.tq == q
  if bitOf (fieldAt entry 20 1) 0 && earlier then wait
  else if entryBad entry map then s.refuseEntry p q entry 0xFFFFFFFF E.queueEntry 0
  else match s.fetch part (fieldAt entry 0 8) 256 with
    | .error f => s.refuseEntry p q entry 0xFFFFFFFF f.code f.addr
    | .ok rec =>
      let cores := launchCores rec
      let number := fieldAt rec 0 4
      let slot := fld (fieldAt rec 4 1) 5 4
      if fieldAt rec 4 1 % 8 ≠ part ∨ cores.any (fun g => s.dieOwner (g / 32) != part) then s.refuseEntry p q entry number E.queuePartition 0
      else if s.tasks.any (fun t => t.active && t.slot == slot && t.cores.any cores.contains) || cores.any (s.fenced 1) || !s.takesTasks part then wait
      else
        let t : Task := {
          id := s.nextTask, number := number, partition := part, slot := slot, port := p, tq := q, cq := s.rf ⟨.hbTqcfg, h, q⟩ 53 48,
          tag := fieldAt entry 16 4, cores := cores, state := 1, launchAt := fieldAt entry 0 8, launch := rec, map := map, started := [], release := false,
          skip := s.rb ⟨.lhIntake, 0, 0⟩ part, aborting := false, truncated := false, logged := false, error := 0, errCore := 0x1FF,
          errSeq := 2 ^ 64 - 1, discarded := false }
        let s := (s.setTasks (s.tasks ++ [t])).setNextTask (s.nextTask + 1)
        let s := s.setRf ⟨.hbTqstat, h, q⟩ 15 0 ((s.rf ⟨.hbTqstat, h, q⟩ 15 0 + 1) % queueSize (s.rf ⟨.hbTqcfg, h, q⟩ 3 0))
        (s.setRf ⟨.hbTqstat, h, q⟩ 62 62 0).setPort p { s.port p with lastQueue := q }

/-- A read of host memory for a queue fails (R393). -/
def queueFetchFault (s : State) (p : Port) (q : Nat) : State :=
  let h := p.harbour
  ((((s.setRf ⟨.hbTqcfg, h, q⟩ 63 63 0).setRf ⟨.hbTqstat, h, q⟩ 63 63 1).setRf ⟨.hbTqstat, h, q⟩ 62 62 0)).logErr
    { portNotice p E.queueFetch with partition := some (s.rf ⟨.hbTqcfg, h, q⟩ 61 59), detail := q }

/-- A tail takes effect (R389, R397). -/
def ringBell (s : State) (p : Port) (q tail : Nat) : State := s.setRf ⟨.hbTqdb, p.harbour, q⟩ 15 0 tail

/-- A doorbell (R385, R389, R397): ignored while the port is not ready, refused past the queue's size, and held behind the BAR4 writes that
the port received before it. -/
def doorbell (s : State) (p : Port) (q tail : Nat) : State :=
  let h := p.harbour
  if !s.rb ⟨.hbPortstat, h, 0⟩ 63 then s
  else if queueSize (s.rf ⟨.hbTqcfg, h, q⟩ 3 0) ≤ tail then s.logErr { portNotice p E.queueConfig with detail := q }
  else if (s.port p).heldWrites.isEmpty then s.ringBell p q tail
  else s.setPort p { s.port p with heldBells := (s.port p).heldBells ++ [(q, tail)] }

/-! ## Streams (R323 to R325) -/

/-- Words enter the queues of an engine on every participating core. -/
def deliverWords (s : State) (t : Task) (e : Nat) (ws : List Nat) : State :=
  s.forAll t.cores fun s g =>
    let s := s.intake ⟨g, t.slot, e⟩ t.id ws
    let s := if (s.taskAt g t.slot).isSome then s.updEng ⟨g, t.slot, e⟩ fun c => c.endOfStream t e else s
    s.tryDone g t.slot

/-- The words of the next block of a stream that lies at a device physical address. -/
def dpaWords (s : State) (t : Task) (e pos n : Nat) : Option (List Nat) :=
  match s.fetch t.partition (mapAddress t.map e + 8 * pos) (8 * n) with
  | .ok bs => some ((chunksOf 8 n bs).map leNat)
  | .error _ => none

/-- One block of a stream is fetched, when every receiving queue has room for it, and a copy goes to each (R324). -/
def fetchBlock (s : State) (core slot e : Nat) (words : Option (List Nat)) : State :=
  match s.taskAt core slot with
  | none => s
  | some t =>
    let pos := (s.eng ⟨core, slot, e⟩).position + (s.eng ⟨core, slot, e⟩).early.length
    let n := min 32 (mapCount t.map e - pos)
    if t.state == 3 || mapExpress t.map e || n == 0 || t.cores.any (fun g => decide (256 < (s.eng ⟨g, slot, e⟩).words + n)) then s
    else match (if mapDpa t.map e then s.dpaWords t e pos n else words) with
      | some ws => s.deliverWords t e ((ws ++ List.replicate n 0).take n)
      | none => s.abortWith t { code := E.streamFetch, severity := 1, kind := 4, unit := t.port.harbour, detail := pos }

/-- A word of an express window that finds no room waits in the harbour (R325). -/
def expressWord (s : State) (p : Port) (x : EngRef) (w : Nat) : State :=
  if (s.port p).heldWords.isEmpty && decide ((s.eng x).words < 256) then
    match s.taskAt x.core x.slot with
    | some t => s.intake x t.id [w]
    | none => s
  else s.setPort p { s.port p with heldWords := (s.port p).heldWords ++ [(x, w)] }

/-- A write to the express windows (R325, R329). -/
def expressWrite (s : State) (p : Port) (offset : Nat) (data : List Byte) : State :=
  let g := offset / 0x20000
  let x : EngRef := ⟨g, offset % 0x20000 / 0x8000, offset % 0x8000 / 0x1000⟩
  let note (code : Nat) : ErrInfo :=
    if g < 384 then { code := code, severity := 0, kind := 1, unit := g, engine := x.eng } else portNotice p code
  if !(s.port p).linkUp then s
  else if offset % 8 ≠ 0 ∨ data.length % 8 ≠ 0 ∨ data.isEmpty ∨ 256 < data.length ∨ 0x1000 < offset % 0x1000 + data.length then s.logErr (note E.nativeInvalid)
  else if !s.enabled g then s.logErr (note E.fusedTarget)
  else if s.standby p || (s.pkg.split && g / 192 != p.shore) then s.logErr (note E.expressClosed)
  else match s.taskAt g x.slot with
    | none => s.logErr (note E.expressClosed)
    | some t =>
      if t.state == 3 || !mapExpress t.map x.eng then s.logErr (note E.expressClosed)
      else ((chunksOf 8 32 data).map leNat).foldl (fun s w => s.expressWord p x w) s

/-! ## The start on a core (R287) -/

/-- Steps 2 and 3 of R287: the window, the seed and the shape registers. -/
def setWindow (s : State) (t : Task) (g : Nat) : State :=
  let s := s.setReg ⟨.cvBase, g, t.slot⟩ (BitVec.ofNat 64 t.cvbase)
  let s := s.setReg ⟨.cvBound, g, t.slot⟩ (BitVec.ofNat 64 (2 ^ 63 + b2n t.retain * 2 ^ 62 + t.cvlimit))
  let s := s.setReg ⟨.pilSrSeed, g, 0⟩ (BitVec.ofNat 64 t.seed)
  s.forAll (List.range 16) fun s i => s.setReg ⟨.pilShape, g, 16 * t.slot + i⟩ (BitVec.ofNat 64 (t.shape i))

/-- Whether step 2 of R287 would move a window of the slot that is still valid, a retained one: such a write is ignored (R143, R144). -/
def windowMoves (s : State) (t : Task) (g : Nat) : Bool :=
  let (b, l, valid) := s.cvWindow g t.slot
  valid && (b != t.cvbase || l != t.cvlimit)

/-- Steps 2 and 3 of R287 with the check of R143: none where the window fails it. -/
def openWindow (s : State) (t : Task) (g : Nat) : State × Bool :=
  if s.windowMoves t g then (s, false)
  else
    let s := s.setWindow t g
    if s.windowOk g t.slot then (s, true) else (s.setRf ⟨.cvBound, g, t.slot⟩ 63 63 0, false)

/-- Steps 2 and 3 on the other cores of a task that ends at step 4, where every core comes to the same outcome (R287, R332, R333): a window that fails there
is logged (log entry 115). -/
def openOthers (s : State) (t : Task) (g : Nat) : State :=
  s.forAll (t.cores.filter fun h => h != g && !t.started.contains h) fun s h =>
    let (s, ok) := s.openWindow t h
    if ok then s else s.logErr (coreError h 7 (some t) E.cvWindow 1 0)

/-- Step 5 of R287: counters, semaphores and the per-slot counts of a slot are cleared, and the operand registers (R318). -/
def clearSlot (s : State) (t : Task) (g : Nat) : State :=
  let s := s.forAll (List.range 64) fun s k => s.setReg (tmReg g t.slot k) 0
  let s := s.forAll (List.range 16) fun s k => s.setReg (semReg g t.slot k) 0
  let s := s.forAll (List.range 8) fun s e => s.setReg ⟨.pilHscount, g, 4 * e + t.slot⟩ 0
  let s := (((s.setReg ⟨.pilOob, g, t.slot⟩ 0).setReg ⟨.pkCount, g, t.slot⟩ 0).setReg ⟨.slCount, g, t.slot⟩ 0).setReg ⟨.esCount, g, t.slot⟩ 0
  s.forAll (List.range 8) fun s e => s.updEng ⟨g, t.slot, e⟩ fun c => { c with params := [0, 0, 0, 0] }

/-- Step 6 of R287: the first rule that an entry of the loop-nest table breaks (R285, R299, R305). -/
def nestFault (s : State) (t : Task) : Option Fail :=
  match s.fetch t.partition t.nesttable (128 * t.nests) with
  | .error f => some f
  | .ok bs =>
    ((chunksOf 128 t.nests bs).findSome? fun e =>
      if !nestOk e then some { code := E.nestInvalid }
      else
        let lv := ((nestOf e).level.take (nestOf e).levels).filter (·.runtime)
        if lv.any (fun v => t.plan v.reg == 0) then some { code := E.launchInvalid }
        else (lv.find? fun v => v.bound < t.shape v.reg).map fun v => { code := E.shapeExceedsPlan, detail := v.reg * 2 ^ 32 + t.shape v.reg })

/-- The generators of a core at a task's start (R76), and the tolerance that each array latches for the task (R13, R205, R356). -/
def loadArrays (s : State) (t : Task) (g : Nat) : State :=
  let seed (v : BitVec 64) : BitVec 64 := if v == 0 then 1 else v
  s.forAll [0, 1] fun s a =>
    (s.setArray g a { s.array g a with gen := seed (BitVec.ofNat 64 t.seed ^^^ (if a == 0 then 0 else 0x9E3779B97F4A7C15)), drawn := 4 }).updEng
      ⟨g, t.slot, a⟩ fun c => { c with cfg := (s.reg ⟨.maCfg, g, a⟩).toNat }

/-- What a task's start on an engine clears in the engine's status (R179, R205, R224, R229, R249, R260). -/
def clearFaults (s : State) (g e : Nat) : State :=
  match e with
  | 0 | 1 => ((s.setRf ⟨.maCheck, g, e⟩ 63 63 0).setRf ⟨.ebStatus, g, e⟩ 62 60 0).setRf ⟨.ebStatus, g, e⟩ 31 0 0
  | 2 => s.setRf ⟨.slFault, g, 0⟩ 63 63 0
  | 3 => s.setRf ⟨.esFault, g, 0⟩ 63 63 0
  | 4 => s.setRf ⟨.pkStatus, g, 0⟩ 62 62 0
  | 5 => s.setRf ⟨.seFault, g, 0⟩ 63 63 0
  | 6 => s.setRf ⟨.seFault, g, 1⟩ 63 63 0
  | _ => s

/-- Step 7 of R287: the task is RUNNING on the core; engines whose sequence is empty have retired END (R283), and the faults of the engines
are cleared. -/
def release (s : State) (t : Task) (g : Nat) : State :=
  let s := s.updTask t.id fun t => { t with state := 2, started := t.started ++ [g] }
  let s := s.forAll (List.range 8) fun s e =>
    if mapCount t.map e == 0 && !mapExpress t.map e then s.updEng ⟨g, t.slot, e⟩ fun c => { c with ended := true } else s
  let s := s.forAll (List.range 8) fun s e => s.clearFaults g e
  let s := if !t.started.isEmpty then s else s.forAll t.cores fun s g => s.forAll (List.range 8) fun s e =>
    let s := s.decodeEarly ⟨g, t.slot, e⟩ t.id
    if (s.taskAt g t.slot).isSome then s.updEng ⟨g, t.slot, e⟩ fun c => c.endOfStream t e else s
  (s.loadArrays t g).tryDone g t.slot

/-- A launch fault: the Pilot reports it, and the task aborts before anything issues (R285). -/
def launchFail (s : State) (t : Task) (g : Nat) (f : Fail) : State := s.failTask t g 7 f

/-- The Pilot of a core starts a task (R287, R332, R333). -/
def startTask (s : State) (t : Task) (g : Nat) : State :=
  match s.fetch t.partition (t.launchAt) 256 with
  | .error f => s.launchFail t g f
  | .ok rec =>
    let t := { t with launch := rec, skip := if t.started.isEmpty then s.rb ⟨.lhIntake, 0, 0⟩ t.partition else t.skip }
    let s := s.updTask t.id fun u => { u with launch := rec, skip := t.skip }
    if t.debug && (s.session t.partition).state != 0 then s.launchFail t g { code := E.debugInSession }
    else if s.recordBad t then s.launchFail t g { code := E.launchInvalid }
    else
      let s := if t.debug && t.started.isEmpty then s.setTrust { s.trust with debugTasks := s.trust.debugTasks + 1 } else s
      let (s, ok) := s.openWindow t g
      if !ok then s.launchFail t g { code := E.cvWindow }
      else
        let used := (List.range 16).filter fun i => t.plan i != 0
        match used.find? fun i => t.plan i < t.shape i with
        | some i => (s.openOthers t g).launchFail t g { code := E.shapeExceedsPlan, detail := i * 2 ^ 32 + t.shape i }
        | none =>
          if used.any (fun i => t.shape i == 0) then (s.openOthers t g).finish t 6
          else
            let s := s.clearSlot t g
            match s.nestFault t with
            | some f => s.launchFail t g f
            | none => s.release t g

/-! ## Truncation and drains -/

/-- The report of R335: each participating core's 128 bytes. -/
def reportBytes (s : State) (t : Task) (g : Nat) : List Byte :=
  ((List.range 8).map fun e => leBytes 8 ((s.eng ⟨g, t.slot, e⟩).retired % 2 ^ 48 + b2n (s.eng ⟨g, t.slot, e⟩).abandoned * 2 ^ 63)).flatten ++
  leBytes 8 ((s.array g 0).liveBits + (s.array g 1).liveBits * 2 ^ 16) ++ zeros 56

/-- A write through steps 5 to 8 of R122, in pieces that no page boundary cuts. -/
def putPieces (s : State) (p : Nat) : Nat → Nat → List Byte → Except Fail State
  | 0, _, _ => .ok s
  | k + 1, a, bs =>
    if bs.isEmpty then .ok s
    else
      let m := min bs.length (256 - a % 256)
      match s.translate p false true a with
      | .error c => .error { code := c, addr := a }
      | .ok (phys, ep) =>
        match s.writeFault phys m with
        | some c => .error { code := c, addr := a }
        | none => (s.writeBytes p ep phys (bs.take m)).putPieces p k (a + m) (bs.drop m)

def putTable (s : State) (p a : Nat) (bs : List Byte) : Except Fail State := s.putPieces p (bs.length / 256 + 2) a bs

/-- The report and, in debug mode, the dump of one core (R335). -/
def writeReport (s : State) (t : Task) (g : Nat) : Except Fail State :=
  let r := if mapReport t.map == 0 then .ok s else s.putTable t.partition (mapReport t.map + 128 * g) (s.reportBytes t g)
  if !t.debug || s.trust.lockClosed then r
  else
    match r with
    | .error f => .error f
    | .ok s =>
      let one (s : State) (a : Nat) : Except Fail State :=
        let (bs, s) := s.imageBytes (s.array g a) 0 imageWords
        s.putTable t.partition (mapDump t.map + (2 * g + a) * 0x44000) bs
      match one s 0 with
      | .error f => .error f
      | .ok s => one s 1

/-- The reports of every core; a failed one makes the task ABORTED with its error. -/
def writeReports (s : State) (t : Task) : State :=
  s.forAll t.cores fun s g =>
    match s.writeReport t g with
    | .ok s => s
    | .error f => s.failTask t g 7 f

/-- The end of a drain (R178, R334): the task becomes ABORTED, or DONE when it drained for its truncation point alone. -/
def endDrain (s : State) (t : Task) : State :=
  let s := if t.truncated then s.writeReports t else s
  match s.taskId t.id with
  | some t => s.finish t (if t.aborting then 5 else 4)
  | none => s

/-- A truncation point is reached (R334): every engine of the task stops, and the task drains. -/
def truncateTask (s : State) (t : Task) : State :=
  let s := s.updTask t.id fun t => { t with state := 3, truncated := true }
  (s.updEngines t EngCtx.truncate).stopLists t

/-! ## Completion queues -/

/-- A write of HB_CQCFGq (R397): enabling sets the tail to 0 and the phase to 1. -/
def writeCqcfg (s : State) (by' : Agent) (h q : Nat) (v : Word) : State :=
  let s := s.store by' ⟨.hbCqcfg, h, q⟩ v
  if wbit v 63 then (s.setRf ⟨.hbCqstat, h, q⟩ 15 0 0).setRf ⟨.hbCqstat, h, q⟩ 62 62 1 else s

end State

/-! ## The commands -/

/-- TASK_QUEUE_DOORBELL (R389): a write of HB_TQDBq. -/
def execTaskQueueDoorbell (port : Port) (q tail : Nat) (s : State) : Host.Outcome State Fault Refusal :=
  .next (s.access (.host port) true ⟨.hbTqdb, port.harbour, q⟩ fun s => s.doorbell port q tail)

/-- TASK_QUEUE_ENTRY (R392): the harbour looks at the head of a task queue. -/
def execTaskQueueEntry (port : Port) (q : Nat) (fetch : Option QueueFetch) (s : State) : Host.Outcome State Fault Refusal :=
  .next (
    if !s.queueServed port q then s
    else match fetch with
      | none => s.queueFetchFault port q
      | some f => s.takeEntry port q f.entry f.map)

/-- STREAM_BLOCK_FETCH (R324). -/
def execStreamBlockFetch (core slot eng : Nat) (words : Option (List Nat)) (s : State) : Host.Outcome State Fault Refusal :=
  .next (s.fetchBlock core slot eng words)

/-- EXPRESS_WRITE (R325). -/
def execExpressWrite (port : Port) (offset : Nat) (data : List Byte) (s : State) : Host.Outcome State Fault Refusal :=
  .next (s.expressWrite port offset data)

/-- TASK_START (R287): the Pilot of a core starts the task of a slot, once its partition is FLOWING, no core of the task is fenced, and none
waits for a scrub (R145, R348, R454). -/
def execTaskStart (core slot : Nat) (s : State) : Host.Outcome State Fault Refusal :=
  .next (
    match s.taskAt core slot with
    | none => s
    | some t =>
      if t.started.contains core || t.state == 3 || s.pkg.halted then s
      else if t.state == 1 && (s.strataState t.partition != 0 || t.cores.any (s.fenced 1) || t.cores.any fun g => s.ownerOf (coveBase g) != t.partition) then s
      else (s.startTask t core).admitHeld)

/-- DRAIN_END (R178): the task of a slot has nothing in flight any more. -/
def execDrainEnd (core slot : Nat) (s : State) : Host.Outcome State Fault Refusal :=
  .next (
    match s.taskAt core slot with
    | none => s
    | some t => if t.state == 3 && s.drained t then (s.endDrain t).admitHeld else s)

/-- TRUNCATION_POINT (R334): the engine that the launch record names has retired its count of words on this core. -/
def execTruncationPoint (core slot : Nat) (s : State) : Host.Outcome State Fault Refusal :=
  .next (
    match s.taskAt core slot with
    | none => s
    | some t =>
      if t.state == 2 && t.started.contains core && s.atTruncation ⟨core, slot, t.truncEngine⟩ t then s.truncateTask t
      else s)

/-- HELD_COMPLETION_WRITE (R395): the oldest held entry of a queue is written when the queue can take it. -/
def execHeldCompletionWrite (port : Port) (q : Nat) (s : State) : Host.Outcome State Fault Refusal :=
  .next (
    match (s.port port).held.find? fun h => h.1 == q with
    | none => s
    | some h =>
      if s.cqOpen port q then
        ((s.setPort port { s.port port with held := (s.port port).held.erase h }).writeEntry port q h.2).fireCq port q
      else s)

/-- CQ_ENABLE (R397): a write of HB_CQCFGq. -/
def execCqEnable (port : Port) (q value : Nat) (s : State) : Host.Outcome State Fault Refusal :=
  .next (s.access (.host port) true ⟨.hbCqcfg, port.harbour, q⟩ fun s => s.writeCqcfg (.host port) port.harbour q (BitVec.ofNat 64 value))

end Sys2Proof.Machine
end

