-- ==== Sys2Proof/Machine/Strata.lean ====
section
/-! DEFINITION. Strata images and phases (R336 to R357): the image format and its check pass, slack water, loading, abandonment and
the reload of a section by a recovery. -/

namespace Sys2Proof.Machine

/-- A section of an image (R339): its index, kind, die, core, payload, and whether its crc matches. -/
structure Section where
  index : Nat
  kind : Nat
  die : Nat
  core : Nat
  payload : List Byte
  crcOk : Bool
  deriving DecidableEq, Repr

/-- Why a check fails: the code and the section's index (R346). -/
structure LoadFault where
  code : Nat
  sect : Nat
  deriving DecidableEq, Repr

/-! ## The format (R338 to R344) -/

/-- The sections of an image from an offset on; a header or payload past the end of the image is a fault of format. -/
def sectionsFrom (img : List Byte) : Nat → Nat → Nat → Except LoadFault (List Section × Nat)
  | 0, _, off => .ok ([], off)
  | n + 1, k, off =>
    let h := roundUp off 16
    let plen := fieldAt img (h + 4) 4
    if img.length < h + 16 ∨ img.length < h + 16 + plen ∨ ((img.drop off).take (h - off)).any (· != 0) then .error ⟨E.strataFormat, k⟩
    else
      let hd := (img.drop h).take 16
      let p := (img.drop (h + 16)).take plen
      let s : Section := ⟨k, fieldAt hd 0 1, fieldAt hd 1 1, fieldAt hd 2 1, p, crc32c (hd.take 12 ++ p) == fieldAt hd 12 4⟩
      if !s.crcOk then .error ⟨E.strataCrc, k⟩
      else if fieldAt hd 3 1 ≠ 0 ∨ fieldAt hd 8 4 ≠ 0 then .error ⟨E.strataFormat, k⟩
      else match sectionsFrom img n (k + 1) (h + 16 + plen) with
        | .error e => .error e
        | .ok (r, last) => .ok (s :: r, last)

/-- The place of a section's target in the order of R339. -/
def Section.order (s : Section) : Nat := (s.kind * 256 + s.die) * 256 + s.core

/-- The registers of a core section with their payload offsets (R341). -/
def coreImage : List (RegName × Nat × Nat) :=
  ((List.range 72).map fun n => (RegName.rpCfg, n, 8 * n)) ++ ((List.range 2).map fun n => (RegName.ebCfg, n, 0x240 + 8 * n)) ++
  ((List.range 16).map fun n => (RegName.ebOp, n, 0x250 + 8 * n)) ++ ((List.range 16).map fun n => (RegName.ebImm, n, 0x2D0 + 8 * n)) ++
  ((List.range 2).map fun n => (RegName.maCfg, n, 0x350 + 8 * n)) ++ ([(.slCfg, 0, 0x360), (.esCfg, 0, 0x368), (.esOut, 0, 0x370)] : List (RegName × Nat × Nat)) ++
  ((List.range 2).map fun n => (RegName.seGroyne, n, 0x378 + 8 * n)) ++ ((List.range 8).map fun n => (RegName.chCfg, n, 0x388 + 8 * n))

/-- Whether a register image has a reserved bit set (R341). -/
def reservedSet (n : RegName) (v : Nat) : Bool :=
  v != n.info.fields.foldl (fun a f => a + fld v f.hi f.lo * 2 ^ f.lo) 0

/-- Whether the enabled rings of a core section pass R131. -/
def ringsOk (p : List Byte) : Bool :=
  let w (n : Nat) := fieldAt p (8 * n) 8
  let base (v : Nat) := fld v 9 0
  let units (v : Nat) := (fld v 47 44 + 1) * fld v 26 16
  (List.range 72).all fun n =>
    !bitOf (w n) 63 || (decide (2 ≤ fld (w n) 47 44) && decide (base (w n) + units (w n) ≤ 1024) &&
      (List.range 8).all fun k =>
        let m := 8 * (n / 8) + k
        m == n || !bitOf (w m) 63 || decide (base (w m) + units (w m) ≤ base (w n)) || decide (base (w n) + units (w n) ≤ base (w m)))

/-- The rules of format on a core section's payload (R341, R346). -/
def coreSectionOk (p : List Byte) : Bool :=
  let groyne (v : Nat) := fld v 11 8 + fld v 7 4 + fld v 3 0
  p.length == 968 && coreImage.all (fun r => !reservedSet r.1 (fieldAt p r.2.2 8)) && ringsOk p
  && groyne (fieldAt p 0x378 8) == 8 && groyne (fieldAt p 0x380 8) == 8
  && (List.range 8).all (fun n => !bitOf (fieldAt p (0x388 + 8 * n) 8) 1)

/-- The rules of format on a die section's payload (R342, R346). -/
def dieSectionOk (enabled : Nat → Bool) (d : Nat) (p : List Byte) : Bool :=
  let held := ((List.range 32).filter fun c => enabled (32 * d + c)).map (Config.meshPosition d)
  p.length == 64 && !reservedSet .dspCfg (fieldAt p 0 8) && !reservedSet .dspTailNnz (fieldAt p 8 8)
  && (List.range 36).all (fun k => decide (fieldAt p (0x10 + k) 1 < 2) && (held.contains k || fieldAt p (0x10 + k) 1 == 0))
  && fieldAt p 0x34 4 == 0 && fieldAt p 0x38 8 / 2 ^ 24 == 0

/-- The entries of a shard map section's payload, or none where it breaks R343. -/
def shardEntries (p : List Byte) : Option (List (List Byte)) :=
  let n := fieldAt p 0 2
  let entry (i : Nat) : Option (List Byte) :=
    let off := fieldAt p (8 + 4 * i) 4
    let e := p.drop off
    let m := fieldAt e 2 2
    let kind := fieldAt e 0 1
    let limit := if kind == 0 then 384 else if kind == 1 then 12 else 2
    if off % 16 != 0 || decide (off < 8 + 4 * n) || decide (p.length < off + 64 + 16 * m) || decide (2 < kind) || m == 0 || decide (384 < m) || fieldAt e 1 1 != 0
        || fieldAt e 4 4 != 0 || fieldAt e 56 8 != 0 || (List.range 8).any (fun k => fieldAt e (8 + 2 * k) 2 == 0)
        || decide (m < (List.range 8).foldl (fun a k => a * fieldAt e (8 + 2 * k) 2) 1)
        || (List.range m).any (fun j => decide (limit ≤ fieldAt e (64 + 16 * j) 2) || fieldAt e (66 + 16 * j) 6 != 0 || fieldAt e (72 + 16 * j) 8 / 2 ^ 52 != 0)
    then none else some (e.take (64 + 16 * m))
  if p.length < 8 ∨ 255 < n ∨ fieldAt p 2 6 ≠ 0 ∨ p.length < 8 + 4 * n then none else (List.range n).mapM entry

/-- The most credits that the pools of all partitions may hold at a target (R344). -/
def poolLimit (t : Nat) : Nat := if t < 12 then 65536 else if t < 20 then 4096 else 8192

/-- The pool sizes of a pool section (R344). -/
def poolSizes (p : List Byte) : List Nat := (List.range 24).map fun t => fieldAt p (4 * t) 4

namespace State

/-- Whether the partition has a loaded image. -/
def imageLoaded (s : State) (p : Nat) : Bool := s.rb ⟨.lhStrataStatus, 0, p⟩ 60

/-- The dies of a partition, as a mask (R338). -/
def dieMask (s : State) (p : Nat) : Nat := (List.range 12).foldl (fun v d => if s.dieOwner d == p then v + 2 ^ d else v) 0

/-- The credits that another partition's loaded image holds at a target, or will hold once a load that has passed its check is written, whichever is more
(R344, R350). -/
def poolShare (s : State) (q t : Nat) : Nat :=
  let now := if s.imageLoaded q then (s.pool q t).size else 0
  match (s.phase q).loading with
  | none => now
  | some img =>
    match sectionsFrom img (fieldAt img 6 2) 0 64 with
    | .ok (xs, _) => max now ((((xs.find? fun x => x.kind == 4).map fun x => poolSizes x.payload).getD []).getD t 0)
    | .error _ => now

/-- The first fault of a section's contents and target (R346). -/
def sectionFault (s : State) (p : Nat) (x : Section) : Option LoadFault :=
  let bad (c : Nat) : Option LoadFault := some ⟨c, x.index⟩
  match x.kind with
  | 1 =>
    if !coreSectionOk x.payload then bad E.strataFormat
    else if 12 ≤ x.die ∨ 32 ≤ x.core ∨ s.dieOwner x.die ≠ p ∨ !s.enabled (32 * x.die + x.core) then bad E.strataTarget
    else none
  | 2 =>
    if x.core != 0xFF || !dieSectionOk s.enabled x.die x.payload then bad E.strataFormat
    else if decide (12 ≤ x.die) || s.dieOwner x.die != p || (List.range 32).any (fun c => bitOf (fieldAt x.payload 0 8) c && !s.enabled (32 * x.die + c)) then bad E.strataTarget
    else none
  | 3 => if x.die != 0xFF || x.core != 0xFF || (shardEntries x.payload).isNone then bad E.strataFormat else none
  | 4 =>
    let z := poolSizes x.payload
    let others (t : Nat) := (((List.range 8).filter (· != p)).map fun q => s.poolShare q t).sum
    if x.die != 0xFF || x.core != 0xFF || x.payload.length != 96 then bad E.strataFormat
    else if (List.range 24).any fun t => decide (poolLimit t < others t + z.getD t 0) then bad E.strataFormat
    else match s.quotaLimit p 2 with
      | some l => if l < z.sum then bad E.quotaRefused else none
      | none => none
  | _ => bad E.strataFormat

/-- The first section that is out of order or repeated (R339). -/
def orderFault : List Section → Option LoadFault
  | a :: b :: t => if b.order ≤ a.order then some ⟨E.strataFormat, b.index⟩ else orderFault (b :: t)
  | _ => none

/-- Whether the bytes of a range lie in tower pages that a partition owns, and can be read (R338, R346). -/
def ownTower (s : State) (p a n : Nat) : Bool :=
  (List.range ((a + n - 1) / 0x200000 + 1 - a / 0x200000)).all (fun k =>
    let page := a / 0x200000 + k
    s.ownerOf (page * 0x200000) == p && (match placeOf (page * 0x200000) with | .tower _ _ => true | _ => false))
  && !s.poisoned a n

/-- The check pass (R346): the image's bytes and sections. The image's address is physical (log entry 21). -/
def checkImage (s : State) (p a : Nat) : Except LoadFault (List Byte × List Section) :=
  if !s.ownTower p a 64 then .error ⟨E.strataTarget, 0⟩
  else
    let h := s.bytes a 64
    let len := fieldAt h 8 4
    if crc32c (h.take 60) ≠ fieldAt h 60 4 then .error ⟨E.strataCrc, 0⟩
    else if fieldAt h 0 4 ≠ 0x41525453 ∨ fieldAt h 4 2 ≠ 1 ∨ 420 < fieldAt h 6 2 ∨ 0x400000 < len ∨ len < 64 ∨ fld (fieldAt h 12 1) 7 3 ≠ 0 ∨ fieldAt h 13 3 ≠ 0
        ∨ fieldAt h 16 8 = 0 ∨ fld (fieldAt h 24 2) 15 12 ≠ 0 ∨ fieldAt h 26 34 ≠ 0 then .error ⟨E.strataFormat, 0⟩
    else if fieldAt h 12 1 % 8 ≠ p ∨ fieldAt h 24 2 ≠ s.dieMask p then .error ⟨E.strataTarget, 0⟩
    else if !s.ownTower p a len then .error ⟨E.strataTarget, 0⟩
    else
      let img := s.bytes a len
      match sectionsFrom img (fieldAt h 6 2) 0 64 with
      | .error e => .error e
      | .ok (xs, last) =>
        match orderFault xs with
        | some e => .error e
        | none =>
          match xs.findSome? (s.sectionFault p) with
          | some e => .error e
          | none => if last ≠ len then .error ⟨E.strataFormat, fieldAt h 6 2⟩ else .ok (img, xs)

/-! ## The session log (R422) -/

/-- Append an entry to a partition's session log, and chain it. -/
def sessionEntry (s : State) (p kind count identity : Nat) (digest : List Byte) : State :=
  let v := s.session p
  if 1024 ≤ v.log.length then s
  else
    let e := leBytes 2 kind ++ leBytes 2 v.log.length ++ leBytes 4 count ++ leBytes 8 identity ++ digest
    s.setSession p { v with log := v.log ++ [e], chain := sha256 (v.chain ++ e) }

/-- A change that the Sounding summary counts (R461). -/
def newGeneration (s : State) : State := s.setLh { s.lh with generation := s.lh.generation + 1 }

/-! ## Writing a target (R345, R352) -/

/-- The registers of a core that an image sets, from a section or at their reset values (R345). -/
def setCore (s : State) (g : Nat) (payload : Option (List Byte)) : State :=
  coreImage.foldl (fun s r =>
    s.setReg ⟨r.1, g, r.2.1⟩ (match payload with
      | some p => BitVec.ofNat 64 (fieldAt p r.2.2 8)
      | none => RegId.resetWord ⟨r.1, g, r.2.1⟩)) s

/-- What a load clears on a target core beside its fields: rings, live and resident bits, channel contents (R352). -/
def flushCore (s : State) (g : Nat) : State :=
  let s := s.setRings (s.rings.filter fun r => r.1.1 != g)
  let s := s.forAll [0, 1] fun s a => s.setArray g a (s.array g a).cleared
  s.forAll (List.range 8) fun s n => s.setChan g n { s.chan g n with words := [] }

/-- The registers, routes and port select of a die (R342, R345). -/
def loadDie (s : State) (p d : Nat) (payload : Option (List Byte)) : State :=
  let s := s.setReg ⟨.dspCfg, d, 0⟩ (match payload with | some b => BitVec.ofNat 64 (fieldAt b 0 8) | none => RegId.resetWord ⟨.dspCfg, d, 0⟩)
  let s := s.setReg ⟨.dspTailNnz, d, 0⟩ (match payload with | some b => BitVec.ofNat 64 (fieldAt b 8 8) | none => RegId.resetWord ⟨.dspTailNnz, d, 0⟩)
  s.setPhase p { s.phase p with routes := Tab.put id [] (s.phase p).routes d (match payload with | some b => b.drop 0x10 | none => []) }

/-- The pools of a partition at the sizes of a section, each reset; what waited for credit is served (R344, R361, R364). -/
def loadPools (s : State) (p : Nat) (sizes : List Nat) : State :=
  s.forAll (List.range 24) fun s t => (s.setPool p t { s.pool p t with size := sizes.getD t 0 }).resetPool p t

/-- The payload of a section for a target. -/
def payloadFor (xs : List Section) (kind die core : Nat) : Option (List Byte) :=
  (xs.find? fun x => x.kind == kind && x.die == die && x.core == core).map (·.payload)

/-- A core's registers are set and what a load clears there is cleared (R345, R352). -/
def loadCore (s : State) (g : Nat) (payload : Option (List Byte)) : State := (s.setCore g payload).flushCore g

/-- Every field that an image sets, in every target of a partition, from the sections or at its reset value (R345). -/
def writeTargets (s : State) (p : Nat) (xs : List Section) : State :=
  let shard := match payloadFor xs 3 0xFF 0xFF with
    | some b => (shardEntries b).getD []
    | none => []
  let s := s.setPhase p { s.phase p with shardMap := shard }
  let s := s.loadPools p (match payloadFor xs 4 0xFF 0xFF with | some b => poolSizes b | none => [])
  s.forAll ((List.range 12).filter fun d => s.dieOwner d == p) fun s d =>
    let s := s.loadDie p d (payloadFor xs 2 d 0xFF)
    s.forAll ((List.range 32).filter fun c => s.enabled (32 * d + c)) fun s c => s.setCore (32 * d + c) (payloadFor xs 1 d c)

/-! ## States of a phase (R347, R348) -/

/-- The register fields of a partition's phase. -/
def strataReg (p : Nat) : RegId := ⟨.lhStrataStatus, 0, p⟩

/-- The sealed entries of an epoch in a partition's CXL page table (R433), counted by their highest bytes: valid, sealed and epoch are bits 63, 59
and 58. -/
def oldPages (s : State) (p epoch : Nat) : Nat :=
  let base := s.reg ⟨.lhPtbase, 0, 3 * p + 1⟩
  let a := wfld base 51 12 * 4096
  if !wbit base 0 then 0
  else (s.mem.filter fun c => decide (a ≤ c.1) && decide (c.1 < a + 0x4000000) && (c.1 - a) % 8 == 7 &&
    bitOf c.2.toNat 7 && bitOf c.2.toNat 3 && fld c.2.toNat 2 2 == epoch).length

/-- A partition's phase changes state; at every entry to SLACK a rotation scans the CXL page table again (R433). -/
def setStrata (s : State) (p v : Nat) : State :=
  let s := s.setRf (strataReg p) 63 62 v
  let w := s.session p
  if v == 2 && w.rotating then s.setRf ⟨.lhSealstat, 0, p⟩ 23 0 (s.oldPages p (1 - w.epoch)) else s

/-- Whether nothing of a partition moves: the conditions of SLACK (R348). -/
def atRest (s : State) (p : Nat) : Bool :=
  !(s.tasks.any fun t => t.partition == p && (t.state == 2 || t.state == 3))
  && s.pools.all (fun e => e.1.1 != p || e.2.avail == e.2.size)
  && (List.range 12).all (fun d => s.dieOwner d != p || !(s.disp d).running)

/-- A partition that is EBBING enters SLACK once it is at rest (R348). -/
def trySlack (s : State) (p : Nat) : State := if s.strataState p == 1 && s.atRest p then s.setStrata p 2 else s

/-- A write of LH_STRATA_CTLp.hold (R347, R348). -/
def writeHold (s : State) (p : Nat) (hold : Bool) : State :=
  let s := s.setRf ⟨.lhStrataCtl, 0, p⟩ 62 62 (b2n hold)
  let v := s.strataState p
  if v == 3 then s.setPhase p { s.phase p with dropHold := !hold }
  else if hold && v == 0 then s.setStrata p 1
  else if !hold && (v == 1 || v == 2) then s.setStrata p 0
  else s

/-- A load fails or is refused with a code (R346, R350). -/
def loadResult (s : State) (p code index : Nat) : State :=
  (s.setRf (strataReg p) 47 32 code).logErr { code := code, severity := 0, kind := 9, partition := some p, detail := index }

/-- A load starts (R350, R351 steps 1 to 3). While an interface is locked or running R426 refuses every host write of LH_STRATA_CTLp, so a load within a
session can start in ERROR alone; the session log takes its entry in every state but CONFIG_UNLOCKED (DEDUCED, log entry 62). -/
def startLoad (s : State) (p : Nat) : State :=
  if s.strataState p ≠ 2 then s.loadResult p E.notSlack 0
  else
    let a := s.rf ⟨.lhStrataAddr, 0, p⟩ 51 12 * 4096
    match s.checkImage p a with
    | .error f => s.loadResult p f.code f.sect
    | .ok (img, _) =>
      let session := (s.session p).state != 0
      if session && decide (1016 ≤ (s.session p).log.length) then s.loadResult p E.attlogFull 0
      else
        let s := if session then s.sessionEntry p 2 0 (fieldAt img 16 8) (sha256 img) else s
        (s.setStrata p 3).setPhase p { s.phase p with loading := some img, loadAt := a, dropHold := false }

/-- The state after a load ends (R348). -/
def endLoading (s : State) (p : Nat) : State :=
  let v := s.phase p
  (s.setStrata p (if v.dropHold then 0 else 2)).setPhase p { v with loading := none, loadAt := 0, dropHold := false }

/-- A load completes (R351 steps 4 to 6). -/
def finishLoad (s : State) (p : Nat) : State :=
  match (s.phase p).loading with
  | none => s
  | some img =>
    match sectionsFrom img (fieldAt img 6 2) 0 64 with
    | .error _ => s
    | .ok (xs, _) =>
      let s := s.writeTargets p xs
      let s := s.forAll ((List.range 12).filter fun d => s.dieOwner d == p) fun s d =>
        s.forAll ((List.range 32).filter fun c => s.enabled (32 * d + c)) fun s c => s.flushCore (32 * d + c)
      let s := s.setPhase p { s.phase p with image := img, imageAt := (s.phase p).loadAt }
      let s := s.setReg ⟨.lhStrataId, 0, p⟩ (BitVec.ofNat 64 (fieldAt img 16 8))
      let s := ((s.setRf (strataReg p) 60 60 1).setRf (strataReg p) 61 61 0).setRf (strataReg p) 47 32 0
      ((s.addRf (strataReg p) 31 0 1).newGeneration).endLoading p

/-- Every field that an image of a partition sets takes its reset value (R345). -/
def unloadImage (s : State) (p : Nat) : State :=
  let s := s.writeTargets p []
  let s := s.setPhase p { s.phase p with image := [] }
  ((s.setReg ⟨.lhStrataId, 0, p⟩ 0).setRf (strataReg p) 60 60 0).newGeneration

/-- A load that a CLAIM or a recovery interrupts is abandoned (R347, R353). -/
def abandonLoad (s : State) (p : Nat) (cause : Option Nat) : State :=
  if s.strataState p ≠ 3 then s
  else
    let s := (s.unloadImage p).setRf (strataReg p) 47 32 E.strataAbandoned
    (s.logErr { code := E.strataAbandoned, severity := 0, kind := 9, partition := some p, cause := cause }).endLoading p

/-- Where the sections of a loaded image lie (R339): kind, die, core, offset of the header, payload bytes. -/
def sectionPlaces (img : List Byte) : Nat → Nat → List (Nat × Nat × Nat × Nat × Nat)
  | 0, _ => []
  | n + 1, off =>
    let h := roundUp off 16
    let plen := fieldAt img (h + 4) 4
    (fieldAt img h 1, fieldAt img (h + 1) 1, fieldAt img (h + 2) 1, h, plen) :: sectionPlaces img n (h + 16 + plen)

/-- The payload of a section that a recovery reloads from the loaded image in memory (R354): none where the image has none for the target, or
where its crc no longer matches, which is logged. -/
def reloadFrom (s : State) (p kind die core cause : Nat) : Option (List Byte) × State :=
  let v := s.phase p
  match (sectionPlaces v.image (fieldAt v.image 6 2) 64).zipIdx.find? fun x => x.1.1 == kind && x.1.2.1 == die && x.1.2.2.1 == core with
  | none => (none, s)
  | some (x, k) =>
    let bs := s.bytes (v.imageAt + x.2.2.2.1) (16 + x.2.2.2.2)
    if crc32c (bs.take 12 ++ bs.drop 16) == fieldAt bs 12 4 && !s.poisoned (v.imageAt + x.2.2.2.1) bs.length then (some (bs.drop 16), s)
    else (none, (s.logErr { code := E.strataCrc, severity := 0, kind := 9, partition := some p, cause := some cause, detail := k }).setRf (strataReg p) 61 61 1)

/-- A core's section is reloaded (R354). -/
def reloadCore (s : State) (g cause : Nat) : State :=
  let p := s.dieOwner (g / 32)
  if 8 ≤ p then s.loadCore g none
  else
    let (b, s) := s.reloadFrom p 1 (g / 32) (g % 32) cause
    s.loadCore g b

/-- A die's section and its cores' sections are reloaded (R354). -/
def reloadDie (s : State) (d cause : Nat) : State :=
  let p := s.dieOwner d
  if 8 ≤ p then s
  else
    let (b, s) := s.reloadFrom p 2 d 0xFF cause
    (s.loadDie p d b).forAll ((List.range 32).filter fun c => s.enabled (32 * d + c)) fun s c => s.reloadCore (32 * d + c) cause

/-- The package sections of a partition are reloaded (R354): the shard map, and the pools of the targets that a recovery encloses, each reset at
its present size (R364, R469). -/
def reloadPackage (s : State) (p : Nat) (targets : List Nat) (cause : Nat) : State :=
  let (m, s) := s.reloadFrom p 3 0xFF 0xFF cause
  let s := s.setPhase p { s.phase p with shardMap := match m with | some b => (shardEntries b).getD [] | none => [] }
  let (z, s) := s.reloadFrom p 4 0xFF 0xFF cause
  s.forAll targets fun s t => (if z.isNone then s.setPool p t { s.pool p t with size := 0 } else s).resetPool p t

end State

/-! ## The commands -/

/-- STRATA_LOAD (R350): a write of 1 to LH_STRATA_CTLp.load. -/
def execStrataLoad (port : Port) (p : Nat) (s : State) : Host.Outcome State Fault Refusal :=
  .next (s.access (.host port) true ⟨.lhStrataCtl, 0, p⟩ fun s => s.startLoad p)

/-- STRATA_LOAD_DONE (R351): the load writes its targets and completes. -/
def execStrataLoadDone (p : Nat) (s : State) : Host.Outcome State Fault Refusal := .next (s.finishLoad p)

/-- STRATA_HOLD (R348): a write of LH_STRATA_CTLp.hold. -/
def execStrataHold (port : Port) (p : Nat) (hold : Bool) (s : State) : Host.Outcome State Fault Refusal :=
  .next (s.access (.host port) true ⟨.lhStrataCtl, 0, p⟩ fun s => s.writeHold p hold)

end Sys2Proof.Machine
end

