-- ==== Sys2Proof/Machine/Session.lean ====
section
/-! DEFINITION. Sessions, session keys and scrubs (R412, R422 to R439), and how a Bangeby link and a CXL port go down (R376, R408). -/

namespace Sys2Proof.Machine
namespace State

/-! ## Aborts from outside the cores -/

/-- A task aborts for an error that an entry of the log names (R394, R447): its code, the core that the completion entry names, and the entry's
sequence number. -/
def abortFor (s : State) (t : Task) (code core seq : Nat) : State := (s.noteError t.id code core seq).abortTask t.id

/-- Every task that is QUEUED, RUNNING or DRAINING and meets a condition aborts for an error. -/
def abortTasks (s : State) (f : Task → Bool) (code core seq : Nat) : State :=
  ((s.tasks.filter fun t => t.active && f t).foldl (fun s t => s.abortFor t code core seq) s).admitHeld

/-! ## Keys (R430, R431) -/

/-- A key drawn from the random source: its number; none after a failed health test. -/
def drawKey (s : State) : Option Nat × State :=
  if s.trust.entropyOk then (some (s.trust.draws + 1), s.setTrust { s.trust with draws := s.trust.draws + 1 }) else (none, s)

/-- Both sealing slots of a partition are destroyed, and a rotation ends (R431, R435). -/
def destroyKeys (s : State) (p : Nat) : State :=
  (s.setSession p { s.session p with key0 := none, key1 := none, rotating := false }).setRf ⟨.lhSealstat, 0, p⟩ 23 0 0

/-! ## Scrubs (R437 to R439) -/

/-- The clears of a scrub on a core: accumulators, rings, channels, Tidemark counters and semaphores (R437). -/
def clearCore (s : State) (g : Nat) : State :=
  let s := s.setRings (s.rings.filter fun r => r.1.1 != g)
  let s := s.forAll [0, 1] fun s a => s.setArray g a { (s.array g a).cleared with acc := [], block := none }
  let s := s.forAll (List.range 8) fun s n => s.setChan g n Chan.empty
  let s := s.forAll (List.range 256) fun s k => s.setReg ⟨.pilTm, g, k⟩ 0
  s.forAll (List.range 64) fun s k => s.setReg ⟨.pilSem, g, k⟩ 0

/-- The Cove windows of a core by its registers: base and bytes. -/
def coveWindows (s : State) (g : Nat) (slots : List Nat) : List (Nat × Nat) :=
  slots.filterMap fun n =>
    let (b, l, _) := s.cvWindow g n
    if b < l then some (coveBase g + 4096 * b, 4096 * (l - b)) else none

/-- The enabled cores of a die. -/
def coresOf (s : State) (d : Nat) : List Nat := ((List.range 32).map (32 * d + ·)).filter s.enabled

/-- The Lagoon of a die: base and usable bytes. -/
def lagoonRange (s : State) (d : Nat) : Nat × Nat := (dieBase d, 0x10000 * s.rf ⟨.lgSize, d, 0⟩ 10 0)

/-- The ranges that the end of a session scrubs, in ascending address (R438). -/
def sessionRanges (s : State) (p : Nat) : List (Nat × Nat) :=
  ((s.pkg.ranges.filter fun r => r.partition == p).map fun r => (0x200000 * r.first, 0x200000 * r.count)) ++
  (((List.range 12).filter fun d => s.dieOwner d == p).map fun d =>
    s.lagoonRange d :: ((s.coresOf d).map fun g => s.coveWindows g [0, 1, 2, 3]).flatten).flatten

/-- A range reads zero, and its poison is gone (R147). -/
def zeroRange (s : State) (a n : Nat) : State := (s.zeroFill a n).clearPoison a n

/-- The size of the unit of R462 that an address lies in. -/
def unitSize (a : Nat) : Nat :=
  match placeOf a with
  | .cove _ _ => 0x1000
  | .lagoon _ _ => 0x10000
  | _ => 0x200000

/-- A scrub of ranges ends: every byte but those of the failed units reads zero, and the cores inside are cleared. -/
def scrubRanges (s : State) (rs : List (Nat × Nat)) (failed : List Nat) : State :=
  let s := s.setMem (s.mem.filter fun c =>
    !(rs.any fun r => decide (r.1 ≤ c.1) && decide (c.1 < r.1 + r.2)) || failed.any fun u => decide (u ≤ c.1) && decide (c.1 < u + unitSize u))
  s.setPoison (s.poison.filter fun c =>
    !(rs.any fun r => decide (r.1 ≤ c.1) && decide (c.1 < r.1 + r.2)) || failed.any fun u => decide (u ≤ c.1) && decide (c.1 < u + unitSize u))

/-- The digest of a scrub's ranges (R422): each as a 64-bit base and a 64-bit count of 4 KiB units. -/
def rangesDigest (rs : List (Nat × Nat)) : List Byte := sha256 ((rs.map fun r => leBytes 8 r.1 ++ leBytes 8 (r.2 / 4096)).flatten)

/-- The session of a partition ends (R428, R438): its scrub begins and both sealing slots are destroyed. -/
def beginScrub (s : State) (p : Nat) : State := (s.setSession p { s.session p with scrub := true }).destroyKeys p

/-- Whether a scrub of a partition runs (R438): of its session's end, of units that pass to it, or of a CXL port that it gives up. -/
def scrubbing (s : State) (p : Nat) : Bool :=
  (s.session p).scrub || !(s.session p).units.isEmpty ||
  s.sessions.any fun e => e.2.units.any fun u => u.2.2 == p && match placeOf u.1 with
    | .cxl _ _ => true
    | _ => false

/-! ## Interfaces (R424, R428) -/

/-- An event of R428: the interface of a partition that is CONFIG_LOCKED or RUN enters ERROR, its tasks abort, and the scrub begins. The
error that caused it goes into the tasks' completion entries; code 0 stands for none. -/
def sessionError (s : State) (p code seq : Nat) : State :=
  if !s.inSession p then s
  else
    let s := s.setSession p { s.session p with state := 3 }
    (if code == 0 then ((s.tasks.filter fun t => t.active && t.partition == p).foldl (fun s t => s.abortTask t.id) s).admitHeld
     else s.abortTasks (fun t => t.partition == p) code 0x1FF seq).beginScrub p

/-- Every interface enters ERROR. -/
def sessionErrors (s : State) (code seq : Nat) : State := s.forAll (List.range 8) fun s p => s.sessionError p code seq

/-! ## Links that go down (R376) -/

def linkError (n code severity : Nat) : ErrInfo := { code := code, severity := severity, kind := 5, unit := n }

/-- The engine that a frame came from. -/
def frameEngine (f : Frame) : EngRef := ⟨f.source, f.slot, f.engine⟩

/-- A transaction of an engine that can never complete is given up, and its task aborts for an error that the log holds. -/
def dropFrame (s : State) (f : Frame) (code seq : Nat) : State :=
  let x := frameEngine f
  let s := match s.taskAt x.core x.slot with
    | some t => s.abortFor t code 0x1FF seq
    | none => s
  match s.findXact x (if f.kind == 3 then 1 else 2) f.tag with
  | some (id, v) => (s.dropXact x id v).carryOn x.core x.eng
  | none => s

/-- The effects of R376: keys are destroyed, tasks with a transaction outstanding abort with E_BL_DOWN, the outbound queue gives its credits
back, the credit requests of the peer leave the pools, and the peer's pools count as reset. keep: the lanes stay trained. -/
def linkDown (s : State) (n : Nat) (keep : Bool) (cause : Option Nat) : State :=
  let e := { linkError n E.blDown 2 with partition := if s.linkOwner n < 8 then some (s.linkOwner n) else none, cause := cause }
  let seq := s.seqOf e
  let l := s.link n
  let r := blReg .blStatus n
  let s := s.logErr e
  let s := s.setReg r (if keep then wput (s.reg r) 62 59 0 else 0)
  let s := s.setLink n { Link.down with cable := l.cable, peerGen := (l.peerGen + 1) % 16 }
  let s := s.pools.foldl (fun s v => s.setPool v.1.1 v.1.2 { v.2 with queue := v.2.queue.filter fun f => f.source != 512 + n }) s
  let s := (l.outbound.map (·.1) ++ l.reads).foldl (fun s f => s.dropFrame f E.blDown seq) s
  l.outbound.foldl (fun s f => s.returnCredits f.1.partition (20 + n / 9) f.1.gen 1) s

/-! ## CXL ports that go down (R408) -/

/-- Whether a task has a transaction outstanding at CXL port p. -/
def cxlOutstanding (s : State) (t : Task) (p : Nat) : Bool :=
  t.cores.any fun g => [5, 6].any fun e => (s.eng ⟨g, t.slot, e⟩).moves.any fun m => m.xacts.any fun v =>
    v.stage == 2 && v.package == 256 && match placeOf v.address with
      | .cxl q _ => q == p
      | _ => false

/-- The effects of R408: E_CXL_DOWN, the tasks with a transaction outstanding abort, the capacity is 0, and the port's keys are destroyed
(R431). -/
def cxlDown (s : State) (p : Nat) (code : Nat) (cause : Option Nat) : State :=
  let r := cxReg .cxStatus p
  let e : ErrInfo := { code := E.cxlDown, severity := 2, kind := 6, unit := p, partition := if s.cxlOwner p < 8 then some (s.cxlOwner p) else none, cause := cause }
  let seq := s.seqOf e
  let s := s.logErr e
  let s := (s.tasks.filter fun t => t.active && s.cxlOutstanding t p).foldl (fun s t => s.abortFor t E.cxlDown 0x1FF seq) s
  let s := (s.setReg r (BitVec.ofNat 64 code)).setRf (cxReg .cxCap p) 14 0 0
  (s.setCxl p { s.cxl p with bringUp := false, ideKey := none, capacity := 0 }).newGeneration

end State
end Sys2Proof.Machine
end

