-- ==== Sys2Proof/Machine/Recovery.lean ====
section
/-! DEFINITION. Containment and recovery (R145, R150, R354, R364, R453 to R457): management errors, how a recovery starts, escalates, fails and
ends, and what it does to the units of its domain. -/

namespace Sys2Proof.Machine

/-! ## Domains (R453, R456) -/

/-- The shore of a unit as the error log names it. -/
def unitShore (kind unit : Nat) : Nat :=
  match kind with
  | 1 => if unit / 32 < 6 then 0 else 1
  | 2 => if unit < 6 then 0 else 1
  | 3 => if unit < 4 then 0 else 1
  | 4 => if unit < 2 then 0 else 1
  | 5 => if unit < 18 then 0 else 1
  | 6 => if unit < 2 then 0 else 1
  | 8 => if unit < 7 then 0 else 1
  | _ => unit

/-- A recovery of a domain: level 1 core, 2 die, 3 shore, 4 package. -/
def Recovery.of (level kind unit first : Nat) : Recovery :=
  match level with
  | 3 => ⟨3, 10, unitShore kind unit, first, 0, 0, []⟩
  | 4 => ⟨4, 11, 0, first, 0, 0, []⟩
  | l => ⟨l, kind, unit, first, 0, 0, []⟩

/-- The kind and unit of the domain of a higher level that encloses a recovery's (R456): a core's die, a tower's or a harbour's shore. -/
def Recovery.lift (r : Recovery) (level : Nat) : Nat × Nat :=
  match level with
  | 2 => if r.kind == 1 then (2, r.unit / 32) else (r.kind, r.unit)
  | 3 => (10, unitShore r.kind r.unit)
  | _ => (11, 0)

/-- Whether the domain of a lies inside that of b, or equals it. -/
def Recovery.within (a b : Recovery) : Bool :=
  if a.level == 4 then b.level == 4
  else if a.level == 3 then b.level == 4 || (b.level == 3 && b.unit == a.unit)
  else State.inDomain b a.kind a.unit

/-- Whether F's domain lies inside, equals or encloses D's (R456). -/
def Recovery.meets (f d : Recovery) : Bool := f.within d || d.within f

/-- The units of a domain. -/
def Recovery.dies (r : Recovery) : List Nat := (List.range 12).filter fun d => r.level != 1 && State.inDomain r 2 d
def Recovery.towers (r : Recovery) : List Nat := (List.range 8).filter fun t => State.inDomain r 3 t
def Recovery.harbours (r : Recovery) : List Nat := (List.range 4).filter fun h => State.inDomain r 4 h

/-- The targets of R342 whose pools lie in a domain. -/
def Recovery.targets (r : Recovery) : List Nat := r.dies ++ (r.towers.map (12 + ·)) ++ (r.harbours.map (20 + ·))

namespace State

def putRecovery (s : State) (n : Nat) (r : Recovery) : State :=
  s.setLh { s.lh with recoveries := Tab.put id ⟨0, 0, 0, 0, 0, 0, []⟩ s.lh.recoveries n r }

def dropRecovery (s : State) (n : Nat) : State := s.setLh { s.lh with recoveries := Tab.erase s.lh.recoveries n }

/-! ## How a recovery begins (R353, R376, R408, R428, R453) -/

/-- The partitions with a target in a domain. -/
def domainPartitions (s : State) (r : Recovery) : List Nat :=
  (List.range 8).filter fun p =>
    (List.range 12).any (fun d => s.dieOwner d == p && (r.level == 4 || State.inDomain r 2 d || (r.kind == 1 && r.unit / 32 == d)))

/-- The slots whose windows a core recovery fills: those of the tasks that it aborts and that have set theirs (R145). -/
def abortedSlots (s : State) (r : Recovery) : List Nat :=
  if r.level == 1 then
    (List.range 4).filter fun n => r.slots.contains n ||
      ((s.cvWindow r.unit n).2.2 && s.tasks.any fun t => t.active && t.state != 1 && t.slot == n && t.cores.any fun g => inDomain r 1 g)
  else []

/-- What starts with a recovery, and again with each escalation: the tasks of the domain abort, dispensers stop (R268), loads are abandoned,
links and CXL ports go down, and a package recovery ends every session. code and seq name the error. -/
def enterRecovery (s : State) (n : Nat) (r : Recovery) (code seq : Nat) : State :=
  let mine (t : Task) : Bool := t.cores.any fun g => inDomain r 1 g
  let s := s.putRecovery n { r with slots := s.abortedSlots r }
  let s := s.abortTasks mine code (if r.level == 1 then r.unit else 0x1FF) seq
  let s := s.forAll r.dies fun s d => s.stopDispenser d
  let s := s.forAll (s.domainPartitions r) fun s p => s.abandonLoad p (some r.first)
  let s := s.forAll ((List.range 36).filter fun l => inDomain r 5 l && s.rb (blReg .blStatus l) 63) fun s l => s.linkDown l false (some r.first)
  let s := s.forAll ((List.range 4).filter fun p => inDomain r 6 p && s.rf (cxReg .cxStatus p) 63 61 != 0) fun s p => s.cxlDown p 0 (some r.first)
  (if r.level == 4 then s.sessionErrors code seq else s).newGeneration

/-- The lowest record that holds no recovery. -/
def freeRecord (s : State) : Option Nat := (List.range 8).find? fun n => !s.lh.recoveries.any fun e => e.1 == n

/-- A new recovery takes a free record, or waits, fenced, its tasks aborted at once (R455). -/
def beginRecovery (s : State) (r : Recovery) (code seq : Nat) : State :=
  match s.freeRecord with
  | some n => s.enterRecovery n r code seq
  | none =>
    (s.setLh { s.lh with waiting := s.lh.waiting ++ [{ r with slots := s.abortedSlots r }] }).abortTasks (fun t => t.cores.any fun g => inDomain r 1 g) code
      (if r.level == 1 then r.unit else 0x1FF) seq

/-- Waiting recoveries start in order of detection as records free (R455). -/
def startWaiting (s : State) : Nat → State
  | 0 => s
  | fuel + 1 =>
    match s.lh.waiting, s.freeRecord with
    | r :: rest, some n => ((s.setLh { s.lh with waiting := rest }).enterRecovery n r 0 r.first).startWaiting fuel
    | _, _ => s

/-! ## Escalation (R456, R457) -/

/-- The recovery in a record that a management error meets; the one of the highest level. -/
def metRecovery (s : State) (f : Recovery) : Option (Nat × Recovery) :=
  (s.lh.recoveries.filter fun e => f.meets e.2).foldl (fun (a : Option (Nat × Recovery)) e =>
    match a with
    | some b => if b.2.level < e.2.level then some e else a
    | none => some e) none

/-- A waiting recovery that a management error meets widens like one in a record, and waits on (log entry 27). -/
def widenWaiting (s : State) (f : Recovery) (code seq : Nat) : State :=
  match s.lh.waiting.find? f.meets with
  | none => s
  | some d =>
    let l := min 4 (max f.level (d.level + 1))
    let (kind, unit) := if f.level == l then (f.kind, f.unit) else d.lift l
    let r := { Recovery.of l kind unit d.first with escalations := sat 4 (d.escalations + 1) }
    let s := s.setLh { s.lh with waiting := s.lh.waiting.map fun e => if decide (e = d) then r else e }
    let s := s.logErr { code := E.recoveryEscalated, severity := 2, kind := r.kind, unit := r.unit, cause := some seq }
    s.abortTasks (fun t => t.cores.any fun g => inDomain r 1 g) code 0x1FF seq

/-- A management error that the log holds under a sequence number meets the active recoveries: one that it meets escalates or restarts, and the
enclosed ones merge into it; otherwise a recovery of its own starts where the error starts one (R455, R456, R457). -/
def escalate (s : State) (f : Recovery) (starts : Bool) (code seq : Nat) : State :=
  if s.pkg.halted then s
  else match s.metRecovery f with
    | none =>
      if s.lh.waiting.any f.meets then s.widenWaiting f code seq
      else if starts then s.beginRecovery { f with first := seq } code seq
      else s
    | some (n, d) =>
      if d.level == 4 then
        let d := { d with restarts := d.restarts + 1, escalations := sat 4 (d.escalations + 1) }
        if 3 ≤ d.restarts then
          ((s.putRecovery n d).setPkg { s.pkg with halted := true }).logErr { code := E.recoveryFailed, severity := 2, kind := 11, cause := some d.first }
        else s.enterRecovery n d code seq
      else
        let l := max f.level (d.level + 1)
        let (kind, unit) := if f.level == l then (f.kind, f.unit) else d.lift l
        let r := { Recovery.of l kind unit d.first with escalations := sat 4 (d.escalations + 1) }
        let s := s.setLh { s.lh with recoveries := s.lh.recoveries.filter (fun e => e.1 == n || !e.2.within r), waiting := s.lh.waiting.filter fun e => !e.within r }
        let s := s.logErr { code := E.recoveryEscalated, severity := 2, kind := r.kind, unit := r.unit, cause := some seq }
        (s.enterRecovery n r code seq).startWaiting 8

/-- The entry that an error in a unit under recovery names as its cause (R449). -/
def recoveryCause (s : State) (f : Recovery) : Option Nat := (s.lh.recoveries.find? fun e => f.within e.2).map (·.2.first)

/-- A management error is logged, signalled, and starts or escalates a recovery (R447 to R449, R453, R456). -/
def manage (s : State) (e : ErrInfo) (level kind unit : Nat) (starts : Bool) : State :=
  let f := Recovery.of level kind unit 0
  let e := { e with severity := 2, cause := if e.cause.isSome then e.cause else s.recoveryCause f }
  let seq := s.seqOf e
  (s.logErr e).escalate f starts e.code seq

/-! ## What a recovery does (R453) -/

/-- The registers of a block take their reset values, but for those that a predicate keeps (R477). -/
def resetBlock (s : State) (b : RegBlock) (unit : Nat) (keep : RegName → Bool) : State :=
  s.dropRegs fun r => r.unit == unit && r.name.info.block == b && !keep r.name

/-- A core is reset: the windows of some slots are filled with zeros (R145), its rings, live and resident bits, channels, Tidemark counters,
semaphores and engines are cleared, and its registers take their reset values; the Cove's usable size waits for the die's reset (R150). -/
def resetCore (s : State) (g : Nat) (slots : List Nat) : State :=
  let s := (s.coveWindows g slots).foldl (fun s r => s.zeroRange r.1 r.2) s
  let s := s.clearCore g
  let s := s.forAll [0, 1] fun s a => s.setArray g a ArraySt.idle
  let s := s.forAll [0, 1, 2, 3] fun s slot => s.forAll (List.range 8) fun s e => s.setEng ⟨g, slot, e⟩ EngCtx.idle
  (s.setRotation g 0).resetBlock .core g fun n => n == .cvSize

/-- Rows of a bank that the repair map of a die holds, for the unit that begins at an address. -/
def mappedRows (s : State) (base bank : Nat) : Nat := (s.lh.repairMap.filter fun m => m.1 == base && m.2.1 == bank).length

/-- The most mapped rows of any bank of a unit. -/
def worstBank (s : State) (base banks : Nat) : Nat := (List.range banks).foldl (fun a b => max a (s.mappedRows base b)) 0

/-- CV_SIZE of a core and LG_SIZE of a die as the repair map gives them (R150, R151). -/
def applyRepairs (s : State) (d : Nat) : State :=
  let s := s.forAll (s.coresOf d) fun s g =>
    let w := s.worstBank (coveBase g) 16
    (s.setRf ⟨.cvSize, g, 0⟩ 21 16 (32 + 4 * ceilDiv (w - 32) 4 - w)).setRf ⟨.cvSize, g, 0⟩ 9 0 (512 - ceilDiv (w - 32) 4)
  let w := s.worstBank (dieBase d) 32
  (s.setRf ⟨.lgSize, d, 0⟩ 22 16 (64 + 32 * ceilDiv (w - 64) 32 - w)).setRf ⟨.lgSize, d, 0⟩ 10 0 (1024 - ceilDiv (w - 64) 32)

/-- A compute die is reset: every window of its cores and the Lagoon are filled with zeros (R145, R152), its cores and its registers are reset, and
its repair map is applied (R150). -/
def resetDie (s : State) (d : Nat) : State :=
  let s := s.forAll (s.coresOf d) fun s g => s.resetCore g [0, 1, 2, 3]
  let s := s.zeroRange (dieBase d) 0x4000000
  ((s.setDisp d Disp.idle).resetBlock .die d fun n => n == .lgSize).applyRepairs d

/-- Registers of a harbour that a reset of the harbour keeps: what shows its port, and the error log, which stay in service (R454, log entry 24);
in a shore's reset also the host port's configuration and queue registers (R453). Its links and CXL ports keep their enables, since they come up again. -/
def keptOfHarbour (shore : Bool) (n : RegName) : Bool :=
  match n with
  | .hbPortstat | .hbErrstat | .hbErrhead | .hbErrsum | .hbErrseq | .hbErrlog | .blCfg | .cxCfg | .blStatus | .cxStatus => true
  | .blKeyctl | .blCount | .blErr | .cxCap | .cxErr => false
  | _ => shore

/-- The units of a domain are reset and reloaded, and the pools of its targets start afresh with their generations advanced (R354, R364, R453). -/
def rebuild (s : State) (r : Recovery) : State :=
  if r.level == 1 then (s.resetCore r.unit r.slots).reloadCore r.unit r.first
  else
    let s := s.forAll r.dies fun s d => s.resetDie d
    let s := s.forAll r.harbours fun s h => s.resetBlock .harbour h (keptOfHarbour (r.level != 2))
    if r.level == 4 then s.forAll (List.range 8) fun s p => s.unloadImage p
    else
      let s := s.forAll r.dies fun s d => s.reloadDie d r.first
      s.forAll (List.range 8) fun s p => s.reloadPackage p r.targets r.first

/-- CXL ports of the domain's harbours begin bring-up again (R407, R453). -/
def bringUpAgain (s : State) (r : Recovery) : State :=
  s.forAll ((List.range 4).filter fun p => inDomain r 6 p && s.rb (cxReg .cxCfg p) 63) fun s p =>
    (s.setCxl p { s.cxl p with bringUp := true }).setRf (cxReg .cxStatus p) 63 61 1

/-- Units whose scrub had failed are scrubbed again at the end of every recovery (R439). -/
def retryScrubs (s : State) : State :=
  s.lh.unowned.foldl (fun s u =>
    let p := match placeOf u.1 with
      | .cove g _ => s.dieOwner (g / 32)
      | .lagoon d _ => s.dieOwner d
      | .cxl q _ => s.cxlOwner q
      | _ => s.pageOwner (u.1 / 0x200000)
    if p < 8 && !(s.session p).units.any (fun v => v.1 == u.1) then s.setSession p { s.session p with units := (s.session p).units ++ [(u.1, u.2, 8)] } else s) s

/-- A task that a recovery has aborted ends before its units are reset (R453). -/
def endDrains (s : State) (r : Recovery) : State :=
  (s.tasks.filter fun t => t.active && t.cores.any fun g => inDomain r 1 g).foldl (fun s t => s.endDrain t) s

/-- The layout of split mode: partition 0 holds the West shore and partition 1 the East (R50, R398, R400). -/
def layoutSplit (s : State) : State :=
  s.setPkg { s.pkg with
    split := true, control := 0, changing := none, requests := [],
    die := (List.range 12).map fun d => if d < 6 then 0 else 1
    cxl := [0, 0, 1, 1], link := (List.range 36).map fun n => if n < 18 then 0 else 1
    ranges := [⟨0, 196608, 0⟩, ⟨1, 196608, 196608⟩] }

/-- The owner of a tower page in a list of ranges; 255 for none. -/
def rangeOwner (rs : List LayoutRange) (page : Nat) : Nat :=
  match rs.find? fun r => decide (r.first ≤ page) && decide (page < r.first + r.count) with
  | some r => r.partition
  | none => 255

/-- Page numbers at which some range of either layout begins or ends, inside a range, in ascending order. -/
def pageCuts (rs : List LayoutRange) (r : LayoutRange) : List Nat :=
  let points := (rs.map fun o => [o.first, o.first + o.count]).flatten ++ [r.first, r.first + r.count]
  ((points.filter fun c => decide (r.first ≤ c) && decide (c ≤ r.first + r.count)).mergeSort (· ≤ ·)).eraseReps

/-- The tower pages of a partition that another, or none, held in the former layout: base, bytes, former owner. -/
def passedPages (old new : List LayoutRange) (p : Nat) : List (Nat × Nat × Nat) :=
  ((new.filter fun r => r.partition == p).map fun r =>
    let cuts := pageCuts old r
    (cuts.zip (cuts.drop 1)).filterMap fun c =>
      let q := rangeOwner old c.1
      if q == p || c.1 == c.2 then none else some (0x200000 * c.1, 0x200000 * (c.2 - c.1), min q 8)).flatten

/-- The units that a partition holds now and did not in a former layout (R438): whole Coves, Lagoons, tower pages, and the mapped capacity of
CXL ports. -/
def passedUnits (s : State) (old : Package) (p : Nat) : List (Nat × Nat × Nat) :=
  passedPages old.ranges s.pkg.ranges p ++
  (((List.range 12).filter fun d => s.dieOwner d == p && old.die.getD d 255 != p).map fun d =>
    let q := min (old.die.getD d 255) 8
    (dieBase d, 0x4000000, q) :: (s.coresOf d).map fun g => (coveBase g, 0x200000, q)).flatten ++
  ((List.range 4).filter fun k => s.cxlOwner k == p && old.cxl.getD k 255 != p && s.cxlCapacity k != 0).map fun k =>
    (cxlBase + k * 0x40000000000, s.cxlCapacity k, min (old.cxl.getD k 255) 8)

/-- Units that have passed between partitions since a former layout are scrubbed before their new owner may map them (R400, R438, R463). -/
def passUnits (s : State) (old : Package) : State :=
  s.forAll (List.range 8) fun s p =>
    match s.passedUnits old p with
    | [] => s
    | us => s.setSession p { s.session p with units := ((s.session p).units.filter fun v => !us.any fun u => u.1 == v.1) ++ us }

/-- Queues whose partition their port does not own are disabled (R400). -/
def disableQueues (s : State) : State :=
  [Port.w, Port.e].foldl (fun s p => s.forAll (List.range 64) fun s q =>
    let r : RegId := ⟨.hbTqcfg, p.harbour, q⟩
    if s.portOwns p (s.rf r 61 59) then s else s.setRf r 63 63 0) s

/-- Every declaration of a shared region is cleared (R400). -/
def clearShares (s : State) : State :=
  s.dropRegs fun r => r.name == .lhSharebase || r.name == .lhSharelim

/-- Every image is unloaded, every declaration cleared, queues that changed hands are disabled, and units that changed hands are scrubbed (R400). -/
def afterMode (s : State) (old : Package) : State :=
  ((((s.forAll (List.range 8) fun s p => s.unloadImage p).clearShares).disableQueues).passUnits old).newGeneration

/-- The package enters split mode (R50, R400). -/
def enterSplit (s : State) : State := s.layoutSplit.afterMode s.pkg

/-- The package enters unified mode (R400): the requested port controls, and units keep their partitions. -/
def enterUnified (s : State) (toE : Bool) : State :=
  (s.setPkg { s.pkg with split := false, control := if toE then 2 else 1, changing := none, requests := [] }).afterMode s.pkg

end State
end Sys2Proof.Machine
end

