-- ==== Sys2Proof/Machine/Net.lean ====
section
/-! DEFINITION. The fabric (R27, R34, R36 to R38, R146 to R155, R358 to R370): frames that arrive at their targets, credits on their way,
acknowledgements and replays of hops and links, the lanes of the Causeway, and what an unreliable hop or tower starts. The sending side of a Bangeby
link (R371, R374, R375, R380) stands here too. -/

namespace Sys2Proof.Machine

/-- An error response to a frame, with the code that its sender's task aborts with (log entry 8). -/
def errorFrame (f : Frame) (code : Nat) : Frame := { f with kind := 10, payload := [], amount := code, asks := f.kind == 3 }

/-- The frame that returns credits which a requester was granted and cannot use (R178). -/
def returnFrame (f : Frame) (n : Nat) : Frame := { f with kind := 5, count := n, payload := [] }

/-- Whether a frame of a write, SIGNAL or channel write holds a credit of its target's pool: its issuer is no core of the target's die (R32, R36). -/
def isCredited (f : Frame) : Bool := decide (384 ≤ f.source) || f.source / 32 != (placeOf f.address).target

namespace State

/-! ## Sending on a Bangeby link -/

/-- The slot of a pair of keys. -/
def slotOf (k : Option Nat × Option Nat) (epoch : Nat) : Option Nat := if epoch == 0 then k.1 else k.2
def setSlot (k : Option Nat × Option Nat) (epoch : Nat) (v : Option Nat) : Option Nat × Option Nat := if epoch == 0 then (v, k.2) else (k.1, v)

/-- The present sending epoch of a link. -/
def linkEpoch (s : State) (n : Nat) : Nat := s.rf (blReg .blStatus n) 61 61

def linkUp (s : State) (n : Nat) : Bool := s.rb (blReg .blStatus n) 63
def linkKeyed (s : State) (n : Nat) : Bool := s.rb (blReg .blStatus n) 62

/-- A frame of a link leaves under the next counter and the present key, and stays in the replay buffer until it is acknowledged (R372, R373): the write
that it carries waits for that in the outbound queue. -/
def linkStamp (s : State) (n : Nat) (f : LinkOut) : State :=
  let l := s.link n
  let f := { f with counter := l.sendCounter, epoch := s.linkEpoch n, key := slotOf l.sendKeys (s.linkEpoch n) }
  let mine (o : Frame × Nat) : Bool := f.kind == 0 && o.2 == 0 && decide (f.frame = some o.1)
  ((s.setLink n { l with sendCounter := l.sendCounter + 1, sentUnder := l.sentUnder + 1, replay := l.replay ++ [f],
                         outbound := l.outbound.map fun o => if mine o then (o.1, f.counter + 1) else o }).addRf (blReg .blCount n) 63 32 1).emit (.linkFrame n f)

/-- Whether a frame of a link waits: a data frame while the direction sends none (R380), for a place in the replay buffer (R373), for one of the 64 transport
credits of its class (R359, R373; a credit is back with the acknowledgement: log entry 117), or behind a frame of its class that waits. -/
def linkWaits (s : State) (n : Nat) (f : LinkOut) : Bool :=
  let l := s.link n
  let mine (g : LinkOut) : Bool := frameClass g.kind == frameClass f.kind
  (s.rb (blReg .blStatus n) 59 && f.kind != 11) || decide (512 ≤ l.replay.length) || decide (64 ≤ (l.replay.filter mine).length) || l.waiting.any mine

/-- A frame of a link leaves, or waits. A link that is down carries nothing, and one without keys management frames only (R45, R376, R377): what else it is
given is discarded, and the credits of a grant go back to their pool. -/
def linkPut (s : State) (n : Nat) (f : LinkOut) : State :=
  if s.linkUp n && (s.linkKeyed n || f.kind == 11) then
    if s.linkWaits n f then s.setLink n { s.link n with waiting := (s.link n).waiting ++ [f] } else s.linkStamp n f
  else match f.frame with
    | some g => if g.kind == 4 then s.returnCredits g.partition g.target g.gen g.count else s
    | none => s

/-- A transaction leaves on a link (R375). -/
def linkSend (s : State) (n : Nat) (f : Frame) : State := s.linkPut n ⟨0, 0, none, f.kind, 0, 0, 0, some f, []⟩

/-- Frames that waited leave in order, as far as they may. -/
def linkFlush (s : State) (n : Nat) : State :=
  let l := s.link n
  l.waiting.foldl (fun s f => s.linkPut n f) (s.setLink n { l with waiting := [] })

/-- A management message leaves on a link, in fragments of 256 bytes but for the last (R378). -/
def linkMessage (s : State) (n subtype : Nat) (bytes : List Byte) : State :=
  let parts := chunksOf 256 bytes.length bytes
  (parts.zipIdx.foldl (fun s c => s.linkPut n ⟨0, 0, none, 11, subtype, c.2, parts.length, none, c.1⟩) s).emit (.linkMessage n subtype bytes)

/-! ## Serving transactions -/

/-- A credit goes back to the pool at a frame's target (R363); a peer's drew it from the pool that its request named (R375). -/
def returnFor (s : State) (f : Frame) : State :=
  if isCredited f then s.returnCredits f.partition (if f.source < 512 then (placeOf f.address).target else f.target) f.gen 1 else s

/-- What keeps a target from serving an access (R154, R364, R432, R454). -/
def serveFault (s : State) (f : Frame) : Option Nat :=
  if s.placeFenced f.source f.address then some E.targetRecovering
  else if f.epoch < 2 && (s.sealKey f.partition f.epoch).isNone then some E.sealNokey
  else none

/-- A write lands: its bytes, its arrival count in a Cove, and its credit, which a counted write of a Cove holds until the program releases it
(R29, R33, R37, R38, R117, R363). -/
def landFrame (s : State) (f : Frame) : State :=
  let s := s.landBytes f.partition f.epoch f.address f.add f.payload f.mask
  match placeOf f.address, f.arrive with
  | .cove g _, true =>
    let s := if isCredited f && (s.taskAt g f.slot).isSome then s.setLanded (s.landed ++ [(g, f.slot, f.counter, f.partition, f.gen)]) else s.returnFor f
    s.incr g f.slot false f.counter 1 f.source f.engine
  | _, _ => s.returnFor f

/-- Serve a write at its target: the state after it, or the code of its error and the state. -/
def serveWrite (s : State) (f : Frame) : Option Nat × State :=
  match s.serveFault f with
  | some c => (some c, if c == E.targetRecovering then s else s.returnFor f)
  | none =>
    match s.landFault f.address f.add f.payload f.mask with
    | some c => (some c, s.returnFor f)
    | none => (none, s.landFrame f)

/-- Serve a read at its target (R34, R146, R147, R153, R154): its data, or the code of its error. -/
def serveRead (s : State) (f : Frame) (media : Media) : Except Nat (List Byte) × State :=
  match s.serveFault f with
  | some c => (.error c, s)
  | none =>
    let s := (s.strike (match media with
      | .good => []
      | .corrected k => [.memory (f.address + min k (f.count - 1)) false]
      | .uncorrectable k => [.memory (f.address + min k (f.count - 1)) true])).meet f.address f.count
    match s.readFault f.address f.count with
    | some c => (.error c, s)
    | none => (.ok (s.readBytes f.partition f.epoch f.address f.count), s)

/-! ## BAR4 writes that the harbour holds (R388, R389) -/

/-- Doorbells that waited for a port's BAR4 writes take effect once none is left. -/
def ringBells (s : State) (p : Port) : State :=
  if (s.port p).heldWrites.isEmpty then
    (s.port p).heldBells.foldl (fun s b => s.ringBell p b.1 b.2) (s.setPort p { s.port p with heldBells := [] })
  else s

/-- The request for the credit of a write that a harbour holds. -/
def askFor (f : Frame) : Frame := { f with kind := 3, payload := [], count := 1 }

/-- A port's BAR4 write has landed, or was discarded: the next one of the port asks for its credit (R388). -/
def releaseWrite (s : State) (p : Port) (tag : Nat) : State :=
  let was := (s.port p).heldWrites
  let left := was.filter fun w => w.tag != tag
  let s := (s.setPort p { s.port p with heldWrites := left }).ringBells p
  match was, left with
  | w :: _, v :: _ => if w.tag == tag then s.send (askFor v) else s
  | _, _ => s

/-- The port of a frame that a harbour issues for host software. -/
def framePort (f : Frame) : Port := portOfShore f.engine

/-! ## Sealing keys of a rotation (R435) -/

/-- Whether an access that was translated under an epoch is in flight for a partition. -/
def epochInFlight (s : State) (p epoch : Nat) : Bool :=
  (s.frames ++ s.backlog).any (fun f => decide (f.kind < 3) && f.partition == p && f.epoch == epoch)
  || s.engs.any fun e => e.2.moves.any fun m => m.xacts.any fun v => v.stage == 2 && v.epoch == epoch &&
      match s.taskAt e.1.core e.1.slot with
      | some t => t.partition == p
      | none => false

/-- A rotation ends when no old page is left and no access of the old epoch is in flight: the old slot is destroyed and entry 4 is logged. -/
def endRotation (s : State) (p : Nat) : State :=
  let v := s.session p
  if v.rotating && s.rf ⟨.lhSealstat, 0, p⟩ 23 0 == 0 && !s.epochInFlight p (1 - v.epoch) then
    (s.setSession p (if v.epoch == 1 then { v with key0 := none, rotating := false } else { v with key1 := none, rotating := false })).sessionEntry p 4 v.epoch 0 (zeros 32)
  else s

/-! ## Frames that reach their targets -/

/-- A write for a peer reaches the harbour that carries its link: it waits in the outbound queue for the peer's credit (R374, R375). -/
def outboundWrite (s : State) (f : Frame) : State :=
  match s.routeLink f.partition f.package f.address with
  | none => s.send (errorFrame f E.noRoute)
  | some n =>
    let s := s.setLink n { s.link n with outbound := (s.link n).outbound ++ [(f, 0)] }
    s.linkSend n { f with kind := 3, payload := [], count := 1, target := (placeOf f.address).target }

/-- What the issuer of a write hears when it has landed: an engine's write completes, a port's held write is released, and a peer hears by the link's
acknowledgement. -/
def writeLanded (s : State) (f : Frame) : State :=
  if f.source < 384 then s.writeDone (frameEngine f) f.tag
  else if f.source < 512 then s.releaseWrite (framePort f) f.tag
  else s

/-- WRITE: see R358. -/
def takeWrite (s : State) (f : Frame) : State :=
  let s := s.arrived f
  if f.package != 256 then s.outboundWrite f
  else match s.serveWrite f with
    | (some c, s) => s.send (errorFrame f c)
    | (none, s) => (s.writeLanded f).endRotation f.partition

/-- READ_REQUEST: of a peer's memory it goes out on the link. -/
def takeRead (s : State) (f : Frame) (media : Media) : State :=
  let s := s.arrived f
  if f.package != 256 then
    match s.routeLink f.partition f.package f.address with
    | none => s.send (errorFrame f E.noRoute)
    | some n => (s.setLink n { s.link n with reads := (s.link n).reads ++ [f] }).linkSend n f
  else match s.serveRead f media with
    | (.ok bs, s) => s.send { f with kind := 2, payload := bs }
    | (.error c, s) => s.send (errorFrame f c)

/-- READ_RESPONSE. -/
def takeResponse (s : State) (f : Frame) : State :=
  let s := s.arrived f
  if f.source < 384 then (s.readDone (frameEngine f) f.tag f.payload).endRotation f.partition
  else if 512 ≤ f.source then s.linkSend (f.source - 512) f
  else s

/-- CREDIT_REQUEST: it joins its pool's queue (R361), unless the unit is fenced (R364). -/
def takeRequest (s : State) (f : Frame) : State :=
  let s := s.arrived f
  if s.targetFenced f.target then s.send (errorFrame f E.targetRecovering)
  else
    let v := s.pool f.partition f.target
    (s.setPool f.partition f.target { v with queue := v.queue ++ [f] }).serve f.partition f.target

/-- CREDIT_GRANT to an engine: the write or the SIGNAL that asked issues; a credit that nothing can use goes back (R36, R178). -/
def grantEngine (s : State) (f : Frame) : State :=
  let x := frameEngine f
  let back : State := s.send (returnFrame f f.count)
  match s.taskAt x.core x.slot with
  | none => back
  | some t =>
    if t.aborting then back
    else if f.tag == syncTag then
      match (s.eng x).blocked with
      | some (.send i g true) => (s.retire x t i).send { g with target := f.target, gen := f.gen }
      | _ => back
    else match s.findXact x 1 f.tag with
      | some (id, v) => s.grantXact x id v f.target f.gen
      | none => back

/-- CREDIT_GRANT. -/
def takeGrant (s : State) (f : Frame) : State :=
  let s := s.arrived f
  if f.source < 384 then s.grantEngine f
  else if f.source < 512 then
    match (s.port (framePort f)).heldWrites.find? fun w => w.tag == f.tag with
    | some w => s.send { w with gen := f.gen, target := f.target }
    | none => s.send (returnFrame f f.count)
  else s.linkSend (f.source - 512) f

/-- SIGNAL at its target core (R310, R312, R363). -/
def takeSignal (s : State) (f : Frame) : State :=
  let s := s.arrived f
  if s.placeFenced f.source f.address then s.send (errorFrame f E.targetRecovering)
  else match placeOf f.address with
    | .cove g _ => (s.returnFor f).incr g f.slot f.post f.counter f.amount f.source f.engine
    | _ => s

/-- CHANNEL_WRITE at its target core (R276, R277, R363). -/
def takeWords (s : State) (f : Frame) : State :=
  let s := s.arrived f
  if s.placeFenced f.source f.address then s.send (errorFrame f E.targetRecovering)
  else match placeOf f.address with
    | .cove g _ => (s.pushWords g f.counter ((chunksOf 8 8 f.payload).mapIdx fun k b => (leNat b, bitOf f.amount k))).returnFor f
    | _ => s

/-- ERROR_RESPONSE at the issuer (R364, R387): a transaction ends and its task aborts; a SIGNAL or channel write that waits for its credit aborts its
task; a BAR4 write is discarded; a peer's goes out on its link. -/
def takeError (s : State) (f : Frame) : State :=
  let s := s.arrived f
  let x := frameEngine f
  let code := if f.amount == 0 then E.targetRecovering else f.amount
  if 512 ≤ f.source then s.linkSend (f.source - 512) f
  else if 384 ≤ f.source then
    (s.releaseWrite (framePort f) f.tag).logErr { portNotice (framePort f) E.memwinFault with partition := some f.partition, detail := f.address % 2 ^ 48 }
  else if f.tag == syncTag then s.fail x { code := code, addr := f.address }
  else s.xactError x f.tag code f.asks

/-! ## Acknowledgements and replays (R360, R373) -/

/-- A sender's old key slot goes once its replay buffer holds no frame of the old epoch; the rotation is complete when all old slots are gone
(R379). -/
def trimKeys (s : State) (n : Nat) : State :=
  let l := s.link n
  let e := s.linkEpoch n
  let r := blReg .blStatus n
  if !s.rb r 60 then s
  else
    let l := if l.readySent && l.peerReady && !l.replay.any (fun f => f.epoch != e) then { l with sendKeys := setSlot l.sendKeys (1 - e) none } else l
    let s := s.setLink n l
    if l.readySent && l.peerReady && (slotOf l.sendKeys (1 - e)).isNone && (slotOf l.recvKeys (1 - e)).isNone then
      ((s.setLink n { l with stage := 0, readySent := false, peerReady := false, newKeys := none, transcript := [] }).setRf r 60 59 0).linkFlush n
    else s

/-- The peer has the first k frames of a link's replay buffer: their outbound writes complete, with their credits (R37, R160, R363), and frames that waited
for room leave. -/
def linkAcked (s : State) (n k : Nat) : State :=
  let l := s.link n
  let had (o : Frame × Nat) : Bool := (l.replay.take k).any fun f => f.kind == 0 && o.2 == f.counter + 1
  let s := s.setLink n { l with replay := l.replay.drop k, outbound := l.outbound.filter fun o => !had o }
  let s := (l.outbound.filter had).foldl (fun s o => (s.returnCredits o.1.partition (20 + n / 9) o.1.gen 1).writeLanded o.1) s
  (s.trimKeys n).linkFlush n

/-- ACKNOWLEDGEMENT: frames up to a sequence number leave the replay buffer. Hop 100 + n is Bangeby link n: the oldest frame with the counter, and those
before it (counters begin anew with the first keys, R372). -/
def acknowledge (s : State) (hop dir seq : Nat) : State :=
  if 100 ≤ hop then
    match (s.link (hop - 100)).replay.findIdx? fun f => f.counter == seq with
    | some k => s.linkAcked (hop - 100) (k + 1)
    | none => s
  else
    let v := s.hop hop dir
    ((s.setHop hop dir { v with buffer := v.buffer.filter (fun f => !seqLe f.1 seq), replays := 0 }).accepts (hop, dir) seq).sendWaiting

/-- A NEGATIVE_ACKNOWLEDGEMENT of a link: the peer has the frames before the one that it names, or all of them where it names the next one to be sent, and
the rest are sent again as they were (R372, R373). -/
def linkReplay (s : State) (n counter : Nat) : State :=
  let l := s.link n
  match (l.replay.findIdx? fun f => f.counter == counter), counter == l.sendCounter with
  | none, false => s
  | k, _ =>
    let s := s.linkAcked n (k.getD l.replay.length)
    let left := if k.isSome then l.replay.drop (k.getD 0) else []
    left.foldl (fun s f => s.emit (.linkFrame n f)) ((s.satRf (blReg .blErr n) 31 0 left.length).emit (.linkReplay n counter left.length))

/-! ## The Causeway (R368, R369) -/

def cwStatus : RegId := ⟨.cwStatus, 0, 0⟩

/-- Frames that wait to cross the Causeway are lost with it. -/
def loseBacklog (s : State) : State := s.setBacklog (s.backlog.filter fun f => !(s.framePath f).any fun h => h.1 == causewayHop)

/-- The Causeway fails (R50, R369): every pool generation advances, frames that wait to cross it are lost, and a package recovery runs. -/
def failCauseway (s : State) : State :=
  if s.pkg.causewayFailed then s
  else
    let s := (s.setPkg { s.pkg with causewayFailed := true, swaps := [] }).setRf cwStatus 63 62 2
    let s := s.forAll (List.range 8) fun s p => s.forAll (List.range 24) fun s t => s.resetPool p t
    s.loseBacklog.manage { code := E.cwFailed, severity := 2, kind := 7 } 4 11 0 true

/-- NEGATIVE_ACKNOWLEDGEMENT: the frames from the one that it names are sent again (R360, R369, R373). -/
def replay (s : State) (hop dir seq : Nat) : State :=
  if 100 ≤ hop then s.linkReplay (hop - 100) seq
  else
    let v := s.hop hop dir
    let kept := v.buffer.filter fun f => seqLe seq f.1
    let again := v.buffer.head?.map (·.1) == some seq
    let v := { v with buffer := kept, replays := if again then v.replays + 1 else 1 }
    let s := (s.setHop hop dir v).sendWaiting
    if hop == causewayHop then
      let (w, s) := s.fresh
      let s := (s.satRf ⟨.cwErr, 0, dir⟩ 63 32 kept.length).satRf ⟨.cwErr, 0, dir⟩ 31 0 (w % 2)
      if 32 ≤ v.replays then s.failCauseway else s
    else s

/-- The low bit of the spare count of a direction in CW_STATUS. -/
def spareBit (dir : Nat) : Nat := if dir == 0 then 0 else 4

/-- Spare lanes of a direction that are neither in use nor in training. -/
def spares (s : State) (dir : Nat) : Nat := s.rf cwStatus (spareBit dir + 3) (spareBit dir) - (s.pkg.swaps.filter fun w => w.1 == dir).length

/-- LANE_FAILING: a swap begins on the lowest free spare, or the direction has none left (R368, R369). -/
def laneFails (s : State) (dir lane : Nat) : State :=
  if s.pkg.causewayFailed then s
  else if s.spares dir == 0 then s.failCauseway
  else (s.setPkg { s.pkg with swaps := s.pkg.swaps ++ [(dir, lane)] }).setRf cwStatus 62 62 1

/-- LANE_SWAP_DONE: the lane's bits travel on the spare, and the direction replays its unacknowledged frames; or the spare does not train. -/
def laneSwapped (s : State) (dir : Nat) (trained : Bool) : State :=
  match s.pkg.swaps.find? fun w => w.1 == dir with
  | none => s
  | some w =>
    if !trained then s.failCauseway
    else
      let left := s.rf cwStatus (spareBit dir + 3) (spareBit dir)
      let k := 4 - left
      let s := s.setPkg { s.pkg with swaps := s.pkg.swaps.erase w }
      let s := s.setRf cwStatus (spareBit dir + 3) (spareBit dir) (left - 1)
      let s := s.setRf cwStatus 62 62 (b2n (!s.pkg.swaps.isEmpty))
      let s := (s.setRf ⟨.cwSparemap, 0, dir⟩ (8 * k + 7) (8 * k) (0x80 + w.2 % 128)).sendWaiting
      let s := s.satRf ⟨.cwErr, 0, dir⟩ 63 32 (s.hop causewayHop dir).buffer.length
      if left == 1 then s.manage { code := E.cwLaneSpared, severity := 2, kind := 7, detail := w.2 } 2 7 0 false
      else s.logErr { code := E.cwLaneSpared, severity := 0, kind := 7, detail := w.2 }

end State

/-! ## The commands -/

/-- WRITE (R33, R358). -/
def execWrite (f : Frame) (s : State) : Host.Outcome State Fault Refusal := .next (s.takeWrite f)

/-- READ_REQUEST (R34, R358). -/
def execReadRequest (f : Frame) (media : Media) (s : State) : Host.Outcome State Fault Refusal := .next (s.takeRead f media)

/-- READ_RESPONSE (R160, R358). -/
def execReadResponse (f : Frame) (s : State) : Host.Outcome State Fault Refusal := .next (s.takeResponse f)

/-- CREDIT_REQUEST (R361). -/
def execCreditRequest (f : Frame) (s : State) : Host.Outcome State Fault Refusal := .next (s.takeRequest f)

/-- CREDIT_GRANT (R361). -/
def execCreditGrant (f : Frame) (s : State) : Host.Outcome State Fault Refusal := .next (s.takeGrant f)

/-- CREDIT_RETURN (R363, R364). -/
def execCreditReturn (f : Frame) (s : State) : Host.Outcome State Fault Refusal :=
  .next ((s.arrived f).returnCredits f.partition f.target f.gen f.count)

/-- SIGNAL (R310). -/
def execSignal (f : Frame) (s : State) : Host.Outcome State Fault Refusal := .next (s.takeSignal f)

/-- CHANNEL_WRITE (R276). -/
def execChannelWrite (f : Frame) (s : State) : Host.Outcome State Fault Refusal := .next (s.takeWords f)

/-- COMMAND (R358): the frame is consumed; what a harbour's command does is the effect of the command's own row (log entry 26). -/
def execCommand (f : Frame) (s : State) : Host.Outcome State Fault Refusal := .next (s.arrived f)

/-- COMPLETION (R358): the frame is consumed; the entry that a completion leads to is written by the row that ends the task (log entry 26). -/
def execCompletion (f : Frame) (s : State) : Host.Outcome State Fault Refusal := .next (s.arrived f)

/-- ERROR_RESPONSE (R364). -/
def execErrorResponse (f : Frame) (s : State) : Host.Outcome State Fault Refusal := .next (s.takeError f)

/-- IDLE (R358): no transaction. -/
def execIdle (f : Frame) (s : State) : Host.Outcome State Fault Refusal := .next (s.arrived f)

/-- ACKNOWLEDGEMENT (R360). -/
def execAcknowledgement (hop dir seq : Nat) (s : State) : Host.Outcome State Fault Refusal := .next (s.acknowledge hop dir seq)

/-- NEGATIVE_ACKNOWLEDGEMENT (R360). -/
def execNegativeAcknowledgement (hop dir seq : Nat) (s : State) : Host.Outcome State Fault Refusal := .next (s.replay hop dir seq)

/-- LANE_FAILING (R368). -/
def execLaneFailing (dir lane : Nat) (s : State) : Host.Outcome State Fault Refusal := .next (s.laneFails dir lane)

/-- LANE_SWAP_DONE (R368). -/
def execLaneSwapDone (dir : Nat) (trained : Bool) (s : State) : Host.Outcome State Fault Refusal := .next (s.laneSwapped dir trained)

/-- CAUSEWAY_FAILED (R369). -/
def execCausewayFailed (s : State) : Host.Outcome State Fault Refusal := .next s.failCauseway

/-- HOP_REPLAY_LIMIT (R366): the hop is retrained, or marked down with a recovery of its shore. -/
def execHopReplayLimit (shore hop : Nat) (retrained : Bool) (s : State) : Host.Outcome State Fault Refusal :=
  .next (
    let n := 7 * shore + hop
    let s := s.forAll [0, 1] fun s d => s.setHop n d { s.hop n d with replays := 0 }
    if retrained then s.sendWaiting
    else
      let s := if s.pkg.hopsDown.contains n then s else s.setPkg { s.pkg with hopsDown := s.pkg.hopsDown ++ [n] }
      s.manage { code := E.fabricHop, severity := 2, kind := 8, unit := n } 3 8 n true)

/-- TOWER_RETRY_LIMIT (R153): the interface is retrained, or the tower is recovered. -/
def execTowerRetryLimit (tower : Nat) (retrained : Bool) (s : State) : Host.Outcome State Fault Refusal :=
  .next (if retrained then s else s.manage { code := E.towerLink, severity := 2, kind := 3, unit := tower } 2 3 tower true)

end Sys2Proof.Machine
end

