-- ==== Sys2Proof/Machine/Wire.lean ====
section
/-! DEFINITION. The bits of frames: the header and the bytes of a fabric frame (R358, R360, R362), its stripes over the lanes of the Causeway (R367), and
the 308 bytes of a frame of a Bangeby link, in both directions (R371, R372, R378). Log entry 117 says what the layouts leave open. -/

namespace Sys2Proof.Machine

namespace Wire

/-! ## Fabric frames (R358, R360, R362) -/

/-- Bits 51 to 0 of the address field: of a credit frame its count, target and generation (R362), else the target's address. -/
def addressField (f : Frame) : Nat :=
  if [3, 4, 5].contains f.kind then (f.count + 511) % 512 + f.target % 32 * 2 ^ 16 + f.gen % 16 * 2 ^ 24 else f.address % 2 ^ 52

/-- The payload that a frame carries: of a write, a read response, a channel write, a command or a completion. -/
def payload (f : Frame) : List Byte := if [0, 2, 7, 8, 9].contains f.kind then f.payload else []

/-- The source field: a harbour and the Lighthouse are 0x1FF. -/
def sourceField (f : Frame) : Nat := if f.source < 384 then f.source else 0x1FF

/-- The 16 bytes of a header. -/
def header (seq : Nat) (f : Frame) : List Byte :=
  leBytes 2 seq ++ leBytes 1 (frameClass f.kind * 64 + f.kind % 64) ++ leBytes 1 (f.partition % 8 * 32 + b2n f.arrive * 16) ++ leBytes 7 (addressField f) ++
  leBytes 1 ((payload f).length - 1) ++ leBytes 1 (if f.arrive then f.counter % 64 else 0) ++
  leBytes 3 (sourceField f * 2 ^ 15 + b2n (f.engine == 6) * 2 ^ 14 + f.tag % 512 * 2 ^ 5)

/-- The CRC of a frame, over its header and its payload. -/
def check (seq : Nat) (f : Frame) : Nat := crc32c (header seq f ++ payload f)

/-- What a header and a payload say of a frame: what no field of the header carries is at 0. -/
def frameOf (h bs : List Byte) : Frame :=
  let kind := fieldAt h 2 1 % 64
  let a := fieldAt h 4 7
  let tail := fieldAt h 13 3
  let credits := [3, 4, 5].contains kind
  { kind := kind, partition := fieldAt h 3 1 / 32, arrive := bitOf (fieldAt h 3 1) 4, address := if credits then 0 else a % 2 ^ 52, package := 256,
    payload := if [0, 2, 7, 8, 9].contains kind then bs.take (fieldAt h 11 1 + 1) else [], count := if credits then fld a 8 0 + 1 else 0,
    counter := fieldAt h 12 1 % 64, source := fld tail 23 15, engine := if bitOf tail 14 then 6 else 5, tag := fld tail 13 5, slot := 0, add := 0xFF, post := false,
    amount := 0, target := if credits then fld a 20 16 else 0, gen := if credits then fld a 27 24 else 0, epoch := 2 }

/-! ## The lanes of the Causeway (R367, R368) -/

/-- The bytes of a payload lane: lane i carries the i-th four of the frame's 256 (DESIGN CHOICE, log entry 117). -/
def laneBytes (bs : List Byte) (i : Nat) : Nat := fieldAt bs (4 * i) 4

/-- The parity of 32 bits. -/
def parity (v : Nat) : Nat := ((List.range 32).filter (bitOf v)).length % 2

/-- The 256 side bits of a frame as a number: header, CRC, the parity of each payload lane, zeros. -/
def sideBits (seq : Nat) (f : Frame) : Nat :=
  leNat (header seq f) + check seq f * 2 ^ 128 + ((List.range 64).map fun i => parity (laneBytes (payload f) i) * 2 ^ (160 + i)).sum

/-- The 36 bits that each payload lane carries of a frame: its payload bits, and above them four side bits. -/
def stripes (seq : Nat) (f : Frame) : List Nat :=
  (List.range 64).map fun i => laneBytes (payload f) i + fld (sideBits seq f) (4 * i + 3) (4 * i) * 2 ^ 32

/-- The side bits and the payload of a frame from its stripes, and the lanes to which the parity attributes an error. -/
def sideOf (ws : List Nat) : Nat := (ws.zipIdx.map fun w => w.1 / 2 ^ 32 % 16 * 2 ^ (4 * w.2)).sum
def payloadOf (ws : List Nat) : List Byte := ws.flatMap fun w => leBytes 4 w
def laneErrors (ws : List Nat) : List Nat :=
  (ws.zipIdx.filter fun w => parity (w.1 % 2 ^ 32) != b2n (bitOf (sideOf ws) (160 + w.2))).map (·.2)

/-- The frame of 64 stripes, where its CRC is that of its side bits. -/
def unstripe (ws : List Nat) : Option Frame :=
  let h := leBytes 16 (sideOf ws)
  let f := frameOf h (payloadOf ws)
  if crc32c (h ++ payload f) = fld (sideOf ws) 159 128 then some f else none

/-- The physical lane of a lane under the map of a direction: the spare that replaces it, else itself. -/
def physicalLane (map lane : Nat) : Nat :=
  match (List.range 4).find? fun k => fld map (8 * k + 7) (8 * k) == 0x80 + lane with
  | some k => 66 + k
  | none => lane

/-! ## Link frames (R371, R372, R378) -/

/-- The n big-endian bytes of a number. -/
def beBytes (n v : Nat) : List Byte := (leBytes n v).reverse

/-- The identity of a direction: the packages and the link numbers of its sender and its receiver. -/
def identity (fromPackage toPackage fromLink toLink : Nat) : Nat :=
  fromPackage % 256 * 2 ^ 24 + toPackage % 256 * 2 ^ 16 + fromLink % 64 * 2 ^ 10 + toLink % 64 * 2 ^ 4

/-- The nonce of a frame. -/
def nonce (ident counter : Nat) : List Byte := beBytes 4 ident ++ beBytes 8 counter

/-- Bytes 0 to 15: the additional authenticated data. -/
def openBytes (f : LinkOut) : List Byte :=
  leBytes 8 f.counter ++ leBytes 1 f.kind ++ leBytes 1 (f.epoch % 2 * 128 + frameClass f.kind * 32) ++
  if f.kind = 11 then leBytes 1 f.subtype ++ zeros 1 ++ leBytes 2 f.fragIndex ++ leBytes 2 f.fragCount else zeros 6

/-- A payload of 256 bytes, with zeros past its end. -/
def whole (bs : List Byte) : List Byte := (bs ++ zeros 256).take 256

/-- Bytes 16 to 287 in the clear: the transaction header, zero in a management frame, and the payload, padded with zeros. -/
def plainBytes (f : LinkOut) : List Byte :=
  match f.frame with
  | some g => header 0 g ++ whole (payload g)
  | none => zeros 16 ++ whole f.payload

def nats (bs : List Byte) : List Nat := bs.map (·.toNat)
def bytes (ns : List Nat) : List Byte := ns.map (BitVec.ofNat 8)
def keyNats (key : BitVec 256) : List Nat := nats (leBytes 32 key.toNat)

/-- Bytes 16 to 303 as they travel: under a key, the ciphertext and its tag; before keys, the clear bytes and zeros. -/
def sealedBytes (key : Option (BitVec 256)) (ident counter : Nat) (aad plain : List Byte) : List Byte :=
  match key with
  | none => plain ++ zeros 16
  | some k =>
    let ct := Aes.stream (keyNats k) (nats (nonce ident counter)) (nats plain)
    bytes (ct ++ Aes.tag (keyNats k) (nats (nonce ident counter)) (nats aad) ct)

/-- The 308 bytes of a frame on a link with an identity. -/
def linkBytes (ident : Nat) (f : LinkOut) : List Byte :=
  let body := openBytes f ++ sealedBytes (f.key.map Config.linkKeyBits) ident f.counter (openBytes f) (plainBytes f)
  body ++ leBytes 4 (crc32c body)

/-- What a receiver reads from 308 bytes that its FEC decoded, with the key of the slot that the epoch bit selects, and the package and link that the
identity of its direction names as the receiver. -/
def linkRead (key : Option (BitVec 256)) (ident : Nat) (bs : List Byte) : LinkFrame :=
  let aad := bs.take 16
  let body := (bs.drop 16).take 272
  let counter := fieldAt bs 0 8
  let n := nats (nonce ident counter)
  let (plain, good) := match key with
    | none => (body, true)
    | some k => (bytes (Aes.stream (keyNats k) n (nats body)), Aes.tag (keyNats k) n (nats aad) (nats body) == nats ((bs.drop 288).take 16))
  let kind := fieldAt bs 8 1 % 64
  let h := plain.take 16
  { fecOk := true, crcOk := crc32c (bs.take 304) == fieldAt bs 304 4, counter := counter, epoch := fieldAt bs 9 1 / 128, authentic := good,
    toPackage := fld ident 23 16, toLink := fld ident 9 4, kind := kind, subtype := if kind = 11 then fieldAt bs 10 1 % 16 else 0,
    fragIndex := if kind = 11 then fieldAt bs 12 2 else 0, fragCount := if kind = 11 then fieldAt bs 14 2 else 0,
    frame := if kind = 11 then { frameOf (zeros 16) [] with kind := 11, payload := plain.drop 16 } else frameOf h (plain.drop 16) }

end Wire

namespace State

/-- The lanes of a direction of the Causeway while a frame crosses it: the physical lane and its 36 bits (R367, R368). -/
def causewayLanes (s : State) (dir seq : Nat) (f : Frame) : List (Nat × Nat) :=
  (Wire.stripes seq f).zipIdx.map fun w => (Wire.physicalLane (s.rf ⟨.cwSparemap, 0, dir⟩ 31 0) w.2, w.1)

/-- The identities of the two directions of a link, as its registers name the peer (R372). -/
def sendIdentity (s : State) (n : Nat) : Nat :=
  Wire.identity s.packageNumber (s.rf (blReg .blStatus n) 47 40) n (s.rf (blReg .blStatus n) 39 34)
def recvIdentity (s : State) (n : Nat) : Nat :=
  Wire.identity (s.rf (blReg .blStatus n) 47 40) s.packageNumber (s.rf (blReg .blStatus n) 39 34) n

/-- The bytes of a frame that a link sends, and the frame that a link reads from bytes: those that the lanes carry (R371). -/
def linkWire (s : State) (n : Nat) (f : LinkOut) : List Byte := Wire.linkBytes (s.sendIdentity n) f
def linkFrameOf (s : State) (n : Nat) (bs : List Byte) : LinkFrame :=
  let key := if bitOf (fieldAt bs 9 1) 7 then (s.link n).recvKeys.2 else (s.link n).recvKeys.1
  Wire.linkRead (key.map Config.linkKeyBits) (s.recvIdentity n) bs

end State

end Sys2Proof.Machine
end

