-- ==== Sys2Proof/Machine/Links.lean ====
section
/-! DEFINITION. Bangeby links (R44, R45, R371 to R381): received frames and their checks, transactions from a peer, key agreement and rotation, and
how a link comes up and goes down. -/

namespace Sys2Proof.Machine

/-- The bytes of a certificate chain in an offer or accept, and of the ML-KEM value after it (R378). -/
def messageChain (body : List Byte) : List Byte := (body.drop 38).take (fieldAt body 36 2)
def messageKem (body : List Byte) : List Byte := body.drop (38 + fieldAt body 36 2)

/-- A random nonce of 32 bytes from a draw (R430, log entry 7). -/
def nonceOf (draw : Nat) : List Byte := (List.range 32).map fun i => BitVec.ofNat 8 (Config.unstated 41 draw i).toNat

/-- The two direction keys of a link from a shared secret and a context: that of the leader's frames and that of the follower's (R377, R379). -/
def directionKeys (leader : Bool) (secret : Nat) (ctx : List Byte) : Nat × Nat :=
  let a := Config.hkdfKey secret ctx 0
  let b := Config.hkdfKey secret ctx 1
  if leader then (a, b) else (b, a)

/-- The number of the secret that an encapsulation under a key with a draw gives. -/
def secretOf (kem : List Byte) (draw : Nat) : Nat := (Config.unstated 42 (leNat kem) draw).toNat

namespace State

def linkStat (n : Nat) : RegId := blReg .blStatus n
def linkRotating (s : State) (n : Nat) : Bool := s.rb (linkStat n) 60

/-- Whether this module leads the link's exchanges (R377). -/
def leads (s : State) (n : Nat) : Bool := decide (s.packageNumber < s.rf (linkStat n) 47 40)

/-- A link goes down, and the error meets the active recoveries (R376, R456). -/
def downLink (s : State) (n : Nat) (keep : Bool) : State :=
  let seq := s.seqOf (linkError n E.blDown 2)
  (s.linkDown n keep none).escalate (Recovery.of 2 5 n seq) false E.blDown seq

/-- An exchange ends with E_BL_KEY_FAIL, and the link goes down; tell: an abort goes to the peer (R377, R378). -/
def keyFail (s : State) (n : Nat) (tell : Bool) : State :=
  let s := if tell then s.linkMessage n 8 (leBytes 2 E.blKeyFail ++ zeros 2) else s
  (s.manage (linkError n E.blKeyFail 2) 2 5 n false).downLink n true

/-! ## Key agreement (R377, R378) -/

/-- The leader's offer. An exchange whose random values cannot be drawn does not begin (R430). -/
def sendOffer (s : State) (n : Nat) : State :=
  match s.drawKey with
  | (none, s) => s
  | (some d, s) =>
    let body := leBytes 1 s.packageNumber ++ leBytes 1 n ++ zeros 2 ++ nonceOf d ++ leBytes 2 Config.certChain.length ++ Config.certChain ++ Config.kemKey d
    (s.setLink n { s.link n with stage := 1, transcript := body, secret := d }).linkMessage n 1 body

/-- Agreement begins: the leader offers, the follower asks it to. -/
def startAgree (s : State) (n : Nat) : State :=
  if !s.linkUp n || s.linkKeyed n || (s.link n).stage != 0 then s
  else if s.leads n then s.sendOffer n
  else (s.setLink n { s.link n with stage := 4 }).linkMessage n 7 (leBytes 4 1)

/-- A signature of the Alias key is asked for (R419, R420). -/
def askSignature (s : State) (m : Medium) (kind : Nat) (digest : List Byte) (link : Nat) : State :=
  s.setTrust { s.trust with signing := s.trust.signing ++ [(m, kind, digest, link)] }

/-- OFFER at the follower: the chain is verified, the secret encapsulated, and the transcript waits for its signature. -/
def takeOffer (s : State) (n : Nat) (m : KeyMessage) : State :=
  let l := s.link n
  if !s.linkUp n then s
  else if s.leads n || s.linkKeyed n || !(l.stage == 0 || l.stage == 4) || !Config.chainVerify (messageChain m.body) then s.keyFail n true
  else
    match s.drawKey with
    | (none, s) => s.keyFail n true
    | (some d, s) =>
      let ct := Config.kemEncaps (messageKem m.body) d
      let body := leBytes 1 s.packageNumber ++ leBytes 1 n ++ zeros 2 ++ nonceOf d ++ leBytes 2 Config.certChain.length ++ Config.certChain ++ ct
      let tr := m.body ++ body
      (s.setLink n { l with stage := 8, transcript := tr, secret := secretOf (messageKem m.body) d }).askSignature .smbus 4 (sha256 tr) n

/-- ACCEPT at the leader: the chain and the signature are verified, the secret decapsulated, and the transcript waits for its signature. -/
def takeAccept (s : State) (n : Nat) (m : KeyMessage) : State :=
  let l := s.link n
  let chain := messageChain m.body
  if !s.linkUp n then s
  else if l.stage != 1 || !Config.chainVerify chain || !Config.slhVerify (Config.chainKey chain) (sha256 (l.transcript ++ m.body)) m.signature then s.keyFail n true
  else
    let tr := l.transcript ++ m.body ++ m.signature
    (s.setLink n { l with stage := 9, transcript := tr, secret := secretOf (messageKem m.body) l.secret }).askSignature .smbus 4 (sha256 tr) n

/-- Both direction keys are installed in slot 0, and data frames flow with epoch 0 and counters from 0 (R372, R377). Frames of the exchange that are not
acknowledged stay in the replay buffer. -/
def installKeys (s : State) (n : Nat) (transcript : List Byte) : State :=
  let l := s.link n
  let k := directionKeys (s.leads n) l.secret (sha256 transcript)
  let s := s.setLink n { l with sendKeys := (some k.1, none), recvKeys := (some k.2, none), sendCounter := 0, expected := 0, sentUnder := 0, recvUnder := 0,
                                stage := 0, transcript := [], secret := 0, authFails := 0 }
  ((s.setRf (linkStat n) 62 62 1).setRf (linkStat n) 61 61 0).newGeneration

/-- CONFIRM at the follower. -/
def takeConfirm (s : State) (n : Nat) (m : KeyMessage) : State :=
  let l := s.link n
  if !s.linkUp n then s
  else if l.stage != 2 || !Config.slhVerify (Config.chainKey (messageChain l.transcript)) (sha256 l.transcript) m.signature then s.keyFail n true
  else s.installKeys n (l.transcript ++ m.signature)

/-- A link's signature is ready: the follower's accept goes out, or the leader's confirm, with which it installs the keys (R377). -/
def linkSigned (s : State) (n : Nat) (sig : List Byte) : State :=
  let l := s.link n
  match l.stage with
  | 8 =>
    let offer := 38 + fieldAt l.transcript 36 2 + 1184
    (s.setLink n { l with stage := 2, transcript := l.transcript ++ sig }).linkMessage n 2 (l.transcript.drop offer ++ sig)
  | 9 => (s.linkMessage n 3 sig).installKeys n (l.transcript ++ sig)
  | _ => s

/-! ## Key rotation (R379, R380) -/

/-- A rotation begins: the leader offers a new encapsulation key, the follower asks it to. -/
def startRotation (s : State) (n : Nat) : State :=
  if !s.linkUp n || !s.linkKeyed n || s.linkRotating n || (s.link n).stage != 0 then s
  else if s.leads n then
    match s.drawKey with
    | (none, s) => s
    | (some d, s) =>
      ((s.setRf (linkStat n) 60 60 1).setLink n { s.link n with stage := 5, secret := d, readySent := false, peerReady := false }).linkMessage n 4 (Config.kemKey d)
  else ((s.setRf (linkStat n) 60 60 1).setLink n { s.link n with stage := 4, readySent := false, peerReady := false }).linkMessage n 7 (leBytes 4 2)

/-- The bytes of the present keys, from which the next are derived (R379). -/
def presentKeys (s : State) (n : Nat) : List Byte :=
  let l := s.link n
  let e := s.linkEpoch n
  let a := (slotOf l.sendKeys e).getD 0
  let b := (slotOf l.recvKeys e).getD 0
  if s.leads n then leBytes 32 a ++ leBytes 32 b else leBytes 32 b ++ leBytes 32 a

/-- The new keys are installed in the other slot, and ready goes out. -/
def installNext (s : State) (n secret : Nat) : State :=
  let l := s.link n
  let e := s.linkEpoch n
  let k := directionKeys (s.leads n) secret (s.presentKeys n)
  (s.setLink n { l with sendKeys := setSlot l.sendKeys (1 - e) (some k.1), recvKeys := setSlot l.recvKeys (1 - e) (some k.2), newKeys := some k, stage := 7,
                        readySent := true }).linkMessage n 6 (leBytes 4 (1 - e))

/-- Sending switches to the new epoch once both ends are ready. -/
def trySwitch (s : State) (n : Nat) : State :=
  let l := s.link n
  if l.readySent && l.peerReady && l.newKeys.isSome then
    let s := s.setRf (linkStat n) 61 61 (1 - s.linkEpoch n)
    ((s.setLink n { l with newKeys := none, sentUnder := 0 }).trimKeys n).newGeneration
  else s

/-- ROTATE_OFFER at the follower. -/
def takeRotateOffer (s : State) (n : Nat) (m : KeyMessage) : State :=
  let l := s.link n
  if !s.linkUp n then s
  else if s.leads n || !s.linkKeyed n || !(l.stage == 0 || l.stage == 4) then s.keyFail n true
  else
    match s.drawKey with
    | (none, s) => s.keyFail n true
    | (some d, s) =>
      let s := (s.setRf (linkStat n) 60 60 1).setLink n { l with readySent := false, peerReady := false }
      (s.linkMessage n 5 (Config.kemEncaps m.body d)).installNext n (secretOf m.body d)

/-- ROTATE_ACCEPT at the leader. -/
def takeRotateAccept (s : State) (n : Nat) (m : KeyMessage) : State :=
  let l := s.link n
  if !s.linkUp n then s
  else if l.stage != 5 then s.keyFail n true
  else (s.installNext n (secretOf m.body l.secret)).trySwitch n

/-- READY from the other end. -/
def takeReady (s : State) (n epoch : Nat) : State :=
  let l := s.link n
  if !s.linkUp n then s
  else if !s.linkRotating n || l.peerReady || !(l.stage == 5 || l.stage == 7) || epoch != 1 - s.linkEpoch n then s.keyFail n true
  else (s.setLink n { l with peerReady := true }).trySwitch n

/-- REQUEST from the follower. -/
def takeLinkRequest (s : State) (n what : Nat) : State :=
  if !s.linkUp n then s
  else if !s.leads n || !(what == 1 || what == 2) then s.keyFail n true
  else if what == 1 then s.startAgree n
  else s.startRotation n

/-- ABORT from the other end ends the exchange in progress. -/
def takeAbort (s : State) (n : Nat) : State :=
  if !s.linkUp n || ((s.link n).stage == 0 && !s.linkRotating n) then s else s.keyFail n false

/-! ## Frames from a peer (R373, R375) -/

/-- A negative acknowledgement for the expected counter. -/
def linkNak (s : State) (n : Nat) : State := s.emit (.linkAck n false (s.link n).expected)

/-- An address that a peer names, after steps 4 to 8 of R122 in the tables of the partition that owns the link (R375). -/
def peerTarget (s : State) (p : Nat) (f : Frame) (write : Bool) : Except Nat (Nat × Nat) :=
  match placeOf f.address with
  | .cove g off =>
    match s.coveAddr p f.slot g off with
    | some a => .ok (a, 2)
    | none => .error E.windowFault
  | .control _ => .error E.windowFault
  | _ => s.translate p f.tenant write f.address

/-- The transaction of a frame as this module serves it: the peer's requester is the link. -/
def peerFrame (p n : Nat) (f : Frame) (a ep : Nat) : Frame :=
  { f with partition := p, source := 512 + n, address := a, epoch := ep, package := 256, target := (placeOf f.address).target }

/-- A transaction that arrives on a link is served under the partition that owns the link, and answered over the same link (R375). -/
def servePeer (s : State) (n : Nat) (f : Frame) : State :=
  let p := s.linkOwner n
  let l := s.link n
  let refuse (s : State) (c : Nat) : State := s.linkSend n (errorFrame f c)
  let refuseWrite (s : State) (c : Nat) : State := (s.returnFor (peerFrame p n f f.address 2)).linkSend n (errorFrame f c)
  let outward (s : State) (o : Frame) : State :=
    s.setLink n { s.link n with outbound := (s.link n).outbound.filter fun q => !decide (q.1 = o) }
  let mine (o : Frame) : Bool := o.source == f.source && o.slot == f.slot && o.engine == f.engine && o.tag == f.tag
  match f.kind with
  | 0 =>
    match s.peerTarget p f true with
    | .error c => refuseWrite s c
    | .ok (a, ep) =>
      match s.serveWrite (peerFrame p n f a ep) with
      | (some c, s) => refuse s c
      | (none, s) => s
  | 1 =>
    match s.peerTarget p f false with
    | .error c => refuse s c
    | .ok (a, ep) =>
      match s.serveRead (peerFrame p n f a ep) .good with
      | (.error c, s) => refuse s c
      | (.ok bs, s) => s.linkSend n { f with kind := 2, payload := bs }
  | 2 =>
    match l.reads.find? mine with
    | none => s
    | some r => (s.setLink n { l with reads := l.reads.erase r }).readDone (frameEngine r) r.tag f.payload
  | 3 => s.takeRequest { f with partition := p, source := 512 + n }
  | 4 =>
    match l.outbound.find? fun o => o.2 == 0 && mine o.1 with
    | none => s.linkSend n (returnFrame f f.count)
    | some o => s.linkSend n o.1
  | 5 => s.returnCredits p f.target f.gen f.count
  | 6 =>
    match s.peerTarget p f true with
    | .error c => refuseWrite s c
    | .ok (a, ep) => s.takeSignal (peerFrame p n f a ep)
  | 7 =>
    match s.peerTarget p f true with
    | .error c => refuseWrite s c
    | .ok (a, ep) => s.takeWords (peerFrame p n f a ep)
  | 10 =>
    let code := if f.amount == 0 then E.targetRecovering else f.amount
    match l.reads.find? mine, l.outbound.find? fun o => mine o.1 with
    | some r, _ => (s.setLink n { l with reads := l.reads.erase r }).xactError (frameEngine r) r.tag code
    | none, some o => ((outward s o.1).returnCredits o.1.partition (20 + n / 9) o.1.gen 1).xactError (frameEngine o.1) o.1.tag code
    | none, none => s
  | _ => s

/-- Which subtype the present step of an exchange takes next (R378). -/
def subtypeOk (s : State) (n subtype : Nat) : Bool :=
  let l := s.link n
  match subtype with
  | 1 => !s.leads n && !s.linkKeyed n && (l.stage == 0 || l.stage == 4)
  | 2 => l.stage == 1
  | 3 => l.stage == 2
  | 4 => !s.leads n && s.linkKeyed n && (l.stage == 0 || l.stage == 4)
  | 5 => l.stage == 5
  | 6 => s.linkRotating n && (l.stage == 5 || l.stage == 7)
  | 7 => s.leads n
  | 8 => true
  | _ => false

/-- A fragment of a management message (R378): the fragments of a message follow each other with one subtype and one count, and their
bytes join. The message takes effect as the row of its own that names it. -/
def takeFragment (s : State) (n : Nat) (f : LinkFrame) : State :=
  let l := s.link n
  let (sub, got, count) := l.frag
  let first := got == 0
  if !s.subtypeOk n f.subtype || f.fragIndex != got || f.fragCount == 0 || (!first && (sub != f.subtype || count != f.fragCount)) then
    (s.setLink n { l with frag := (0, 0, 0) }).keyFail n true
  else s.setLink n { l with frag := if f.fragIndex + 1 == f.fragCount then (0, 0, 0) else (f.subtype, got + 1, f.fragCount),
                            parts := (if first then [] else l.parts) ++ f.frame.payload }

/-- A frame that every check passes is accepted and acknowledged; the first one of a new epoch destroys the old receive slot (R379). -/
def acceptFrame (s : State) (n : Nat) (f : LinkFrame) : State :=
  let l := s.link n
  let old := slotOf l.recvKeys (1 - f.epoch)
  let turn := s.linkRotating n && l.readySent && old.isSome && f.epoch != (if l.newKeys.isSome then s.linkEpoch n else 1 - s.linkEpoch n)
  let l := { l with expected := l.expected + 1, authFails := 0, recvUnder := if turn then 1 else l.recvUnder + 1,
                    recvKeys := if turn then setSlot l.recvKeys (1 - f.epoch) none else l.recvKeys }
  let s := ((s.setLink n l).addRf (blReg .blCount n) 31 0 1).emit (.linkAck n true (l.expected - 1))
  let s := s.trimKeys n
  if f.kind == 11 then (if f.subtype == 0 then s else s.takeFragment n f) else s.servePeer n f.frame

/-- The checks of R373 in order. -/
def takeLinkFrame (s : State) (n : Nat) (f : LinkFrame) : State :=
  let l := s.link n
  let clear := l.recvKeys.1.isNone && l.recvKeys.2.isNone && f.kind == 11 && f.subtype != 0
  let err := blReg .blErr n
  if !s.linkUp n then s
  else if !f.fecOk then (s.satRf err 47 32 1).linkNak n
  else if !f.crcOk then s.linkNak n
  else if f.counter < l.expected then s.emit (.linkAck n true (l.expected - 1))
  else if l.expected < f.counter then s.linkNak n
  else if !clear && (slotOf l.recvKeys f.epoch).isNone then (s.logErr (linkError n E.blNokey 0)).linkNak n
  else if !clear && !f.authentic then
    let s := (s.satRf err 63 48 1).setLink n { l with authFails := l.authFails + 1 }
    if 2 ≤ l.authFails then ((s.manage (linkError n E.blAuth 2) 2 5 n false).linkNak n).downLink n true
    else (s.logErr (linkError n E.blAuth 0)).linkNak n
  else if !clear && (f.toPackage != s.packageNumber || f.toLink != n) then s.logErr (linkError n E.blMisrouted 0)
  else s.acceptFrame n f

end State

/-! ## The commands -/

/-- LINK_FRAME (R373). -/
def execLinkFrame (link : Nat) (f : LinkFrame) (s : State) : Host.Outcome State Fault Refusal := .next (s.takeLinkFrame link f)

/-- OFFER (R378). -/
def execOffer (link : Nat) (m : KeyMessage) (s : State) : Host.Outcome State Fault Refusal := .next (s.takeOffer link m)

/-- ACCEPT (R378). -/
def execAccept (link : Nat) (m : KeyMessage) (s : State) : Host.Outcome State Fault Refusal := .next (s.takeAccept link m)

/-- CONFIRM (R378). -/
def execConfirm (link : Nat) (m : KeyMessage) (s : State) : Host.Outcome State Fault Refusal := .next (s.takeConfirm link m)

/-- ROTATE_OFFER (R379). -/
def execRotateOffer (link : Nat) (m : KeyMessage) (s : State) : Host.Outcome State Fault Refusal := .next (s.takeRotateOffer link m)

/-- ROTATE_ACCEPT (R379). -/
def execRotateAccept (link : Nat) (m : KeyMessage) (s : State) : Host.Outcome State Fault Refusal := .next (s.takeRotateAccept link m)

/-- READY (R379). -/
def execReady (link epoch : Nat) (s : State) : Host.Outcome State Fault Refusal := .next (s.takeReady link epoch)

/-- REQUEST (R378). -/
def execRequest (link what : Nat) (s : State) : Host.Outcome State Fault Refusal := .next (s.takeLinkRequest link what)

/-- ABORT (R378): the exchange in progress ends; the message's code is the peer's reason. -/
def execAbort (link _code : Nat) (s : State) : Host.Outcome State Fault Refusal := .next (s.takeAbort link)

/-- BL_LINK_UP (R377): the lanes of an enabled link have trained, and agreement begins unless both ends hold one package number. -/
def execBlLinkUp (link peerPackage peerLink : Nat) (s : State) : Host.Outcome State Fault Refusal :=
  .next (
    if !s.rb (blReg .blCfg link) 63 || !(s.link link).cable || s.linkUp link || s.fenced 5 link then s
    else if peerPackage == s.packageNumber then s.logErr (State.linkError link E.blPackage 0)
    else
      let s := s.setReg (State.linkStat link) (BitVec.ofNat 64 (2 ^ 63 + peerPackage % 256 * 2 ^ 40 + peerLink % 64 * 2 ^ 34))
      (s.setLink link { Link.down with cable := true, peerGen := (s.link link).peerGen }).startAgree link)

/-- BL_DOWN (R376). -/
def execBlDown (link : Nat) (cause : BlDownCause) (s : State) : Host.Outcome State Fault Refusal :=
  .next (
    if !s.linkUp link then s
    else match cause with
      | .training => s.downLink link false
      | .authentication => s.downLink link true
      | .keysDropped => s.downLink link true
      | .keyFail => s.keyFail link false)

/-- KEY_ROTATION_FRAME_LIMIT (R379): either direction has sent 2^40 frames under its present key; below that count nothing happens. -/
def execKeyRotationFrameLimit (link : Nat) (s : State) : Host.Outcome State Fault Refusal :=
  .next (if 2 ^ 40 ≤ max (s.link link).sentUnder (s.link link).recvUnder then s.startRotation link else s)

/-- DATA_FRAME_HOLD (R380): at 2^40 + 2^32 frames under one key the direction stops sending data frames until the rotation completes. -/
def execDataFrameHold (link : Nat) (s : State) : Host.Outcome State Fault Refusal :=
  .next (if s.linkUp link && s.linkKeyed link && decide (2 ^ 40 + 2 ^ 32 ≤ (s.link link).sentUnder) then s.setRf (State.linkStat link) 59 59 1 else s)

/-- A write of an action bit of BL_KEYCTLn, which is busy while an exchange is in progress (R380, R381). -/
def State.keyAction (s : State) (port : Port) (link bit : Nat) (f : State → State) : State :=
  let r := blReg .blKeyctl link
  s.access (.host port) true r fun s =>
    if s.busy (.host port) r (BitVec.ofNat 64 (2 ^ bit)) then s.logErr (r.notice E.busyWrite) else f s

/-- KEY_AGREE (R377). -/
def execKeyAgree (port : Port) (link : Nat) (s : State) : Host.Outcome State Fault Refusal :=
  .next (s.keyAction port link 63 fun s => s.startAgree link)

/-- KEY_ROTATE (R379). -/
def execKeyRotate (port : Port) (link : Nat) (s : State) : Host.Outcome State Fault Refusal :=
  .next (s.keyAction port link 62 fun s => s.startRotation link)

/-- KEY_DROP (R376): L class, so an exchange in progress does not hold it off. -/
def execKeyDrop (port : Port) (link : Nat) (s : State) : Host.Outcome State Fault Refusal :=
  .next (s.access (.host port) true (blReg .blKeyctl link) fun s => if s.linkUp link then s.downLink link true else s)

end Sys2Proof.Machine
end

