-- ==== Sys2Proof/Machine/Host.lean ====
section
/-! DEFINITION. Host ports and the CXL tier (R383 to R409, R451, R474, R478): BAR4, configuration requests, links and resets of a host port, the
mode of the package, heartbeat and CLAIM, the head of an error log, and CXL ports. -/

namespace Sys2Proof.Machine

/-- A notice about the Lighthouse. -/
def lhNotice (code : Nat) : ErrInfo := { code := code, severity := 0, kind := 9 }

/-- The register that shows a port. -/
def portstat (p : Port) : RegId := ⟨.hbPortstat, p.harbour, 0⟩

def lhHostctl : RegId := ⟨.lhHostctl, 0, 0⟩
def lhHoststat : RegId := ⟨.lhHoststat, 0, 0⟩
def lhClaim : RegId := ⟨.lhClaim, 0, 0⟩
def lhBootstat : RegId := ⟨.lhBootstat, 0, 0⟩

namespace State

/-! ## BAR4 (R387, R388) -/

/-- The bytes of a port's BAR4 (R384). -/
def bar4Size (s : State) (p : Port) : Nat := 2 ^ (s.port p).bar4

/-- The aperture register of a BAR4 offset (R387). -/
def aperture (s : State) (p : Port) (o : Nat) : RegId := ⟨.hbMemwin, p.harbour, o * 16 / s.bar4Size p⟩

/-- Where a BAR4 access goes: the partition, the physical address and the epoch of a sealed page; none when it fails (R387). The port owns the
aperture's partition (R46, R48), and no unit that it reaches is fenced (R454). -/
def bar4Place (s : State) (p : Port) (write : Bool) (o : Nat) : Option (Nat × Nat × Nat) :=
  let r := s.aperture p o
  let q := s.rf r 54 52
  if s.bar4Size p ≤ o || !s.rb r 63 || !(if write then s.rb r 61 else s.rb r 62) || !s.portOwns p q then none
  else match s.translate q false write (s.rf r 51 21 * 0x200000 + o % (s.bar4Size p / 16)) with
    | .error _ => none
    | .ok (a, ep) => if s.placeFenced 0x1FF a then none else some (q, a, ep)

/-- The pieces of a BAR4 access that no boundary of 256 bytes cuts: offset and length. -/
def bar4Pieces : Nat → Nat → Nat → List (Nat × Nat)
  | 0, _, _ => []
  | k + 1, o, n =>
    if n = 0 then []
    else
      let m := min n (256 - o % 256)
      (o, m) :: bar4Pieces k (o + m) (n - m)

/-- The notice of a BAR4 access that fails. -/
def memwinFault (s : State) (p : Port) (o : Nat) : ErrInfo :=
  { portNotice p E.memwinFault with partition := if s.bar4Size p ≤ o then none else some (s.rf (s.aperture p o) 54 52), detail := o }

/-- Whether an access through an aperture meets a session without the T bit (R427). -/
def tdiRefuses (s : State) (p : Port) (tbit : Bool) (o : Nat) : Bool :=
  !tbit && decide (o < s.bar4Size p) && s.rb (s.aperture p o) 63 && s.inSession (s.rf (s.aperture p o) 54 52)

/-- The bytes of a BAR4 read, which meets what has struck them (R146, R147, R153); none when a piece of it fails. -/
def bar4Bytes (p : Port) : State → List (Nat × Nat) → Option (List Byte) × State
  | s, [] => (some [], s)
  | s, (o, n) :: rest =>
    match s.bar4Place p false o with
    | none => (none, s)
    | some (q, a, ep) =>
      let s := s.meet a n
      if (s.readFault a n).isSome then (none, s)
      else let (r, s) := bar4Bytes p s rest; (r.map (s.readBytes q ep a n ++ ·), s)

/-- A BAR4 read (R387, R427). -/
def bar4Read (s : State) (p : Port) (tbit : Bool) (o n : Nat) : State :=
  if !(s.port p).linkUp then s
  else if s.tdiRefuses p tbit o then (s.logErr { s.memwinFault p o with code := E.tdiAccess }).emit (.unsupportedRequest p)
  else match bar4Bytes p s (bar4Pieces (n / 256 + 2) o n) with
    | (some bs, s) => s.emit (.readData p bs)
    | (none, s) => (s.logErr (s.memwinFault p o)).emit (.completerAbort p)

/-- One transaction of a BAR4 write: the harbour holds it behind the earlier ones of its port and, with none before it, asks for its credit (R388); or
it discards it. -/
def bar4Piece (s : State) (p : Port) (o : Nat) (bs : List Byte) : State :=
  match s.bar4Place p true o with
  | none => s.logErr (s.memwinFault p o)
  | some (q, a, ep) =>
    let tag := (s.port p).heldWrites.foldl (fun t w => max t (w.tag + 1)) 0
    let f : Frame :=
      { kind := 0, partition := q, arrive := false, address := a, package := 256, payload := bs, count := 0, counter := 0, source := 0x1FF, engine := p.shore,
        tag := tag, slot := 0, add := 0xFF, post := false, amount := 0, target := (placeOf a).target, gen := 0, epoch := ep }
    let first := (s.port p).heldWrites.isEmpty
    let s := s.setPort p { s.port p with heldWrites := (s.port p).heldWrites ++ [f] }
    if first then s.send (askFor f) else s

/-- A BAR4 write (R387, R388, R427). -/
def bar4Write (s : State) (p : Port) (tbit : Bool) (o : Nat) (data : List Byte) : State :=
  if !(s.port p).linkUp then s
  else if s.tdiRefuses p tbit o then s.logErr { s.memwinFault p o with code := E.tdiAccess }
  else (bar4Pieces (data.length / 256 + 2) o data.length).foldl (fun s c => s.bar4Piece p c.1 ((data.drop (c.1 - o)).take c.2)) s

/-! ## The link of a host port (R383, R395, R428, R474, R478) -/

/-- Whether the harbours have opened their host ports (R385, R473 step 10). -/
def portsOpen (s : State) : Bool := s.rb lhBootstat 63 && s.trust.lhOk && s.trust.hbOk

/-- A port's link trains (R383, R385): ready once the harbours have opened their ports. -/
def portUp (s : State) (p : Port) (rate width : Nat) (flit : Bool) : State :=
  let s := s.setPort p { s.port p with linkUp := true }
  s.setReg (portstat p) (BitVec.ofNat 64
    (b2n s.portsOpen * 2 ^ 63 + b2n (decide (width < 16) || decide (rate < 5)) * 2 ^ 60 + rate % 16 * 2 ^ 56 + width % 32 * 2 ^ 51 + b2n flit * 2 ^ 50))

/-- A port's link goes down: the partitions that the port owns leave their sessions (R428), and their streams end. -/
def portDown (s : State) (p : Port) : State :=
  let s := (s.setPort p { s.port p with linkUp := false, ide := [] }).setReg (portstat p) 0
  s.forAll (List.range 8) fun s q => if s.portOwns p q then s.sessionError q 0 0 else s

/-- A register of a host port that a host port reset clears: its queues and its MSI-X table (R477, R478). -/
def clearedByPort (n : RegName) : Bool :=
  match n with
  | .hbTqbase | .hbTqcfg | .hbTqdb | .hbTqstat | .hbCqbase | .hbCqcfg | .hbCqhead | .hbCqstat | .msixTable | .msixPba => true
  | _ => false

/-- A host port reset (R477, R478). -/
def portReset (s : State) (p : Port) (perst : Bool) : State :=
  let s := s.portDown p
  let s := s.dropRegs fun r => r.unit == p.harbour && clearedByPort r.name
  let s := s.setTasks (s.tasks.map fun t => if t.active && decide (t.port = p) then { t with discarded := true } else t)
  s.setPort p { s.port p with seq := 0, held := [], sinceFired := [], heldBells := [], lastQueue := 63, bar4 := 30, perst := (s.port p).perst || perst }

/-! ## The mode of the package (R49, R398, R400, R429) -/

/-- Whether every partition is in SLACK (R49, R349). -/
def allSlack (s : State) : Bool := (List.range 8).all fun p => s.strataState p == 2

/-- Whether the mode may change to a requested one (R49, R400, R429). -/
def modeMay (s : State) (split : Bool) : Bool :=
  s.allSlack && (List.range 8).all (fun p => (s.session p).state == 0)
  && (split || !s.pkg.causewayFailed) && s.pkg.changing.isNone

/-- A mode request is refused: both requests are cleared. -/
def refuseMode (s : State) : State := (s.setPkg { s.pkg with requests := [] }).logErr (lhNotice E.modeRefused)

/-- A request of LH_HOSTCTL (R400): the controlling port's alone, or identical ones of both ports. -/
def requestMode (s : State) (p : Port) (split toE : Bool) : State :=
  if !s.modeMay split then s.refuseMode
  else if !s.pkg.split && s.pkg.control != 0 then s.setPkg { s.pkg with changing := some (split, toE), requests := [] }
  else
    let others := s.pkg.requests.filter fun r => decide (r.1 ≠ p)
    match others with
    | [] => s.setPkg { s.pkg with requests := [(p, split, toE)] }
    | r :: _ => if r.2.1 == split && r.2.2 == toE then s.setPkg { s.pkg with changing := some (split, toE), requests := [] } else s.refuseMode

/-- An accepted change applies, if every partition is in slack water then too (R49, R349, R400); else it is refused (DESIGN CHOICE, log entry 84). -/
def applyMode (s : State) : State :=
  match s.pkg.changing with
  | none => s
  | some (split, toE) =>
    if !s.allSlack then (s.setPkg { s.pkg with changing := none }).refuseMode
    else if split then s.enterSplit else s.enterUnified toE

/-- A write of LH_HOSTCTL (R400, R405): the fields, and the request when its bit is 1. -/
def writeHostctl (s : State) (p : Port) (v : Word) : State :=
  let s := s.setReg lhHostctl (wput v 63 63 0 &&& 0x60000000000003FF)
  if wbit v 63 then s.requestMode p (wbit v 62) (wbit v 61) else s

/-! ## Heartbeat and CLAIM (R402 to R404, R481) -/

/-- The heartbeat gap in ms; 0 turns failover off (R405). -/
def gapMs (s : State) : Nat :=
  let g := s.rf lhHostctl 9 0
  if g = 0 then 0 else min 1000 (max 5 g)

/-- A heartbeat of the controlling port. -/
def beat (s : State) (v : Word) : State :=
  ((s.setReg ⟨.lhHeartbeat, 0, 0⟩ v).setRf lhHoststat 59 59 0).setLh { s.lh with silence := 0 }

/-- The controlling host is silent beyond the gap (R402). -/
def setStale (s : State) : State :=
  if s.pkg.split || s.pkg.control == 0 || s.gapMs == 0 then s else s.setRf lhHoststat 59 59 1

/-- The former controlling port loses its queues, its entries and its express words (R404). -/
def closePort (s : State) (p : Port) : State :=
  let s := s.setTasks (s.tasks.map fun t => if t.active && decide (t.port = p) then { t with discarded := true } else t)
  let s := s.setPort p { s.port p with held := [], sinceFired := [], heldWords := [], heldBells := [] }
  s.forAll (List.range 64) fun s q => s.setRf ⟨.hbTqcfg, p.harbour, q⟩ 63 63 0

/-- A claim is accepted (R353, R398, R403, R404, R428). -/
def acceptClaim (s : State) (p : Port) : State :=
  let s := if s.pkg.control == 0 then s else s.closePort p.other
  let s := ((s.tasks.filter Task.active).foldl (fun s t => s.abortTask t.id) s).admitHeld
  let s := s.setPkg { s.pkg with requests := [], control := p.shore + 1 }
  let s := s.forAll (List.range 8) fun s q => s.abandonLoad q none
  let s := s.sessionErrors 0 0
  let s := ((s.setRf lhHoststat 59 59 0).addRf lhHoststat 31 0 1).setRf lhClaim 15 0 0
  (s.setLh { s.lh with silence := 0 }).newGeneration

/-- A claim is examined (R398, R403, R481). -/
def examineClaim (s : State) (p : Port) : State :=
  if !s.pkg.split && (s.pkg.control == 0 || (s.pkg.control != p.shore + 1 && s.gapMs != 0 && s.rb lhHoststat 59)) then s.acceptClaim p
  else (s.setRf lhClaim 15 0 E.claimRefused).logErr (lhNotice E.claimRefused)

/-- The claims that wait are examined, port W first, unless a recovery of the package runs or the package is halted (R398, R403, R457). -/
def examineClaims (s : State) : State :=
  if s.pkg.halted || s.lh.recoveries.any (fun e => e.2.level == 4) then s
  else
    let cs := s.pkg.claims
    let s := s.setPkg { s.pkg with claims := [] }
    let s := if cs.contains Port.w then s.examineClaim .w else s
    if cs.contains Port.e then s.examineClaim .e else s

/-- A claim waits for the next sample. -/
def addClaim (s : State) (p : Port) : State :=
  if s.pkg.claims.contains p then s else s.setPkg { s.pkg with claims := s.pkg.claims ++ [p] }

/-! ## The head of an error log (R451) -/

/-- Positions from an old head to a written one: all 256 where a full log's head is written again. -/
def headAdvance (l : ErrLog) (head : Nat) : Nat :=
  let d := (head + 256 - l.head) % 256
  if d == 0 && l.unread == 256 then 256 else d

/-- A write of HB_ERRHEAD of a shore. -/
def writeErrhead (s : State) (shore head : Nat) : State :=
  let l := s.log shore
  let d := headAdvance l (head % 256)
  if l.unread < d then s.logErr { code := E.errlogHead, severity := 0, kind := 4, unit := 2 * shore }
  else s.setLog shore { l with head := head % 256, unread := l.unread - d }

/-! ## CXL ports (R406 to R408, R469, R485) -/

/-- The units of 256 MiB that a port may map (R406, R407, R469). -/
def cxlUnits (s : State) (p capacity : Nat) : Nat :=
  let q := s.cxlOwner p
  let used := ((List.range 4).filter fun k => k != p && s.cxlOwner k == q).foldl (fun a k => a + s.cxlCapacity k) 0
  let cap := min capacity 0x40000000000
  match (if q < 8 then s.quotaLimit q 1 else none) with
  | some l => min cap (l * 0x200000 - used) / 0x10000000
  | none => cap / 0x10000000

/-- A port's bring-up begins (R407). -/
def cxlBegin (s : State) (p : Nat) : State :=
  if s.rf (cxReg .cxStatus p) 63 61 != 0 then s
  else (s.setCxl p { s.cxl p with bringUp := true, perst := false }).setRf (cxReg .cxStatus p) 63 61 1

/-- A port stays down: the bring-up ends without success. -/
def cxlStays (s : State) (p code : Nat) : State :=
  (s.setCxl p { s.cxl p with bringUp := false }).setReg (cxReg .cxStatus p) (BitVec.ofNat 64 code)

/-- A port goes down by R408 when it is up, and its bring-up ends when it is not; the error escalates what it meets (R456). -/
def cxlGoesDown (s : State) (p code : Nat) : State :=
  match s.rf (cxReg .cxStatus p) 63 61 with
  | 0 => s
  | 4 =>
    let f := Recovery.of 2 6 p 0
    let cause := s.recoveryCause f
    let seq := s.nextSeq (if p < 2 then 0 else 1)
    (s.cxlDown p code cause).escalate f false E.cxlDown seq
  | _ => s.cxlStays p (s.rf (cxReg .cxStatus p) 15 0)

/-- A write of CX_CFGp (R407, R408, R485). -/
def writeCxcfg (s : State) (by' : Agent) (p : Nat) (v : Word) : State :=
  let r := cxReg .cxCfg p
  let b := s.busy by' r v
  let s := s.store by' r v
  if b then s
  else if wbit v 63 then s.cxlBegin p
  else
    let s := s.cxlGoesDown p E.cxlDown
    s.setCxl p { s.cxl p with perst := true }

/-- The end of a port's bring-up: what stands at the port decides (R406, R407, R430, R485). -/
def cxlPortUp (s : State) (p : Nat) (dev : CxlDevice) : State :=
  if !(s.cxl p).bringUp || s.fenced 6 p then s
  else if !dev.present then s.cxlStays p (s.rf (cxReg .cxStatus p) 15 0)
  else if !dev.direct then (s.cxlStays p E.cxlTopology).logErr { code := E.cxlTopology, severity := 0, kind := 6, unit := p }
  else if !dev.ide then (s.cxlStays p E.cxlNoide).logErr { code := E.cxlNoide, severity := 0, kind := 6, unit := p }
  else
    match (if dev.authentic then s.drawKey else (none, s)) with
    | (none, s) => s.cxlStays p (s.rf (cxReg .cxStatus p) 15 0)
    | (some k, s) =>
      let u := s.cxlUnits p dev.capacity
      let s := s.setCxl p { s.cxl p with bringUp := false, ideKey := some k, capacity := u * 0x10000000 }
      let s := s.setReg (cxReg .cxCap p) (BitVec.ofNat 64 u)
      (s.setReg (cxReg .cxStatus p) (BitVec.ofNat 64 (4 * 2 ^ 61 + 2 ^ 60 + dev.rate % 16 * 2 ^ 56 + dev.width % 32 * 2 ^ 51 + s.rf (cxReg .cxStatus p) 15 0))).newGeneration

end State

/-! ## The commands -/

/-- BAR4_READ (R387). -/
def execBar4Read (port : Port) (tbit : Bool) (offset len : Nat) (s : State) : Host.Outcome State Fault Refusal :=
  .next (s.bar4Read port tbit offset len)

/-- BAR4_WRITE (R387, R388). -/
def execBar4Write (port : Port) (tbit : Bool) (offset : Nat) (data : List Byte) (s : State) : Host.Outcome State Fault Refusal :=
  .next (s.bar4Write port tbit offset data)

/-- The configuration space of a port's physical function (R383). -/
def configSpace (s : State) (port : Port) : ConfigSpace :=
  let t := 0xD008000 + port.shore * 0x800000
  { vendor := Config.vendorId, device := if s.pkg.gradeB then 0xD25B else 0xD25A, classCode := 0x12, subclass := 0,
    capabilities := [.msix, .aer, .resizableBar, .doe, .ide, .tdisp], vectors := 1024, table := t, pending := t + 0x4000 }

/-- CONFIG_REQUEST (R383, R384, R385): Request Retry Status until the port accepts work; a request that completes may set BAR4's size. -/
def execConfigRequest (port : Port) (resize : Option Nat) (s : State) : Host.Outcome State Fault Refusal :=
  .next (
    if (s.port port).perst || !s.rb (portstat port) 63 then s.emit (.config port none)
    else
      let s := match resize with
        | some n => s.setPort port { s.port port with bar4 := min 40 (max 30 n) }
        | none => s
      s.emit (.config port (some (configSpace s port))))

/-- PERST_DEASSERT (R385, R474): the link trains, and the port is ready when the harbours have opened their ports. -/
def execPerstDeassert (port : Port) (rate width : Nat) (flit : Bool) (s : State) : Host.Outcome State Fault Refusal :=
  .next (
    let s := s.setPort port { s.port port with perst := false }
    if s.portsOpen then s.portUp port rate width flit else s)

/-- HOST_PORT_RESET (R477, R478). -/
def execHostPortReset (port : Port) (kind : PortResetKind) (s : State) : Host.Outcome State Fault Refusal :=
  .next (s.portReset port (decide (kind = .perst)))

/-- HOST_LINK_DOWN (R428, R478). -/
def execHostLinkDown (port : Port) (s : State) : Host.Outcome State Fault Refusal := .next (s.portDown port)

/-- HOST_LINK_UP (R383, R395): the port's link is up; its held entries can be written again (HELD_COMPLETION_WRITE). -/
def execHostLinkUp (port : Port) (rate width : Nat) (flit : Bool) (s : State) : Host.Outcome State Fault Refusal :=
  .next (if (s.port port).perst || !s.portsOpen then s else s.portUp port rate width flit)

/-- MODE_REQUEST (R400): a write of LH_HOSTCTL with request = 1 that leaves the gap. -/
def execModeRequest (port : Port) (split toE : Bool) (s : State) : Host.Outcome State Fault Refusal :=
  .next (s.access (.host port) true lhHostctl fun s =>
    s.writeHostctl port (BitVec.ofNat 64 (2 ^ 63 + b2n split * 2 ^ 62 + b2n toE * 2 ^ 61 + s.rf lhHostctl 9 0)))

/-- MODE_CHANGE_APPLIED (R400). -/
def execModeChangeApplied (s : State) : Host.Outcome State Fault Refusal := .next s.applyMode

/-- HEARTBEAT (R402). -/
def execHeartbeat (port : Port) (value : Nat) (s : State) : Host.Outcome State Fault Refusal :=
  .next (s.access (.host port) true ⟨.lhHeartbeat, 0, 0⟩ fun s => s.beat (BitVec.ofNat 64 value))

/-- HEARTBEAT_STALE (R402). -/
def execHeartbeatStale (s : State) : Host.Outcome State Fault Refusal := .next s.setStale

/-- CLAIM (R403): it is examined at the next sample. -/
def execClaim (port : Port) (s : State) : Host.Outcome State Fault Refusal :=
  .next (s.access (.host port) true lhClaim fun s => s.addClaim port)

/-- ERRLOG_HEAD_WRITE (R451). -/
def execErrlogHeadWrite (port : Port) (shore head : Nat) (s : State) : Host.Outcome State Fault Refusal :=
  .next (s.access (.host port) true ⟨.hbErrhead, 2 * shore, 0⟩ fun s => s.writeErrhead shore head)

/-- CXL_ENABLE (R407): a write of enable = 1. -/
def execCxlEnable (port : Port) (p : Nat) (s : State) : Host.Outcome State Fault Refusal :=
  .next (s.access (.host port) true (cxReg .cxCfg p) fun s => s.writeCxcfg (.host port) p (BitVec.ofNat 64 (2 ^ 63)))

/-- CXL_DISABLE (R408): a write of enable = 0. -/
def execCxlDisable (port : Port) (p : Nat) (s : State) : Host.Outcome State Fault Refusal :=
  .next (s.access (.host port) true (cxReg .cxCfg p) fun s => s.writeCxcfg (.host port) p 0)

/-- CXL_PORT_UP (R407). -/
def execCxlPortUp (p : Nat) (dev : CxlDevice) (s : State) : Host.Outcome State Fault Refusal := .next (s.cxlPortUp p dev)

/-- CXL_DOWN (R408): the port's link fails, its device is removed, or an IDE integrity check fails. -/
def execCxlDown (p : Nat) (cause : CxlDownCause) (s : State) : Host.Outcome State Fault Refusal :=
  .next (
    match cause with
    | .ide =>
      if s.rf (cxReg .cxStatus p) 63 61 == 4 then
        (s.manage { code := E.cxlIdeFail, severity := 2, kind := 6, unit := p } 2 6 p false).cxlGoesDown p E.cxlIdeFail
      else s.cxlGoesDown p E.cxlIdeFail
    | _ => s.cxlGoesDown p E.cxlDown)

end Sys2Proof.Machine
end

