-- ==== Sys2Proof/Machine/Trust.lean ====
section
/-! DEFINITION. The root of trust (R413 to R421, R430, R441 to R443), measurements and the layout record (R421, R463), TDISP interfaces
(R423 to R429), rotation of sealing keys (R433 to R435), the end of a scrub (R437 to R439), and the management transports (R410, R411). -/

namespace Sys2Proof.Machine

/-- The number of the Alias key (R419). -/
def aliasKey : Nat := 0

/-- A range of the layout record: valid, partition, count of pages, first page (R463). -/
def LayoutRange.word (r : LayoutRange) : Nat := 2 ^ 63 + r.partition % 8 * 2 ^ 60 + r.count % 2 ^ 20 * 2 ^ 20 + r.first % 2 ^ 20

/-- A text's bytes as the root of trust signs them: the header and the body of an image (R416). -/
def fwSigned (i : FwImage) : List Byte := i.header ++ i.body

/-- The kind that an image's header names (R415). -/
def fwKind (i : FwImage) : Nat := fieldAt i.header 4 1

/-- Body bytes at most, by kind (R415). -/
def bodyLimit (kind : Nat) : Nat := if kind == 3 then 0x40000 else 0x400000

namespace State

/-! ## Firmware (R415 to R418) -/

/-- The rollback counter of a kind. -/
def svnOf (s : State) (kind : Nat) : Nat :=
  match kind with
  | 1 => s.trust.svnLh
  | 2 => s.trust.svnHb
  | _ => s.trust.svnPil

/-- The code with which an image is rejected; none when it is accepted (R416). -/
def fwFault (s : State) (kind : Nat) (i : FwImage) : Option Nat :=
  let h := i.header
  let key := fieldAt h 6 1
  if h.length ≠ 64 ∨ fieldAt h 0 4 ≠ 0x4D574C46 ∨ fwKind i ≠ kind ∨ fieldAt h 7 1 ≠ 0 ∨ fieldAt h 48 16 ≠ 0 ∨ fieldAt h 8 4 ≠ i.body.length ∨ bodyLimit kind < i.body.length
      ∨ sha256 i.body ≠ (h.drop 16).take 32 ∨ 4 ≤ key ∨ bitOf s.trust.revoked key = true ∨ i.signature.length ≠ 7856
      ∨ Config.slhVerify (Config.pkey key) (sha256 (fwSigned i)) i.signature = false then some E.fwVerify
  else if fieldAt h 5 1 < s.svnOf kind then some E.fwRollback
  else none

/-- What the device reports of a running image (R421). -/
def fwRun (i : FwImage) (copy : Nat) : FwRun :=
  ⟨(i.header.drop 16).take 32, fieldAt i.header 5 1, fieldAt i.header 6 1, copy, fieldAt i.header 12 4⟩

/-- An error of the Lighthouse of management severity that starts no recovery (R447). -/
def lhManage (s : State) (code : Nat) : State := s.manage { code := code, severity := 2, kind := 9 } 2 9 0 false

/-- A commit of a kind: the counter rises to the svn of the running image, and no further than 63 (R418). -/
def commit (s : State) (kind : Nat) : State :=
  let up (c v : Nat) : Nat := min 63 (max c v)
  match kind with
  | 1 => s.setTrust { s.trust with svnLh := up s.trust.svnLh s.trust.lh.svn }
  | 2 => s.setTrust { s.trust with svnHb := up s.trust.svnHb s.trust.hb.svn }
  | 3 => s.setTrust { s.trust with svnPil := up s.trust.svnPil ((List.range 8).foldl (fun a p => max a (s.session p).pilotSvn) 0) }
  | _ => s

/-! ## The layout record and the measurements (R421, R463) -/

/-- The layout record. -/
def layoutRecord (s : State) : List Byte :=
  leBytes 1 (b2n s.pkg.split) ++ leBytes 1 s.pkg.control ++ zeros 2 ++ (s.pkg.die.map fun v => leBytes 1 v).flatten ++ (s.pkg.cxl.map fun v => leBytes 1 v).flatten ++
  (s.pkg.link.map fun v => leBytes 1 v).flatten ++ zeros 8 ++ (padTo 512 0 ((s.pkg.ranges.map fun r => leBytes 8 r.word).flatten)).take 512

/-- The section of measurement 6 for one partition (log entry 28). -/
def layoutOf (s : State) (p : Nat) : List Byte :=
  let own (v : Nat) : List Byte := leBytes 1 (if v == p then v else 0xFF)
  leBytes 1 (b2n s.pkg.split) ++ leBytes 1 s.pkg.control ++ zeros 2 ++ (s.pkg.die.map own).flatten ++ (s.pkg.cxl.map own).flatten ++ (s.pkg.link.map own).flatten ++ zeros 8 ++
  (padTo 512 0 (((s.pkg.ranges.filter fun r => r.partition == p).map fun r => leBytes 8 r.word).flatten)).take 512

/-- A firmware's measurement: digest, svn, key slot and copy. -/
def fwMeasure (r : FwRun) : List Byte := r.digest ++ leBytes 1 r.svn ++ leBytes 1 r.key ++ leBytes 1 r.copy

/-- Whether a port that owns a partition holds its IDE stream. -/
def hasStream (s : State) (p : Nat) : Bool := [Port.w, Port.e].any fun o => s.portOwns o p && (s.port o).ide.contains p

/-- Whether LH_SECCTL.fullres reads 1 (R442). -/
def fullres (s : State) : Bool := !s.trust.lockClosed && s.rb ⟨.lhSecctl, 0, 0⟩ 63

/-- A measurement (R421; the order and the widths of a value's parts are log entry 28). -/
def measurement (s : State) (i : Nat) : List Byte :=
  if i == 1 then Config.romDigest
  else if i == 2 then fwMeasure s.trust.lh
  else if i == 3 then fwMeasure s.trust.hb
  else if i == 4 then
    leBytes 1 (b2n s.pkg.gradeB) ++ leBytes 1 (b2n s.trust.lockBlown) ++ leBytes 1 s.trust.revoked ++ leBytes 1 s.trust.svnLh ++ leBytes 1 s.trust.svnHb ++ leBytes 1 s.trust.svnPil
  else if i == 5 then leBytes 1 (b2n (!s.trust.lockClosed)) ++ leBytes 1 (b2n s.fullres) ++ leBytes 4 (sat 32 s.trust.debugTasks)
  else if i == 6 then s.layoutRecord
  else if i < 0x20 ∨ 0x40 ≤ i then []
  else
    let p := (i - 0x20) / 4
    let v := s.session p
    match i % 4 with
    | 0 => v.pilotDigest ++ leBytes 1 v.pilotSvn
    | 1 => s.layoutOf p ++ leBytes 1 (b2n (s.hasStream p)) ++ leBytes 1 v.state
    | 2 => v.chain
    | _ => v.log.flatten

/-! ## TDISP interfaces (R423 to R425) -/

/-- A TDISP request is refused (R424). -/
def refuseTdisp (s : State) (port : Port) (p : Nat) : State :=
  (s.logErr { portNotice port E.tdispRefused with partition := some p }).emit (.tdisp port p false)

/-- The conditions of LOCK_INTERFACE (R423, R424). -/
def lockMay (s : State) (port : Port) (p : Nat) : Bool :=
  s.portOwns port p && (s.session p).state == 0 && s.strataState p == 2 && s.imageLoaded p && !(s.tasks.any fun t => t.partition == p && t.state == 1)
  && (s.session p).pilotOk && !s.scrubbing p && (s.port port).ide.contains p && s.trust.entropyOk

/-- New IDE keys for the CXL ports of a partition (R425, R431). -/
def rekeyPorts (s : State) (p : Nat) : State :=
  s.forAll ((List.range 4).filter fun k => s.cxlOwner k == p && (s.cxl k).ideKey.isSome) fun s k =>
    match s.drawKey with
    | (some d, s) => s.setCxl k { s.cxl k with ideKey := some d }
    | (none, s) => s

/-- Entry to CONFIG_LOCKED (R422, R425). -/
def lockInterface (s : State) (port : Port) (p : Nat) : State :=
  match s.drawKey with
  | (none, s) => s.refuseTdisp port p
  | (some k, s) =>
    let old := s.session p
    let s := s.setSession p { old with state := 1, port := port.shore, log := [], chain := List.replicate 32 0, key0 := some k, key1 := none, epoch := 0, rotating := false, stopping := false }
    let s := (s.setRf ⟨.lhPartsec, 0, p⟩ 31 0 0).setRf ⟨.lhSealstat, 0, p⟩ 23 0 0
    let s := s.rekeyPorts p
    let s := s.sessionEntry p 1 0 0 (sha256 (s.measurement 2 ++ s.measurement 3 ++ s.measurement 4 ++ s.measurement (0x21 + 4 * p)))
    let s := s.sessionEntry p 2 0 (s.reg ⟨.lhStrataId, 0, p⟩).toNat (sha256 (s.phase p).image)
    let s := if old.epoch == 0 then s else s.newGeneration
    s.emit (.tdisp port p true)

/-- STOP_INTERFACE (R424, R429): the tasks abort, and the interface unlocks once the scrub of the session's end is over. -/
def stopInterface (s : State) (port : Port) (p : Nat) : State :=
  let v := s.session p
  if !s.portOwns port p || v.state == 0 then s.refuseTdisp port p
  else
    let s := s.emit (.tdisp port p true)
    if v.state == 3 then
      if v.scrub then s.setSession p { v with stopping := true } else s.setSession p { v with state := 0 }
    else
      let s := (s.tasks.filter fun t => t.active && t.partition == p).foldl (fun s t => s.abortTask t.id) s
      let s := s.beginScrub p
      s.setSession p { s.session p with stopping := true }

/-- The MMIO ranges of a partition (R425): BAR number × 2^48 + offset, and bytes. -/
def mmioRanges (s : State) (port : Port) (p : Nat) : List (Nat × Nat) :=
  (((List.range 12).filter fun d => s.dieOwner d == p).map fun d =>
    (RegBlock.baseOf .die d, 0x800000) :: ((s.coresOf d).map fun g => [(RegBlock.baseOf .core g, 0x40000), (2 * 2 ^ 48 + g * 0x20000, 0x20000)]).flatten).flatten ++
  ((List.range 16).filter fun n => s.rb ⟨.hbMemwin, port.harbour, n⟩ 63 && s.rf ⟨.hbMemwin, port.harbour, n⟩ 54 52 == p).map fun n =>
    (4 * 2 ^ 48 + n * (s.bar4Size port / 16), s.bar4Size port / 16)

/-! ## Rotation of sealing keys (R433 to R435) -/

/-- A write of LH_SEALCTLp.rotate = 1 (R433). -/
def sealRotate (s : State) (p : Nat) : State :=
  let v := s.session p
  if !s.inSession p || v.rotating then s.logErr { RegId.notice ⟨.lhSealctl, 0, p⟩ E.busyWrite with partition := some p }
  else
    match s.drawKey with
    | (none, s) => s
    | (some k, s) =>
      let e := 1 - v.epoch
      let s := s.setSession p (if e == 1 then { v with key1 := some k, epoch := 1, rotating := true } else { v with key0 := some k, epoch := 0, rotating := true })
      let s := s.setRf ⟨.lhSealstat, 0, p⟩ 23 0 (s.oldPages p v.epoch)
      s.newGeneration.endRotation p

/-- An address lies in the 2 MiB page at a base. -/
def inPage (base a : Nat) : Bool := decide (base ≤ a) && decide (a < base + 0x200000)

/-- Whether an access to a page that was translated under an epoch is in flight (R434). -/
def pageInFlight (s : State) (p epoch base : Nat) : Bool :=
  (s.frames ++ s.backlog).any (fun f => decide (f.kind < 3) && f.partition == p && f.epoch == epoch && inPage base f.address)
  || s.engs.any fun e => e.2.moves.any fun m => m.xacts.any fun v => v.stage == 2 && v.epoch == epoch && inPage base v.address &&
      match s.taskAt e.1.core e.1.slot with
      | some t => t.partition == p
      | none => false

/-- The accesses to a page that are held are translated again (R434): they carry the new epoch. -/
def retranslate (s : State) (p old new base : Nat) : State :=
  let held (v : Xact) : Xact := if v.stage != 2 && v.epoch == old && inPage base v.address then { v with epoch := new } else v
  let grow (o : OpenTx) : OpenTx := if o.epoch == old && inPage base o.address then { o with epoch := new } else o
  let engs := s.engs.map fun e =>
    match s.taskAt e.1.core e.1.slot with
    | some t => if t.partition == p then (e.1, { e.2 with moves := e.2.moves.map fun m => { m with xacts := m.xacts.map held, tx := m.tx.map grow } }) else e
    | none => e
  let s := s.setEngs engs
  let again (w : Frame) : Frame := if w.partition == p && w.epoch == old && inPage base w.address then { w with epoch := new } else w
  [Port.w, Port.e].foldl (fun s o => s.setPort o { s.port o with heldWrites := (s.port o).heldWrites.map again }) s

/-- One page is re-sealed (R434): what was written under the old key is now written under the new one, and the page's entry names the new epoch. It
waits while an access under the old epoch is in flight. -/
def resealPage (s : State) (p page : Nat) : State :=
  let v := s.session p
  let old := 1 - v.epoch
  let base := s.reg ⟨.lhPtbase, 0, 3 * p + 1⟩
  let a := wfld base 51 12 * 4096 + 8 * page
  let e := leNat (s.bytes a 8)
  let phys := fld e 35 0 * 0x10000
  if !v.rotating || !wbit base 0 || !bitOf e 63 || !bitOf e 59 || fld e 58 58 != old || s.pageInFlight p old phys then s
  else match s.sealKey p old, s.sealKey p v.epoch with
    | some k, some k' =>
      let s := s.setSeals (s.seals.map fun u => if inPage phys (256 * u.1) && u.2 == k then (u.1, k') else u)
      let s := s.setBytes a (leBytes 8 (putFld e 58 58 v.epoch))
      let s := s.retranslate p old v.epoch phys
      (s.setRf ⟨.lhSealstat, 0, p⟩ 23 0 (s.rf ⟨.lhSealstat, 0, p⟩ 23 0 - 1)).endRotation p
    | _, _ => s

/-! ## The end of a scrub (R437 to R439) -/

/-- Sealed units of a range hold zeros that no key protects, once the range is zero-filled through the harbour (R438). -/
def unsealRanges (s : State) (rs : List (Nat × Nat)) (failed : List Nat) : State :=
  s.setSeals (s.seals.filter fun u => !(rs.any fun r => decide (r.1 ≤ 256 * u.1) && decide (256 * u.1 < r.1 + r.2))
    || failed.any fun f => decide (f ≤ 256 * u.1) && decide (256 * u.1 < f + unitSize f))

/-- The clears that a scrub runs on the cores of its partition's dies (R437), or on those whose Coves are among the units that passed. -/
def clearCores (s : State) (p : Nat) (whole : Bool) (us : List (Nat × Nat × Nat)) : State :=
  s.forAll ((List.range 384).filter fun g => s.enabled g && s.dieOwner (g / 32) == p && (whole || us.any fun u => u.1 == coveBase g)) fun s g => s.clearCore g

/-- A unit whose zero-fill failed (R439): its error, and the scrub's with that error as its cause; no partition owns it. -/
def scrubFailed (s : State) (p : Nat) (u : Nat × Nat) : State :=
  let (kind, unit) := unitAt u.1
  let e : ErrInfo := { code := u.2, severity := 0, kind := kind, unit := unit, partition := some p }
  let seq := s.seqOf e
  let s := (s.logErr e).manage { code := E.scrubFault, severity := 2, kind := kind, unit := unit, partition := some p, cause := some seq } (if kind == 1 then 1 else 2) kind unit false
  if s.lh.unowned.any fun v => v.1 == u.1 then s else s.setLh { s.lh with unowned := s.lh.unowned ++ [(u.1, unitSize u.1)] }

/-- The scrubs of a partition that run come to their end (R438, R439). -/
def scrubDone (s : State) (p : Nat) (failed : List (Nat × Nat)) : State :=
  let v := s.session p
  if !v.scrub && v.units.isEmpty then s
  else
    let session := if v.scrub then s.sessionRanges p else []
    let passed := v.units.map fun u => (u.1, u.2.1)
    let failed := failed.filter fun f => (session ++ passed).any fun r => decide (r.1 ≤ f.1) && decide (f.1 < r.1 + r.2)
    let bad := failed.map (·.1)
    let s := (s.scrubRanges (session ++ passed) bad).unsealRanges passed bad
    let s := s.clearCores p v.scrub v.units
    let s := s.setLh { s.lh with unowned := s.lh.unowned.filter fun u => !passed.any (fun r => decide (r.1 ≤ u.1) && decide (u.1 < r.1 + r.2)) || bad.contains u.1 }
    let s := failed.foldl (fun s u => s.scrubFailed p u) s
    let s :=
      if v.scrub then
        (s.sessionEntry p 3 ((session.foldl (fun a r => a + r.2 / 4096) 0)) 0 (rangesDigest session)).sessionEntry p 5 0 0 (zeros 32)
      else s
    let w := s.session p
    s.setSession p { w with scrub := false, units := [], state := if v.scrub && v.stopping then 0 else w.state, stopping := if v.scrub then false else w.stopping }

/-! ## SPDM (R420) -/

/-- Whether the Lighthouse's firmware runs (R417, R473, R490). -/
def lighthouseRuns (s : State) : Bool := s.pkg.powered && !s.pkg.heldReset && s.trust.lhOk

/-- Whether the Lighthouse serves a management medium (R410, R417, R474). -/
def serves (s : State) (m : Medium) : Bool :=
  s.lighthouseRuns &&
  match m with
  | .smbus => true
  | .pcie p => (s.port p).linkUp && s.trust.hbOk
  | .doe p => (s.port p).linkUp && s.trust.hbOk

/-- A request that needs a signature waits for it (R420). -/
def askSigned (s : State) (m : Medium) (kind : Nat) (response : List Byte) : State :=
  (s.emit (.responseNotReady m)).setTrust { s.trust with signing := s.trust.signing ++ [(m, kind, response, 0)] }

/-- The signature of the oldest request is ready. -/
def signed (s : State) : State :=
  match s.trust.signing with
  | [] => s
  | (m, kind, bs, n) :: rest =>
    let s := s.setTrust { s.trust with signing := rest }
    if kind == 4 then s.linkSigned n (Config.slhSign aliasKey bs)
    else s.emit (.spdm m kind (bs ++ Config.slhSign aliasKey (sha256 bs)))

/-! ## Pilot loads (R443) -/

/-- A firmware image as it lies in memory. -/
def imageAt (s : State) (a : Nat) : FwImage :=
  let n := fieldAt (s.bytes a 64) 8 4
  ⟨s.bytes a 64, s.bytes (a + 64) n, s.bytes (a + 64 + n) 7856⟩

/-- A write of LH_PILOTFWp with load = 1 (R443). -/
def pilotLoad (s : State) (p base : Nat) : State :=
  let a := base * 4096
  let r : RegId := ⟨.lhPilotfw, 0, p⟩
  let refuse (c : Nat) : State := s.logErr { r.notice c with partition := some p }
  if s.strataState p ≠ 2 then refuse E.notSlack
  else if (s.session p).state ≠ 0 ∨ !s.ownTower p a 64 then refuse E.protectedWrite
  else
    let n := fieldAt (s.bytes a 64) 8 4
    let s := s.setReg r (BitVec.ofNat 64 (base % 2 ^ 40 * 4096))
    if 0x40000 < n then (s.setRf ⟨.lhPartsec, 0, p⟩ 47 32 E.fwVerify).lhManage E.fwVerify
    else if !s.ownTower p a (64 + n + 7856) then s.logErr { r.notice E.protectedWrite with partition := some p }
    else
      let i := s.imageAt a
      match s.fwFault 3 i with
      | some c => (s.setRf ⟨.lhPartsec, 0, p⟩ 47 32 c).lhManage c
      | none =>
        (s.setSession p { s.session p with pilotDigest := (i.header.drop 16).take 32, pilotSvn := fieldAt i.header 5 1, pilotOk := true }).setRf ⟨.lhPartsec, 0, p⟩ 47 32 0

/-! ## The debug lock (R441, R442) -/

/-- A write of LH_SECCTL.fullres. -/
def writeFullres (s : State) (on : Bool) : State :=
  if s.trust.lockClosed then (if on then s.logErr (lhNotice E.debugClosed) else s)
  else s.setRf ⟨.lhSecctl, 0, 0⟩ 63 63 (b2n on)

/-- A write of LH_SECCTL.lockfuse = 1 by the controlling port. -/
def blowLock (s : State) : State := s.setTrust { s.trust with lockBlown := true }

end State

/-! ## The commands: interfaces and keys -/

/-- LOCK_INTERFACE (R424, R425). -/
def execLockInterface (port : Port) (p : Nat) (s : State) : Host.Outcome State Fault Refusal :=
  .next (if !(s.port port).linkUp then s else if s.lockMay port p then s.lockInterface port p else s.refuseTdisp port p)

/-- START_INTERFACE (R424). -/
def execStartInterface (port : Port) (p : Nat) (s : State) : Host.Outcome State Fault Refusal :=
  .next (
    if !(s.port port).linkUp then s
    else if s.portOwns port p && (s.session p).state == 1 && !(s.session p).stopping then
      (s.setSession p { s.session p with state := 2 }).emit (.tdisp port p true)
    else s.refuseTdisp port p)

/-- STOP_INTERFACE (R424). -/
def execStopInterface (port : Port) (p : Nat) (s : State) : Host.Outcome State Fault Refusal := .next (if (s.port port).linkUp then s.stopInterface port p else s)

/-- GET_DEVICE_INTERFACE_REPORT (R425). -/
def execGetDeviceInterfaceReport (port : Port) (p : Nat) (s : State) : Host.Outcome State Fault Refusal :=
  .next (if !(s.port port).linkUp then s else if s.portOwns port p then s.emit (.tdispReport port p (s.mmioRanges port p) (s.measurement (0x21 + 4 * p))) else s.refuseTdisp port p)

/-- IDE_KM (R423): the host keys the selective stream of a partition. -/
def execIdeKm (port : Port) (p : Nat) (s : State) : Host.Outcome State Fault Refusal :=
  .next (if (s.port port).linkUp && !(s.port port).ide.contains p then s.setPort port { s.port port with ide := (s.port port).ide ++ [p] } else s)

/-- HOST_IDE_FAIL (R428): an integrity failure ends the stream, and the session when the port owns the partition. -/
def execHostIdeFail (port : Port) (p : Nat) (s : State) : Host.Outcome State Fault Refusal :=
  .next (
    let s := s.setPort port { s.port port with ide := (s.port port).ide.filter fun q => q != p }
    if s.portOwns port p then s.sessionError p 0 0 else s)

/-- SEAL_ROTATE (R433). -/
def execSealRotate (port : Port) (p : Nat) (s : State) : Host.Outcome State Fault Refusal :=
  .next (s.access (.host port) true ⟨.lhSealctl, 0, p⟩ fun s => s.sealRotate p)

/-- PAGE_RESEALED (R434): page is a page number of the CXL page table. -/
def execPageResealed (p page : Nat) (s : State) : Host.Outcome State Fault Refusal := .next (s.resealPage p page)

/-- SCRUB_DONE (R438, R439). -/
def execScrubDone (p : Nat) (failed : List (Nat × Nat)) (s : State) : Host.Outcome State Fault Refusal := .next (s.scrubDone p failed)

/-- ENTROPY_HEALTH_FAIL (R430). -/
def execEntropyHealthFail (s : State) : Host.Outcome State Fault Refusal :=
  .next (if s.pkg.powered then (s.setTrust { s.trust with entropyOk := false }).lhManage E.entropy else s)

/-! ## The commands: fuses and firmware -/

/-- COMMIT_LH (R418). -/
def execCommitLh (port : Port) (s : State) : Host.Outcome State Fault Refusal :=
  .next (s.access (.host port) true ⟨.lhSecctl, 0, 0⟩ fun s => s.commit 1)

/-- COMMIT_HB (R418). -/
def execCommitHb (port : Port) (s : State) : Host.Outcome State Fault Refusal :=
  .next (s.access (.host port) true ⟨.lhSecctl, 0, 0⟩ fun s => s.commit 2)

/-- COMMIT_PIL (R418, R444). -/
def execCommitPil (port : Port) (s : State) : Host.Outcome State Fault Refusal :=
  .next (s.access (.host port) true ⟨.lhSecctl, 0, 0⟩ fun s => s.commit 3)

/-- PLDM_COMMIT (R418): the board controller's commit. -/
def execPldmCommit (kind : Nat) (s : State) : Host.Outcome State Fault Refusal :=
  .next (if s.serves .smbus then s.commit kind else s)

/-- LOCKFUSE (R441). -/
def execLockfuse (port : Port) (s : State) : Host.Outcome State Fault Refusal :=
  .next (s.access (.host port) true ⟨.lhSecctl, 0, 0⟩ fun s => s.blowLock)

/-- FULLRES (R442). -/
def execFullres (by' : Agent) (on : Bool) (s : State) : Host.Outcome State Fault Refusal :=
  .next (s.access by' false ⟨.lhSecctl, 0, 0⟩ fun s => s.writeFullres on)

/-- PILOT_FW_LOAD (R443). -/
def execPilotFwLoad (port : Port) (p base : Nat) (s : State) : Host.Outcome State Fault Refusal :=
  .next (s.access (.host port) true ⟨.lhPilotfw, 0, p⟩ fun s => s.pilotLoad p base)

/-- PLDM_FIRMWARE_UPDATE (R411, R416, R417): the image is verified when it is staged, and activated at the next package reset. -/
def execPldmFirmwareUpdate (img : FwImage) (s : State) : Host.Outcome State Fault Refusal :=
  .next (
    if !s.pkg.powered || s.pkg.heldReset then s
    else match s.fwFault (if fwKind img == 1 || fwKind img == 2 then fwKind img else 3) img with
      | some c => (s.lhManage c).emit (.pldm 1 [c])
      | none => (s.setTrust { s.trust with staged := (s.trust.staged.filter fun i => fwKind i != fwKind img) ++ [img] }).emit (.pldm 1 [0]))

/-! ## The commands: attestation -/

/-- CERTIFICATE (R420): the chain of slot 0. -/
def execCertificate (m : Medium) (s : State) : Host.Outcome State Fault Refusal :=
  .next (if s.serves m then s.emit (.spdm m 4 Config.certChain) else s)

/-- CHALLENGE (R420). -/
def execChallenge (m : Medium) (nonce : List Byte) (s : State) : Host.Outcome State Fault Refusal :=
  .next (if s.serves m then s.askSigned m 1 (nonce ++ sha256 Config.certChain) else s)

/-- MEASUREMENTS (R421): the values of the indices asked for, signed. -/
def execMeasurements (m : Medium) (indices : List Nat) (s : State) : Host.Outcome State Fault Refusal :=
  .next (if s.serves m then s.askSigned m 2 ((indices.map s.measurement).flatten) else s)

/-- KEY_EXCHANGE (R420, R430): the ciphertext for the requester's key; an error response when no key can be drawn. -/
def execKeyExchange (m : Medium) (key : List Byte) (s : State) : Host.Outcome State Fault Refusal :=
  .next (
    if !s.serves m then s
    else match s.drawKey with
      | (some d, s) => s.askSigned m 3 (Config.kemEncaps key d)
      | (none, s) => s.emit (.spdm m 0 []))

/-- SIGNATURE_READY (R420). -/
def execSignatureReady (s : State) : Host.Outcome State Fault Refusal := .next s.signed

/-- ENDPOINT_ID_ASSIGNMENT (R410): the bus owner of a medium assigns the endpoint ID. -/
def execEndpointIdAssignment (m : Medium) (eid : Nat) (s : State) : Host.Outcome State Fault Refusal :=
  .next (
    let k := match m with
      | .smbus => 0
      | .pcie .w => 1
      | .pcie .e => 2
      | .doe .w => 3
      | .doe .e => 4
    s.setTrust { s.trust with eids := Tab.put id 0 s.trust.eids k eid })

/-- TEST_PORT_INSTRUCTION (R442): with the lock closed every instruction but BYPASS (0) and IDCODE (1) acts as BYPASS. -/
def execTestPortInstruction (code : Nat) (s : State) : Host.Outcome State Fault Refusal :=
  .next (
    let c := if s.trust.lockClosed && code != 0 && code != 1 then 0 else code
    (s.setPkg { s.pkg with testInstruction := c }).emit (.testPort c))

end Sys2Proof.Machine
end

