-- ==== Sys2Proof/Machine/Flags.lean ====
section
/-! DEFINITION. What a read of a register shows (R13): the stored value, with every field that the machine computes put in its place (status
of engines, rings and channels, the error logs, recoveries, sessions, usage of quotas), and the coarsening of a tenant's read (R62, R440, R468). -/

namespace Sys2Proof.Machine

/-- A mode number of MA_STATUSn: 0 dense, 1 sparse, 2 plane. -/
def arrayModeNum : Instr → Nat
  | .spmm _ _ => 1
  | .mmaPlane _ _ => 2
  | .lookout _ _ => 2
  | _ => 0

/-- The mode number of SL_STATUS (R249). -/
def sluiceModeNum : Instr → Nat
  | .isect _ o => (isectMode o).getD 0
  | _ => 0

/-- The instruction that an engine's context waits in the middle of. -/
def EngCtx.current (c : EngCtx) : Option Instr :=
  match c.blocked with
  | some (.ring i) => some i
  | _ => none

/-- Whether an engine's context is in the middle of a data instruction. -/
def EngCtx.running (c : EngCtx) : Bool :=
  match c.run with
  | .none => false
  | _ => true

/-- Whether an engine's context waits for a channel in STALL mode or for an item (R60, R65): the waits that stall watch never counts. -/
def EngCtx.exempt (c : EngCtx) : Bool :=
  match c.blocked with
  | some (.chrecv _ _ _ _) => true
  | some .item => true
  | _ => false

/-- Whether a MOVE has transactions to issue yet, for want of a credit or a tag among others (R60, R172). -/
def MoveSt.issuing (m : MoveSt) : Bool :=
  decide (m.next < m.total) || !m.units.isEmpty || !m.strip.isEmpty || m.group.isSome || m.tx.isSome || m.xacts.any fun v => v.stage != 2

/-- Whether an engine's context holds an instruction that has not retired, or a MOVE that has not issued all (R60, R172). -/
def EngCtx.unretired (c : EngCtx) : Bool := !c.queue.isEmpty || !c.frames.isEmpty || c.blocked.isSome || c.moves.any MoveSt.issuing

namespace State

/-! ## Engines (R60, R135, R177, R205, R224, R229, R249, R260, R281) -/

/-- The contexts of an engine, by slot. -/
def contexts (s : State) (core eng : Nat) : List EngCtx := [0, 1, 2, 3].map fun n => s.eng ⟨core, n, eng⟩

/-- Whether a core's Pilot is blocked reading the dispenser's channel for an items nest: a list runs for the core, engines of its task are in an items
nest, and the channel holds no packet (R60, R304). -/
def pilotReads (s : State) (core : Nat) : Bool :=
  let v := s.disp (core / 32)
  let ch := s.rf ⟨.dspCfg, core / 32, 0⟩ 34 32
  s.dispChannel core ch && (s.chan core ch).words.isEmpty && match s.taskAt core v.slot with
    | some t => !(s.itemEngines t core).isEmpty
    | none => false

/-- The exempt bit of an engine: one of its contexts waits for a channel or an item, or it is the Pilot and reads the dispenser's channel. An engine has one
bit for all its slots: while one slot's context is exempt the engine is exempt and not pending, be another slot's instruction waiting; the spec speaks of
the engine alone (log entry 106). -/
def exempt (s : State) (core eng : Nat) : Bool := (s.contexts core eng).any EngCtx.exempt || (eng == 7 && s.pilotReads core)

/-- The pending bit of an engine (R60, R172): a context holds an instruction that has not retired, a MOVE whose writes wait for credit among them, and the
engine is not exempt. -/
def pendingBit (s : State) (core eng : Nat) : Bool := (s.contexts core eng).any EngCtx.unretired && !s.exempt core eng

/-- The context of an engine that is in the middle of a data instruction. -/
def activeCtx (s : State) (core eng : Nat) : EngCtx := ((s.contexts core eng).find? EngCtx.running).getD EngCtx.idle

/-- The bits pending and exempt of a progress register. -/
def progressBits (s : State) (core eng : Nat) (w : Word) : Word := wput (wput w 63 63 (b2n (s.pendingBit core eng))) 62 62 (b2n (s.exempt core eng))

def showRing (s : State) (core n : Nat) : Word :=
  let r := s.ring core n
  BitVec.ofNat 64 (r.slots.length * 2 ^ 16 + r.head * 2 ^ 8 + r.tail)

def showChan (s : State) (core n : Nat) : Word :=
  let c := s.chan core n
  BitVec.ofNat 64 (b2n (decide (64 ≤ c.words.length)) * 2 ^ 63 + b2n c.words.isEmpty * 2 ^ 62 + b2n c.overrun * 2 ^ 61 + b2n c.lvalid * 2 ^ 60 + b2n c.lend * 2 ^ 59
    + packets c * 2 ^ 8 + c.words.length)

def showArray (s : State) (core a : Nat) : Word :=
  let c := s.activeCtx core a
  let v := s.array core a
  let shadow := match c.run with
    | .array r => decide (b2n r.active < r.loads.length)
    | _ => false
  let mode := (c.current.map arrayModeNum).getD 0
  let tr := match c.current with
    | some (.mmaTransposed _ _) => true
    | _ => false
  BitVec.ofNat 64 (b2n c.running * 2 ^ 63 + v.set % 2 * 2 ^ 62 + b2n v.resident * 2 ^ 61 + b2n shadow * 2 ^ 60 + mode * 2 ^ 58 + b2n tr * 2 ^ 57)

/-- The tags of a class that a Stream Engine has in use (R160, R179). -/
def tagsInUse (s : State) (core eng cls : Nat) : Nat :=
  ((s.contexts core eng).map fun c => (c.moves.map fun m => (m.xacts.filter fun v => v.stage == 2 && v.cls == cls).length).sum).sum

def showStream (s : State) (core n : Nat) : Word :=
  let e := 5 + n
  let cs := s.contexts core e
  let busy := cs.any fun c => !c.moves.isEmpty
  let credit := cs.any fun c => c.moves.any fun m => m.xacts.any fun v => v.stage == 1
  let order := cs.any fun c => match c.blocked with
    | some (.order _) => true
    | _ => false
  BitVec.ofNat 64 (b2n busy * 2 ^ 63 + b2n credit * 2 ^ 62 + b2n order * 2 ^ 61 + s.tagsInUse core e 2 % 1024 * 2 ^ 20 + s.tagsInUse core e 1 % 1024 * 2 ^ 10
    + s.tagsInUse core e 0 % 1024)

/-- SL_STATUS (R249). A run is matched whole once its entries are there, so no gallop is in progress between two commands (log entry 54). -/
def showSluice (s : State) (core : Nat) : Word :=
  let c := s.activeCtx core 2
  let m := (c.current.map sluiceModeNum).getD 0
  let resident := match c.current with
    | some (.isect _ o) => o.akind == 1 && (o.bkind == 0 || o.bkind == 3)
    | _ => false
  BitVec.ofNat 64 (if c.running then 2 ^ 63 + m * 2 ^ 60 + b2n resident * 2 ^ 58 else 0)

def showEstuary (s : State) (core : Nat) : Word :=
  match (s.activeCtx core 3).run with
  | .merge r => BitVec.ofNat 64 (2 ^ 63 + b2n (!r.cells.isEmpty) * 2 ^ 62 + sat 32 r.group)
  | _ => 0

/-! ## The harbours and the Lighthouse -/

/-- The role of a port (R390). -/
def role (s : State) (p : Port) : Nat := if s.pkg.split then 3 else if s.pkg.control == 0 then 0 else if s.pkg.control == p.shore + 1 then 1 else 2

/-- The port of a host port's harbour. -/
def portOfHarbour (h : Nat) : Port := if h < 2 then .w else .e

def showErrstat (s : State) (shore : Nat) : Word :=
  let l := s.log shore
  BitVec.ofNat 64 (b2n (l.unread == 256) * 2 ^ 63 + sat 16 l.lost * 2 ^ 32 + l.unread * 2 ^ 16 + l.tail * 2 ^ 8 + l.head)

/-- An entry of a log (R451): zeros where none has been entered. -/
def logEntry (s : State) (shore i : Nat) : List Byte :=
  match Tab.get [] (s.log shore).entries i with
  | [] => zeros 32
  | e => e

/-- The image of a recovery's record (R458). -/
def showRecovery (s : State) (n : Nat) : Word :=
  match s.lh.recoveries.find? fun e => e.1 == n with
  | none => 0
  | some (_, r) =>
    BitVec.ofNat 64 (2 ^ 63 + r.level % 8 * 2 ^ 60 + r.kind % 16 * 2 ^ 56 + Config.stage n s.lh.samples r.level % 6 * 2 ^ 52 + sat 4 (r.escalations) * 2 ^ 48
      + r.unit % 512 * 2 ^ 39 + r.first / 2 ^ 63 % 2 * 2 ^ 32 + r.first % 2 ^ 32)

def showPartsec (s : State) (p : Nat) : Word :=
  let v := s.session p
  let w := s.reg ⟨.lhPartsec, 0, p⟩
  let owner := if s.pkg.split then p % 2 else s.pkg.control - 1
  wput (wput (wput (wput w 63 62 v.state) 61 61 (b2n (s.scrubbing p))) 60 60 (if v.state == 0 then owner else v.port)) 59 54 v.pilotSvn

def showSealstat (s : State) (p : Nat) : Word :=
  let v := s.session p
  wput (wput (wput (wput (s.reg ⟨.lhSealstat, 0, p⟩) 63 63 (b2n v.key1.isSome)) 62 62 (b2n v.key0.isSome)) 61 61 v.epoch) 60 60 (b2n v.rotating)

def showSecstat (s : State) : Word :=
  BitVec.ofNat 64 (b2n (!s.trust.lockClosed) * 2 ^ 63 + b2n (s.trust.lockBlown && !s.trust.lockClosed) * 2 ^ 62 + s.trust.lh.copy % 2 * 2 ^ 61 + s.trust.hb.copy % 2 * 2 ^ 60
    + s.trust.lh.key % 4 * 2 ^ 32 + sat 32 s.trust.debugTasks)

def showFuses (s : State) : Word :=
  BitVec.ofNat 64 (s.trust.revoked % 16 * 2 ^ 42 + s.trust.lh.svn % 64 * 2 ^ 36 + s.trust.hb.svn % 64 * 2 ^ 30 + s.trust.svnLh % 64 * 2 ^ 12 + s.trust.svnHb % 64 * 2 ^ 6
    + s.trust.svnPil % 64)

/-- The usage of a quota (R469). -/
def usage (s : State) (p k : Nat) : Nat :=
  match k with
  | 0 => (s.pkg.ranges.filter fun r => r.partition == p).foldl (fun a r => a + r.count) 0
  | 1 => ((List.range 4).filter fun c => s.cxlOwner c == p).foldl (fun a c => a + s.cxlCapacity c / 0x200000) 0
  | 2 => s.poolUsage p
  | _ => s.taskUsage p

def showQuota (s : State) (p k : Nat) : Word :=
  let u := s.usage p k
  let above := match s.quotaLimit p k with
    | some l => decide (l < u)
    | none => false
  wput (wput (s.reg ⟨.lhQuota, 0, 4 * p + k⟩) 63 63 (b2n above)) 62 32 (sat 31 u)

def showHoststat (s : State) : Word :=
  let mode := if s.pkg.changing.isSome then 2 else b2n s.pkg.split
  let asked (p : Port) : Bool := s.pkg.requests.any fun r => decide (r.1 = p)
  wput (wput (wput (wput (s.reg ⟨.lhHoststat, 0, 0⟩) 63 62 mode) 61 60 s.pkg.control) 58 58 (b2n (asked .w))) 57 57 (b2n (asked .e))

/-- LH_TELEMt at full resolution: the last sample (R440, R468). -/
def showTelem (s : State) (t : Nat) : Word :=
  BitVec.ofNat 64 (s.lh.last.power.getD t 0 % 2 ^ 24 * 2 ^ 40 + s.lh.last.temp.getD t 0 % 2 ^ 12 * 2 ^ 28 + s.lh.voltage.getD t 0 % 2 ^ 12 * 2 ^ 16)

/-- LH_TELEMt as a tenant reads it (R440, R468): whole watts, whole degrees and steps of 5 mV of the 20 ms means. -/
def tenantTelem (s : State) (t : Nat) : Word :=
  let m := s.lh.mean
  BitVec.ofNat 64 (m.power.getD t 0 / 1000 * 1000 % 2 ^ 24 * 2 ^ 40 + m.temp.getD t 0 / 16 * 16 % 2 ^ 12 * 2 ^ 28 + m.volts.getD t 0 / 5 * 5 % 2 ^ 12 * 2 ^ 16)

/-! ## A read -/

/-- A register at full resolution. -/
def fullReg (s : State) (r : RegId) : Word :=
  let w := s.reg r
  match r.name with
  | .rpPtr => s.showRing r.unit r.idx
  | .chCfg => wput w 1 1 0
  | .chStatus => s.showChan r.unit r.idx
  | .chPushend => 0
  | .chData => BitVec.ofNat 64 (((s.chan r.unit r.idx).words.head?.map (·.1)).getD 0)
  | .maAccdata => if s.debugReads r.unit then BitVec.ofNat 64 (leNat (s.imageBytes (s.array r.unit r.idx) (s.rf ⟨.maAccaddr, r.unit, r.idx⟩ 18 3) 1).1) else 0
  | .maStatus => s.showArray r.unit r.idx
  | .pkStatus => wput w 63 63 (b2n (s.activeCtx r.unit 4).running)
  | .ebStatus => wput w 63 63 (b2n ((s.contexts r.unit r.idx).any fun c => !c.outbuf.isEmpty))
  | .slStatus => s.showSluice r.unit
  | .esStatus => s.showEstuary r.unit
  | .seStatus => s.showStream r.unit r.idx
  | .maProgress => s.progressBits r.unit r.idx w
  | .slProgress => s.progressBits r.unit 2 w
  | .esProgress => s.progressBits r.unit 3 w
  | .pkProgress => s.progressBits r.unit 4 w
  | .seProgress => s.progressBits r.unit (5 + r.idx) w
  | .pilProgress => s.progressBits r.unit 7 w
  | .dspListctl => wput w 63 63 0
  | .dspStatus => wput w 63 63 (b2n (s.disp r.unit).running)
  | .hbPortstat => wput w 62 61 (s.role (portOfHarbour r.unit))
  | .hbCqstat =>
    let n := ((s.port (portOfHarbour r.unit)).held.filter fun h => h.1 == r.idx).length
    wput (wput w 63 63 (b2n (n != 0))) 47 32 (sat 16 n)
  | .hbErrstat => s.showErrstat (r.unit / 2)
  | .hbErrhead => BitVec.ofNat 64 (s.log (r.unit / 2)).head
  | .hbErrseq => BitVec.ofNat 64 (s.nextSeq (r.unit / 2))
  | .hbErrlog => BitVec.ofNat 64 (fieldAt (s.logEntry (r.unit / 2) (r.idx / 4)) (8 * (r.idx % 4)) 8)
  | .blCfg => wput w 2 0 (s.linkOwner (linkOf r))
  | .blKeyctl => 0
  | .cxCfg => wput w 2 0 (s.cxlOwner (cxlPortOf r))
  | .lhSoundctl => wput w 63 63 0
  | .lhRecovery => s.showRecovery r.idx
  | .lhLayoutctl => wput w 63 63 0
  | .lhStrataCtl => wput w 63 63 0
  | .lhHostctl => wput w 63 63 0
  | .lhHoststat => s.showHoststat
  | .lhClaim => wput w 63 63 0
  | .lhSecstat => s.showSecstat
  | .lhSecctl => BitVec.ofNat 64 (b2n s.fullres * 2 ^ 63)
  | .lhFusesvn => s.showFuses
  | .lhPartsec => s.showPartsec r.idx
  | .lhSealctl => 0
  | .lhSealstat => s.showSealstat r.idx
  | .lhPilotfw => wput w 63 63 0
  | .lhPowerstat => wput w 31 0 s.lh.last.input
  | .lhTelem => s.showTelem r.idx
  | .lhQuota => s.showQuota (r.idx / 4) (r.idx % 4)
  | .lhResetctl => 0
  | _ => w

end State

/-- The low bits of the count fields that a tenant reads with their lowest 12 bits as zero (R62, R109, R148, R175, R205, R224, R229, R234, R249, R260, R273,
R370, R381, R409, R440). -/
def RegName.coarse (n : RegName) : List Nat :=
  match n with
  | .cvEcc | .lgEcc | .seCombined | .seProgress | .maProgress | .pkProgress | .slProgress | .esProgress | .pilProgress | .pilQcount | .pilHscount | .ebStatus => [0]
  | .maAbftcnt | .maLoads | .maLookout | .maMaskskip | .slCount | .esCount | .pilOob | .dspStatus | .cwErr | .blCount | .blErr | .cxErr => [0, 32]
  | .pkCount => [0, 21, 42]
  | _ => []

/-- The lowest 12 bits of some fields as zero; BL_ERRn's upper word holds two fields of 16 bits. -/
def coarsen (n : RegName) (w : Word) : Word :=
  let w := n.coarse.foldl (fun w lo => wput w (lo + 11) lo 0) w
  if n = .blErr then wput w 59 48 0 else w

namespace State

/-- What a read of a register gives: at full resolution, or as a tenant reads it. -/
def readReg (s : State) (tenant : Bool) (r : RegId) : Word :=
  if !tenant then s.fullReg r
  else match r.name with
    | .lhTelem => s.tenantTelem r.idx
    | .lhPowerstat => wput (s.fullReg r) 31 0 (s.lh.mean.input / 1000 * 1000)
    | n => coarsen n (s.fullReg r)

/-- Whether a port's read is a tenant's (R440): the lock open, fullres, and the controlling or owning port with the T bit clear give full
resolution. -/
def tenantRead (s : State) (p : Port) (tbit : Bool) : Bool := !(s.fullres && !s.standby p && !tbit)

/-- Whether a register reads as zero through a port (R329, R386): a core that is not enabled, and in split mode a block of the other shore. -/
def readsZero (s : State) (p : Port) (r : RegId) : Bool :=
  (r.name.info.block == .core && !s.enabled r.unit) ||
  (s.pkg.split && (match r.name.info.block with
    | .core | .die | .tower | .harbour => !s.splitMay p r
    | _ => false))

/-- What a read of BAR2 gives (R325). -/
def expressRead (_ : State) (_ : Port) (_ _ : Nat) : Nat := 0

/-- What a read of some bytes of BAR0 gives through a port: a narrower read gives the addressed bytes of the register, an offset without a register
reads as zero (R11, R159, R386, R440). The table has no command for such a read, so nothing waits in the queue for it (log entry 36). -/
def portRead (s : State) (p : Port) (tbit : Bool) (off size : Nat) : Nat :=
  match regAt (off / 8 * 8) with
  | none => 0
  | some r => if s.readsZero p r then 0 else (s.readReg (s.tenantRead p tbit) r).toNat / 2 ^ (8 * (off % 8)) % 2 ^ (8 * size)

end State
end Sys2Proof.Machine
end

