-- ==== Sys2Proof/Machine/Lighthouse.lean ====
section
/-! DEFINITION. The Lighthouse's own work: samples (R52 to R55, R58, R63, R64, R149, R348, R402, R403, R464 to R466, R472), stall watch and gating, the
end of a recovery (R453), Sounding (R459 to R462), layout changes and quotas (R463, R469, R470), power caps (R467) and the PLDM requests that read or set
them (R411, R488). -/

namespace Sys2Proof.Machine

/-- The unit kind and number of a voltage domain (R468): those of the targets of R342, then the Lighthouse, then the Causeway and the fabric. -/
def domainUnit (t : Nat) : Nat × Nat := if t < 24 then State.targetUnit t else if t == 24 then (9, 0) else (7, 0)

/-- Element-wise sums of readings. -/
def Readings.add (a b : Readings) : Readings :=
  ⟨(List.range 26).map fun t => a.power.getD t 0 + b.power.getD t 0, (List.range 26).map fun t => a.temp.getD t 0 + b.temp.getD t 0,
   (List.range 26).map fun t => a.volts.getD t 0 + b.volts.getD t 0, a.input + b.input⟩

/-- The mean of n readings from their sum. -/
def Readings.mean (a : Readings) (n : Nat) : Readings := ⟨a.power.map (· / n), a.temp.map (· / n), a.volts.map (· / n), a.input / n⟩

namespace State

def lhPowerstat : RegId := ⟨.lhPowerstat, 0, 0⟩
def lhPowercap : RegId := ⟨.lhPowercap, 0, 0⟩

/-! ## Readings, voltage and gating (R52 to R55, R440, R464 to R466) -/

/-- The readings of a sample join the present 20 ms window of 50 samples; a window that is complete gives its means (R440). -/
def noteReadings (s : State) (env : Sensors) : State :=
  let now : Readings := ⟨(List.range 26).map fun t => env.power.getD t 0, (List.range 26).map fun t => env.temp.getD t 0, s.lh.voltage, env.inputPower⟩
  let sum := s.lh.sum.add now
  if s.lh.summed = 49 then s.setLh { s.lh with last := now, sum := Readings.zero, summed := 0, mean := sum.mean 50 }
  else s.setLh { s.lh with last := now, sum := sum, summed := s.lh.summed + 1 }

/-- The effective cap in W (R464). -/
def effectiveCap (s : State) : Nat :=
  let fs := [s.rf lhPowercap 15 0, s.rf lhPowercap 31 16, s.rf lhPowercap 47 32].filter (· != 0)
  match fs with
  | [] => 3000
  | f :: r => r.foldl min f

/-- Whether the module input is above 3,000 W over 20 ms, by the latest complete window or by the present one so far (R25). -/
def inputOver (s : State) : Bool := decide (3000000 < s.lh.mean.input) || decide (3000000 * s.lh.summed < s.lh.sum.input)

/-- The cap in W that the silicon budget follows: the effective cap, and no more than 3,000 W while the input is above that over 20 ms, since the
sustained limit holds under every cap (R25, R464; log entry 29). -/
def budgetCap (s : State) : Nat := if s.inputOver then min 3000 s.effectiveCap else s.effectiveCap

/-- The limit of a compute die in mW (R23, R464). -/
def dieLimit (s : State) (d : Nat) : Nat :=
  let p := s.lh.last.power
  let total := ((List.range 12).map fun k => p.getD k 0).sum
  let rest := ((List.range 14).map fun k => p.getD (12 + k) 0).sum
  max (Config.idleDraw d) (min 165000 ((s.budgetCap * 920 - rest) * p.getD d 0 / total))

/-- The power limit of a voltage domain in mW (R23, R464): a compute die's, a tower's, a harbour's and the Lighthouse's; none for the fabric. -/
def domainLimit (s : State) (t : Nat) : Option Nat :=
  if t < 12 then some (s.dieLimit t) else if t < 20 then some 50000 else if t < 24 then some 75000 else if t = 24 then some 12000 else none

def setVolts (s : State) (t v : Nat) : State := s.setLh { s.lh with voltage := s.lh.voltage.set t (min 900 (max 650 v)) }
def setGate (s : State) (d g : Nat) : State := s.setLh { s.lh with gating := Tab.put id 0 s.lh.gating d g }

/-- The throttle temperature in 1/16 of a degree C. -/
def throttleTemp (s : State) : Nat := 16 * s.rf ⟨.lhThermal, 0, 0⟩ 7 0

/-- A domain's temperature at a sample (R466). -/
def thermalStep (s : State) (t : Nat) : State :=
  let temp := s.lh.last.temp.getD t 0
  let (kind, unit) := domainUnit t
  let s :=
    if s.throttleTemp < temp then
      if s.lh.throttled.contains t then s
      else (s.setLh { s.lh with throttled := s.lh.throttled ++ [t] }).logErr { code := E.thermalThrottle, severity := 0, kind := kind, unit := unit, detail := temp }
    else s.setLh { s.lh with throttled := s.lh.throttled.filter fun u => u != t }
  if 1680 ≤ temp then
    if s.lh.critical.contains t then s
    else (s.setLh { s.lh with critical := s.lh.critical ++ [t] }).manage { code := E.thermalCritical, severity := 2, kind := kind, unit := unit, detail := temp } 2 kind unit false
  else if temp < s.throttleTemp then s.setLh { s.lh with critical := s.lh.critical.filter fun u => u != t }
  else s

/-- A domain's voltage at a sample (R23, R24, R53, R55, R464, R466): up a step for a lost canary margin, down for temperature, and otherwise towards its
limit: down by one to four steps of 5 mV while its power is above the limit, up by at most four while it is below (log entry 29). Where a canary reports
lost margin in a domain that R466 would lower, the step up comes first and the domain is lowered from the next sample on: the spec gives the two no
order (log entry 29). -/
def voltageStep (s : State) (env : Sensors) (t : Nat) : State :=
  let v := s.lh.voltage.getD t 750
  let (kind, unit) := domainUnit t
  let p := s.lh.last.power.getD t 0
  if env.canary.contains t && decide (t < 24) && decide (900 ≤ v) then
    s.manage { code := E.canaryMargin, severity := 2, kind := kind, unit := unit, qualifier := true } 2 kind unit true
  else if env.canary.contains t && decide (t < 24) then (s.setVolts t (v + 5)).logErr { code := E.canaryMargin, severity := 0, kind := kind, unit := unit }
  else if s.lh.critical.contains t then s.setVolts t (v - 20)
  else if s.lh.throttled.contains t then s.setVolts t (v - 5)
  else match s.domainLimit t with
    | some l =>
      let k := Config.slew t p l v
      s.setVolts t (if l < p then v - 5 * (1 + k % 4) else if p < l then v + 5 * (k % 5) else v)
    | none => s

/-- A die's gating at a sample (R465, R466). -/
def gateStep (s : State) (d : Nat) : State :=
  let p := s.lh.last.power.getD d 0
  let v := s.lh.voltage.getD d 750
  let old := Tab.get 0 s.lh.gating d
  let g :=
    if s.lh.critical.contains d then max 8 (Config.gate d p (s.dieLimit d) v old % 16)
    else if p ≤ s.dieLimit d && old == 0 then 0
    else
      let g := Config.gate d p (s.dieLimit d) v old % 16
      if v = 650 ∧ s.dieLimit d < p then max 1 g else g
  let s := s.setGate d g
  if g = 0 then s.setLh { s.lh with spans := Tab.put id 0 s.lh.spans d 0 }
  else if old = 0 then s.logErr { code := E.powerGated, severity := 0, kind := 2, unit := d, detail := g }
  else s

/-- What LH_POWERSTAT shows of a sample (R467). -/
def notePower (s : State) : State :=
  let gated := !s.lh.gating.isEmpty
  let floor := s.lh.gating.any fun g => s.lh.voltage.getD g.1 750 == 650
  let past (n : Nat) : Bool := (List.range 26).any fun t => decide (n < s.lh.last.temp.getD t 0)
  s.setReg lhPowerstat (BitVec.ofNat 64 (b2n gated * 2 ^ 63 + b2n floor * 2 ^ 62 + b2n (past s.throttleTemp) * 2 ^ 61 + b2n (past 1679) * 2 ^ 60 + s.effectiveCap * 2 ^ 32))

/-- At 110 degrees C every task aborts and the thermal trip output asserts (R466, R490). -/
def thermalTrip (s : State) : State :=
  if (List.range 26).any fun t => decide (1760 ≤ s.lh.last.temp.getD t 0) then
    (s.tasks.filter Task.active).foldl (fun s t => s.abortTask t.id) (s.setPkg { s.pkg with thermtrip := true })
  else s

/-- A regulator's fault starts a recovery of its die, tower or harbour (R452, R453). -/
def regulatorFault (s : State) (t : Nat) : State :=
  let (kind, unit) := domainUnit t
  s.manage { code := E.vrFault, severity := 2, kind := kind, unit := unit } 2 kind unit (decide (t < 24))

/-- The input voltage's bands beside the operating range (R472). -/
def inputStep (s : State) (mv : Nat) : State :=
  let band := (decide (42000 ≤ mv) && decide (mv < 46000)) || (decide (56000 < mv) && decide (mv ≤ 58000))
  let s' := s.setLh { s.lh with inputBand := band }
  if band && !s.lh.inputBand then s'.logErr { code := E.inputRange, severity := 0, kind := 11, detail := mv } else s'

/-! ## Rows (R149), stall watch (R63, R64), claims and phases -/

/-- A row reports a corrected error at a sample: at the third it enters the repair map. -/
def rowReport (s : State) (base bank row : Nat) : State :=
  let n := ((s.lh.rows.find? fun r => r.1 == base && r.2.1 == bank && r.2.2.1 == row).map fun r => r.2.2.2).getD 0 + 1
  let others := s.lh.rows.filter fun r => !(r.1 == base && r.2.1 == bank && r.2.2.1 == row)
  if 3 ≤ n then (s.setLh { s.lh with rows := others }).mapRow base bank row
  else s.setLh { s.lh with rows := others ++ [(base, bank, row, n)] }

/-- The corrected errors that the Coves and Lagoons show; the Lighthouse clears ce (R148, R149). -/
def eccStep (s : State) : State :=
  let s := s.forAll (List.range 384) fun s g =>
    let r : RegId := ⟨.cvEcc, g, 0⟩
    if s.enabled g && s.rb r 62 then (s.setRf r 62 62 0).rowReport (coveBase g) (s.rf r 47 44) (s.rf r 58 48) else s
  s.forAll (List.range 12) fun s d =>
    let r : RegId := ⟨.lgEcc, d, 0⟩
    if s.rb r 62 then (s.setRf r 62 62 0).rowReport (dieBase d) (s.rf r 43 39) (s.rf r 58 44) else s

/-- Whether stall watch is suspended for the task in a slot: it drains, at its truncation point or in an abort (R64, R178). -/
def drains (s : State) (core slot : Nat) : Bool :=
  match s.taskAt core slot with
  | some t => t.state == 3
  | none => false

/-- Whether stall watch counts an engine now (R63 to R65): its pending bit is 1, its core is in no domain under recovery, and a task that waits on it does
not drain. Every wait counts but those that make the engine exempt (State.exempt): a wait on a ring, a Tidemark, a semaphore, a credit, a predecessor's
writes or a host's express word is a hang once it is long enough (R65). -/
def watched (s : State) (core eng : Nat) : Bool :=
  !s.fenced 1 core && s.pendingBit core eng && [0, 1, 2, 3].any fun n => (s.eng ⟨core, n, eng⟩).unretired && !s.drains core n

/-- The samples of LH_STALL_WATCH as they stand (R63). -/
def stallLimit (s : State) : Nat := max 2 (s.rf ⟨.lhStallWatch, 0, 0⟩ 7 0)

/-- The runs of unchanged samples after this one, and the engines that are to be declared hung at it: those whose run has reached the present setting
(R63, R64). -/
def stallStep (s : State) : State :=
  let engines := (s.engs.map fun e => 8 * e.1.core + e.1.eng).eraseDups
  let runs := (engines.filter fun k => s.watched (k / 8) (k % 8)).map fun k =>
    let c := s.rf (progressReg (k / 8) (k % 8)) 47 0
    match s.lh.runs.find? fun r => r.1 == k with
    | some r => (k, c, if r.2.1 == c then r.2.2 + 1 else 0)
    | none => (k, c, 0)
  let due := (runs.filter fun v => s.rb ⟨.lhStallWatch, 0, 0⟩ 8 && decide (s.stallLimit ≤ v.2.2)).map (·.1)
  s.setLh { s.lh with runs := runs, due := due }

/-- Whether the last sample found an engine hung, and its core is not in a domain under recovery (R63, R64). -/
def hung (s : State) (core eng : Nat) : Bool := !s.fenced 1 core && s.lh.due.contains (8 * core + eng)

/-- An engine is declared hung (R63, R65): E_ENGINE_HUNG names the core and the engine. The entry's partition is the die's owner, and its task is the one
that runs on the core where there is just one; the spec gives neither (log entry 106). -/
def declareHung (s : State) (core eng : Nat) : State :=
  let ts := s.tasks.filter fun t => t.state == 2 && t.cores.contains core
  let task := match ts with
    | [t] => t.number
    | _ => 0xFFFFFFFF
  let owner := s.dieOwner (core / 32)
  (s.setLh { s.lh with runs := s.lh.runs.filter (fun r => r.1 != 8 * core + eng), due := s.lh.due.filter fun k => k != 8 * core + eng }).manage
    { code := E.engineHung, severity := 2, kind := 1, unit := core, engine := eng, partition := if owner < 8 then some owner else none, task := task } 1 1 core true

/-- The controlling host's silence by the Lighthouse's timer, one sample of 0.4 ms longer (R402). -/
def silenceStep (s : State) : State :=
  if s.pkg.split || s.pkg.control == 0 then s
  else
    let n := s.lh.silence + 1
    let s := s.setLh { s.lh with silence := n }
    if 5 * s.gapMs < 2 * n then s.setStale else s

/-- Records whose unit has not confirmed its reset (R452, R453). -/
def unconfirmedStep (s : State) (n : Nat) : State :=
  match s.lh.recoveries.find? fun e => e.1 == n with
  | some (_, r) => s.manage { code := E.resetFailed, severity := 2, kind := r.kind, unit := r.unit, cause := some r.first } r.level r.kind r.unit true
  | none => s

/-- A sample (R58). -/
def takeSample (s : State) (env : Sensors) : State :=
  let s := s.setLh { s.lh with samples := s.lh.samples + 1 }
  let s := (s.noteReadings env).forAll (List.range 26) thermalStep
  let s := (s.forAll (List.range 26) fun s t => s.voltageStep env t).forAll (List.range 12) gateStep
  let s := ((s.notePower.thermalTrip).forAll env.vrFault regulatorFault).inputStep env.input
  let s := (s.eccStep.stallStep).silenceStep
  let s := s.forAll env.unconfirmed unconfirmedStep
  let s := s.examineClaims
  s.forAll (List.range 8) fun s p => (s.trySlack p).endRotation p

/-- A span of gating ends on a die (R465): the next of 16. -/
def spanStep (s : State) (d : Nat) : State :=
  if Tab.get 0 s.lh.gating d = 0 then s
  else s.setLh { s.lh with spans := Tab.put id 0 s.lh.spans d ((Tab.get 0 s.lh.spans d + 1) % 16) }

/-! ## The end of a recovery (R50, R403, R439, R453, R455) -/

def endRecovery (s : State) (n : Nat) : State :=
  match s.lh.recoveries.find? fun e => e.1 == n with
  | none => s
  | some (_, r) =>
    if s.pkg.halted then s
    else
      let s := ((s.endDrains r).rebuild r).dropRecovery n
      let s := s.setLh { s.lh with runs := s.lh.runs.filter (fun v => !inDomain r 1 (v.1 / 8)), due := s.lh.due.filter fun k => !inDomain r 1 (k / 8) }
      let s := s.bringUpAgain r
      let s := (s.logErr { code := E.recoveryDone, severity := 0, kind := r.kind, unit := r.unit, cause := some r.first }).newGeneration
      let s := s.retryScrubs
      let s := if r.level == 4 && s.pkg.causewayFailed && !s.pkg.split then s.enterSplit else s
      (s.startWaiting 8).sendWaiting.admitHeld.examineClaims

/-! ## Sounding (R459 to R462) -/

/-- Section 2: the fuse map. -/
def fuseMap (s : State) : List Byte :=
  ((List.range 12).map fun d =>
    let on (c : Nat) : Bool := s.enabled (32 * d + c)
    leBytes 4 ((List.range 32).foldl (fun v c => if on c then v + 2 ^ c else v) 0) ++
    ((List.range 32).map fun c => BitVec.ofNat 8 (if on c then Config.meshPosition d c else 0xFF)) ++
    leBytes 1 (Config.portPosition d 0) ++ leBytes 1 (Config.portPosition d 1) ++ zeros 10).flatten ++
  leBytes 16 ((s.pkg.hopsDown.foldl (fun v h => v ||| 2 ^ h) 0) % 2 ^ 14 + b2n s.pkg.causewayFailed * 2 ^ 14)

/-- Section 3: retired pages and units that no partition owns. -/
def repairSection (s : State) : List Byte :=
  let pages := s.lh.retired.take 1024
  let units := s.lh.unowned.take 64
  leBytes 4 pages.length ++ leBytes 4 units.length ++ (pages.map (leBytes 8)).flatten ++
  (units.map fun u => leBytes 8 (u.1 % 2 ^ 52 + (if u.2 == 0x1000 then 0 else if u.2 == 0x10000 then 1 else 2) * 2 ^ 60)).flatten

/-- Section 4: sizes. -/
def sizeSection (s : State) : List Byte :=
  ((List.range 384).map fun g => leBytes 2 (if s.enabled g then s.rf ⟨.cvSize, g, 0⟩ 9 0 else 0)).flatten ++
  ((List.range 12).map fun d => leBytes 2 (s.rf ⟨.lgSize, d, 0⟩ 10 0)).flatten ++
  ((List.range 8).map fun t => leBytes 4 (s.rf ⟨.mtSize, t, 0⟩ 15 0) ++ leBytes 4 (s.rf ⟨.mtSize, t, 0⟩ 31 16)).flatten ++
  ((List.range 4).map fun p => leBytes 2 (s.rf (cxReg .cxCap p) 14 0)).flatten

/-- The last task that a slot has held. -/
def lastTask (s : State) (core slot : Nat) : Option Task := (s.tasks.filter fun t => t.slot == slot && t.cores.contains core).getLast?

/-- Section 5: tasks. -/
def taskSection (s : State) : List Byte :=
  ((List.range 1536).map fun k =>
    match s.lastTask (k / 4) (k % 4) with
    | some t => leBytes 4 t.number ++ leBytes 2 (t.state % 8 + t.partition % 8 * 8) ++ leBytes 2 t.error
    | none => leBytes 4 0xFFFFFFFF ++ zeros 4).flatten

/-- Section 6: queues and engines (the order inside a queue's 8 bytes is log entry 28). -/
def queueSection (s : State) (tenant : Bool) : List Byte :=
  ([0, 2].map fun h =>
    ((List.range 64).map fun q => leBytes 2 (s.rf ⟨.hbTqstat, h, q⟩ 15 0) ++ leBytes 2 (s.rf ⟨.hbTqdb, h, q⟩ 15 0) ++ leBytes 4 ((s.fullReg ⟨.hbTqstat, h, q⟩).toNat / 2 ^ 32)).flatten ++
    ((List.range 64).map fun q => leBytes 2 (s.rf ⟨.hbCqhead, h, q⟩ 15 0) ++ leBytes 2 (s.rf ⟨.hbCqstat, h, q⟩ 15 0) ++ leBytes 4 ((s.fullReg ⟨.hbCqstat, h, q⟩).toNat / 2 ^ 32)).flatten).flatten ++
  ((List.range 3072).map fun k =>
    let g := k / 8
    let e := k % 8
    let queued := ((s.contexts g e).map EngCtx.words).sum
    leBytes 8 ((s.readReg tenant ⟨.pilQcount, g, e⟩).toNat % 2 ^ 48 + sat 11 queued * 2 ^ 48 + b2n (s.exempt g e) * 2 ^ 62 + b2n (s.pendingBit g e) * 2 ^ 63)).flatten

/-- The sequence number of the oldest unread entry of a log; that of the next entry where none is unread. -/
def oldestUnread (s : State) (shore : Nat) : Nat :=
  if (s.log shore).unread == 0 then s.nextSeq shore else fieldAt (s.logEntry shore (s.log shore).head) 0 8

/-- Section 7: errors. -/
def errorSection (s : State) : List Byte :=
  ([0, 1].map fun w => leBytes 8 (s.showErrstat w).toNat ++ leBytes 8 (s.reg ⟨.hbErrsum, 2 * w, 0⟩).toNat ++ leBytes 8 (s.nextSeq w) ++ leBytes 8 (s.oldestUnread w)).flatten

/-- Section 8: recoveries. -/
def recoverySection (s : State) : List Byte :=
  ((List.range 8).map fun n => leBytes 8 (s.showRecovery n).toNat ++ leBytes 8 (((s.lh.recoveries.find? fun e => e.1 == n).map fun e => e.2.first).getD 0)).flatten

/-- Section 9: keys. -/
def keySection (s : State) : List Byte :=
  ((List.range 8).map fun p => leBytes 8 (s.showSealstat p).toNat).flatten ++
  ((List.range 36).map fun n =>
    let r := blReg .blStatus n
    leBytes 2 (s.rf r 63 63 + 2 * s.rf r 62 62 + 4 * s.rf r 61 61 + 8 * s.rf r 60 60 + 16 * s.rf r 59 59)).flatten ++ zeros 8

/-- Section 10: strata. -/
def strataSection (s : State) : List Byte :=
  ((List.range 8).map fun p => leBytes 8 (s.reg (strataReg p)).toNat ++ leBytes 8 (s.reg ⟨.lhStrataId, 0, p⟩).toNat ++ leBytes 8 (s.showPartsec p).toNat ++ zeros 8).flatten

/-- Section 11: credits. -/
def creditSection (s : State) : List Byte :=
  ((List.range 192).map fun k =>
    let v := s.pool (k / 24) (k % 24)
    leBytes 8 (v.size % 2 ^ 17 + v.avail % 2 ^ 17 * 2 ^ 17 + v.gen % 16 * 2 ^ 36)).flatten

/-- Section 12: quotas. -/
def quotaSection (s : State) : List Byte := ((List.range 32).map fun k => leBytes 8 (s.showQuota (k / 4) (k % 4)).toNat).flatten

/-- Section 13: power. -/
def powerSection (s : State) (tenant : Bool) : List Byte :=
  leBytes 2 (s.rf lhPowerstat 47 32) ++ leBytes 6 (s.rf lhPowercap 47 0) ++ leBytes 8 (s.readReg tenant lhPowerstat).toNat ++
  ((List.range 26).map fun t => leBytes 8 (s.readReg tenant ⟨.lhTelem, 0, t⟩).toNat).flatten ++ zeros 32

/-- The sections of a summary, in ascending kind. -/
def sections (s : State) (tenant : Bool) : List (List Byte) :=
  [s.layoutRecord, s.fuseMap, s.repairSection, s.sizeSection, s.taskSection, s.queueSection tenant, s.errorSection, s.recoverySection, s.keySection, s.strataSection,
   s.creditSection, s.quotaSection, s.powerSection tenant]

/-- Each section at the next 64-byte boundary after the one before: directory entries (kind, offset, length) and the bytes from offset 320 on. -/
def placeSections : Nat → List Byte → List (List Byte) → List (Nat × Nat × Nat) × List Byte
  | _, body, [] => ([], body)
  | kind, body, x :: rest =>
    let body := padTo 64 0 body
    let (dir, all) := placeSections (kind + 1) (body ++ x) rest
    ((kind, 320 + body.length, x.length) :: dir, all)

/-- The summary that the Lighthouse builds for a port (R461). -/
def summary (s : State) (p : Port) : List Byte :=
  let tenant := s.tenantRead p false
  let (dir, body) := placeSections 1 [] (s.sections tenant)
  let entries := (padTo 256 0 ((dir.map fun e => leBytes 2 e.1 ++ zeros 2 ++ leBytes 4 e.2.1 ++ leBytes 4 e.2.2 ++ zeros 4).flatten)).take 256
  leBytes 4 0x444E5553 ++ leBytes 2 1 ++ leBytes 2 13 ++ leBytes 4 (320 + body.length) ++ leBytes 1 p.shore ++ leBytes 1 (b2n s.pkg.gradeB) ++
  leBytes 1 (b2n tenant + 2 * b2n s.pkg.halted) ++ zeros 1 ++ leBytes 8 s.lh.generation ++ leBytes 8 ((s.rf ⟨.lhSoundstat, 0, p.shore⟩ 31 0 + 1) % 2 ^ 32) ++ zeros 32 ++
  entries ++ body

/-- A write of LH_SOUNDCTLw with go = 1 (R459). -/
def startSound (s : State) (p : Port) (vector : Nat) : State :=
  let w := p.shore
  let s := s.setRf ⟨.lhSoundctl, 0, w⟩ 9 0 vector
  if s.rb ⟨.lhSoundstat, 0, w⟩ 63 then s
  else (s.setLh { s.lh with summaries := Tab.put id [] s.lh.summaries w (s.summary p) }).setRf ⟨.lhSoundstat, 0, w⟩ 63 63 1

/-- A summary has been written, or a write of it has failed (R459). -/
def endSound (s : State) (p : Port) (ok : Bool) : State :=
  let w := p.shore
  let r : RegId := ⟨.lhSoundstat, 0, w⟩
  if !s.rb r 63 then s
  else
    let bytes := Tab.get [] s.lh.summaries w
    let s := (s.setLh { s.lh with summaries := Tab.put id [] s.lh.summaries w [] }).setRf r 63 63 0
    if ok then
      let s := s.emit (.summary p (s.rf ⟨.lhSoundaddr, 0, w⟩ 63 12 * 4096) bytes)
      let s := ((s.setRf r 62 62 1).setRf r 47 32 0).addRf r 31 0 1
      s.fireVector p (s.rf ⟨.lhSoundctl, 0, w⟩ 9 0)
    else (s.setRf r 47 32 E.soundWrite).logErr (portNotice p E.soundWrite)

/-! ## Layout changes (R463, R469) -/

/-- The layout that a record asks for. -/
def recordPackage (s : State) (r : List Byte) : Package :=
  let one (off n : Nat) : List Nat := (List.range n).map fun k => if fieldAt r (off + k) 1 < 8 then fieldAt r (off + k) 1 else 255
  let ranges := (List.range 64).filterMap fun k =>
    let v := fieldAt r (64 + 8 * k) 8
    if bitOf v 63 then some ⟨fld v 62 60, fld v 39 20, fld v 19 0⟩ else none
  { s.pkg with die := one 4 12, cxl := one 16 4, link := one 20 36, ranges := ranges }

/-- Whether a range stays inside the usable pages of the towers. -/
def rangeUsable (s : State) (r : LayoutRange) : Bool :=
  decide (r.first + r.count ≤ 393216) && (List.range 8).all fun t =>
    decide (r.first + r.count ≤ 49152 * t + s.rf ⟨.mtSize, t, 0⟩ 15 0) || decide (49152 * (t + 1) ≤ r.first)

/-- Whether the ranges of a layout keep apart. -/
def rangesApart : List LayoutRange → Bool
  | [] => true
  | a :: rest => rest.all (fun b => decide (a.first + a.count ≤ b.first) || decide (b.first + b.count ≤ a.first)) && rangesApart rest

/-- The pages of a partition in a list of ranges, as intervals cut at every border of two layouts. -/
def ownedCuts (cuts rs : List LayoutRange) (p : Nat) : List (Nat × Nat) :=
  ((rs.filter fun r => r.partition == p).map fun r =>
    let c := pageCuts cuts r
    (c.zip (c.drop 1)).filter fun v => decide (v.1 < v.2)).flatten

/-- Whether a partition gains or loses a unit between two layouts. -/
def layoutTouches (old new : Package) (p : Nat) : Bool :=
  let moved (a b : List Nat) : Bool := (a.zip b).any fun v => v.1 != v.2 && (v.1 == p || v.2 == p)
  moved old.die new.die || moved old.cxl new.cxl || moved old.link new.link
  || (ownedCuts (old.ranges ++ new.ranges) new.ranges p).any (fun v => rangeOwner old.ranges v.1 != p)
  || (ownedCuts (old.ranges ++ new.ranges) old.ranges p).any (fun v => rangeOwner new.ranges v.1 != p)

/-- Whether a partition's quota of tower pages or of CXL pages refuses a layout (R469). -/
def layoutOverQuota (s : State) (new : Package) (p : Nat) : Bool :=
  let pages (k : Package) : Nat := (k.ranges.filter fun r => r.partition == p).foldl (fun a r => a + r.count) 0
  let ports (k : Package) : List Nat := (List.range 4).filter fun c => k.cxl.getD c 255 == p
  let cxlPages (k : Package) : Nat := (ports k).foldl (fun a c => a + s.cxlCapacity c / 0x200000) 0
  (match s.quotaLimit p 0 with
    | some l => decide (l < pages new) && decide (pages s.pkg < pages new)
    | none => false) ||
  (match s.quotaLimit p 1 with
    | some l => decide (l < cxlPages new) && (ports new).any fun c => !(ports s.pkg).contains c
    | none => false)

def lhLayoutctl : RegId := ⟨.lhLayoutctl, 0, 0⟩

/-- A layout change is refused. -/
def refuseLayout (s : State) (code : Nat) : State := (s.setRf lhLayoutctl 47 32 code).logErr (lhNotice code)

/-- A write of LH_LAYOUTCTL.apply = 1 (R463, R469). -/
def applyLayout (s : State) (p : Port) : State :=
  let a := s.rf ⟨.lhLayoutaddr, 0, 0⟩ 51 12 * 4096
  let inTower := match placeOf a, placeOf (a + 575) with
    | .tower _ _, .tower _ _ => true
    | _, _ => false
  let r := s.bytes a 576
  if s.pkg.split || s.pkg.control != p.shore + 1 || !inTower || s.poisoned a 576 || fieldAt r 0 1 != 0 || fieldAt r 1 1 != s.pkg.control then s.refuseLayout E.layoutRefused
  else
    let new := s.recordPackage r
    if !rangesApart new.ranges || !new.ranges.all s.rangeUsable
        || (List.range 8).any (fun q => layoutTouches s.pkg new q && (s.strataState q != 2 || (s.session q).state != 0)) then s.refuseLayout E.layoutRefused
    else if (List.range 8).any (s.layoutOverQuota new) then s.refuseLayout E.quotaRefused
    else
      let old := s.pkg
      (((s.setPkg new).setRf lhLayoutctl 47 32 0).passUnits old).newGeneration

/-! ## Power caps and quotas (R411, R467, R470) -/

/-- A cap as it is kept. -/
def clampCap (v : Nat) : Nat := if v = 0 then 0 else min 3300 (max 1500 v)

/-- A write of one field of LH_POWERCAP. -/
def writeCap (s : State) (hi lo v : Nat) : State :=
  let s := s.setRf lhPowercap hi lo (clampCap v)
  if clampCap v = v then s else s.logErr { lhNotice E.capRange with detail := v }

end State

/-! ## The commands -/

/-- SAMPLE (R58): the upsets since the last sample have struck whether or not the Lighthouse runs (log entry 109). -/
def execSample (env : Sensors) (s : State) : Host.Outcome State Fault Refusal :=
  .next (if s.lighthouseRuns then (s.strike env.strikes).takeSample env else s.strike env.strikes)

/-- ENGINE_HUNG (R63): an engine whose run of unchanged samples has reached the setting is declared hung. -/
def execEngineHung (core eng : Nat) (s : State) : Host.Outcome State Fault Refusal :=
  .next (if s.hung core eng then s.declareHung core eng else s)

/-- GATING_SPAN (R465). -/
def execGatingSpan (die : Nat) (s : State) : Host.Outcome State Fault Refusal := .next (s.spanStep die)

/-- RECOVERY_DONE (R453). -/
def execRecoveryDone (record : Nat) (s : State) : Host.Outcome State Fault Refusal := .next (s.endRecovery record)

/-- SOUND (R459): a write of go = 1 to LH_SOUNDCTL of a port, by a port. -/
def execSound (port by' : Port) (vector : Nat) (s : State) : Host.Outcome State Fault Refusal :=
  .next (s.access (.host by') true ⟨.lhSoundctl, 0, port.shore⟩ fun s => s.startSound port vector)

/-- SUMMARY_WRITTEN (R459). -/
def execSummaryWritten (port : Port) (ok : Bool) (s : State) : Host.Outcome State Fault Refusal := .next (s.endSound port ok)

/-- LAYOUT_APPLY (R463). -/
def execLayoutApply (port : Port) (s : State) : Host.Outcome State Fault Refusal :=
  .next (s.access (.host port) true State.lhLayoutctl fun s => s.applyLayout port)

/-- MANAGEMENT_PROCESSOR_FAULT (R453): a recovery of the package; the spec names no error code, so no entry is logged. -/
def execManagementProcessorFault (s : State) : Host.Outcome State Fault Refusal :=
  .next (if s.lighthouseRuns then s.escalate (Recovery.of 4 11 0 (2 ^ 64 - 1)) true 0 (2 ^ 64 - 1) else s)

/-- PLDM_POWER_CAP (R411, R467): the board controller's cap. -/
def execPldmPowerCap (watts : Nat) (s : State) : Host.Outcome State Fault Refusal :=
  .next (if s.serves .smbus then s.writeCap 47 32 watts else s)

/-- PLDM_SENSOR_READ (R411, R440): power, temperature and voltage of a domain. -/
def execPldmSensorRead (domain : Nat) (s : State) : Host.Outcome State Fault Refusal :=
  .next (
    if !s.serves .smbus then s
    else
      let w := s.readReg (!s.fullres) ⟨.lhTelem, 0, domain⟩
      s.emit (.pldm 2 [wfld w 63 40, wfld w 39 28, wfld w 27 16]))

/-- PLDM_QUOTA_WRITE (R470): the board controller writes a limit. -/
def execPldmQuotaWrite (p k limit : Nat) (s : State) : Host.Outcome State Fault Refusal :=
  .next (if s.serves .smbus then s.setRf ⟨.lhQuota, 0, 4 * p + k⟩ 31 0 limit else s)

/-- PLDM_EVENT_RETRIEVAL (R488): the board controller takes one event. -/
def execPldmEventRetrieval (s : State) : Host.Outcome State Fault Refusal :=
  .next (
    if !s.serves .smbus || s.pkg.alerts == 0 then s
    else (s.setPkg { s.pkg with alerts := s.pkg.alerts - 1 }).emit (.pldm 3 [s.pkg.alerts - 1]))

end Sys2Proof.Machine
end

