-- ==== Sys2Proof/Machine/Boot.lean ====
section
/-! DEFINITION. Power, package resets and the start-up sequence with its self-test (R471 to R477, R479, R480, R490), and what each keeps. -/

namespace Sys2Proof.Machine

/-- What a start-up meets that finds no fault and the firmware that runs unchanged (log entry 32). -/
def BootEnv.clean : BootEnv := ⟨[], [], [], [], [], [], [], [], [], true, 0⟩

/-- The compute die of a Cove's or a Lagoon's base address. -/
def dieOfUnit (base : Nat) : Option Nat :=
  match placeOf base with
  | .cove g 0 => some (g / 32)
  | .lagoon d 0 => some d
  | _ => none

namespace State

def lhResetctl : RegId := ⟨.lhResetctl, 0, 0⟩

/-- An address of the CXL tier, which keeps what its devices hold (R408, R475). -/
def inCxl (a : Nat) : Bool := decide (cxlBase ≤ a) && decide (a < 0x1100000000000)

/-- What a reset of the module leaves before start-up runs (R477): fuses, module flash with its repair maps, retired pages and staged images, the
boot count, the CXL devices' memory, the pins, and the model's own counters; everything else takes its reset value, and no link is up. -/
def wipe (s : State) : State :=
  let port (p : HostPort) : HostPort := { HostPort.fresh with linkUp := false, perst := p.perst }
  let links := s.links.filterMap fun e => if e.2.cable then none else some (e.1, { Link.down with cable := false })
  let trust : Trust :=
    { Trust.reset with
      svnLh := s.trust.svnLh, svnHb := s.trust.svnHb, svnPil := s.trust.svnPil, revoked := s.trust.revoked, lockBlown := s.trust.lockBlown
      lockClosed := s.trust.lockBlown, lh := s.trust.lh, hb := s.trust.hb, pil := s.trust.pil, lhOk := s.trust.lhOk, hbOk := s.trust.hbOk
      pilOk := s.trust.pilOk, staged := s.trust.staged, draws := s.trust.draws, boots := s.trust.boots }
  { State.reset with
    regs := [], mem := s.mem.filter fun c => inCxl c.1
    poison := s.poison.filter fun c => inCxl c.1
    seals := s.seals.filter fun u => inCxl (256 * u.1)
    links := links, cxls := [], ports := (port s.ports.1, port s.ports.2)
    pkg := { Package.reset with powered := s.pkg.powered, thermtrip := s.pkg.thermtrip, pwrGood := s.pkg.pwrGood, gradeB := s.pkg.gradeB, address := s.pkg.address }
    lh := { Lighthouse.reset with repairMap := s.lh.repairMap, retired := s.lh.retired }
    trust := trust, nextTask := s.nextTask, free := s.free, out := s.out, pending := s.pending }

/-! ## Firmware (R416, R417, R473 steps 3 and 5) -/

/-- The first image that verifies, and the codes of those before it. -/
def pickImage (s : State) (kind : Nat) : List (FwImage × Nat) → List Nat × Option FwRun
  | [] => ([], none)
  | (i, c) :: rest =>
    match s.fwFault kind i with
    | none => ([], some (fwRun i c))
    | some e =>
      let (es, r) := s.pickImage kind rest
      (e :: es, r)

/-- The images that start-up tries for a kind: the staged one, then the copies in flash (log entry 32). -/
def candidates (s : State) (kind : Nat) (copies : List FwImage) : List (FwImage × Nat) :=
  ((s.trust.staged.filter fun i => fwKind i == kind).map fun i => (i, 0)) ++ copies.zipIdx

/-- What a kind's images come to: codes of those rejected, whether one runs, and which. With nothing to try, what ran goes on. -/
def chooseImage (s : State) (kind : Nat) (copies : List FwImage) (ran : Bool) (run : FwRun) : List Nat × Bool × FwRun :=
  match s.candidates kind copies with
  | [] => ([], ran, run)
  | is =>
    match s.pickImage kind is with
    | (es, some r) => (es, true, r)
    | (es, none) => (es, false, FwRun.reset)

/-- Step 3, at power-on, or for a staged image: the Lighthouse's firmware. A staged image that fails at a package reset leaves the one that runs. -/
def verifyLighthouse (s : State) (env : BootEnv) (powerOn : Bool) : List Nat × State :=
  let (es, ok, r) := s.chooseImage 1 (if powerOn || !s.trust.lhOk then env.lighthouse else []) s.trust.lhOk s.trust.lh
  let t := { s.trust with staged := s.trust.staged.filter fun i => fwKind i != 1 }
  if !ok && !powerOn && s.trust.lhOk then (es, s.setTrust t) else (es, s.setTrust { t with lh := r, lhOk := ok })

/-- Step 5: the harbour and the Pilot images. -/
def verifyDies (s : State) (env : BootEnv) : State :=
  let (e2, ok2, hb) := s.chooseImage 2 env.harbour s.trust.hbOk s.trust.hb
  let (e3, ok3, pil) := s.chooseImage 3 env.pilot s.trust.pilOk s.trust.pil
  let s := s.setTrust { s.trust with hb := hb, hbOk := ok2, pil := pil, pilOk := ok3, staged := [] }
  let s := (e2 ++ e3).foldl lhManage s
  s.forAll (List.range 8) fun s p => s.setSession p { s.session p with pilotDigest := pil.digest, pilotSvn := pil.svn, pilotOk := ok3 }

/-! ## The self-test and the last steps (R475, R476, R473 steps 5 to 11) -/

/-- A failure of the self-test. -/
def selfTestFail (s : State) (kind unit : Nat) : State := s.logErr { code := E.selftestFail, severity := 0, kind := kind, unit := unit }

/-- Rows that fail their march test enter the repair maps (R149). -/
def mapRows (s : State) (rows : List (Nat × Nat × Nat)) : State := rows.foldl (fun s r => if (dieOfUnit r.1).isSome then s.mapRow r.1 r.2.1 r.2.2 else s) s

/-- The dies with rows that a former repair map did not hold. -/
def diesRemapped (s : State) (old : List (Nat × Nat × Nat)) : List Nat :=
  (List.range 12).filter fun d => s.lh.repairMap.any fun m => !old.contains m && dieOfUnit m.1 == some d

/-- The march tests (R475), the second reset of dies with new rows and their second test (R476). -/
def testRows (s : State) (env : BootEnv) : Bool × State :=
  let old := s.lh.repairMap
  let s := s.mapRows env.badRows
  let ds := s.diesRemapped old
  let s := s.forAll ds fun s d => s.applyRepairs d
  (!ds.isEmpty, s.mapRows (env.badAgain.filter fun r => ds.any fun d => dieOfUnit r.1 == some d))

/-- Cores that the self-test removes. -/
def testCores (s : State) (env : BootEnv) : State :=
  let off := (env.coresOff.filter s.enabled).eraseDups
  (s.setPkg { s.pkg with coresOff := off }).forAll off fun s g => s.selfTestFail 1 g

/-- Towers: the retired pages that flash keeps, and those whose interface does not train. -/
def testTowers (s : State) (env : BootEnv) : State :=
  let off := (List.range 8).filter env.towersOff.contains
  let s := s.setPkg { s.pkg with towersOff := off }
  s.forAll (List.range 8) fun s t =>
    let r : RegId := ⟨.mtSize, t, 0⟩
    let gone := (s.lh.retired.filter fun p => p / 49152 == t).length
    let s := (s.setRf r 31 16 gone).setRf r 15 0 (if off.contains t then 0 else if s.pkg.gradeB then 32768 else 49152)
    if off.contains t then s.logErr { code := E.towerLink, severity := 0, kind := 3, unit := t } else s

/-- Hops that fail their loopback (R366). -/
def testHops (s : State) (env : BootEnv) : State :=
  let down := (List.range 14).filter env.hopsDown.contains
  (s.setPkg { s.pkg with hopsDown := down }).forAll down fun s h => s.selfTestFail 8 h

/-- The Causeway: spares replace failing lanes (R368); when it fails by R369 the package starts in split mode (R50, R398). -/
def testCauseway (s : State) (env : BootEnv) : State :=
  let bad := env.lanesBad.eraseDups
  if !env.causewayOk || [0, 1].any fun d => decide (4 < (bad.filter fun l => l.1 == d).length) then
    (((s.setPkg { s.pkg with causewayFailed := true }).setRf cwStatus 63 62 2).selfTestFail 7 0).layoutSplit
  else (bad.filter fun l => decide (l.1 < 2)).foldl (fun s l => (s.laneFails l.1 l.2).laneSwapped l.1 true) s

/-- CXL ports begin bring-up (R407, R473 step 11). -/
def beginPorts (s : State) : State :=
  s.forAll (List.range 4) fun s p => (s.setCxl p CxlPort.begun).setRf (cxReg .cxStatus p) 63 61 1

/-- What LH_BOOTSTAT shows (R480). -/
def bootWord (s : State) (done : Bool) (stage cause : Nat) (rerun : Bool) : Word :=
  BitVec.ofNat 64 (b2n done * 2 ^ 63 + stage * 2 ^ 60 + cause * 2 ^ 56 + b2n rerun * 2 ^ 55 + min 255 s.pkg.coresOff.length * 2 ^ 32 + s.trust.boots)

/-- Start-up on a state that a reset has wiped (R473, R474). -/
def startUp (s : State) (env : BootEnv) (cause : Nat) (powerOn : Bool) : State :=
  let s := s.setTrust { s.trust with boots := min (2 ^ 32 - 1) (s.trust.boots + 1) }
  let (es, s) := s.verifyLighthouse env powerOn
  if !s.trust.lhOk then
    let s := s.setTrust { s.trust with hbOk := false }
    s.setReg lhBootstat (s.bootWord false 7 cause false)
  else
    let s := s.setPkg { s.pkg with pwrGood := true }
    let s := (es.foldl lhManage s).verifyDies env
    let s := s.forAll (List.range 12) fun s d => s.applyRepairs d
    if !s.trust.hbOk then s.setReg lhBootstat (s.bootWord false 7 cause false)
    else
      let (rerun, s) := s.testRows env
      let s := ((((s.testCores env).testTowers env).testHops env).testCauseway env).beginPorts
      s.setReg lhBootstat (s.bootWord true 6 cause rerun)

/-- A package reset with its start-up (R477). -/
def packageReset (s : State) (env : BootEnv) (cause : Nat) : State := s.wipe.startUp env cause false

/-- A write of LH_RESETCTL (R480). -/
def writeResetctl (s : State) (env : BootEnv) (key : Nat) : State :=
  if s.pkg.split || key != 0x5AFE then s.logErr (lhNotice E.resetRefused) else s.packageReset env 1

/-- Every rail is off (R472). -/
def powerDown (s : State) : State := let s := s.wipe
  s.setPkg { s.pkg with powered := false, pwrGood := false }

end State

/-! ## The commands -/

/-- POWER_ON (R473): the input rises through 44 V. PERST# is held asserted through the sequence (R474). -/
def execPowerOn (env : BootEnv) (s : State) : Host.Outcome State Fault Refusal :=
  .next (
    let s := s.powerDown
    let s := s.setPkg { s.pkg with powered := true, thermtrip := false, address := 0x4C + env.straps % 8 }
    let s := [Port.w, Port.e].foldl (fun s p => s.setPort p { s.port p with perst := true }) s
    s.startUp env 0 true)

/-- PACKAGE_RESET (R480): a write of LH_RESETCTL with reset = 1. -/
def execPackageReset (port : Port) (key : Nat) (env : BootEnv) (s : State) : Host.Outcome State Fault Refusal :=
  .next (s.access (.host port) true State.lhResetctl fun s => s.writeResetctl env key)

/-- PLDM_RESET (R477): the board controller's package reset. -/
def execPldmReset (env : BootEnv) (s : State) : Host.Outcome State Fault Refusal :=
  .next (if s.serves .smbus && !s.pkg.railsOff then s.packageReset env 2 else s)

/-- RESET_N (R477, R490): a low pulse of at least 1 ms resets the package, which holds while the pin stays low. -/
def execResetN (us : Nat) (s : State) : Host.Outcome State Fault Refusal :=
  .next (
    if us < 1000 || s.pkg.thermtrip || !s.pkg.powered || s.pkg.railsOff then s
    else
      let s := s.wipe
      s.setPkg { s.pkg with heldReset := true })

/-- RESET_N_RELEASE (R490): start-up goes on from step 5. -/
def execResetNRelease (env : BootEnv) (s : State) : Host.Outcome State Fault Refusal :=
  .next (if s.pkg.heldReset then (s.setPkg { s.pkg with heldReset := false }).startUp env 3 false else s)

/-- UNDERVOLTAGE_SHUTDOWN (R472, R490): the thermal trip output is released. -/
def execUndervoltageShutdown (s : State) : Host.Outcome State Fault Refusal :=
  .next (
    let s := s.powerDown
    s.setPkg { s.pkg with thermtrip := false })

/-- OVERVOLTAGE_SHUTDOWN (R472). -/
def execOvervoltageShutdown (s : State) : Host.Outcome State Fault Refusal := .next s.powerDown

/-- THERMAL_SHUTDOWN (R490): every rail but the Lighthouse's own is off until the input falls below 42 V. -/
def execThermalShutdown (s : State) : Host.Outcome State Fault Refusal :=
  .next (
    if !s.pkg.powered then s
    else
      let w := s.wipe
      { w with
        regs := s.regs.filter fun e => e.1.name.info.block == .lighthouse
        lh := { s.lh with recoveries := [], waiting := [], runs := [], due := [], gating := [], spans := [], summaries := [] }
        trust := { s.trust with signing := [] }
        pkg := { w.pkg with railsOff := true, pwrGood := false, thermtrip := true, alerts := s.pkg.alerts } })

end Sys2Proof.Machine
end

