-- ==== Sys2Proof/Machine/Curve.lean ====
section
/-! DEFINITION. Exp, GELU and SiLU (R221): the function's value in fixed point, and the FP32 values that lie within the bound of R223, of which
Config.curve names one (log entry 6). Fixed-point numbers here have 400 fraction bits, far more than the bound needs. -/

namespace Sys2Proof.Machine

/-- One in fixed point. -/
def fixOne : Nat := 2 ^ 400

/-- The terms of the series of e^t from number i on, added to a sum. -/
def expSeries (t : Nat) : Nat → Nat → Nat → Nat → Nat
  | 0, _, _, sum => sum
  | n + 1, i, term, sum => expSeries t n (i + 1) (term * t / fixOne / i) (sum + term * t / fixOne / i)

/-- A number squared n times. -/
def squared : Nat → Nat → Nat
  | 0, v => v
  | n + 1, v => squared n (v * v / fixOne)

/-- e^v for v at or above 0: by the series of e^(v / 256). -/
def expFix (v : Nat) : Nat := squared 8 (expSeries (v / 256) 80 1 fixOne fixOne)

/-- e^y; beyond ±200 the result is out of FP32's range, and that of ±200 stands for it. -/
def expOf (y : Int) : Nat :=
  let v := min y.natAbs (200 * fixOne)
  if y < 0 then fixOne * fixOne / expFix v else expFix v

/-- A finite FP32 value in fixed point. -/
def fixOf (n : Bool) (m : Nat) (e : Int) : Int := Val.scaled n m e (-400)

/-- 2 × 0.7978846x(1 + 0.044715x²), for which 0.5(1 + tanh) is the logistic function (R221). -/
def geluArg (x : Int) : Int :=
  let c := max (-200 * (fixOne : Int)) (min (200 * (fixOne : Int)) x)
  2 * 7978846 * c * (1000000 * (fixOne : Int) * fixOne + 44715 * c * c) / (10000000 * 1000000 * (fixOne : Int) * fixOne)

/-- x ÷ (1 + e^−y). -/
def logistic (n : Bool) (m : Nat) (e y : Int) : Val :=
  let p := expOf y
  .fin n (m * (p * fixOne / (fixOne + p))) (e - 400)

/-- The exact result of a curve for a finite element (R221). -/
def curveVal (code : Nat) (n : Bool) (m : Nat) (e : Int) : Val :=
  let x := fixOf n m e
  match code with
  | 0x4 => logistic n m e (geluArg x)
  | 0x5 => logistic n m e x
  | _ => .fin false (expOf x) (-400)

/-- The place of an FP32 encoding in ascending order, ±0 at 0. -/
def floatOrder (v : Nat) : Int := if v < 2 ^ 31 then (v : Int) else -((v : Int) - 2 ^ 31)

/-- The FP32 encoding at a place of that order; neg gives the sign of 0. -/
def floatAt (neg : Bool) (k : Int) : Nat :=
  if k < 0 then 2 ^ 31 + min k.natAbs 0x7F800000 else if k = 0 ∧ neg then 2 ^ 31 else min k.toNat 0x7F800000

/-- One of the 2n FP32 values that lie within n units in the last place of an exact value (R223). -/
def withinUlps (n : Nat) (v : Val) (pick : Nat) : Nat :=
  let r := (fltEnc fmt32 none v).1
  let exact := if r = 0x7F800000 then Val.fin false 1 128 else fltVal fmt32 r
  let low := if exact.le v then floatOrder r else floatOrder r - 1
  floatAt (match v with | .fin neg _ _ => neg | _ => false) (low - ((n : Int) - 1) + ((pick % (2 * n) : Nat) : Int))

/-- GELU, SiLU and exp of an FP32 element, with the special values of R221 (log entry 6). -/
def curve (code x : Nat) : Nat :=
  match fltVal fmt32 x with
  | .nan => fltNan fmt32
  | .inf false => x
  | .inf true => if code == 0x6 then 0 else 2 ^ 31
  | .fin n m e => withinUlps (if code == 0x6 then 1 else 2) (curveVal code n m e) (Config.curve code (BitVec.ofNat 32 x))

end Sys2Proof.Machine
end

