-- ==== Sys2Proof/Machine/Ebb.lean ====
section
/-! DEFINITION. The back end of a Matrix Array: the check of a row (R201), the Ebb chain (R217 to R224) with its stochastic draws (R76) and row
statistics, the draining of a tile (R202, R216, R233), and the commands EBB_SETIMM and EBB_SETVEC (R294). Types are numbered as those
of an accumulator: 0 FP32, 1 INT32, 2 FP64. -/

namespace Sys2Proof.Machine

/-! ## Numbers -/

/-- The floating-point format of an accumulator or working type. -/
def accFmt (ty : Nat) : Fmt := if ty == 2 then fmt64 else fmt32

/-- The type code of R68 of an accumulator or working type. -/
def accCode (ty : Nat) : Nat := match ty with | 0 => 0x01 | 1 => 0x12 | _ => 0x00

/-- One step of a generator (R76). -/
def xorshift (x : BitVec 64) : BitVec 64 :=
  let x := x ^^^ (x <<< 13)
  let x := x ^^^ (x >>> 7)
  x ^^^ (x <<< 17)

/-- The next 16-bit draw of an array's generator (R76). -/
def ArraySt.draw (a : ArraySt) : Nat × ArraySt :=
  let (g, d) := if 4 ≤ a.drawn then (xorshift a.gen, 0) else (a.gen, a.drawn)
  (fld g.toNat (16 * d + 15) (16 * d), { a with gen := g, drawn := d + 1 })

/-- What the check of a row finds (R201). -/
inductive RowCheck where
  | skipped | passed | failed
  deriving DecidableEq, Repr

/-- The check of a row against its checksum sums (R201). k: the tolerance is 2^−k. -/
def rowCheck (ty k : Nat) (row : List Nat) (c abar : Nat) : RowCheck :=
  if ty == 1 then
    if row.contains intInf then .skipped
    else if sext 64 c = (row.map (sext 32)).sum then .passed else .failed
  else
    let f := accFmt ty
    let open' (v : Val) : Bool := v.isInf || v.isNan
    if (row.map (fltVal f)).any open' || open' (fltVal f c) then .skipped
    else
      let sum := row.foldl (fadd f) 0
      if (((fltVal f c).add (fltVal f sum).neg).abs).le ((fltVal f abar).shift (-(k : Int))) then .passed else .failed

/-! ## The chain's configuration (R217 to R221) -/

/-- An operation of a slot (R221, R224). -/
structure ChainOp where
  code : Nat
  src : Nat
  aux : Nat
  handle : Nat
  sr : Bool
  imm0 : Nat
  imm1 : Nat
  deriving DecidableEq, Repr

/-- A chain: its working type, its operations, the ring that it writes, the type and layout of what it emits. -/
structure Chain where
  work : Nat
  ops : List ChainOp
  ring : Nat
  out : Nat
  layout : Nat
  deriving DecidableEq, Repr

/-- Whether a working type allows an operation (R221). -/
def opAllowed (work code : Nat) : Bool :=
  if [0x2, 0x3, 0x8, 0x9, 0xA, 0xB, 0xC].contains code then true
  else if code == 0x1 then work != 1
  else [0x4, 0x5, 0x6, 0x7].contains code && work == 0

/-- Whether stochastic rounding may be selected for a target (R75, R219). -/
def srAllowed (ty : Nat) : Bool := decide (0x04 ≤ ty) && decide (ty ≤ 0x0D)

/-- The codes that a slot may hold beside R219's ordering rules (R220, R221). -/
def slotOk (o : ChainOp) : Bool :=
  o.src != 3 && match o.code with
  | 0x8 => o.src == 0
  | 0x9 => decide (o.aux % 8 ≤ 5) && o.aux / 16 == 0
  | 0xA => eltWidth o.aux != 0 && (!o.sr || srAllowed o.aux)
  | 0xB => o.aux / 4 == 0
  | 0xC => decide (o.aux ≤ 3)
  | _ => true

/-- The ordering rules of R219 on the operations' codes. -/
def orderRules (codes : List Nat) : Bool :=
  let after (c : Nat) : List Nat := (codes.dropWhile (· != c)).drop 1
  (after 0xC).isEmpty && (after 0xA).all (· == 0xC) && !(after 0xB).contains 0xB

namespace State

/-- EB_OPn and EB_IMMn of the slots of chain a, which an instruction keeps from its beginning on (R13, R224). -/
def chainWords (s : State) (core a : Nat) : List (Nat × Nat) :=
  (List.range 8).map fun k => ((s.reg ⟨.ebOp, core, 8 * a + k⟩).toNat, (s.reg ⟨.ebImm, core, 8 * a + k⟩).toNat)

/-- The operation that the words of a slot give. -/
def chainOp (w : Nat × Nat) : ChainOp :=
  { code := fld w.1 59 56, src := fld w.1 55 54, aux := fld w.1 36 32, handle := fld w.1 51 40, sr := bitOf w.1 37, imm0 := fld w.2 31 0, imm1 := fld w.2 63 32 }

/-- The chain of an array with its slots' words, for an instruction that drains, or E_EBB_CONFIG (R217 to R220). -/
def chainOf (s : State) (core a ty : Nat) (words : List (Nat × Nat)) : Except Fail Chain :=
  let r : RegId := ⟨.ebCfg, core, a⟩
  let nops := s.rf r 3 0
  let work := s.rf r 7 6
  let pool := s.rf r 15 12
  let ops := (words.take nops).map chainOp
  let wt := if nops = 0 then ty else if ty == 2 then 2 else work
  let out := match ops.find? (fun o => o.code == 0xA) with
    | some o => o.aux
    | none => accCode wt
  let layout := match ops.find? (fun o => o.code == 0xC) with
    | some o => o.aux
    | none => 0
  if 8 < nops ∨ 1 < work ∨ (work = 1 ∧ ty ≠ 1) ∨ 8 < pool ∨ s.ringProducer core (8 * pool + s.rf r 11 9) ≠ a
      ∨ !(ops.all fun o => opAllowed wt o.code && slotOk o) ∨ !orderRules (ops.map (·.code)) ∨ (1 < layout ∧ (isMx out || isPlanes out)) then
    .error { code := E.ebbConfig }
  else .ok { work := wt, ops := ops, ring := 8 * pool + s.rf r 11 9, out := out, layout := layout }

end State

/-! ## The operations (R221, R223) -/

/-- An immediate in the working type: FP32 for F64 work, widened exactly (R224). -/
def immOf (work v : Nat) : Nat := if work == 2 then (fltEnc fmt64 none (fltVal fmt32 v)).1 else v

/-- Whether an element passes ReLU and clamp unchanged: a NaN or integer infinity (R221). -/
def passes (work x : Nat) : Bool := if work == 1 then x == intInf else (fltVal (accFmt work) x).isNan

/-- The order of clamp and compare: integer infinity above every value (log entry 22). -/
def below (work x y : Nat) : Bool := (accVal work x).lt (accVal work y)

/-- The greater of two elements: +0 of two zeros unless both are −0; a NaN of either (R221, R255). -/
def maxElem (work x y : Nat) : Nat :=
  if work == 1 then (if below work x y then y else x)
  else
    let f := accFmt work
    match fltVal f x, fltVal f y with
    | .nan, _ => fltNan f
    | _, .nan => fltNan f
    | a, b => if a.isZero && b.isZero then (if x == 0 || y == 0 then 0 else x) else if a.lt b then y else x

/-- The lesser of two elements: −0 of two zeros when either is −0; a NaN of either (R255). -/
def minElem (work x y : Nat) : Nat :=
  if work == 1 then (if below work y x then y else x)
  else
    let f := accFmt work
    match fltVal f x, fltVal f y with
    | .nan, _ => fltNan f
    | _, .nan => fltNan f
    | a, b => if a.isZero && b.isZero then (if x == 0 then y else x) else if b.lt a then y else x

/-- The comparison of R221 by its code: a NaN or integer infinity compares false except under ≠. -/
def compareElem (work aux x v : Nat) : Bool :=
  let (a, b) := (accVal work x, accVal work v)
  let void := passes work x || passes work v
  match aux % 8 with
  | 0 => !void && a.lt b
  | 1 => !void && a.le b
  | 2 => !void && b.lt a
  | 3 => !void && b.le a
  | 4 => !void && a.eq b
  | _ => void || !a.eq b

/-- One operation on one element, with its operand v (R221). -/
def applyOp (work : Nat) (o : ChainOp) (v x : Nat) : Nat :=
  let f := accFmt work
  match o.code with
  | 0x1 => fmul f x v
  | 0x2 => if work == 1 then iadd x v else fadd f x v
  | 0x3 => if passes work x then x else if below work 0 x then x else 0
  | 0x4 => curve 0x4 x
  | 0x5 => curve 0x5 x
  | 0x6 => curve 0x6 x
  | 0x7 => recip32 x
  | 0x8 =>
    if passes work x then x
    else if work != 1 && (passes work v || passes work (immOf work o.imm1)) then (Config.unstated 0 x v).toNat % 2 ^ (if work == 2 then 64 else 32)
    else minElem work (maxElem work x v) (immOf work o.imm1)
  | 0x9 =>
    if compareElem work o.aux x v then (if bitOf o.aux 3 then x else if work == 1 then 1 else immOf work 0x3F800000) else 0
  | _ => x

/-- The row statistics after one more element: maximum and sum in ascending column (R221). -/
def statStep (work : Nat) (r : Option (Nat × Nat)) (x : Nat) : Option (Nat × Nat) :=
  match r with
  | none => some (x, if work == 1 then iadd 0 x else fadd (accFmt work) 0 x)
  | some (m, t) => some (maxElem work m x, if work == 1 then iadd t x else fadd (accFmt work) t x)

/-! ## What a tile emits (R220) -/

/-- An encoding and what its conversion counts: the encoding, counted by R73, and integer infinity met (R215). -/
def convElem (work out : Nat) (draw : Option Nat) (x : Nat) : Nat × Bool × Bool :=
  if out == accCode work && work != 1 then (x, false, false)
  else
    let (v, counted) := convert out draw (accVal work x)
    let integer := match elt out with
      | .int _ _ => true
      | .pf _ => true
      | _ => false
    (v, counted, work == 1 && x == intInf && integer)

/-- The elements of a tile encoded in drain order: the encodings, the conversions counted, integer infinity met, and the generator. -/
def encodeAll (work out : Nat) (sr : Bool) : ArraySt → List Nat → List Nat × Nat × Bool × ArraySt
  | a, [] => ([], 0, false, a)
  | a, x :: xs =>
    let (d, a) : Option Nat × ArraySt := if sr then (let (d, a) := a.draw; (some d, a)) else (none, a)
    let (v, counted, iovf) := convElem work out d x
    let (r, n, i, a) := encodeAll work out sr a xs
    (v :: r, n + b2n counted, iovf || i, a)

/-- The elements of an MX tile encoded in drain order, with the scale byte of each one's block (R74, R76). -/
def encodeMx (work out : Nat) (sr : Bool) : ArraySt → List (Nat × Nat) → List Nat × ArraySt
  | a, [] => ([], a)
  | a, (sc, x) :: xs =>
    let (d, a) : Option Nat × ArraySt := if sr then (let (d, a) := a.draw; (some d, a)) else (none, a)
    let (r, a) := encodeMx work out sr a xs
    (mxElt out sc d (accVal work x) :: r, a)

/-- 64 rows of 64 in the order of a layout code (R105, R220). -/
def layRows {α : Type} (layout : Nat) (rows : List (List α)) : List (List α) :=
  match layout with
  | 1 => transposeRows 64 rows
  | 3 => transposeRows 64 rows
  | 2 => (List.range 64).map fun w => (rows.mapIdx fun i r => (r.drop ((w + 64 - i) % 64)).take 1).flatten
  | _ => rows

/-- The bytes that rows in drain order emit, with the conversions counted, integer infinity met, and the generator. Fewer than 64 rows: those
before a row that failed its check, of a form that is emitted row by row. -/
def emitRows (ch : Chain) (a : ArraySt) (rows : List (List Nat)) : List Byte × Nat × Bool × ArraySt :=
  let sr := ch.ops.any fun o => o.code == 0xA && o.sr
  if isMx ch.out then
    let placed := layRows ch.layout rows
    let scales := (chunksOf 32 128 placed.flatten).map fun b => mxScale ch.out (b.map (accVal ch.work))
    let each := (scales.map fun sc => List.replicate 32 sc).flatten
    let drained := layRows ch.layout (chunksOf 64 64 each)
    let (vs, a) := encodeMx ch.work ch.out sr a (drained.flatten.zip rows.flatten)
    (scales.map (BitVec.ofNat 8) ++ packElems ch.out (layRows ch.layout (chunksOf 64 64 vs)).flatten, 0, false, a)
  else
    let (vs, n, i, a) := encodeAll ch.work ch.out sr a rows.flatten
    (packElems ch.out (layRows ch.layout (chunksOf 64 64 vs)).flatten, n, i, a)

/-! ## Draining a tile -/

/-- A tile on its way through the drain: the rows that have left it in the working type, the statistics, the row that failed its check, and
the fault of a vector's read. -/
structure Drain where
  s : State
  rows : List (List Nat)
  stats : List (Nat × (Nat × Nat))
  failed : Option Nat
  fault : Option Fail

/-- What the chain works on beside the tile: its vectors' descriptors by slot, the row and column of the tile's first element, and the mask
bytes of the tile's rows, none without a mask. -/
structure DrainEnv where
  x : EngRef
  t : Task
  ws : List Window
  ch : Chain
  descs : List (Option Desc)
  ty : Nat
  row0 : Nat
  col0 : Nat
  mask : Option (List Nat)

namespace State

/-- The descriptors of the chain's vectors and of its row statistics (R222). -/
def chainDescs (s : State) (t : Task) (core : Nat) (work : Nat) : List ChainOp → Except Fail (List (Option Desc))
  | [] => .ok []
  | o :: os =>
    let uses := o.code == 0xB || (o.src != 0 && [0x1, 0x2, 0x9].contains o.code)
    let d : Except Fail (Option Desc) := if uses then (s.localDesc t core o.handle 1 (accCode work) E.ebbConfig).map some else .ok none
    match d with
    | .error f => .error f
    | .ok d =>
      match s.chainDescs t core work os with
      | .error f => .error f
      | .ok r => .ok (d :: r)

/-- The per-column vectors of a tile, read once (R222). -/
def columnVectors (e : DrainEnv) : State → List (ChainOp × Option Desc) → Except Fail (List (List Nat) × State)
  | s, [] => .ok ([], s)
  | s, (o, d) :: r =>
    match d with
    | some d =>
      if o.src == 1 && o.code != 0xB then
        match readElems e.x e.t e.ws o.handle d 64 s e.col0 with
        | .error f => .error f
        | .ok (v, s) => (columnVectors e s r).map fun p => (v :: p.1, p.2)
      else (columnVectors e s r).map fun p => ([] :: p.1, p.2)
    | none => (columnVectors e s r).map fun p => ([] :: p.1, p.2)

/-- The elements of a row through the operations of the chain, in slot order (R217, R221). m is the row in the output. -/
def rowOps (e : DrainEnv) (m : Nat) : State → List (Nat × (Nat × Nat)) → List ((ChainOp × Option Desc) × List Nat) → List Nat →
    State × List (Nat × (Nat × Nat)) × Except Fail (List Nat)
  | s, st, [], xs => (s, st, .ok xs)
  | s, st, ((o, d), col) :: r, xs =>
    if o.code == 0xA || o.code == 0xC then rowOps e m s st r xs
    else if o.code == 0xB then
      let v := xs.foldl (statStep e.ch.work) ((st.find? fun p => p.1 == m).map (·.2))
      let st := match v with
        | some v => if st.any (fun p => p.1 == m) then st.map (fun p => if p.1 == m then (m, v) else p) else st ++ [(m, v)]
        | none => st
      rowOps e m s st r xs
    else if o.src == 1 && d.isSome then rowOps e m s st r (xs.zipWith (fun x v => applyOp e.ch.work o v x) col)
    else match (if o.src == 2 then d else none) with
      | some d =>
        match s.readElem e.x e.t e.ws o.handle d [(m : Int)] with
        | .error f => (s, st, .error f)
        | .ok (v, s) => rowOps e m s st r (xs.map fun x => applyOp e.ch.work o v x)
      | none => rowOps e m s st r (xs.map fun x => applyOp e.ch.work o (immOf e.ch.work o.imm0) x)

/-- Flag what enters the chain (R224). -/
def flagRow (s : State) (x : EngRef) (ty : Nat) (row : List Nat) : State :=
  let vs := row.map (accVal ty)
  let r : RegId := ⟨.ebStatus, x.core, x.eng⟩
  let s := if vs.any Val.isInf then s.setRf r 62 62 1 else s
  if vs.any Val.isNan then s.setRf r 60 60 1 else s

/-- Count a row's check (R201, R205). -/
def countRow (s : State) (x : EngRef) (v : RowCheck) : State :=
  match v with
  | .skipped => s.satRf ⟨.maAbftcnt, x.core, x.eng⟩ 63 32 1
  | .passed => s.satRf ⟨.maAbftcnt, x.core, x.eng⟩ 31 0 1
  | .failed => s

/-- The tolerance exponent of an array (R201), as the task latched it. -/
def tolerance (s : State) (x : EngRef) (ty : Nat) : Nat :=
  let v := (s.eng x).cfg
  if ty == 2 then 20 + fld v 13 8 else 6 + fld v 3 0

/-- One row of a tile: its check, the mask, and the chain (R201, R202, R216, R233). -/
def drainRow (e : DrainEnv) (cols : List (List Nat)) (d : Drain) (i : Nat) (row : List Nat) (c abar : Nat) : Drain :=
  if d.failed.isSome || d.fault.isSome then d
  else
    let v := rowCheck e.ty (d.s.tolerance e.x e.ty) row c abar
    if v = .failed then { d with failed := some i }
    else
      let s := d.s.countRow e.x v
      let (row, s) : List Nat × State := match e.mask with
        | none => (row, s)
        | some ms =>
          let b := ms.getD i 0
          let gone := (List.range 8).filter fun g => !bitOf b g
          (row.mapIdx fun j v => if bitOf b (j / 8) then v else 0, s.addRf ⟨.maMaskskip, e.x.core, e.x.eng⟩ 63 32 gone.length)
      let s := s.flagRow e.x e.ty row
      let xs := if e.ty == 1 && e.ch.work == 0 then row.map (fun v => (fltEnc fmt32 none (accVal 1 v)).1) else row
      let (s, st, r) := rowOps e (e.row0 + i) s d.stats ((e.ch.ops.zip e.descs).zip cols) xs
      match r with
      | .error f => { d with s := s, stats := st, fault := some f }
      | .ok xs => { d with s := s, stats := st, rows := d.rows ++ [xs] }

/-- The rows of a tile from row i on. -/
def drainRows (e : DrainEnv) (cols : List (List Nat)) (c abar : List Nat) : Drain → Nat → List (List Nat) → Drain
  | d, _, [] => d
  | d, i, row :: rows => drainRows e cols c abar (drainRow e cols d i row (c.getD i 0) (abar.getD i 0)) (i + 1) rows

/-- Drain one tile, of a number in the accumulator, into the chain's ring: what it emits joins the slots to commit, with the last of which the tile is free;
rows before one that failed leave with the slots that they fill (R202, R218). -/
def drainTile (s : State) (e : DrainEnv) (stats : List (Nat × (Nat × Nat))) (key : Nat) (vals c abar : List Nat) : Drain :=
  match columnVectors e s (e.ch.ops.zip e.descs) with
  | .error f => { s := s, rows := [], stats := stats, failed := none, fault := some f }
  | .ok (cols, s) =>
    let d := drainRows e cols c abar { s := s, rows := [], stats := stats, failed := none, fault := none } 0 (chunksOf 64 64 vals)
    if d.fault.isSome || (d.failed.isSome && (isMx e.ch.out || e.ch.layout != 0)) then d
    else
      let (bs, n, i, a) := emitRows e.ch (d.s.array e.x.core e.x.eng) d.rows
      let s := d.s.setArray e.x.core e.x.eng a
      let r : RegId := ⟨.ebStatus, e.x.core, e.x.eng⟩
      let s := if n == 0 then s else s.satRf r 31 0 n
      let s := if i then s.setRf r 61 61 1 else s
      let size := max 1 (s.slotSize e.x.core e.ch.ring)
      let bs := if d.failed.isSome then bs.take (bs.length / size * size) else bs
      { d with s := s.putOut e.x e.ch.ring e.ch.out bs (if d.failed.isSome then none else some key) }

/-- The row statistics after the last tile: the maximum of row m to element 2m of the vector, the sum to element 2m + 1 (R221). -/
def writeStats (s : State) (e : DrainEnv) (stats : List (Nat × (Nat × Nat))) : State × Option Fail :=
  match (e.ch.ops.zip e.descs).find? fun p => p.1.code == 0xB with
  | some (o, some d) =>
    let vs := (stats.map fun p =>
      (if bitOf o.aux 0 then [([((2 * p.1 : Nat) : Int)], p.2.1)] else []) ++ (if bitOf o.aux 1 then [([((2 * p.1 + 1 : Nat) : Int)], p.2.2)] else [])).flatten
    writeElems e.x e.t e.ws o.handle d s vs
  | _ => (s, none)

end State

/-! ## The commands -/

/-- EBB SETIMM (R294): imm0 and imm1 of a chain slot. -/
def execEbbSetimm (x : EngRef) (chainSlot imm0 imm1 : Nat) (s : State) : Host.Outcome State Fault Refusal :=
  let self : Instr := .ebbSetimm x chainSlot imm0 imm1
  .next (s.issue [0, 1] x self fun s t =>
    (s.setReg ⟨.ebImm, x.core, 8 * x.eng + chainSlot⟩ (BitVec.ofNat 64 (imm0 % 2 ^ 32 + imm1 % 2 ^ 32 * 2 ^ 32))).retire x t self)

/-- EBB SETVEC (R294): the handle of a chain slot. -/
def execEbbSetvec (x : EngRef) (chainSlot handle : Nat) (s : State) : Host.Outcome State Fault Refusal :=
  let self : Instr := .ebbSetvec x chainSlot handle
  .next (s.issue [0, 1] x self fun s t => (s.setRf ⟨.ebOp, x.core, 8 * x.eng + chainSlot⟩ 51 40 handle).retire x t self)

end Sys2Proof.Machine
end

