-- ==== Sys2Proof/Machine/Estuary.lean ====
section
/-! DEFINITION. The Estuary (R250 to R261, R296): the merge table and its checks, the intake and the run combiners, the port tree, the three forms of
output, and the command MERGE. -/

namespace Sys2Proof.Machine

/-! ## The merge table (R251) -/

def mtGroups (b : List Byte) : Nat := fieldAt b 0 4
def mtPorts (b : List Byte) : Nat := fieldAt b 4 2
def mtOut (b : List Byte) : Nat := fld (fieldAt b 6 1) 5 4
def mtPairs (b : List Byte) : Bool := bitOf (fieldAt b 6 1) 3
def mtFp64 (b : List Byte) : Bool := bitOf (fieldAt b 6 1) 2
def mtOp (b : List Byte) : Nat := fieldAt b 6 1 % 4
def mtOutkey (b : List Byte) : Nat := fieldAt b 8 2
def mtOutval (b : List Byte) : Nat := fieldAt b 10 2
def mtOutcount (b : List Byte) : Nat := fieldAt b 12 2
def mtTiles (b : List Byte) : Nat := fieldAt b 16 4
def mtKey (b : List Byte) (p : Nat) : Nat := fieldAt b (32 + 32 * p) 2
def mtValue (b : List Byte) (p : Nat) : Nat := fieldAt b (34 + 32 * p) 2
def mtStart (b : List Byte) (p : Nat) : Nat := fieldAt b (36 + 32 * p) 4
def mtCount (b : List Byte) (p : Nat) : Nat := fieldAt b (40 + 32 * p) 4
def mtScaled (b : List Byte) (p : Nat) : Bool := bitOf (fieldAt b (44 + 32 * p) 4) 0
def mtScale (b : List Byte) (p : Nat) : Nat := fieldAt b (48 + 32 * p) 8

/-- The participating ports of a table. -/
def mtTaken (b : List Byte) : List Nat := (List.range 16).filter (bitOf (mtPorts b))

/-- The reserved fields of a table, the upper bits of its handles and of FP32 scales (R251). -/
def tableReserved (b : List Byte) : Bool :=
  fld (fieldAt b 6 1) 7 6 == 0 && fieldAt b 7 1 == 0 && fieldAt b 14 2 == 0 && fieldAt b 20 12 == 0
  && decide (mtOutkey b ≤ 0xFFF) && decide (mtOutval b ≤ 0xFFF) && decide (mtOutcount b ≤ 0xFFF)
  && (List.range 16).all fun p =>
    fieldAt b (44 + 32 * p) 4 / 2 == 0 && fieldAt b (56 + 32 * p) 8 == 0 && decide (mtKey b p ≤ 0xFFF) && decide (mtValue b p ≤ 0xFFF)
    && (mtFp64 b || !(mtTaken b).contains p || mtScale b p / 2 ^ 32 == 0)

/-- The working type of a table, numbered as an accumulator's. -/
def mtWork (b : List Byte) : Nat := if mtFp64 b then 2 else 0

/-- The length of the records that ring ports supply. -/
def mtLen (b : List Byte) : Nat := if mtPairs b then pairLen (mtFp64 b) else singleLen (mtFp64 b)

/-- The combining operation ⊕ (R255). -/
def combine (op work a b : Nat) : Nat :=
  match op with
  | 0 => fadd (accFmt work) a b
  | 1 => maxElem work a b
  | 2 => minElem work a b
  | _ => b

/-- One level of the tree over the port numbers (R254). -/
def treeLevel (op work : Nat) : List (Option Nat) → List (Option Nat)
  | a :: b :: t =>
    (match a, b with
     | some x, some y => some (combine op work x y)
     | none, b => b
     | a, none => a) :: treeLevel op work t
  | t => t

/-- The tree of R254 over 16 ports. -/
def portTree (op work : Nat) (v : List (Option Nat)) : Option Nat :=
  ((treeLevel op work (treeLevel op work (treeLevel op work (treeLevel op work v)))).headD none)

/-- The distinct keys of lists, ascending. -/
def insertKey (k : Nat) : List Nat → List Nat
  | [] => [k]
  | a :: t => if k < a then k :: a :: t else if k = a then a :: t else a :: insertKey k t

def mergeKeys (l : List Nat) : List Nat := l.foldl (fun acc k => insertKey k acc) []

/-- A MERGE with its table and what its handles name. -/
structure MergeEnv where
  x : EngRef
  t : Task
  ws : List Window
  table : Nat
  b : List Byte
  /-- port: none for a ring port, or the key and value descriptors of a Cove port -/
  ports : List (Nat × Option (Desc × Desc))
  out : Option (Desc × Desc)
  counts : Option Desc
  ring : Nat

namespace State

/-- What the participating ports of a table name (R250, R252). -/
def mergePorts (s : State) (x : EngRef) (t : Task) (b : List Byte) : List Nat → Except (Nat × Fail) (List (Nat × Option (Desc × Desc)))
  | [] => .ok []
  | p :: ps =>
    let src := s.portSource x.core p
    let bad : Fail := { code := E.mergeInvalid }
    let this : Except (Nat × Fail) (Option (Desc × Desc)) :=
      if src < 8 then
        (if mtKey b p != 0xFFF || mtValue b p != 0xFFF || mtStart b p != 0 || mtCount b p != 0 || decide (s.slotSize x.core (40 + src) < mtLen b) then
          .error (p, bad) else .ok none)
      else if src == 8 then
        match s.localDesc t x.core (mtKey b p) 1 0x12 E.mergeInvalid, s.localDesc t x.core (mtValue b p) 1 (accCode (mtWork b)) E.mergeInvalid with
        | .error f, _ => .error (p, f)
        | _, .error f => .error (p, f)
        | .ok k, .ok v => if k.ext 0 < mtStart b p + mtCount b p ∨ v.ext 0 < mtStart b p + mtCount b p then .error (p, bad) else .ok (some (k, v))
      else .error (p, bad)
    match this with
    | .error e => .error e
    | .ok v =>
      match s.mergePorts x t b ps with
      | .error e => .error e
      | .ok r => .ok ((p, v) :: r)

/-- The addresses of elements lo to hi - 1 of a list: the first byte and the end; none for an empty range. -/
def listSpan (s : State) (t : Task) (ws : List Window) (handle : Nat) (d : Desc) (lo hi : Nat) : Option (Int × Int) :=
  if hi ≤ lo then none
  else match s.elementAddr t ws handle d [(lo : Int)], s.elementAddr t ws handle d [((hi - 1 : Nat) : Int)] with
    | .ok (a, _, _, _), .ok (b, _, _, _) => some (a, b + d.bytes)
    | _, _ => none

/-- The table's checks and what it names (R238, R250, R252, R256). A ring output has SINGLE width whatever the inputs are (R256), so R252's ring output of PAIR
width does not occur. -/
def mergeEnv (s : State) (x : EngRef) (t : Task) (table : Nat) (b : List Byte) : Except (Nat × Fail) MergeEnv :=
  let bad : Except (Nat × Fail) MergeEnv := .error (0, { code := E.mergeInvalid })
  let taken := mtTaken b
  let rings := (taken.map (s.portSource x.core)).filter (decide <| · < 8)
  let o : RegId := ⟨.esOut, x.core, 0⟩
  let pool := s.rf o 7 4
  let ring := 8 * pool + s.rf o 2 0
  if !tableReserved b || taken.isEmpty || mtGroups b == 0 || mtOut b == 3 || !rings.Nodup
      || (mtOut b != 0 && (decide (8 < pool) || s.ringProducer x.core ring != 3))
      || (mtOut b == 1 && decide (s.slotSize x.core ring < singleLen (mtFp64 b))) then bad
  else match s.windowTable t, s.mergePorts x t b taken with
    | .error f, _ => .error (0, f)
    | _, .error e => .error e
    | .ok ws, .ok ports =>
      let out : Except Fail (Option (Desc × Desc)) :=
        if mtOut b != 0 then .ok none
        else match s.localDesc t x.core (mtOutkey b) 1 0x12 E.mergeInvalid, s.localDesc t x.core (mtOutval b) 1 (accCode (mtWork b)) E.mergeInvalid with
          | .error f, _ => .error f
          | _, .error f => .error f
          | .ok k, .ok v => .ok (some (k, v))
      let counts : Except Fail (Option Desc) :=
        if mtOutcount b == 0xFFF then .ok none else (s.localDesc t x.core (mtOutcount b) 1 0x12 E.mergeInvalid).map some
      match out, counts with
      | .error f, _ => .error (0, f)
      | _, .error f => .error (0, f)
      | .ok out, .ok counts =>
        let ins := (ports.map fun p => match p.2 with
          | some (k, v) =>
            [s.listSpan t ws (mtKey b p.1) k (mtStart b p.1) (mtStart b p.1 + mtCount b p.1),
             s.listSpan t ws (mtValue b p.1) v (mtStart b p.1) (mtStart b p.1 + mtCount b p.1)]
          | none => []).flatten.filterMap id
        let outs := ((match out with
          | some (k, v) => [s.listSpan t ws (mtOutkey b) k 0 (k.ext 0), s.listSpan t ws (mtOutval b) v 0 (v.ext 0)]
          | none => []) ++ (match counts with
          | some d => [s.listSpan t ws (mtOutcount b) d 0 (d.ext 0)]
          | none => [])).filterMap id
        if outs.any fun u => ins.any fun v => decide (u.1 < v.2) && decide (v.1 < u.2) then bad
        else .ok ⟨x, t, ws, table, b, ports, out, counts, ring⟩

/-- The table read at the start of the MERGE (R251). -/
def readTable (s : State) (x : EngRef) (t : Task) (table : Nat) : Except Fail (List Byte) :=
  match s.windowTable t, s.localDesc t x.core table 1 0x10 E.mergeInvalid with
  | .error f, _ => .error f
  | _, .error f => .error f
  | .ok ws, .ok d =>
    if d.ext 0 < 544 then .error { code := E.mergeInvalid, handle := table }
    else match s.elementAddr t ws table d [0] with
      | .error f => .error f
      | .ok (va, pk, gl, _) => s.readMeta t ws d.tenant gl pk va 544

/-! ## Intake (R237, R238, R253) -/

/-- The next record of a ring port. Its slot leaves the ring with its last record; none while there is no record (R135, R238). -/
def ringRecord (s : State) (e : MergeEnv) (n : Nat) : Nat → Option (List Byte) × State
  | 0 => (none, s)
  | fuel + 1 =>
    let len := mtLen e.b
    match s.seeSlots e.x.core n 1 with
    | [] => (none, s)
    | v :: _ =>
      let u := (s.held e.x n).used
      let release (s : State) : State := (s.releaseSlots e.x.core n e.t.id 1).setHeld e.x n ⟨0, []⟩
      if v.struck then (none, s.parityFail e.x n)
      else if v.bytes.length < u + len then (release s).ringRecord e n fuel
      else (some ((v.bytes.drop u).take len), if v.bytes.length < u + 2 * len then release s else s.setHeld e.x n ⟨u + len, []⟩)

/-- The key word and value of a record of a ring port, pairs multiplied (R236, R253). -/
def recordOf (b rec' : List Byte) : Nat × Nat :=
  let fp64 := mtFp64 b
  let w := if fp64 then 8 else 4
  let o := if fp64 then 8 else 4
  let v := fieldAt rec' o w
  (fieldAt rec' 0 4, if mtPairs b then fmul (accFmt (mtWork b)) v (fieldAt rec' (o + w) w) else v)

/-- What a port answers. -/
inductive PortStep where
  | got (s : State) (key v : Nat)
  | empty (s : State)
  | bad (s : State) (f : Fail)

/-- The next record of a port: key word and value. -/
def portRecord (s : State) (e : MergeEnv) (p : Nat) (src : Option (Desc × Desc)) (m : MergePort) : PortStep :=
  match src with
  | none =>
    let n := 40 + s.portSource e.x.core p
    match s.ringRecord e n 64 with
    | (some r, s) => .got s (recordOf e.b r).1 (recordOf e.b r).2
    | (none, s) =>
      if s.live e.t.id && (s.eng ⟨e.x.core, e.t.slot, s.ringProducer e.x.core n⟩).ended then .bad s { code := E.runMismatch } else .empty s
  | some (k, v) =>
    if mtCount e.b p ≤ m.pos then .bad s { code := E.runMismatch }
    else
      let c : List Int := [((mtStart e.b p + m.pos : Nat) : Int)]
      match s.readElem e.x e.t e.ws (mtKey e.b p) k c with
      | .error f => .bad s f
      | .ok (kw, s) =>
        match s.readElem e.x e.t e.ws (mtValue e.b p) v c with
        | .error f => .bad s f
        | .ok (w, s) => .got s kw w

/-- What one record does to its port's run (R237, R253): the run combiner folds equal keys in stream order. -/
def foldRecord (b : List Byte) (p : Nat) (m : MergePort) (kw v : Nat) : Except Fail MergePort :=
  let key := kw % 2 ^ 31
  let last := bitOf kw 31
  let m := { m with pos := m.pos + 1, count := m.count + 1 }
  if key == voidKey then
    (if m.count == 1 && last then .ok { m with closed := true } else .error { code := E.mergeOrder })
  else if (match m.prev with | some q => decide (key < q) | none => false) then .error { code := E.mergeOrder }
  else
    let f := accFmt (mtWork b)
    let v := if mtScaled b p then fmul f v (mtScale b p) else v
    let run := match m.run.getLast? with
      | some (k, u) => if k == key then m.run.dropLast ++ [(k, combine (mtOp b) (mtWork b) u v)] else m.run ++ [(key, v)]
      | none => [(key, v)]
    .ok { m with prev := some key, run := run, closed := last }

/-- A port's run of the present group, as far as its records are there; each that is taken counts (R260). -/
def fillPort (e : MergeEnv) (p : Nat) (src : Option (Desc × Desc)) : Nat → State → MergePort → Except (State × Fail) (State × MergePort)
  | 0, s, m => .ok (s, m)
  | fuel + 1, s, m =>
    if m.closed then .ok (s, m)
    else match s.portRecord e p src m with
      | .empty s => .ok (s, m)
      | .bad s f => .error (s, f)
      | .got s kw v =>
        let s := s.satRf ⟨.esCount, e.x.core, e.x.slot⟩ 63 32 1
        match foldRecord e.b p m kw v with
        | .error f => .error (s, f)
        | .ok m => fillPort e p src fuel s m

def freshPort : MergePort := ⟨0, 0, none, [], false⟩

/-- Every port of the group (R253); an error names its port. -/
def fillPorts (e : MergeEnv) (s : State) (r : MergeRun) : List (Nat × Option (Desc × Desc)) → Except (State × Nat × Fail) (State × MergeRun)
  | [] => .ok (s, r)
  | (p, src) :: ps =>
    let m := ((r.ports.find? fun q => q.1 == p).map (·.2)).getD freshPort
    match fillPort e p src (mtCount e.b p + 2 ^ 18) s m with
    | .error (s, f) => .error (s, p, f)
    | .ok (s, m) => fillPorts e s { r with ports := (r.ports.filter fun q => q.1 != p) ++ [(p, m)] } ps

/-- The elements of a group, ascending by key (R254, R256). -/
def groupElements (b : List Byte) (ports : List (Nat × MergePort)) : List (Nat × Nat) :=
  let keys := mergeKeys (ports.map fun q => q.2.run.map (·.1)).flatten
  keys.filterMap fun k =>
    (portTree (mtOp b) (mtWork b) ((List.range 16).map fun p =>
      (ports.find? fun q => q.1 == p).bind fun q => (q.2.run.find? fun u => u.1 == k).map (·.2))).map fun v => (k, v)

/-! ## Output (R256, R257) -/

/-- A MERGE aborts in a group at a port (R260, R261). -/
def mergeFail (s : State) (x : EngRef) (t : Task) (group port : Nat) (f : Fail) : State :=
  s.failTask t x.core x.eng { f with visit := group, port := port }

/-- Elements of a Cove list, each key word with its value, from element j on, as far as no write fails; each counts (R256, R260). -/
def emitList (e : MergeEnv) (kd vd : Desc) : State → Nat → List (Nat × Nat × Bool) → State × Option Fail
  | s, _, [] => (s, none)
  | s, j, (k, v, last) :: r =>
    match s.writeElem e.x e.t e.ws (mtOutkey e.b) kd [(j : Int)] (leNat (keyWord k last)) with
    | .error f => (s, some f)
    | .ok s =>
      match s.writeElem e.x e.t e.ws (mtOutval e.b) vd [(j : Int)] v with
      | .error f => (s, some f)
      | .ok s => emitList e kd vd (if k == voidKey then s else s.satRf ⟨.esCount, e.x.core, e.x.slot⟩ 31 0 1) (j + 1) r

/-- A group's output run (R256, R257): the count, and its elements in the form of the table. A void run is one void record, whose value the spec
leaves open. -/
def emitGroup (s : State) (e : MergeEnv) (r : MergeRun) (es : List (Nat × Nat)) : Except (State × Fail) (State × MergeRun) :=
  let counted : State × Option Fail := match e.counts with
    | some d => writeElems e.x e.t e.ws (mtOutcount e.b) d s [([(r.group : Int)], es.length)]
    | none => (s, none)
  match counted with
  | (s, some f) => .error (s, f)
  | (s, none) =>
    let (v, s) := if es.isEmpty && mtOut e.b != 2 then s.fresh else (0, s)
    let n := es.length
    let count : RegId := ⟨.esCount, e.x.core, e.x.slot⟩
    let elems := if es.isEmpty then [(voidKey, v, true)] else es.mapIdx fun k p => (p.1, p.2, k + 1 == n)
    match mtOut e.b, e.out with
    | 0, some (kd, vd) =>
      match emitList e kd vd s r.outPos elems with
      | (s, some f) => .error (s, f)
      | (s, none) => .ok (s.countUnits e.x, { r with outPos := r.outPos + elems.length })
    | 1, _ =>
      let (full, last) := fillSlots (s.slotSize e.x.core e.ring) r.slot (elems.map fun p => singleRec (mtFp64 e.b) p.1 p.2.1 p.2.2)
      .ok (full.foldl (fun s b => s.putOut e.x e.ring 0x10 b) (s.satRf count 31 0 n), { r with slot := last })
    | _, _ =>
      match es with
      | [] => .ok (s, r)
      | (k0, _) :: _ =>
        if (match r.last with | some l => decide (k0 ≤ l) | none => false) then .error (s, { code := E.mergeOrder })
        else if es.any fun p => decide (4096 * mtTiles e.b ≤ p.1) then .error (s, { code := E.mergeRange })
        else .ok (s.satRf count 31 0 n, { r with cells := r.cells ++ es, last := (es.getLast?.map (·.1)) })

/-- Tile number r.tile in the row-major form of R220, +0 where no key falls (R257). -/
def emitTile (s : State) (e : MergeEnv) (r : MergeRun) : State × MergeRun :=
  let mine := r.cells.filter fun c => c.1 / 4096 == r.tile
  let vals := scatterBits (markBits 4096 0 (mine.map fun c => c.1 % 4096)) (mine.map (·.2))
  (s.putOut e.x e.ring (accCode (mtWork e.b)) (packElems (accCode (mtWork e.b)) vals), { r with tile := r.tile + 1, cells := r.cells.filter fun c => c.1 / 4096 != r.tile })

/-- Groups as the ports bring them, until the last output is committed (R28, R253, R256, R257). -/
def mergeGo (e : MergeEnv) : Nat → State → MergeRun → RunEnd
  | 0, s, r => .wait s (.merge r)
  | fuel + 1, s, r =>
    let s := (s.setRun e.x (.merge r)).flush e.x e.t.id
    let all := decide (mtGroups e.b ≤ r.group)
    if !(s.eng e.x).outbuf.isEmpty then .wait s (.merge r)
    else if mtOut e.b == 2 && decide (r.tile < mtTiles e.b) && (all || r.cells.any fun c => decide (r.tile < c.1 / 4096)) then
      let (s, r) := s.emitTile e r
      mergeGo e fuel s r
    else if all then
      if !r.slot.isEmpty then mergeGo e fuel (s.putOut e.x e.ring 0x10 r.slot) { r with slot := [] }
      else match e.ports.find? fun p => p.2.isSome && decide ((((r.ports.find? fun q => q.1 == p.1).map (·.2)).getD freshPort).pos < mtCount e.b p.1) with
        | some p => .bad s { code := E.runMismatch, visit := r.group, port := p.1 }
        | none => .done (s.setRun e.x .none)
    else match fillPorts e s r e.ports with
      | .error (s, p, f) => .bad s { f with visit := r.group, port := p }
      | .ok (s, r) =>
        if r.ports.any fun q => !q.2.closed then .wait s (.merge r)
        else
          let es := groupElements e.b r.ports
          match s.emitGroup e r es with
          | .error (s, f) => .bad s { f with visit := r.group, port := 0 }
          | .ok (s, r) =>
            mergeGo e fuel s { r with group := r.group + 1, ports := r.ports.map fun q => (q.1, { freshPort with pos := q.2.pos }) }

/-- MERGE begins with its table, or goes on where it waited. -/
def mergeInstr (s : State) (x : EngRef) (t : Task) (table : Nat) : State :=
  let begun : Except Fail MergeRun := match (s.eng x).run with
    | .merge r => .ok r
    | _ => (s.readTable x t table).map fun b => ⟨b, 0, [], 0, [], 0, [], none⟩
  match begun with
  | .error f => s.mergeFail x t 0 0 f
  | .ok r =>
    match s.mergeEnv x t table r.table with
    | .error (p, f) => s.mergeFail x t r.group p f
    | .ok e => endRun x t (.merge x table) (mergeGo e (mtGroups r.table + mtTiles r.table + 2 ^ 12) s r)

end State

/-- MERGE (R253). -/
def execMerge (x : EngRef) (table : Nat) (s : State) : Host.Outcome State Fault Refusal :=
  .next (s.issue [3] x (.merge x table) fun s t => s.mergeInstr x t table)

end Sys2Proof.Machine
end

