-- ==== Sys2Proof/Machine/Matrix.lean ====
section
/-! DEFINITION. The Matrix Arrays: what an instruction asks (R181, R186, R195, R199, R207, R208, R232), the feeders (R180, R185), chunk partials
and their checksum sums (R182, R200, R212), the tree (R211), stationary loads of the dense, sparse and plane modes (R184, R191, R196,
R233), Lookout's scores (R230, R231), and the commands MMA_DENSE, MMA_SLIDING, MMA_TRANSPOSED, MMA_PLANE, SPMM and LOOKOUT. -/

namespace Sys2Proof.Machine

/-! ## What an instruction asks -/

/-- The modes of an array. -/
inductive ArrayMode where
  | dense | sliding | transposed | plane | sparse | lookout
  deriving DecidableEq, Repr

/-- Whether a mode reads the stationary operand's planes (R195, R230). -/
def ArrayMode.planes (m : ArrayMode) : Bool := m == .plane || m == .lookout

/-- The group of R181 that a type belongs to, and its accumulator type; none for a type that no array takes. -/
def pairGroup (ty : Nat) : Option (Nat × Nat) :=
  match ty with
  | 0x00 => some (0, 2)
  | 0x01 => some (1, 0)
  | 0x02 => some (2, 0)
  | 0x03 => some (3, 0)
  | 0x04 | 0x05 => some (4, 0)
  | 0x06 | 0x07 => some (5, 0)
  | 0x08 => some (6, 0)
  | 0x09 | 0x0A => some (7, 0)
  | 0x0B | 0x0C => some (8, 0)
  | 0x0D => some (9, 0)
  | 0x0E => some (10, 0)
  | 0x0F | 0x10 => some (11, 1)
  | 0x11 => some (12, 1)
  | _ => none

/-- The accumulator type of a pair of types in a mode (R181, R191, R195). -/
def pairType (m : ArrayMode) (a b : Nat) : Option Nat :=
  if m.planes || (m == .sparse && isPf b) then (if isPf b && (a == 0x0F || a == 0x10 || a == 0x11) then some 1 else none)
  else match pairGroup a, pairGroup b with
    | some p, some q => if p.1 == q.1 then some p.2 else none
    | _, _ => none

/-- An instruction of an array with its operands as the descriptors give them: M/64, the column blocks of an output block or span and of the
whole output, the chunks of the reduction, the accumulator type and base tile. -/
structure ArrayEnv where
  x : EngRef
  t : Task
  ws : List Window
  mode : ArrayMode
  ops : MmaOps
  /-- LOOKOUT's own fields -/
  look : LookoutOps
  a : Desc
  b : Desc
  mask : Option Desc
  ty : Nat
  tiles : Nat
  span : Nat
  columns : Nat
  chunks : Nat
  base : Nat

namespace ArrayEnv

/-- Output blocks or spans. -/
def outs (e : ArrayEnv) : Nat := ceilDiv e.columns e.span
/-- Column blocks of an output block or span. -/
def width (e : ArrayEnv) (ob : Nat) : Nat := min e.span (e.columns - ob * e.span)
def aRing (e : ArrayEnv) : Nat := 8 * (2 * e.x.eng) + e.ops.aring
def bRing (e : ArrayEnv) : Nat := 8 * (2 * e.x.eng + 1) + e.ops.bring
/-- The accumulator tile of block row mb and column block j of a span (R207). -/
def tile (e : ArrayEnv) (mb j : Nat) : Nat := e.base + mb * e.span + j
def capacity (e : ArrayEnv) : Nat := if e.ty == 2 then 8 else 16
/-- Whether an instruction leaves its tiles at the end. -/
def drains (e : ArrayEnv) : Bool := e.mode == .lookout || e.ops.drain
def starts (e : ArrayEnv) : Bool := e.mode == .lookout || e.ops.zero
/-- Numbers of the accumulator tiles that it uses. -/
def tileNums (e : ArrayEnv) : List Nat := (List.range (e.tiles * e.span)).map (e.base + ·)

end ArrayEnv

/-- The forms of the operands (R180, R186, R190, R191, R195, R199). -/
def operandForms (m : ArrayMode) (a b : Desc) : Bool :=
  (if m == .sliding then a.format == 0 && a.rank == 1 && !isPlanes a.ty && !isMx a.ty else a.isTiled || (a.isDense && a.layout == 2))
  && (match m with
    | .sparse => b.isTiled
    | .plane => b.isTiled || (b.isDense && b.layout == 4)
    | .lookout => b.isTiled || (b.isDense && b.layout == 4)
    | _ => b.isTiled || (b.isDense && b.layout == 3))

namespace State

/-- The mask of an instruction (R232): wide and high enough for its output. -/
def maskDesc (s : State) (t : Task) (core handle columns rows : Nat) : Except Fail Desc :=
  match s.localDesc t core handle 2 0x10 E.mmaInvalid with
  | .error f => .error f
  | .ok d => if decide (columns ≤ d.ext 0) && decide (rows ≤ d.ext 1) then .ok d else .error { code := E.mmaInvalid, handle := handle }

/-- What an instruction of an array asks before it takes anything from its rings (R181, R186, R189, R199, R207, R208, R231). -/
def arrayEnv (s : State) (x : EngRef) (t : Task) (mode : ArrayMode) (o : MmaOps) (look : LookoutOps) : Except Fail ArrayEnv :=
  match s.windowTable t, s.operand t x.core o.a, s.operand t x.core o.b, s.bindings x t o.bind o.bmask with
  | .error f, _, _, _ => .error f
  | _, .error f, _, _ => .error f
  | _, _, .error f, _ => .error f
  | _, _, _, .error f => .error f
  | .ok ws, .ok a, .ok b, .ok bs =>
    let tiles := o.m + 1
    let columns := if mode == .transposed then o.k + 1 else o.n + 1
    let chunks := if mode == .transposed then o.n + 1 else o.k + 1
    let span := if mode.planes then min columns (16 / tiles) else 1
    let base : Int := bs.foldl (fun (v : Int) b => if b.1 == 3 then v + b.2.2.1 else v) o.acc
    let mask : Except Fail (Option Desc) :=
      if o.mask == 0xFFF then .ok none else (s.maskDesc t x.core o.mask columns (64 * tiles)).map some
    match mask, pairType mode a.ty b.ty with
    | .error f, _ => .error f
    | _, none => .error { code := E.mmaInvalid }
    | .ok md, some ty =>
      let e : ArrayEnv :=
        { x := x, t := t, ws := ws, mode := mode, ops := o, look := look, a := a, b := b, mask := md, ty := ty, tiles := tiles, span := span,
          columns := columns, chunks := chunks, base := base.toNat }
      if !operandForms mode a b || (o.keep && !(o.n == 0 && o.k == 0)) || (!(e.drains && e.starts) && 1 < e.outs)
          || decide (base < 0) || decide (e.capacity < e.base + tiles * span)
          || (mode == .lookout && (o.mask == 0xFFF || look.planes == 0 || decide (3 < look.planes)
              || (look.topk && (decide (16 < tiles * columns) || look.param == 0 || decide (8 * columns < look.param))))) then
        .error { code := E.mmaInvalid }
      else .ok e

end State

/-! ## The streamed and the stationary data -/

/-- The elements of a B-port block as a tile of its own (R105, R183): word j holds column j. -/
def portTile (ty : Nat) (es : List Nat) (bport : Bool) : Tile :=
  let ws := chunksOf 64 64 es
  let rows := if bport then transposeRows 64 ws
    else (List.range 64).map fun i => (List.range 64).map fun j => (ws.getD ((i + j) % 64) []).getD i 0
  ⟨1, ty, false, false, 0xFFFF, rows.flatten, [], List.replicate 4096 true, []⟩

/-- A block of elements row by row as a tile (R69, R195). -/
def rowTile (ty : Nat) (es : List Nat) : Tile := ⟨1, ty, false, false, 0xFFFF, es, [], List.replicate 4096 true, []⟩

/-- Whether a stationary tile is one that a mode takes (R182, R191, R195). An EM tile of an MX type has no blocks, and passes whatever its colmajor says: R182
does not name it (DESIGN CHOICE, log entry 107). -/
def stationaryOk (m : ArrayMode) (t : Tile) : Bool :=
  (t.tag == 0 || !isMx t.ty || (if m == .transposed then !t.colmajor else t.colmajor))
  && (t.tag == 0 || (if m == .sparse then [1, 2, 3, 5].contains t.tag else true))
  && (!m.planes || (!t.colmajor && [0, 1, 4, 5].contains t.tag))

/-- Whether a streamed tile is one that an array takes (R182). -/
def streamedOk (t : Tile) : Bool := t.tag == 0 || !isMx t.ty || !t.colmajor

/-- A plane-form weight as its plane limit leaves it (R230): the top l magnitude planes; l = 0: every one. -/
def limitPlanes (ty l v : Nat) : Nat :=
  let b := ty - 0x17
  if l == 0 || decide (b ≤ l) then v else v / 2 ^ b * 2 ^ b + v % 2 ^ b / 2 ^ (b - l) * 2 ^ (b - l)

/-- The lanes that a 32-column group of a row takes in a pass (R196, R230): 32 for each stored plane among those that are read. -/
def groupLanes (t : Tile) (l : Nat) (k half : Nat) : Nat :=
  let b := t.ty - 0x17
  let top := if l == 0 then b else min b l
  match t.tag with
  | 0 => 0
  | 4 => 32 * popcount top (t.masks.getD (2 * k + half) 0 / 2 ^ (b - top))
  | _ => 32 * top

/-- The lanes of the 64 rows of a group. -/
def laneColumn (t : Tile) (l half : Nat) : List Nat := (List.range 64).map fun k => groupLanes t l k half

/-! ## Chunk partials (R182, R200, R212) -/

/-- An element as the cells see it: its encoding, whether it takes part, and the scale byte of its block (0x7F where the type has none). -/
structure Cell where
  v : Nat
  on : Bool
  scale : Nat
  deriving DecidableEq, Repr

/-- The elements of a tile as cells, in in-tile order. -/
def tileCells (sparse : Bool) (limit : Nat) (t : Tile) : List Cell :=
  let es := if isPf t.ty then t.elems.map (limitPlanes t.ty limit) else t.elems
  ((withScales t.scales es).zip t.stored).map fun p => ⟨p.1.2, !sparse || p.2, p.1.1⟩

/-- The rows of a stationary tile as cells. -/
def stationaryRows (sparse : Bool) (limit : Nat) (t : Tile) : List (List Cell) := tileRows t.colmajor (tileCells sparse limit t)

/-- The rows of a streamed tile as cells (R192): in sparse mode the elements that are not zero, of DN tiles and dense rows by value, of the others
by their bitmap. -/
def streamedRows (sparse : Bool) (t : Tile) : List (List Cell) :=
  let cells := tileCells (sparse && t.tag != 1) 0 t
  tileRows t.colmajor (if sparse && t.tag == 1 then cells.map fun c => { c with on := !isZeroElt t.ty c.scale c.v } else cells)

/-- One more product in a partial: exact, or rounded to the accumulator type (R182, R212, R214, R215). -/
def mac (ty ca cb p : Nat) (a b : Nat) : Nat :=
  if ty == 1 then iaddInt p (eltInt ca a * eltInt cb b)
  else fadd (accFmt ty) p (fltEnc (accFmt ty) none ((eltVal ca a).mul (eltVal cb b))).1

/-- The sum of the products of pairs that take part, in ascending order of the reduction. -/
def dot (ty ca cb : Nat) (l : List (Cell × Cell)) : Nat :=
  l.foldl (fun p c => if c.1.on && c.2.on then mac ty ca cb p c.1.v c.2.v else p) 0

/-- A partial of an MX block at the bottom of its column: times 2^(sA + sB − 254), NaN where a scale is 0xFF (R182). -/
def scaleBlock (l : List (Cell × Cell)) (q : Nat) : Nat :=
  let sa := ((l.head?.map (·.1.scale)).getD 0x7F)
  let sb := ((l.head?.map (·.2.scale)).getD 0x7F)
  if sa == 0xFF || sb == 0xFF then fltNan fmt32 else (fltEnc fmt32 none ((fltVal fmt32 q).shift ((sa : Int) + sb - 254))).1

/-- The chunk partial of one output element (R212): a streamed row against a stationary column. In sparse mode a chunk without a match is
+0. -/
def chunkPartial (sparse : Bool) (ty ca cb : Nat) (row col : List Cell) : Nat :=
  let l := row.zip col
  if sparse && !(l.any fun c => c.1.on && c.2.on) then 0
  else if isMx cb then
    let (lo, hi) := (l.take 32, l.drop 32)
    fadd fmt32 (scaleBlock lo (dot ty ca cb lo)) (scaleBlock hi (dot ty ca cb hi))
  else dot ty ca cb l

/-- An element in the accumulator type for the checksum, its scale applied (R200). -/
def sumVal (c : Nat) (e : Cell) : Val :=
  let v := eltVal c e.v
  if isMx c then (if e.scale == 0xFF then .nan else v.shift ((e.scale : Int) - 127)) else v

/-- The sum of a stationary row for the checksum (R200): r, or r-bar of the magnitudes. INT64 for integers. -/
def rowSum (ty c : Nat) (absolute : Bool) (cells : List Cell) : Nat :=
  let on := cells.filter (·.on)
  if ty == 1 then wrap 64 ((on.map fun e => let z := eltInt c e.v; if absolute then (z.natAbs : Int) else z).sum)
  else on.foldl (fun a e => let v := sumVal c e; fadd (accFmt ty) a (fltEnc (accFmt ty) none (if absolute then v.abs else v)).1) 0

/-- A checksum sum after a streamed row has passed: every element times its row sum is added (R200). -/
def checkStep (ty ca : Nat) (absolute : Bool) (row : List Cell) (sums : List Nat) (c : Nat) : Nat :=
  (row.zip sums).foldl (fun c p =>
    if !p.1.on then c
    else if ty == 1 then
      let z := eltInt ca p.1.v
      wrap 64 (sext 64 c + (if absolute then (z.natAbs : Int) else z) * sext 64 p.2)
    else
      let f := accFmt ty
      let v := sumVal ca p.1
      let q := (fltEnc f none (if absolute then v.abs else v)).1
      fadd f c (fmul f q p.2)) c

/-- The tree of R211 over n partials from the first of a list; n is at most 2 to the fuel. -/
def treeSum (ty : Nat) : Nat → List Nat → Nat
  | 0, l => l.headD 0
  | fuel + 1, l =>
    if l.length ≤ 1 then l.headD 0
    else
      let h := 2 ^ (Nat.log2 (l.length - 1))
      accAdd ty (treeSum ty fuel (l.take h)) (treeSum ty fuel (l.drop h))

/-- T of every element of a tile from its chunk partials, +0 where none is listed (R185, R211, R212). -/
def treeTile (ty chunks : Nat) (parts : List (List Nat)) : List Nat :=
  (List.range 4096).map fun i => treeSum ty (chunks + 1) (parts.map fun p => p.getD i 0)

/-! ## Running an instruction -/

/-- Where a run of an array stands after an attempt. -/
inductive ArrayStep where
  | more (s : State) (r : ArrayRun)
  | wait (s : State) (r : ArrayRun)
  | done (s : State) (r : ArrayRun)
  | bad (s : State) (f : Fail)

/-- Whether a pass of the groups of some blocks takes one more group of a block: no cell row is taken past its 512 lanes (R196). -/
def fitsPass (limit : Nat) (taken : List (Nat × Nat × Tile)) (groups : List Nat) (b : Nat × Nat × Tile) (half : Nat) : Bool :=
  let lanes := groups.foldl (fun a g => match taken.find? fun u => u.2.1 == g / 2 with
    | some u => a.zipWith (· + ·) (laneColumn u.2.2 limit (g % 2))
    | none => a) (laneColumn b.2.2 limit half)
  lanes.all (decide <| · ≤ 512)

/-- The non-zeros that a stationary tile puts into each column (R191). -/
def columnLoad (t : Tile) : List Nat :=
  if t.tag == 0 then List.replicate 64 0
  else if t.tag == 1 then List.replicate 64 64
  else (transposeRows 64 (tileRows t.colmajor t.stored)).map fun c => (c.filter id).length

/-- Whether a tile still fits a sparse load (R191). -/
def fitsLoad (taken : List (Nat × Nat × Tile)) (t : Tile) : Bool :=
  taken.isEmpty || (decide (taken.length < 16) && !taken.any (·.2.2.tag == 1) && t.tag != 1
    && (taken.foldl (fun a u => a.zipWith (· + ·) (columnLoad u.2.2)) (columnLoad t)).all (decide <| · ≤ 64))

/-- Whether a load goes into a stationary set: one of its blocks is not empty, and it is not one that keep finds there (R185, R189, R197). -/
def ArrayLoad.real (l : ArrayLoad) (limit : Nat) : Bool :=
  !l.kept && l.blocks.any fun b => b.2.2.tag != 0 && (b.2.2.tag != 4 || l.groups.any fun g =>
    g / 2 == b.2.1 && (laneColumn b.2.2 limit (g % 2)).any (· != 0))

namespace State

/-- The mask byte of a row and column block, read as the array needs it (R232, R233). -/
def maskByte (s : State) (e : ArrayEnv) (d : Desc) (col row : Nat) : Except Fail (Nat × State) :=
  s.readElem e.x e.t e.ws e.ops.mask d [(col : Int), (row : Int)]

/-- The mask bytes of n rows of a column block. -/
def rowMasks (e : ArrayEnv) (d : Desc) (col : Nat) : Nat → State → Nat → Except Fail (List Nat × State)
  | 0, s, _ => .ok ([], s)
  | n + 1, s, row =>
    match s.maskByte e d col row with
    | .error f => .error f
    | .ok (v, s) =>
      match rowMasks e d col n s (row + 1) with
      | .error f => .error f
      | .ok (r, s) => .ok (v :: r, s)

/-- The mask bytes of block row mb for the column blocks of a list: one list of 64 for each. -/
def maskBlocks (e : ArrayEnv) (d : Desc) (mb : Nat) : State → List Nat → Except Fail (List (List Nat) × State)
  | s, [] => .ok ([], s)
  | s, c :: cs =>
    match rowMasks e d c 64 s (64 * mb) with
    | .error f => .error f
    | .ok (v, s) =>
      match maskBlocks e d mb s cs with
      | .error f => .error f
      | .ok (r, s) => .ok (v :: r, s)

/-- Which rows of a block row are skipped for a load (R233): those whose every group that the load covers is masked. LOOKOUT writes its mask and
obeys none. -/
def skippedRows (s : State) (e : ArrayEnv) (ob : Nat) (l : ArrayLoad) (mb : Nat) : Except Fail (List Bool × State) :=
  match (if e.mode == .lookout then none else e.mask) with
  | none => .ok (List.replicate 64 false, s)
  | some d =>
    match maskBlocks e d mb s (l.groups.map fun g => ob * e.span + g / 2) with
    | .error f => .error f
    | .ok (bytes, s) =>
      .ok ((List.range 64).map fun i =>
        (l.groups.zip bytes).all fun p => fld (p.2.getD i 0) (4 * (p.1 % 2) + 3) (4 * (p.1 % 2)) == 0, s)

/-- The bytes of a port word of a DENSE operand: 64 elements (R105). -/
def portUnit (ty : Nat) : Nat := max 1 (elemsLen ty 4096 / 64)

/-- The next stationary tile: of a slot of a TILED operand, or a block of a DENSE one, whose words the feeder has read; none while it is not all there
(R135, R180). It stays in the feeder's ring until every part of it is loaded. -/
def seeStationary (s : State) (e : ArrayEnv) : Option (Except Fail Tile) × State :=
  if e.b.isTiled then
    match s.seeSlots e.x.core e.bRing 1 with
    | [] => (none, s)
    | v :: _ =>
      if v.struck then (none, s.parityFail e.x e.bRing)
      else match readTile (some e.b.ty) (v.read 0 (s.slotSize e.x.core e.bRing)) with
        | .error .crc => (some (.error { code := E.tileCrc, handle := e.ops.b }), s)
        | .error .format => (some (.error { code := E.tileFormat, handle := e.ops.b }), s)
        | .ok t => (some (if stationaryOk e.mode t then .ok t else .error { code := E.mmaInvalid, handle := e.ops.b }), s)
  else
    let n := elemsLen e.b.ty 4096
    let s := s.load e.x e.t.id e.bRing (portUnit e.b.ty) n
    let bs := (s.held e.x e.bRing).bytes
    if bs.length < n then (none, s)
    else
      let es := unpackElems e.b.ty (bs.take n)
      (some (.ok (if e.mode.planes then rowTile e.b.ty es else portTile e.b.ty es true)), s)

/-- The stationary tile is loaded or skipped: its slot is released (R180). -/
def passStationary (s : State) (e : ArrayEnv) : State :=
  if e.b.isTiled then s.releaseSlots e.x.core e.bRing e.t.id 1
  else
    let h := s.held e.x e.bRing
    s.setHeld e.x e.bRing { h with bytes := h.bytes.drop (elemsLen e.b.ty 4096) }

/-- The next streamed block; in the sliding form the 64 rows of block row mb of the chunk's elements, which are taken with its first block
(R180, R186). -/
def takeStreamed (s : State) (e : ArrayEnv) (r : ArrayRun) : Option (Except Fail (Tile × ArrayRun)) × State :=
  if e.mode == .sliding then
    let cut (es : List Nat) : Tile := rowTile e.a.ty ((List.range 64).map fun i => (es.drop (64 * r.mb + i)).take 64).flatten
    if r.mb ≠ 0 then (some (.ok (cut r.elems, r)), s)
    else
      match s.takeBytes e.x e.t.id e.aRing e.a.bytes ((64 * e.tiles + 63) * e.a.bytes) with
      | (none, s) => (none, s)
      | (some bs, s) => let es := unpackElems e.a.ty bs; (some (.ok (cut es, { r with elems := es })), s)
  else if e.a.isTiled then
    match s.takeSlot e.x e.t.id e.aRing with
    | (none, s) => (none, s)
    | (some bs, s) =>
      match readTile (some e.a.ty) bs with
      | .error .crc => (some (.error { code := E.tileCrc, handle := e.ops.a }), s)
      | .error .format => (some (.error { code := E.tileFormat, handle := e.ops.a }), s)
      | .ok t => (some (if streamedOk t then .ok (t, r) else .error { code := E.mmaInvalid, handle := e.ops.a }), s)
  else
    match s.takeBytes e.x e.t.id e.aRing (portUnit e.a.ty) (elemsLen e.a.ty 4096) with
    | (none, s) => (none, s)
    | (some bs, s) => (some (.ok (portTile e.a.ty (unpackElems e.a.ty bs) false, r)), s)

/-- The array swaps its sets once the stream has issued its last word and the next load is complete (R188). -/
def swapSets (s : State) (e : ArrayEnv) (r : ArrayRun) : State × ArrayRun :=
  match r.loads with
  | l :: _ =>
    if l.real e.look.planes && !r.active then
      let a := s.array e.x.core e.x.eng
      (s.setArray e.x.core e.x.eng { a with set := 1 - a.set }, { r with active := true })
    else (s, r)
  | [] => (s, r)

/-- A load is complete (R187, R189, R205): it counts, its set's cells are new, and no block is resident any more; a load of empty blocks goes into no set. -/
def pushLoad (s : State) (e : ArrayEnv) (r : ArrayRun) (l : ArrayLoad) : State × ArrayRun :=
  let r := { r with loads := r.loads ++ [l], taken := [], groups := [] }
  if !l.real e.look.planes then s.swapSets e r
  else
    let a := s.array e.x.core e.x.eng
    let s := (s.addRf ⟨.maLoads, e.x.core, e.x.eng⟩ 63 32 1).setArray e.x.core e.x.eng
      { a with resident := false, block := none, struck := a.struck.filter fun c => c.1 == a.set }
    let one := if e.columns == 1 && e.chunks == 1 && l.groups == [0, 1] then l.blocks.head?.map (·.2.2) else none
    s.swapSets e { r with single := one }

/-- A block of a chunk streams through a stationary block of column block j: the columns of the load's groups take their partials, and the checksum
sums what passed (R200, R212). -/
def streamBlock (e : ArrayEnv) (r : ArrayRun) (l : ArrayLoad) (chunk j : Nat) (a b : Tile) (skip : List Bool) : ArrayRun :=
  let sparse := e.mode == .sparse || b.tag == 5
  let key := r.mb * e.span + j
  let rows := streamedRows (e.mode == .sparse) a
  let halves := [0, 1].filter fun h => l.groups.contains (2 * j + h)
  let brows := stationaryRows sparse e.look.planes b
  let cols := if e.mode == .transposed then brows else transposeRows 64 brows
  let inCols (n : Nat) : Bool := halves.contains (n / 32)
  let used := (cols.zip (List.range 64)).filter fun c => inCols c.2
  let old := Tab.get [] r.parts (key, chunk)
  let old := chunksOf 64 64 (if old.isEmpty then List.replicate 4096 0 else old)
  let new := ((rows.zip skip).zip old).map fun p =>
    if p.1.2 then p.2
    else p.2.mapIdx fun n v => if inCols n then chunkPartial (e.mode == .sparse) e.ty a.ty b.ty p.1.1 (cols.getD n []) else v
  let reduction := transposeRows 64 (used.map (·.1))
  let sums (ab : Bool) : List Nat := reduction.map (rowSum e.ty b.ty ab)
  let pass (ab : Bool) (c : List Nat) : List Nat :=
    let ss := sums ab
    ((rows.zip skip).zip (if c.isEmpty then List.replicate 64 0 else c)).map fun p =>
      if p.1.2 then p.2 else checkStep e.ty a.ty ab p.1.1 ss p.2
  { r with parts := Tab.put pairNum [] r.parts (key, chunk) new.flatten
           c := Tab.put id [] r.c key (pass false (Tab.get [] r.c key))
           abar := Tab.put id [] r.abar key (pass true (Tab.get [] r.abar key)) }

/-- Output tiles of the last drained block whose slots are not all committed. -/
def tilesLeft (s : State) (e : ArrayEnv) : Nat := ((s.eng e.x).outbuf.filter (·.frees.isSome)).length

/-- Stream the block that comes next through the first load (R184, R185, R193, R196, R233). -/
def streamNext (s : State) (e : ArrayEnv) (r : ArrayRun) (l : ArrayLoad) : ArrayStep :=
  match s.takeStreamed e r with
  | (none, s) => .wait s r
  | (some (.error f), s) => .bad s f
  | (some (.ok (a, r)), s) =>
    let chunk := l.chunks.getD r.ci 0
    let mine := l.blocks.filter fun b => b.1 == chunk
    let first := mine.filter fun b => l.groups.contains (2 * b.2.1)
    let empty := if a.tag == 0 then first.length else (first.filter fun b => b.2.2.tag == 0).length
    let s := s.addRf ⟨.maLoads, e.x.core, e.x.eng⟩ 31 0 empty
    let run := mine.filter fun b => a.tag != 0 && b.2.2.tag != 0
    let v := s.array e.x.core e.x.eng
    match (if run.isEmpty then none else v.struck.find? fun c => c.1 == v.set) with
    | some c => .more s { r with doom := some (E.arrayParity, r.ob * e.span + (run.head?.map (·.2.1)).getD 0, r.mb, c.2) }
    | none =>
    let skips : Except Fail (List Bool × State) := if run.isEmpty then .ok (List.replicate 64 false, s) else s.skippedRows e r.ob l r.mb
    match skips with
    | .error f => .bad s f
    | .ok (skip, s) =>
      let s := if run.isEmpty || r.counted then s else s.addRf ⟨.maMaskskip, e.x.core, e.x.eng⟩ 31 0 (skip.filter id).length
      let r := { r with counted := r.counted || !run.isEmpty }
      let r := run.foldl (fun r b => streamBlock e r l chunk b.2.1 a b.2.2 skip) r
      if r.ci + 1 < l.chunks.length then .more s { r with ci := r.ci + 1 }
      else if r.mb + 1 < e.tiles then .more s { r with ci := 0, mb := r.mb + 1, counted := false }
      else
        let (s, r) := s.swapSets e { r with ci := 0, mb := 0, counted := false, loads := r.loads.drop 1, active := false, full := l.last }
        .more s r

/-- The B feeder stands before the next chunk of the output block, or the next output block. -/
def nextChunk (e : ArrayEnv) (r : ArrayRun) : ArrayRun :=
  if r.rc + 1 < e.chunks then { r with rc := r.rc + 1, col := 0 } else { r with rc := 0, col := 0, lob := r.lob + 1 }

/-- Whether the B feeder may go on: a set is free, as one at most is streamed and one loaded (R187). -/
def mayLoad (e : ArrayEnv) (r : ArrayRun) : Bool :=
  decide (r.lob < e.outs) && decide ((r.loads.filter fun l => l.kept || l.real e.look.planes).length < 2)

/-- A dense load: one block (R184). -/
def loadDense (s : State) (e : ArrayEnv) (r : ArrayRun) (t : Tile) : ArrayStep :=
  let (s, r) := (s.passStationary e).pushLoad e r ⟨[r.rc], [(r.rc, 0, t)], [0, 1], r.rc + 1 == e.chunks, false⟩
  .more s (nextChunk e r)

/-- A sparse load gathers the blocks of consecutive chunks for as long as they fit (R191). -/
def loadSparse (s : State) (e : ArrayEnv) (r : ArrayRun) (t : Tile) : ArrayStep :=
  if !fitsLoad r.taken t then
    let (s, r) := s.pushLoad e r ⟨r.taken.map (·.1), r.taken, [0, 1], false, false⟩
    .more s r
  else
    let s := s.passStationary e
    let r := { r with taken := r.taken ++ [(r.rc, 0, t)] }
    if r.rc + 1 < e.chunks then .more s { r with rc := r.rc + 1 }
    else
      let (s, r) := s.pushLoad e r ⟨r.taken.map (·.1), r.taken, [0, 1], true, false⟩
      .more s (nextChunk e r)

/-- The B feeder packs the column groups of a span's chunk into passes in ascending order (R196); a BP tile is a load of its own (R195, log entry 23). -/
def loadPlanes (s : State) (e : ArrayEnv) (r : ArrayRun) (t : Tile) : ArrayStep :=
  let b : Nat × Nat × Tile := (r.rc, r.col, t)
  let ends := r.col + 1 == e.width r.lob
  let emit (s : State) (r : ArrayRun) (last : Bool) : State × ArrayRun := s.pushLoad e r ⟨[r.rc], r.taken, r.groups, last, false⟩
  if t.tag == 5 then
    (if !r.groups.isEmpty then let (s, r) := emit s r false; .more s r
     else
       let (s, r) := emit (s.passStationary e) { r with taken := [b], groups := [2 * r.col, 2 * r.col + 1] } (ends && r.rc + 1 == e.chunks)
       .more s (if ends then nextChunk e r else { r with col := r.col + 1 }))
  else if !fitsPass e.look.planes r.taken r.groups b r.half then let (s, r) := emit s r false; .more s r
  else
    let r := { r with groups := r.groups ++ [2 * r.col + r.half], taken := if r.taken.any (·.2.1 == r.col) then r.taken else r.taken ++ [b] }
    if r.half = 0 then .more s { r with half := 1 }
    else
      let s := s.passStationary e
      let r := { r with half := 0 }
      if !ends then .more s { r with col := r.col + 1 }
      else
        let (s, r) := emit s r (r.rc + 1 == e.chunks)
        .more s (nextChunk e r)

/-- The B feeder goes on with the load in progress (R184, R189, R191, R196). -/
def loadNext (s : State) (e : ArrayEnv) (r : ArrayRun) : ArrayStep :=
  if e.ops.keep then
    match (s.array e.x.core e.x.eng).block with
    | some t =>
      if t.ty == e.b.ty && stationaryOk e.mode t then
        let (s, r) := s.pushLoad e r ⟨[r.rc], [(r.rc, 0, t)], [0, 1], true, true⟩
        .more s (nextChunk e r)
      else .bad s { code := E.mmaInvalid, handle := e.ops.b }
    | none => .bad s { code := E.keepStale }
  else match s.seeStationary e with
    | (none, s) => .wait s r
    | (some (.error f), s) => .bad s f
    | (some (.ok t), s) => if e.mode == .sparse then s.loadSparse e r t else if e.mode.planes then s.loadPlanes e r t else s.loadDense e r t

/-- The element of an accumulator tile after an instruction: C₀ + T (R211). -/
def finalTile (e : ArrayEnv) (a : ArraySt) (r : ArrayRun) (key tile : Nat) : AccTile :=
  let parts := (List.range e.chunks).map fun c => Tab.get [] r.parts (key, c)
  let z (l : List Nat) : List Nat := if l.isEmpty then List.replicate 64 0 else l
  let old := if e.starts then none else a.tile e.ty tile
  let c0 := match old with
    | some o => o.vals
    | none => List.replicate 4096 0
  { ty := e.ty, live := true, vals := c0.zipWith (accAdd e.ty) (treeTile e.ty e.chunks parts), c := z (Tab.get [] r.c key), abar := z (Tab.get [] r.abar key) }

/-- A drained tile is free, and its contents are undefined (R208). -/
def freeTile (a : ArraySt) (e : ArrayEnv) (tile : Nat) : ArraySt :=
  match a.tile e.ty tile with
  | some v => a.putTile tile { v with live := false, vals := [], c := [], abar := [] }
  | none => a

/-- The score of R231 of a group of 8 approximate outputs. -/
def groupScore (absolute : Bool) (vs : List Nat) : Int :=
  vs.foldl (fun (m : Int) v =>
    let z : Int := if v == intInf then 2 ^ 40 else if absolute then ((sext 32 v).natAbs : Int) else sext 32 v
    max m z) (-(2 ^ 41))

/-- The k groups of a row with the highest scores, ties to the lower index (R231). -/
def topGroups (k : Nat) (scores : List Int) : List Bool :=
  let ix := (List.range scores.length).zip scores
  ix.map fun p => decide ((ix.filter fun q => decide (p.2 < q.2) || (decide (p.2 = q.2) && decide (q.1 < p.1))).length < k)

/-- The next output block or span begins. -/
def nextBlock (r : ArrayRun) : ArrayRun := { r with ob := r.ob + 1, full := false, parts := [], c := [], abar := [] }

/-- LOOKOUT's mask for one span (R230 to R232): after the check of every row, the bytes of each row's column blocks. -/
def lookRows (e : ArrayEnv) (r : ArrayRun) (tiles : List (Nat × AccTile)) : List (List Int × Nat) × Nat × Nat :=
  let w := e.width r.ob
  let rows := ((List.range e.tiles).map fun mb =>
    (List.range 64).map fun i =>
      let vals := ((List.range w).map fun j => (((tiles.find? fun p => p.1 == mb * e.span + j).map fun p => (p.2.vals.drop (64 * i)).take 64).getD [])).flatten
      let scores := (chunksOf 8 (8 * w) vals).map (groupScore e.look.absolute)
      let kept := if e.look.topk then topGroups e.look.param scores else scores.map fun v => decide (sext 32 e.look.param < v)
      (64 * mb + i, kept)).flatten
  let bytes := (rows.map fun p => (chunksOf 8 w p.2).mapIdx fun j k =>
    ([((r.ob * e.span + j : Nat) : Int), ((p.1 : Nat) : Int)], k.foldr (fun b v => 2 * v + b2n b) 0)).flatten
  (bytes, (rows.map fun p => (p.2.filter id).length).sum, (rows.map fun p => p.2.length).sum)

/-- Check the rows of a tile that LOOKOUT has formed: the first one that fails, and the counts (R201, R230). -/
def lookCheck (s : State) (e : ArrayEnv) (v : AccTile) : Option Nat × State :=
  (List.range 64).foldl (fun (acc : Option Nat × State) i =>
    if acc.1.isSome then acc
    else
      let k := rowCheck e.ty (acc.2.tolerance e.x e.ty) ((v.vals.drop (64 * i)).take 64) (v.c.getD i 0) (v.abar.getD i 0)
      if k = .failed then (some i, acc.2) else (none, acc.2.countRow e.x k)) (none, s)

/-- A LOOKOUT's span: the checks, the scores and the mask (R230 to R232). -/
def lookSpan (s : State) (e : ArrayEnv) (r : ArrayRun) (tiles : List (Nat × AccTile)) : ArrayStep :=
  let (bad, s) := tiles.foldl (fun (acc : Option (Nat × Nat) × State) p =>
    if acc.1.isSome then acc else let (b, s) := acc.2.lookCheck e p.2; (b.map fun i => (p.1, i), s)) (none, s)
  match bad with
  | some (key, i) => .more s { r with doom := some (E.arrayCheck, r.ob * e.span + key % e.span, key / e.span, i) }
  | none =>
    let (bytes, kept, decided) := lookRows e r tiles
    let s := (s.addRf ⟨.maLookout, e.x.core, e.x.eng⟩ 63 32 kept).addRf ⟨.maLookout, e.x.core, e.x.eng⟩ 31 0 decided
    match e.mask with
    | none => .bad s { code := E.mmaInvalid }
    | some d =>
      match writeElems e.x e.t e.ws e.ops.mask d s bytes with
      | (s, some f) => .bad s f
      | (s, none) => .more s (nextBlock r)

/-- The tiles of an output block or span leave through the chain in ascending tile order (R216). -/
def drainTiles (e : ArrayEnv) (d : DrainEnv) (r : ArrayRun) : State → List (Nat × AccTile) → ArrayStep
  | s, [] => .more s (nextBlock r)
  | s, (key, v) :: rest =>
    let col := r.ob * e.span + key % e.span
    let mb := key / e.span
    let masked : Except Fail (Option (List Nat) × State) := match e.mask with
      | none => .ok (none, s)
      | some md => (rowMasks e md col 64 s (64 * mb)).map fun p => (some p.1, p.2)
    match masked with
    | .error f => .bad s f
    | .ok (m, s) =>
      let out := s.drainTile { d with row0 := 64 * mb, col0 := 64 * col, mask := m } r.stats (accKey e.ty (e.base + key)) v.vals v.c v.abar
      match out.fault, out.failed with
      | some f, _ => .bad out.s f
      | none, some i => .more out.s { r with stats := out.stats, doom := some (E.arrayCheck, col, mb, i) }
      | none, none => drainTiles e d { r with stats := out.stats } out.s rest

/-- The chain and its vectors for an instruction that drains. -/
def drainEnv (s : State) (e : ArrayEnv) (r : ArrayRun) : Except Fail DrainEnv :=
  match s.chainOf e.x.core e.x.eng e.ty r.chain with
  | .error f => .error f
  | .ok ch =>
    match s.chainDescs e.t e.x.core ch.work ch.ops with
    | .error f => .error f
    | .ok ds => .ok { x := e.x, t := e.t, ws := e.ws, ch := ch, descs := ds, ty := e.ty, row0 := 0, col0 := 0, mask := none }

/-- An output block or span is complete: its tiles take their sums, and they are left live or drained (R208, R211, R216). -/
def finishBlock (s : State) (e : ArrayEnv) (r : ArrayRun) : ArrayStep :=
  let a := s.array e.x.core e.x.eng
  let keys := ((List.range e.tiles).map fun mb => (List.range (e.width r.ob)).map fun j => mb * e.span + j).flatten
  let tiles := keys.map fun k => (k, finalTile e a r k (e.base + k))
  let a := tiles.foldl (fun a p => if e.starts then a.startTile (e.base + p.1) p.2 else a.putTile (e.base + p.1) p.2) a
  let free (a : ArraySt) : ArraySt := tiles.foldl (fun a p => freeTile a e (e.base + p.1)) a
  if e.mode == .lookout then (s.setArray e.x.core e.x.eng (free a)).lookSpan e r tiles
  else if !e.ops.drain then .more (s.setArray e.x.core e.x.eng a) (nextBlock r)
  else match s.drainEnv e r with
    | .error f => .bad s f
    | .ok d => drainTiles e d r (s.setArray e.x.core e.x.eng a) tiles

/-- A failed row check, or a parity error of a stationary register (R202, R205): the array records it unless one is recorded, and the task aborts. -/
def checkFailed (s : State) (e : ArrayEnv) (v : Nat × Nat × Nat × Nat) : ArrayStep :=
  let r : RegId := ⟨.maCheck, e.x.core, e.x.eng⟩
  let s := if s.rb r 63 then s
    else s.setReg r (BitVec.ofNat 64 (2 ^ 63 + v.1 * 2 ^ 32 + v.2.1 % 16 * 2 ^ 12 + v.2.2.1 % 16 * 2 ^ 8 + v.2.2.2 % 64))
  .bad s { code := v.1 }

/-- The stream and the drain go on: a complete output block drains once the last one has left; while it drains the next one streams, with more than half the
accumulator in use only into tiles that the drain has emptied (R184). -/
def arrayFlow (s : State) (e : ArrayEnv) (r : ArrayRun) (idle : Bool) : ArrayStep :=
  if r.ob == e.outs then
    if !idle then .wait s r
    else if e.mode == .lookout || !e.ops.drain then .done s r
    else match s.drainEnv e r with
      | .error f => .bad s f
      | .ok d =>
        match s.writeStats d r.stats with
        | (s, some f) => .bad s f
        | (s, none) => .done s r
  else if r.full then (if idle then s.finishBlock e r else .wait s r)
  else match r.loads with
    | [] => .wait s r
    | l :: _ =>
      if decide (e.capacity < 2 * e.tiles * e.span) && decide (e.tiles * e.span < s.tilesLeft e + (r.mb + 1) * e.span) && !idle then .wait s r
      else s.streamNext e r l

/-- One step of a run: commit what there is room for, then the B feeder's load behind the stream (R187), then the stream and the drain. -/
def arrayStep (s : State) (e : ArrayEnv) (r : ArrayRun) : ArrayStep :=
  let s := s.flush e.x e.t.id
  let idle := (s.eng e.x).outbuf.isEmpty
  match r.doom with
  | some v => if idle then s.checkFailed e v else .wait s r
  | none =>
    match (if mayLoad e r then s.loadNext e r else .wait s r) with
    | .wait s r => if s.live e.t.id then s.arrayFlow e r idle else .wait s r
    | other => other

/-- More steps than any instruction takes. -/
def arrayFuel (e : ArrayEnv) : Nat := (e.outs + 1) * (e.chunks + 1) * (34 * (e.tiles + 1) + 120)

/-- An instruction begins (R189, R207, R208, R219): keep finds its block, a continuation finds its tiles live, started tiles are zero, and the chain is
checked when the tiles will drain. -/
def arrayBegin (s : State) (e : ArrayEnv) : Except Fail (State × ArrayRun) :=
  let a := s.array e.x.core e.x.eng
  let fresh : ArrayRun :=
    { ob := 0, lob := 0, rc := 0, col := 0, half := 0, taken := [], groups := [], loads := [], active := false, full := false, mb := 0, ci := 0, counted := false,
      elems := [], parts := [], c := [], abar := [], stats := [], doom := none, single := none, chain := s.chainWords e.x.core e.x.eng }
  let keyed (f : AccTile → List Nat) : List (Nat × List Nat) :=
    if e.starts then []
    else (List.range (e.tiles * e.span)).filterMap fun k => (a.tile e.ty (e.base + k)).bind fun v => if f v == [] then none else some (k, f v)
  if e.ops.keep && !a.resident then .error { code := E.keepStale }
  else if !e.starts && e.tileNums.any (fun n => match a.tile e.ty n with | some v => !v.live || v.ty != e.ty | none => true) then .error { code := E.accState }
  else
    let zero : AccTile := ⟨e.ty, true, List.replicate 4096 0, List.replicate 64 0, List.replicate 64 0⟩
    let a := if e.starts then e.tileNums.foldl (fun a n => a.startTile n zero) a else a
    let s := s.setArray e.x.core e.x.eng a
    let run := { fresh with c := keyed (·.c), abar := keyed (·.abar) }
    if e.mode == .lookout || !e.ops.drain then .ok (s, run)
    else match s.chainOf e.x.core e.x.eng e.ty run.chain with
      | .error f => .error f
      | .ok _ => .ok (s, run)

/-- The instruction is done with its rings (R180), and a single block that it has loaded stays resident (R189). -/
def arrayEnd (s : State) (e : ArrayEnv) (r : ArrayRun) : State :=
  let s := ((s.endStream e.x e.t.id e.aRing).endStream e.x e.t.id e.bRing).setRun e.x .none
  match r.single with
  | some t => s.setArray e.x.core e.x.eng { s.array e.x.core e.x.eng with resident := true, block := some t }
  | none => s

/-- A run goes on for as long as something can. -/
def arrayGo (e : ArrayEnv) : Nat → State → ArrayRun → ArrayStep
  | 0, s, r => .wait s r
  | fuel + 1, s, r =>
    match s.arrayStep e r with
    | .more s r => arrayGo e fuel s r
    | other => other

/-- The run of an instruction: the one that waited, or one that begins. -/
def arrayRun (s : State) (x : EngRef) (e : ArrayEnv) : Except Fail (State × ArrayRun) :=
  match (s.eng x).run with
  | .array r => .ok (s, r)
  | _ => s.arrayBegin e

/-- MMA, SPMM and LOOKOUT: the instruction begins, or goes on where it waited, and retires when its last slot is committed. -/
def arrayInstr (s : State) (x : EngRef) (t : Task) (self : Instr) (mode : ArrayMode) (o : MmaOps) (look : LookoutOps) : State :=
  match s.arrayEnv x t mode o look with
  | .error f => s.failTask t x.core x.eng f
  | .ok e =>
    match s.arrayRun x e with
    | .error f => s.failTask t x.core x.eng f
    | .ok (s, r) =>
      match arrayGo e (arrayFuel e) s r with
      | .bad s f => s.failTask t x.core x.eng f
      | .wait s r => s.keepRun x t (.array r) self
      | .more s r => s.keepRun x t (.array r) self
      | .done s r => (s.arrayEnd e r).retire x t self

end State

/-! ## The commands -/

/-- LOOKOUT's fields as the shared ones (R293): it starts its tiles at zero. -/
def lookoutMma (o : LookoutOps) : MmaOps :=
  { m := o.m, n := o.n, k := o.k, aring := o.aring, bring := o.bring, keep := false, drain := true, zero := true, acc := o.acc, mask := o.mask,
    b := o.b, a := o.a, bmask := o.bmask, bind := o.bind }

/-- No LOOKOUT fields. -/
def noLookout : LookoutOps := ⟨0, 0, 0, 0, 0, false, false, 0, 0, 0, 0, 0, 0, 0, false⟩

/-- MMA, dense (R183 to R185). -/
def execMmaDense (x : EngRef) (ops : MmaOps) (s : State) : Host.Outcome State Fault Refusal :=
  .next (s.issue [0, 1] x (.mmaDense x ops) fun s t => s.arrayInstr x t (.mmaDense x ops) .dense ops noLookout)

/-- MMA, sliding form (R186). -/
def execMmaSliding (x : EngRef) (ops : MmaOps) (s : State) : Host.Outcome State Fault Refusal :=
  .next (s.issue [0, 1] x (.mmaSliding x ops) fun s t => s.arrayInstr x t (.mmaSliding x ops) .sliding ops noLookout)

/-- MMA, transposed (R190). -/
def execMmaTransposed (x : EngRef) (ops : MmaOps) (s : State) : Host.Outcome State Fault Refusal :=
  .next (s.issue [0, 1] x (.mmaTransposed x ops) fun s t => s.arrayInstr x t (.mmaTransposed x ops) .transposed ops noLookout)

/-- MMA, plane mode (R195 to R197). -/
def execMmaPlane (x : EngRef) (ops : MmaOps) (s : State) : Host.Outcome State Fault Refusal :=
  .next (s.issue [0, 1] x (.mmaPlane x ops) fun s t => s.arrayInstr x t (.mmaPlane x ops) .plane ops noLookout)

/-- SPMM (R191 to R194). -/
def execSpmm (x : EngRef) (ops : MmaOps) (s : State) : Host.Outcome State Fault Refusal :=
  .next (s.issue [0, 1] x (.spmm x ops) fun s t => s.arrayInstr x t (.spmm x ops) .sparse ops noLookout)

/-- LOOKOUT (R230 to R233). -/
def execLookout (x : EngRef) (ops : LookoutOps) (s : State) : Host.Outcome State Fault Refusal :=
  .next (s.issue [0, 1] x (.lookout x ops) fun s t => s.arrayInstr x t (.lookout x ops) .lookout (lookoutMma ops) ops)

end Sys2Proof.Machine
end

