-- ==== Sys2Proof/Machine/Regs.lean ====
section
/-! DEFINITION. REGISTER_WRITE: a write at a BAR0 offset (R11 to R13, R159, R495), with what a write of each register does beside storing its
fields. -/

namespace Sys2Proof.Machine

/-- The host port whose harbour holds a register. -/
def RegId.port (r : RegId) : Port := State.portOfHarbour r.unit

namespace State

/-! ## Registers whose write does more than store its fields -/

/-- A write of HB_MEMWINn: in split mode an aperture names only its port's partition (R390). -/
def writeMemwin (s : State) (by' : Agent) (r : RegId) (v : Word) : State :=
  if s.pkg.split && wfld v 54 52 != r.port.shore then s.logErr (portNotice r.port E.splitWrite) else s.store by' r v

/-- A write of HB_CQHEADq (R397). -/
def writeCqhead (s : State) (by' : Agent) (r : RegId) (v : Word) : State :=
  if queueSize (s.rf ⟨.hbCqcfg, r.unit, r.idx⟩ 3 0) ≤ wfld v 15 0 then s.logErr { portNotice r.port E.queueConfig with detail := r.idx } else s.store by' r v

/-- A write of the MSI-X table: a vector that is unmasked while its pending bit is set fires (R396). -/
def writeMsix (s : State) (r : RegId) (v : Word) : State :=
  let s := s.setReg r v
  let n := r.idx / 2
  let pba : RegId := ⟨.msixPba, r.unit, n / 64⟩
  if r.idx % 2 == 1 && !wbit v 32 && s.rb pba (n % 64) then (s.setRf pba (n % 64) (n % 64) 0).fireVector r.port n else s

/-- A write of CH_STATUSn: overrun is sticky (R281). -/
def writeChstatus (s : State) (r : RegId) (v : Word) : State :=
  if wbit v 61 then s.setChan r.unit r.idx { s.chan r.unit r.idx with overrun := false } else s

/-- A write of BL_KEYCTLn (R376, R377, R379, R381, R495). -/
def writeKeyctl (s : State) (by' : Agent) (r : RegId) (v : Word) : State :=
  let n := linkOf r
  let acts := wbit v 63 || wbit v 62
  let s :=
    if !acts then s
    else if s.busy by' r v then s.logErr (r.notice E.busyWrite)
    else
      let s := if wbit v 63 then s.startAgree n else s
      if wbit v 62 then s.startRotation n else s
  if wbit v 61 && s.linkUp n then s.downLink n true else s

/-- A write of LH_STRATA_CTLp (R347, R348, R350): a load starts from the present state, and then hold takes its value. -/
def writeStrataCtl (s : State) (p : Nat) (v : Word) : State :=
  let s := if wbit v 63 then s.startLoad p else s
  s.writeHold p (wbit v 62)

/-- A write of LH_INTAKE: refused while the debug lock is closed (R326). -/
def writeIntake (s : State) (by' : Agent) (r : RegId) (v : Word) : State :=
  if s.trust.lockClosed then s.logErr (lhNotice E.intakeLocked) else s.store by' r v

/-- A write of LH_SECCTL (R418, R441, R442, R444); the board controller writes fullres alone. -/
def writeSecctl (s : State) (by' : Agent) (v : Word) : State :=
  let s :=
    if by' = .board then s
    else
      let s := if wbit v 62 then s.commit 1 else s
      let s := if wbit v 61 then s.commit 2 else s
      let s := if wbit v 60 then s.commit 3 else s
      if wbit v 59 then s.blowLock else s
  s.writeFullres (wbit v 63)

/-- A write of LH_POWERCAP: a port's own field (R467). -/
def writePowercap (s : State) (by' : Agent) (v : Word) : State :=
  match by' with
  | .host .w => s.writeCap 15 0 (wfld v 15 0)
  | .host .e => s.writeCap 31 16 (wfld v 31 16)
  | _ => s

/-- A write of LH_PILOTFWp (R443). -/
def writePilotfw (s : State) (by' : Agent) (r : RegId) (v : Word) : State :=
  if wbit v 63 then s.pilotLoad r.idx (wfld v 51 12) else s.store by' r v

/-- A write that has passed its checks. -/
def writeReg (s : State) (by' : Agent) (r : RegId) (v : Word) : State :=
  match r.name with
  | .rpCfg => s.writeRing by' r.unit r.idx v
  | .cvBase | .cvBound => s.writeWindow by' r v
  | .chCfg => s.writeChan by' r.unit r.idx v
  | .chStatus => s.writeChstatus r v
  | .chData => s.pushWords r.unit r.idx [(v.toNat, false)]
  | .chPushend => s.pushWords r.unit r.idx [(v.toNat, true)]
  | .dspListctl => s.writeListctl by' r.unit v
  | .hbMemwin => s.writeMemwin by' r v
  | .hbTqdb => s.doorbell r.port r.idx (wfld v 15 0)
  | .hbCqcfg => s.writeCqcfg by' r.unit r.idx v
  | .hbCqhead => s.writeCqhead by' r v
  | .hbErrhead => s.writeErrhead r.port.shore (wfld v 7 0)
  | .msixTable => s.writeMsix r v
  | .blKeyctl => s.writeKeyctl by' r v
  | .cxCfg => s.writeCxcfg by' (cxlPortOf r) v
  | .cwCfg => s.store by' r (if wfld v 7 0 = 0 then wput v 7 0 1 else v)
  | .lhSoundctl => if wbit v 63 then s.startSound (portOfShore r.idx) (wfld v 9 0) else s.store by' r v
  | .lhStallWatch => s.store by' r (wput v 7 0 (max 2 (wfld v 7 0)))
  | .lhLayoutctl =>
    match by' with
    | .host p => if wbit v 63 then s.applyLayout p else s
    | _ => s
  | .lhIntake => s.writeIntake by' r v
  | .lhStrataCtl => s.writeStrataCtl r.idx v
  | .lhHostctl =>
    match by' with
    | .host p => s.writeHostctl p v
    | _ => s
  | .lhHeartbeat => s.beat v
  | .lhClaim =>
    match by' with
    | .host p => if wbit v 63 then s.addClaim p else s
    | _ => s
  | .lhSecctl => s.writeSecctl by' v
  | .lhSealctl => if wbit v 63 then s.sealRotate r.idx else s
  | .lhPilotfw => s.writePilotfw by' r v
  | .lhPowercap => s.writePowercap by' v
  | .lhThermal => s.store by' r (wput v 7 0 (min 100 (max 85 (wfld v 7 0))))
  | .lhResetctl => if wbit v 63 then s.writeResetctl BootEnv.clean (wfld v 15 0) else s
  | _ => s.store by' r v

/-- A write to an unassigned offset (R159). -/
def writeNowhere (s : State) (by' : Agent) : State :=
  match by' with
  | .host p => if !(s.port p).linkUp then s else s.logErr (portNotice p (if s.standby p then E.standbyWrite else E.regAddr))
  | .pilot => s.logErr { code := E.regAddr, severity := 0, kind := 11 }
  | .board => s

/-- A write of width bytes at an offset of control space: a narrower or a misaligned one has no effect (R11), and one past the registers is logged (R159). -/
def registerWrite (s : State) (by' : Agent) (tbit : Bool) (offset width value : Nat) : State :=
  if width != 8 || offset % 8 != 0 then s
  else match regAt offset with
    | none => s.writeNowhere by'
    | some r => s.access by' tbit r fun s => s.writeReg by' r (BitVec.ofNat 64 value)

end State

/-- REGISTER_WRITE (R13). -/
def execRegisterWrite (by' : Agent) (tbit : Bool) (offset width value : Nat) (s : State) : Host.Outcome State Fault Refusal :=
  .next (s.registerWrite by' tbit offset width value)

end Sys2Proof.Machine
end

