-- ==== Sys2Proof/Machine/Dispatch.lean ====
section
/-! DEFINITION. The dispatch: one arm for each command, each a direct call of its meaning. -/

namespace Sys2Proof.Machine

/-- The effect of a command on everything but the queue. -/
def exec (i : Instr) (s : State) : Host.Outcome State Fault Refusal :=
  match i with
  | .nop x => Sys2Proof.Machine.execNop x s
  | .endSeq x => Sys2Proof.Machine.execEndSeq x s
  | .setlc x lc fromShape idx imm => Sys2Proof.Machine.execSetlc x lc fromShape idx imm s
  | .list x starter dir => Sys2Proof.Machine.execList x starter dir s
  | .release x => Sys2Proof.Machine.execRelease x s
  | .chsend x channel endMark core data => Sys2Proof.Machine.execChsend x channel endMark core data s
  | .chrecv x channel lc tagen tlc => Sys2Proof.Machine.execChrecv x channel lc tagen tlc s
  | .param x p value => Sys2Proof.Machine.execParam x p value s
  | .move x ops => Sys2Proof.Machine.execMove x ops s
  | .moveComplete x => Sys2Proof.Machine.execMoveComplete x s
  | .mmaDense x ops => Sys2Proof.Machine.execMmaDense x ops s
  | .mmaSliding x ops => Sys2Proof.Machine.execMmaSliding x ops s
  | .mmaTransposed x ops => Sys2Proof.Machine.execMmaTransposed x ops s
  | .mmaPlane x ops => Sys2Proof.Machine.execMmaPlane x ops s
  | .spmm x ops => Sys2Proof.Machine.execSpmm x ops s
  | .lookout x ops => Sys2Proof.Machine.execLookout x ops s
  | .ebbSetimm x chainSlot imm0 imm1 => Sys2Proof.Machine.execEbbSetimm x chainSlot imm0 imm1 s
  | .ebbSetvec x chainSlot handle => Sys2Proof.Machine.execEbbSetvec x chainSlot handle s
  | .isect x ops => Sys2Proof.Machine.execIsect x ops s
  | .merge x table => Sys2Proof.Machine.execMerge x table s
  | .pack x ops => Sys2Proof.Machine.execPack x ops s
  | .signalAdd x core number amount => Sys2Proof.Machine.execSignalAdd x core number amount s
  | .signalPost x core number amount => Sys2Proof.Machine.execSignalPost x core number amount s
  | .waitGe x number value => Sys2Proof.Machine.execWaitGe x number value s
  | .waitTake x number value => Sys2Proof.Machine.execWaitTake x number value s
  | .waitAcq x number value => Sys2Proof.Machine.execWaitAcq x number value s
  | .loop x lc body => Sys2Proof.Machine.execLoop x lc body s
  | .nest x t body => Sys2Proof.Machine.execNest x t body s
  | .taskQueueDoorbell port q tail => Sys2Proof.Machine.execTaskQueueDoorbell port q tail s
  | .taskQueueEntry port q fetch => Sys2Proof.Machine.execTaskQueueEntry port q fetch s
  | .streamBlockFetch core slot eng words => Sys2Proof.Machine.execStreamBlockFetch core slot eng words s
  | .expressWrite port offset data => Sys2Proof.Machine.execExpressWrite port offset data s
  | .taskStart core slot => Sys2Proof.Machine.execTaskStart core slot s
  | .drainEnd core slot => Sys2Proof.Machine.execDrainEnd core slot s
  | .truncationPoint core slot => Sys2Proof.Machine.execTruncationPoint core slot s
  | .heldCompletionWrite port q => Sys2Proof.Machine.execHeldCompletionWrite port q s
  | .workItem die => Sys2Proof.Machine.execWorkItem die s
  | .dspListctlStart by' die value => Sys2Proof.Machine.execDspListctlStart by' die value s
  | .write f => Sys2Proof.Machine.execWrite f s
  | .readRequest f media => Sys2Proof.Machine.execReadRequest f media s
  | .readResponse f => Sys2Proof.Machine.execReadResponse f s
  | .creditRequest f => Sys2Proof.Machine.execCreditRequest f s
  | .creditGrant f => Sys2Proof.Machine.execCreditGrant f s
  | .creditReturn f => Sys2Proof.Machine.execCreditReturn f s
  | .signal f => Sys2Proof.Machine.execSignal f s
  | .channelWrite f => Sys2Proof.Machine.execChannelWrite f s
  | .command f => Sys2Proof.Machine.execCommand f s
  | .completion f => Sys2Proof.Machine.execCompletion f s
  | .errorResponse f => Sys2Proof.Machine.execErrorResponse f s
  | .idle f => Sys2Proof.Machine.execIdle f s
  | .acknowledgement hop dir seq => Sys2Proof.Machine.execAcknowledgement hop dir seq s
  | .negativeAcknowledgement hop dir seq => Sys2Proof.Machine.execNegativeAcknowledgement hop dir seq s
  | .linkFrame link f => Sys2Proof.Machine.execLinkFrame link f s
  | .offer link m => Sys2Proof.Machine.execOffer link m s
  | .accept link m => Sys2Proof.Machine.execAccept link m s
  | .confirm link m => Sys2Proof.Machine.execConfirm link m s
  | .rotateOffer link m => Sys2Proof.Machine.execRotateOffer link m s
  | .rotateAccept link m => Sys2Proof.Machine.execRotateAccept link m s
  | .ready link epoch => Sys2Proof.Machine.execReady link epoch s
  | .request link what => Sys2Proof.Machine.execRequest link what s
  | .abort link code => Sys2Proof.Machine.execAbort link code s
  | .blLinkUp link peerPackage peerLink => Sys2Proof.Machine.execBlLinkUp link peerPackage peerLink s
  | .blDown link cause => Sys2Proof.Machine.execBlDown link cause s
  | .keyRotationFrameLimit link => Sys2Proof.Machine.execKeyRotationFrameLimit link s
  | .dataFrameHold link => Sys2Proof.Machine.execDataFrameHold link s
  | .keyAgree port link => Sys2Proof.Machine.execKeyAgree port link s
  | .keyRotate port link => Sys2Proof.Machine.execKeyRotate port link s
  | .keyDrop port link => Sys2Proof.Machine.execKeyDrop port link s
  | .laneFailing dir lane => Sys2Proof.Machine.execLaneFailing dir lane s
  | .laneSwapDone dir trained => Sys2Proof.Machine.execLaneSwapDone dir trained s
  | .causewayFailed => Sys2Proof.Machine.execCausewayFailed s
  | .hopReplayLimit shore hop retrained => Sys2Proof.Machine.execHopReplayLimit shore hop retrained s
  | .towerRetryLimit tower retrained => Sys2Proof.Machine.execTowerRetryLimit tower retrained s
  | .sample env => Sys2Proof.Machine.execSample env s
  | .engineHung core eng => Sys2Proof.Machine.execEngineHung core eng s
  | .heartbeatStale => Sys2Proof.Machine.execHeartbeatStale s
  | .gatingSpan die => Sys2Proof.Machine.execGatingSpan die s
  | .recoveryDone record => Sys2Proof.Machine.execRecoveryDone record s
  | .scrubDone p failed => Sys2Proof.Machine.execScrubDone p failed s
  | .strataLoad port p => Sys2Proof.Machine.execStrataLoad port p s
  | .strataLoadDone p => Sys2Proof.Machine.execStrataLoadDone p s
  | .strataHold port p hold => Sys2Proof.Machine.execStrataHold port p hold s
  | .sound port by' vector => Sys2Proof.Machine.execSound port by' vector s
  | .summaryWritten port ok => Sys2Proof.Machine.execSummaryWritten port ok s
  | .claim port => Sys2Proof.Machine.execClaim port s
  | .heartbeat port value => Sys2Proof.Machine.execHeartbeat port value s
  | .modeRequest port split toE => Sys2Proof.Machine.execModeRequest port split toE s
  | .layoutApply port => Sys2Proof.Machine.execLayoutApply port s
  | .sealRotate port p => Sys2Proof.Machine.execSealRotate port p s
  | .pageResealed p page => Sys2Proof.Machine.execPageResealed p page s
  | .commitLh port => Sys2Proof.Machine.execCommitLh port s
  | .commitHb port => Sys2Proof.Machine.execCommitHb port s
  | .commitPil port => Sys2Proof.Machine.execCommitPil port s
  | .lockfuse port => Sys2Proof.Machine.execLockfuse port s
  | .fullres by' on => Sys2Proof.Machine.execFullres by' on s
  | .pilotFwLoad port p base => Sys2Proof.Machine.execPilotFwLoad port p base s
  | .packageReset port key env => Sys2Proof.Machine.execPackageReset port key env s
  | .cxlEnable port p => Sys2Proof.Machine.execCxlEnable port p s
  | .cxlDisable port p => Sys2Proof.Machine.execCxlDisable port p s
  | .cxlPortUp p dev => Sys2Proof.Machine.execCxlPortUp p dev s
  | .cxlDown p cause => Sys2Proof.Machine.execCxlDown p cause s
  | .ringEnable by' core n value => Sys2Proof.Machine.execRingEnable by' core n value s
  | .windowValid by' core n value => Sys2Proof.Machine.execWindowValid by' core n value s
  | .channelFlush by' core n => Sys2Proof.Machine.execChannelFlush by' core n s
  | .channelModeChange by' core n tagged => Sys2Proof.Machine.execChannelModeChange by' core n tagged s
  | .hostChannelRead port core n => Sys2Proof.Machine.execHostChannelRead port core n s
  | .hostChannelPush port core n data => Sys2Proof.Machine.execHostChannelPush port core n data s
  | .hostChannelPushEnd port core n data => Sys2Proof.Machine.execHostChannelPushEnd port core n data s
  | .accDataRead port core a => Sys2Proof.Machine.execAccDataRead port core a s
  | .errlogHeadWrite port shore head => Sys2Proof.Machine.execErrlogHeadWrite port shore head s
  | .cqEnable port q value => Sys2Proof.Machine.execCqEnable port q value s
  | .registerWrite by' tbit offset width value => Sys2Proof.Machine.execRegisterWrite by' tbit offset width value s
  | .bar4Read port tbit offset len => Sys2Proof.Machine.execBar4Read port tbit offset len s
  | .bar4Write port tbit offset data => Sys2Proof.Machine.execBar4Write port tbit offset data s
  | .configRequest port resize => Sys2Proof.Machine.execConfigRequest port resize s
  | .lockInterface port p => Sys2Proof.Machine.execLockInterface port p s
  | .startInterface port p => Sys2Proof.Machine.execStartInterface port p s
  | .stopInterface port p => Sys2Proof.Machine.execStopInterface port p s
  | .getDeviceInterfaceReport port p => Sys2Proof.Machine.execGetDeviceInterfaceReport port p s
  | .certificate m => Sys2Proof.Machine.execCertificate m s
  | .challenge m nonce => Sys2Proof.Machine.execChallenge m nonce s
  | .measurements m indices => Sys2Proof.Machine.execMeasurements m indices s
  | .keyExchange m key => Sys2Proof.Machine.execKeyExchange m key s
  | .signatureReady => Sys2Proof.Machine.execSignatureReady s
  | .pldmFirmwareUpdate img => Sys2Proof.Machine.execPldmFirmwareUpdate img s
  | .pldmPowerCap watts => Sys2Proof.Machine.execPldmPowerCap watts s
  | .pldmSensorRead domain => Sys2Proof.Machine.execPldmSensorRead domain s
  | .pldmQuotaWrite p k limit => Sys2Proof.Machine.execPldmQuotaWrite p k limit s
  | .pldmReset env => Sys2Proof.Machine.execPldmReset env s
  | .pldmCommit kind => Sys2Proof.Machine.execPldmCommit kind s
  | .testPortInstruction code => Sys2Proof.Machine.execTestPortInstruction code s
  | .powerOn env => Sys2Proof.Machine.execPowerOn env s
  | .undervoltageShutdown => Sys2Proof.Machine.execUndervoltageShutdown s
  | .overvoltageShutdown => Sys2Proof.Machine.execOvervoltageShutdown s
  | .thermalShutdown => Sys2Proof.Machine.execThermalShutdown s
  | .resetN us => Sys2Proof.Machine.execResetN us s
  | .perstDeassert port rate width flit => Sys2Proof.Machine.execPerstDeassert port rate width flit s
  | .hostPortReset port kind => Sys2Proof.Machine.execHostPortReset port kind s
  | .hostLinkDown port => Sys2Proof.Machine.execHostLinkDown port s
  | .hostIdeFail port p => Sys2Proof.Machine.execHostIdeFail port p s
  | .entropyHealthFail => Sys2Proof.Machine.execEntropyHealthFail s
  | .resetNRelease env => Sys2Proof.Machine.execResetNRelease env s
  | .hostLinkUp port rate width flit => Sys2Proof.Machine.execHostLinkUp port rate width flit s
  | .modeChangeApplied => Sys2Proof.Machine.execModeChangeApplied s
  | .ideKm port p => Sys2Proof.Machine.execIdeKm port p s
  | .managementProcessorFault => Sys2Proof.Machine.execManagementProcessorFault s
  | .pldmEventRetrieval => Sys2Proof.Machine.execPldmEventRetrieval s
  | .endpointIdAssignment m eid => Sys2Proof.Machine.execEndpointIdAssignment m eid s

end Sys2Proof.Machine
end

