-- ==== Sys2Proof/WellFormed.lean ====
section
/-! DEFINITION. Which terms of Instr are commands of the hardware: every operand inside its field, and the engine one that has the instruction
(R5, R291 to R296, R319, R320). -/

namespace Sys2Proof

/-- An operand of a number of bits. -/
def fits (bits v : Nat) : Bool := decide (v < 2 ^ bits)

/-- A core of the package, a slot and an engine of R5. -/
def EngRef.wf (x : EngRef) : Bool := decide (x.core < 384) && decide (x.slot < 4) && decide (x.eng < 8)

/-- An engine among some codes of R5. -/
def EngRef.isOf (codes : List Nat) (x : EngRef) : Bool := x.wf && codes.contains x.eng

/-- The core field of SIGNAL and CHSEND: a global core index, or the sender's own core (R306, R309). -/
def coreField (c : Nat) : Bool := decide (c < 384) || c == 0x1FF

def MoveOps.wf (o : MoveOps) : Bool := fits 12 o.stream && fits 4 o.bmask

def MmaOps.wf (o : MmaOps) : Bool :=
  fits 4 o.m && fits 4 o.n && fits 6 o.k && fits 3 o.aring && fits 3 o.bring && fits 4 o.acc && fits 12 o.mask && fits 12 o.b && fits 12 o.a && fits 4 o.bmask

def LookoutOps.wf (o : LookoutOps) : Bool :=
  fits 4 o.m && fits 4 o.n && fits 6 o.k && fits 3 o.aring && fits 3 o.bring && decide (1 ≤ o.planes) && decide (o.planes ≤ 3) && fits 4 o.acc
  && fits 12 o.mask && o.mask != 0xFFF && fits 12 o.b && fits 12 o.a && fits 32 o.param && fits 4 o.bmask

def IsectOps.wf (o : IsectOps) : Bool :=
  decide (o.akind ≤ 4) && decide (o.bkind ≤ 4) && decide (o.form ≤ 2) && fits 12 o.out && fits 12 o.bh && fits 12 o.ah && (o.dest || o.out == 0xFFF) && decide (o.r0 < 0x7FFFFFFF) && fits 4 o.bmask

def PackOps.wf (o : PackOps) : Bool :=
  decide (o.fmt ≤ 5) && fits 3 o.ring && fits 12 o.dest && fits 12 o.arena && (o.append || o.arena == 0xFFF) && fits 32 o.tiles && o.tiles != 0 && fits 32 o.first && fits 4 o.bmask

/-- A frame's header fields (R358): kind, partition, address, package, payload of at most 256 bytes, counts, source, tag, slots of the two cores, target,
generation, mask and epoch. -/
def Frame.wf (f : Frame) : Bool :=
  decide (f.kind < 12) && decide (f.partition < 8) && fits 52 f.address && decide (f.package ≤ 256) && decide (f.payload.length ≤ 256) && fits 16 f.count
  && fits 8 f.counter && decide (f.slot < 16) && fits 8 f.add && fits 16 f.amount && decide (f.target < 24) && fits 4 f.gen && (f.mask.isEmpty || f.mask.length == f.payload.length) && decide (f.epoch < 3)

/-- A frame of one type of R358. -/
def Frame.isOf (kind : Nat) (f : Frame) : Bool := f.wf && f.kind == kind

/-- What an upset strikes: an address, a ring of a core, a row of a set of an array (R130, R182). -/
def Strike.wf : Strike → Bool
  | .memory a _ => fits 52 a
  | .slot core ring _ => decide (core < 384) && decide (ring < 72)
  | .cell core a set row => decide (core < 384) && decide (a < 2) && decide (set < 2) && decide (row < 64)

/-- A link frame's header fields (R371). -/
def LinkFrame.wf (f : LinkFrame) : Bool :=
  decide (f.epoch < 2) && fits 8 f.toPackage && decide (f.toLink < 36) && decide (f.kind < 12) && decide (f.subtype < 16) && f.frame.wf

/-- A link number (R3). -/
def isLink (n : Nat) : Bool := decide (n < 36)

def isPartition (p : Nat) : Bool := decide (p < 8)
def isCore (g : Nat) : Bool := decide (g < 384)
def isQueue (q : Nat) : Bool := decide (q < 64)
def isDie (d : Nat) : Bool := decide (d < 12)

/-- A register's value. -/
def isWord (v : Nat) : Bool := fits 64 v

/-- The bytes of a register that a read asks for (R11). -/
def isPart (r : RegPart) : Bool := decide (1 ≤ r.size) && decide (r.off + r.size ≤ 8)

/-- The commands of the hardware. -/
def Instr.wellFormed : Instr → Bool
  | .nop x => x.wf
  | .endSeq x => x.wf
  | .setlc x lc _ i imm => x.wf && fits 3 lc && fits 4 i && fits 32 imm
  | .list x starter dir => x.isOf [7] && fits 5 starter && fits 12 dir
  | .release x => x.isOf [7]
  | .chsend x channel _ core data => x.wf && fits 3 channel && coreField core && isWord data
  | .chrecv x channel lc _ tlc => x.wf && fits 3 channel && fits 3 lc && fits 3 tlc
  | .param x p value => x.wf && fits 2 p && fits 48 value
  | .move x o => x.isOf [5, 6] && o.wf
  | .moveComplete x => x.isOf [5, 6]
  | .mmaDense x o => x.isOf [0, 1] && o.wf
  | .mmaSliding x o => x.isOf [0, 1] && o.wf
  | .mmaTransposed x o => x.isOf [0, 1] && o.wf
  | .mmaPlane x o => x.isOf [0, 1] && o.wf
  | .spmm x o => x.isOf [0, 1] && o.wf
  | .lookout x o => x.isOf [0, 1] && o.wf
  | .ebbSetimm x chainSlot imm0 imm1 => x.isOf [0, 1] && fits 3 chainSlot && fits 32 imm0 && fits 32 imm1
  | .ebbSetvec x chainSlot handle => x.isOf [0, 1] && fits 3 chainSlot && fits 12 handle
  | .isect x o => x.isOf [2] && o.wf
  | .merge x table => x.isOf [3] && fits 12 table
  | .pack x o => x.isOf [4] && o.wf
  | .signalAdd x core number amount => x.wf && coreField core && fits 6 number && fits 16 amount && amount != 0
  | .signalPost x core number amount => x.wf && coreField core && fits 6 number && fits 16 amount && amount != 0
  | .waitGe x number value => x.wf && fits 6 number && fits 32 value
  | .waitTake x number value => x.wf && fits 6 number && fits 32 value
  | .waitAcq x number value => x.wf && fits 6 number && fits 16 value && value != 0
  | .loop x lc body => x.wf && fits 3 lc && fits 12 body && body != 0
  | .nest x t body => x.wf && fits 4 t && fits 12 body && body != 0
  | .taskQueueDoorbell _ q tail => isQueue q && fits 16 tail
  | .taskQueueEntry _ q fetch => isQueue q && match fetch with
    | some f => f.entry.length == 64 && f.map.length == 256
    | none => true
  | .streamBlockFetch core slot eng words => isCore core && fits 2 slot && fits 3 eng && match words with
    | some ws => ws.all isWord
    | none => true
  | .expressWrite _ offset data => fits 26 offset && decide (data.length ≤ 4096)
  | .taskStart core slot => isCore core && fits 2 slot
  | .drainEnd core slot => isCore core && fits 2 slot
  | .truncationPoint core slot => isCore core && fits 2 slot
  | .heldCompletionWrite _ q => isQueue q
  | .workItem die => isDie die
  | .dspListctlStart _ die value => isDie die && isWord value
  | .write f => f.isOf 0
  | .readRequest f _ => f.isOf 1
  | .readResponse f => f.isOf 2
  | .creditRequest f => f.isOf 3
  | .creditGrant f => f.isOf 4
  | .creditReturn f => f.isOf 5
  | .signal f => f.isOf 6
  | .channelWrite f => f.isOf 7
  | .command f => f.isOf 8
  | .completion f => f.isOf 9
  | .errorResponse f => f.isOf 10
  | .idle f => f.isOf 11
  | .acknowledgement hop dir _ => decide (hop < 136) && fits 1 dir
  | .negativeAcknowledgement hop dir _ => decide (hop < 136) && fits 1 dir
  | .linkFrame link f => isLink link && f.wf
  | .offer link m => isLink link && fits 8 m.package && isLink m.link
  | .accept link m => isLink link && fits 8 m.package && isLink m.link
  | .confirm link m => isLink link && fits 8 m.package && isLink m.link
  | .rotateOffer link m => isLink link && fits 8 m.package && isLink m.link
  | .rotateAccept link m => isLink link && fits 8 m.package && isLink m.link
  | .ready link epoch => isLink link && fits 1 epoch
  | .request link what => isLink link && decide (1 ≤ what) && decide (what ≤ 2)
  | .abort link code => isLink link && fits 16 code
  | .blLinkUp link peerPackage peerLink => isLink link && fits 8 peerPackage && isLink peerLink
  | .blDown link _ => isLink link
  | .keyRotationFrameLimit link => isLink link
  | .dataFrameHold link => isLink link
  | .keyAgree _ link => isLink link
  | .keyRotate _ link => isLink link
  | .keyDrop _ link => isLink link
  | .laneFailing dir lane => fits 1 dir && decide (lane < 70)
  | .laneSwapDone dir _ => fits 1 dir
  | .causewayFailed => true
  | .hopReplayLimit shore hop _ => fits 1 shore && decide (hop < 7)
  | .towerRetryLimit tower _ => decide (tower < 8)
  | .sample env =>
    decide (env.temp.length = 26) && decide (env.power.length = 26) && env.temp.all (fits 12) && env.power.all (fits 24) && env.canary.all (fun t => decide (t < 24))
    && env.vrFault.all (fun t => decide (t < 26)) && env.unconfirmed.all (fun n => decide (n < 8)) && fits 32 env.inputPower && env.strikes.all Strike.wf
  | .engineHung core eng => isCore core && fits 3 eng
  | .heartbeatStale => true
  | .gatingSpan die => isDie die
  | .recoveryDone record => decide (record < 8)
  | .scrubDone p failed => isPartition p && failed.all fun f => fits 52 f.1 && fits 16 f.2
  | .strataLoad _ p => isPartition p
  | .strataLoadDone p => isPartition p
  | .strataHold _ p _ => isPartition p
  | .sound _ _ vector => fits 10 vector
  | .summaryWritten _ _ => true
  | .claim _ => true
  | .heartbeat _ value => isWord value
  | .modeRequest _ _ _ => true
  | .layoutApply _ => true
  | .sealRotate _ p => isPartition p
  | .pageResealed p page => isPartition p && decide (page < 0x800000)
  | .commitLh _ => true
  | .commitHb _ => true
  | .commitPil _ => true
  | .lockfuse _ => true
  | .fullres _ _ => true
  | .pilotFwLoad _ p base => isPartition p && fits 40 base
  | .packageReset _ key _ => fits 16 key
  | .cxlEnable _ p => fits 2 p
  | .cxlDisable _ p => fits 2 p
  | .cxlPortUp p dev => fits 2 p && fits 4 dev.rate && fits 5 dev.width
  | .cxlDown p _ => fits 2 p
  | .ringEnable _ core n value => isCore core && decide (n < 72) && isWord value
  | .windowValid _ core n value => isCore core && fits 2 n && isWord value
  | .channelFlush _ core n => isCore core && fits 3 n
  | .channelModeChange _ core n _ => isCore core && fits 3 n
  | .hostChannelRead _ core n => isCore core && fits 3 n.reg && isPart n
  | .hostChannelPush _ core n data => isCore core && fits 3 n && isWord data
  | .hostChannelPushEnd _ core n data => isCore core && fits 3 n && isWord data
  | .accDataRead _ core a => isCore core && fits 1 a.reg && isPart a
  | .errlogHeadWrite _ shore head => fits 1 shore && fits 8 head
  | .cqEnable _ q value => isQueue q && isWord value
  | .registerWrite _ _ offset width value => fits 48 offset && [1, 2, 4, 8].contains width && decide (value < 2 ^ (8 * width))
  | .bar4Read _ _ _ len => decide (1 ≤ len) && decide (len ≤ 4096)
  | .bar4Write _ _ _ data => decide (1 ≤ data.length) && decide (data.length ≤ 4096)
  | .configRequest _ _ => true
  | .lockInterface _ p => isPartition p
  | .startInterface _ p => isPartition p
  | .stopInterface _ p => isPartition p
  | .getDeviceInterfaceReport _ p => isPartition p
  | .certificate _ => true
  | .challenge _ nonce => nonce.length == 32
  | .measurements _ indices => indices.all (fits 8)
  | .keyExchange _ key => key.length == 1184
  | .signatureReady => true
  | .pldmFirmwareUpdate _ => true
  | .pldmPowerCap watts => fits 16 watts
  | .pldmSensorRead domain => decide (domain < 26)
  | .pldmQuotaWrite p k limit => isPartition p && fits 2 k && fits 32 limit
  | .pldmReset _ => true
  | .pldmCommit kind => decide (1 ≤ kind) && decide (kind ≤ 3)
  | .testPortInstruction _ => true
  | .powerOn _ => true
  | .undervoltageShutdown => true
  | .overvoltageShutdown => true
  | .thermalShutdown => true
  | .resetN _ => true
  | .perstDeassert _ rate width _ => fits 4 rate && fits 5 width
  | .hostPortReset _ _ => true
  | .hostLinkDown _ => true
  | .hostIdeFail _ p => isPartition p
  | .entropyHealthFail => true
  | .resetNRelease _ => true
  | .hostLinkUp _ rate width _ => fits 4 rate && fits 5 width
  | .modeChangeApplied => true
  | .ideKm _ p => isPartition p
  | .managementProcessorFault => true
  | .pldmEventRetrieval => true
  | .endpointIdAssignment _ eid => fits 8 eid

end Sys2Proof
end

