-- ==== Sys2Proof/Machine/Encode.lean ====
section
/-! DEFINITION. The native words that an engine instruction is (R317 to R320): its word, the data word of a CHSEND, and the operand registers
P0 and P1 that it reads. -/

namespace Sys2Proof.Machine

/-- A flag at bit k of a word. -/
def flagAt (k : Nat) (b : Bool) : Nat := b2n b * 2 ^ k

/-- The shared fields of an MMA, SPMM or LOOKOUT word (R320), below its opcode and bits 57 and 56. -/
def mmaWord (m n k aring bring : Nat) (keep drain zero : Bool) (acc bmask : Nat) (bind : Bool) : Nat :=
  m * 2 ^ 52 + n * 2 ^ 48 + k * 2 ^ 42 + aring * 2 ^ 39 + bring * 2 ^ 36 + flagAt 35 keep + flagAt 34 drain + flagAt 33 zero + acc * 2 ^ 29
    + bmask * 2 ^ 25 + flagAt 24 bind

/-- An MMA or SPMM word. -/
def mmaOpsWord (o : MmaOps) : Nat := mmaWord o.m o.n o.k o.aring o.bring o.keep o.drain o.zero o.acc o.bmask o.bind

/-- P0 of an MMA, SPMM or LOOKOUT: its handles. -/
def mmaP0 (mask b a : Nat) : Nat := mask * 2 ^ 24 + b * 2 ^ 12 + a

/-- The native word of an engine instruction (R319, R320); none for a command that is no native word. -/
def encodeWord : Instr → Option Nat
  | .nop _ => some 0
  | .endSeq _ => some (2 ^ 58)
  | .setlc _ lc fromShape i imm => some (2 * 2 ^ 58 + lc * 2 ^ 55 + flagAt 54 fromShape + i * 2 ^ 50 + imm)
  | .loop _ lc body => some (3 * 2 ^ 58 + lc * 2 ^ 55 + body * 2 ^ 42)
  | .nest _ t body => some (4 * 2 ^ 58 + t * 2 ^ 54 + body * 2 ^ 42)
  | .signalAdd _ core number amount => some (5 * 2 ^ 58 + core * 2 ^ 48 + number * 2 ^ 42 + amount)
  | .signalPost _ core number amount => some (5 * 2 ^ 58 + 2 ^ 57 + core * 2 ^ 48 + number * 2 ^ 42 + amount)
  | .waitGe _ number value => some (6 * 2 ^ 58 + number * 2 ^ 48 + value)
  | .waitTake _ number value => some (6 * 2 ^ 58 + 2 ^ 56 + number * 2 ^ 48 + value)
  | .waitAcq _ number value => some (6 * 2 ^ 58 + 2 * 2 ^ 56 + number * 2 ^ 48 + value)
  | .chsend _ channel endMark core _ => some (7 * 2 ^ 58 + channel * 2 ^ 55 + flagAt 54 endMark + core * 2 ^ 45)
  | .chrecv _ channel lc tagen tlc => some (8 * 2 ^ 58 + channel * 2 ^ 55 + lc * 2 ^ 52 + flagAt 51 tagen + tlc * 2 ^ 48)
  | .param _ p value => some (9 * 2 ^ 58 + p * 2 ^ 56 + value)
  | .move _ o => some (16 * 2 ^ 58 + o.stream * 2 ^ 46 + o.bmask * 2 ^ 42 + flagAt 41 o.bind)
  | .mmaDense _ o => some (16 * 2 ^ 58 + mmaOpsWord o)
  | .mmaSliding _ o => some (16 * 2 ^ 58 + 2 ^ 56 + mmaOpsWord o)
  | .mmaTransposed _ o => some (16 * 2 ^ 58 + 2 * 2 ^ 56 + mmaOpsWord o)
  | .mmaPlane _ o => some (16 * 2 ^ 58 + 3 * 2 ^ 56 + mmaOpsWord o)
  | .spmm _ o => some (17 * 2 ^ 58 + mmaOpsWord o)
  | .lookout _ o => some (18 * 2 ^ 58 + flagAt 56 o.absolute
      + mmaWord o.m o.n o.k o.aring o.bring o.topk (bitOf o.planes 1) (bitOf o.planes 0) o.acc o.bmask o.bind)
  | .ebbSetimm _ chainSlot imm0 _ => some (19 * 2 ^ 58 + chainSlot * 2 ^ 55 + imm0)
  | .ebbSetvec _ chainSlot handle => some (20 * 2 ^ 58 + chainSlot * 2 ^ 55 + handle)
  | .isect _ o => some (16 * 2 ^ 58 + o.akind * 2 ^ 55 + o.bkind * 2 ^ 52 + o.form * 2 ^ 50 + flagAt 49 o.rowKey + flagAt 48 o.fp64
      + flagAt 47 o.dest + flagAt 46 o.avals + flagAt 45 o.bvals + o.bmask * 2 ^ 41 + flagAt 40 o.bind)
  | .merge _ table => some (16 * 2 ^ 58 + table)
  | .pack _ o => some (16 * 2 ^ 58 + o.fmt * 2 ^ 55 + flagAt 54 o.append + o.ring * 2 ^ 51 + o.dest * 2 ^ 39 + o.arena * 2 ^ 27 + o.bmask * 2 ^ 23
      + flagAt 22 o.bind)
  | .list _ starter dir => some (16 * 2 ^ 58 + starter * 2 ^ 53 + dir)
  | .release _ => some (17 * 2 ^ 58)
  | .moveComplete _ => none
  | .taskQueueDoorbell _ _ _ => none
  | .taskQueueEntry _ _ _ => none
  | .streamBlockFetch _ _ _ _ => none
  | .expressWrite _ _ _ => none
  | .taskStart _ _ => none
  | .drainEnd _ _ => none
  | .truncationPoint _ _ => none
  | .heldCompletionWrite _ _ => none
  | .workItem _ => none
  | .dspListctlStart _ _ _ => none
  | .write _ => none
  | .readRequest _ _ => none
  | .readResponse _ => none
  | .creditRequest _ => none
  | .creditGrant _ => none
  | .creditReturn _ => none
  | .signal _ => none
  | .channelWrite _ => none
  | .command _ => none
  | .completion _ => none
  | .errorResponse _ => none
  | .idle _ => none
  | .acknowledgement _ _ _ => none
  | .negativeAcknowledgement _ _ _ => none
  | .linkFrame _ _ => none
  | .offer _ _ => none
  | .accept _ _ => none
  | .confirm _ _ => none
  | .rotateOffer _ _ => none
  | .rotateAccept _ _ => none
  | .ready _ _ => none
  | .request _ _ => none
  | .abort _ _ => none
  | .blLinkUp _ _ _ => none
  | .blDown _ _ => none
  | .keyRotationFrameLimit _ => none
  | .dataFrameHold _ => none
  | .keyAgree _ _ => none
  | .keyRotate _ _ => none
  | .keyDrop _ _ => none
  | .laneFailing _ _ => none
  | .laneSwapDone _ _ => none
  | .causewayFailed => none
  | .hopReplayLimit _ _ _ => none
  | .towerRetryLimit _ _ => none
  | .sample _ => none
  | .engineHung _ _ => none
  | .heartbeatStale => none
  | .gatingSpan _ => none
  | .recoveryDone _ => none
  | .scrubDone _ _ => none
  | .strataLoad _ _ => none
  | .strataLoadDone _ => none
  | .strataHold _ _ _ => none
  | .sound _ _ _ => none
  | .summaryWritten _ _ => none
  | .claim _ => none
  | .heartbeat _ _ => none
  | .modeRequest _ _ _ => none
  | .layoutApply _ => none
  | .sealRotate _ _ => none
  | .pageResealed _ _ => none
  | .commitLh _ => none
  | .commitHb _ => none
  | .commitPil _ => none
  | .lockfuse _ => none
  | .fullres _ _ => none
  | .pilotFwLoad _ _ _ => none
  | .packageReset _ _ _ => none
  | .cxlEnable _ _ => none
  | .cxlDisable _ _ => none
  | .cxlPortUp _ _ => none
  | .cxlDown _ _ => none
  | .ringEnable _ _ _ _ => none
  | .windowValid _ _ _ _ => none
  | .channelFlush _ _ _ => none
  | .channelModeChange _ _ _ _ => none
  | .hostChannelRead _ _ _ => none
  | .hostChannelPush _ _ _ _ => none
  | .hostChannelPushEnd _ _ _ _ => none
  | .accDataRead _ _ _ => none
  | .errlogHeadWrite _ _ _ => none
  | .cqEnable _ _ _ => none
  | .registerWrite _ _ _ _ _ => none
  | .bar4Read _ _ _ _ => none
  | .bar4Write _ _ _ _ => none
  | .configRequest _ _ => none
  | .lockInterface _ _ => none
  | .startInterface _ _ => none
  | .stopInterface _ _ => none
  | .getDeviceInterfaceReport _ _ => none
  | .certificate _ => none
  | .challenge _ _ => none
  | .measurements _ _ => none
  | .keyExchange _ _ => none
  | .signatureReady => none
  | .pldmFirmwareUpdate _ => none
  | .pldmPowerCap _ => none
  | .pldmSensorRead _ => none
  | .pldmQuotaWrite _ _ _ => none
  | .pldmReset _ => none
  | .pldmCommit _ => none
  | .testPortInstruction _ => none
  | .powerOn _ => none
  | .undervoltageShutdown => none
  | .overvoltageShutdown => none
  | .thermalShutdown => none
  | .resetN _ => none
  | .perstDeassert _ _ _ _ => none
  | .hostPortReset _ _ => none
  | .hostLinkDown _ => none
  | .hostIdeFail _ _ => none
  | .entropyHealthFail => none
  | .resetNRelease _ => none
  | .hostLinkUp _ _ _ _ => none
  | .modeChangeApplied => none
  | .ideKm _ _ => none
  | .managementProcessorFault => none
  | .pldmEventRetrieval => none
  | .endpointIdAssignment _ _ => none

/-- The data word that follows a CHSEND (R306, R317). -/
def encodeData : Instr → Nat
  | .chsend _ _ _ _ data => data
  | _ => 0

/-- The operand registers P0 and P1 that an instruction reads (R320). -/
def encodeParams : Instr → List Nat
  | .mmaDense _ o => [mmaP0 o.mask o.b o.a, 0]
  | .mmaSliding _ o => [mmaP0 o.mask o.b o.a, 0]
  | .mmaTransposed _ o => [mmaP0 o.mask o.b o.a, 0]
  | .mmaPlane _ o => [mmaP0 o.mask o.b o.a, 0]
  | .spmm _ o => [mmaP0 o.mask o.b o.a, 0]
  | .lookout _ o => [mmaP0 o.mask o.b o.a, o.param]
  | .ebbSetimm _ _ _ imm1 => [imm1, 0]
  | .isect _ o => [o.out * 2 ^ 24 + o.bh * 2 ^ 12 + o.ah, o.r0]
  | .pack _ o => [o.tiles, o.first]
  | _ => [0, 0]

/-- The engine that an engine instruction names. -/
def engineOf : Instr → EngRef
  | .nop x | .endSeq x | .setlc x _ _ _ _ | .loop x _ _ | .nest x _ _ | .signalAdd x _ _ _ | .signalPost x _ _ _ | .waitGe x _ _ | .waitTake x _ _
  | .waitAcq x _ _ | .chsend x _ _ _ _ | .chrecv x _ _ _ _ | .param x _ _ | .move x _ | .mmaDense x _ | .mmaSliding x _ | .mmaTransposed x _
  | .mmaPlane x _ | .spmm x _ | .lookout x _ | .ebbSetimm x _ _ _ | .ebbSetvec x _ _ | .isect x _ | .merge x _ | .pack x _ | .list x _ _ | .release x => x
  | _ => ⟨0, 0, 0⟩

/-- The handles of an instruction that its word or its operand registers hold (R98). -/
def handlesOf : Instr → List Nat
  | .mmaDense _ o | .mmaSliding _ o | .mmaTransposed _ o | .mmaPlane _ o | .spmm _ o => [o.mask, o.b, o.a]
  | .lookout _ o => [o.mask, o.b, o.a]
  | .ebbSetvec _ _ h => [h]
  | .isect _ o => [o.out, o.bh, o.ah]
  | .merge _ h => [h]
  | .pack _ o => [o.dest, o.arena]
  | .list _ _ h => [h]
  | _ => []

/-- Whether a task's launch record has the nest that a NEST names (R302). -/
def nestNamed (nests : Nat) : Instr → Bool
  | .nest _ t _ => decide (t < nests)
  | _ => true

end Sys2Proof.Machine
end

