-- ==== Sys2Proof/Safety.lean ====
section
/-! DEFINITION. What counts as a safe run of the DN25, in the terms that statements use: what no command takes back. -/

namespace Sys2Proof.Machine

/-- The fuses of a later state hold at least what they held: blown fuses, of which a counter has 63, are never unblown (R414, R418, R441); the boot count and the number of
random draws never fall. -/
structure TrustLater (a b : Trust) : Prop where
  svnLh : min 63 a.svnLh ≤ b.svnLh
  svnHb : min 63 a.svnHb ≤ b.svnHb
  svnPil : min 63 a.svnPil ≤ b.svnPil
  revoked : b.revoked = a.revoked
  lock : a.lockBlown = true → b.lockBlown = true
  boots : min (2 ^ 32 - 1) a.boots ≤ b.boots
  draws : a.draws ≤ b.draws

/-- What module flash keeps (R149, R153): rows in the repair map and retired pages stay. -/
structure FlashLater (a b : Lighthouse) : Prop where
  repairMap : a.repairMap <+: b.repairMap
  retired : a.retired <+: b.retired

/-- State t may follow state s: the queue of commands is no command's business, memory keeps its canonical form, what has left the block stays
said, names of tasks are not used again, and fuses and flash keep what they hold. -/
structure Later (s t : State) : Prop where
  queue : t.pending = s.pending
  mem : Memory.wf s.mem = true → Memory.wf t.mem = true
  out : s.out <+: t.out
  tasks : s.nextTask ≤ t.nextTask
  free : s.free ≤ t.free
  trust : TrustLater s.trust t.trust
  flash : FlashLater s.lh t.lh

/-- An engine can execute an instruction now: the task in its slot is t, the engine is one that has the instruction, and it may issue (R287, R322, R334;
log entry 16). -/
def Runs (s : State) (engines : List Nat) (x : EngRef) (i : Instr) (t : Task) : Prop :=
  s.taskAt x.core x.slot = some t ∧ engines.contains x.eng = true ∧ s.canIssue x t i = true

/-- Nothing waits for what an engine of a task frees: no express words are held at a port, no list runs on the die, the core's Pilot owes no end of a list
without items, and some other engine of the task has not retired END. -/
def Quiet (s : State) (x : EngRef) (t : Task) : Prop :=
  (s.port .w).heldWords = [] ∧ (s.port .e).heldWords = [] ∧ (s.disp (x.core / 32)).running = false
  ∧ (∀ n, n < 4 → (s.eng ⟨x.core, n, 7⟩).zeros = 0)
  ∧ ∃ y : EngRef, y ≠ x ∧ y.slot = t.slot ∧ y.core ∈ t.cores ∧ y.eng < 8 ∧ (s.eng y).ended = false

/-- A register that a retirement writes: the counts of the engine (R60, R61). -/
def retireReg (x : EngRef) (r : RegId) : Bool :=
  r == ⟨.pilQcount, x.core, x.eng⟩ || r == progressReg x.core x.eng || r == ⟨.pilHscount, x.core, 4 * x.eng + x.slot⟩

end Sys2Proof.Machine
end

