-- ==== Sys2Proof/Certificates/Slice0/Obligations.lean ====
section
/-! DEFINITION. What is to be proved of the model: the statements for the provers. -/

section

open Sys2Proof Sys2Proof.Machine

/-- A step of a queue that begins with c is exec of c on the state with the rest of the queue (log entry 1: the queue is the model's own). -/
def Obligations.StepRunsTheFrontCommand : Prop :=
  ∀ (c : Instr) (rest : List Instr) (s : State), s.pending = c :: rest → step s = exec c (s.setPending rest)

/-- A step with nothing waiting leaves the state as it is: the model's own choice (log entry 1). -/
def Obligations.EmptyQueueIdles : Prop := ∀ s : State, s.pending = [] → step s = .next s

/-- No command of the table stops the block: every step of every state answers a next state, whose queue is the old one without its first command. -/
def Obligations.EveryStepAnswersAState : Prop := ∀ s : State, ∃ t : State, step s = .next t ∧ t.pending = s.pending.tail

/-- Memory keeps its canonical form through every step: addresses strictly rising, no byte listed that an unlisted address reads as. Equal memories are
equal data (log entry 4). -/
def Obligations.MemoryStaysCanonical : Prop :=
  ∀ s t : State, Memory.wf s.mem = true → step s = .next t → Memory.wf t.mem = true

/-- No command, a power cycle included, takes back a blown fuse or lowers the boot count, which saturates (Safety.TrustLater). -/
def Obligations.FusesOnlyBlow : Prop := ∀ s t : State, step s = .next t → TrustLater s.trust t.trust

/-- Module flash keeps the rows of its repair maps and the retired pages through every step (R149, R153, R477); what has left the block, the model's own names of
tasks and its counter of free values only grow. -/
def Obligations.FlashAndOutputsStay : Prop :=
  ∀ s t : State, step s = .next t →
    FlashLater s.lh t.lh ∧ s.out <+: t.out ∧ s.nextTask ≤ t.nextTask ∧ s.free ≤ t.free

/-- What a package reset leaves once start-up has run (R463, R477, R481; log entries 2 and 4): canonical, empty memory, nothing waiting, no task, frame, session or recovery, no
controlling port, and every unit in partition 0. -/
def Obligations.ResetMeetsTheInvariants : Prop :=
  Memory.wf State.reset.mem = true ∧ (∀ a, State.reset.byteAt a = 0) ∧ State.reset.pending = [] ∧ State.reset.out = [] ∧ State.reset.tasks = [] ∧ State.reset.frames = [] ∧ State.reset.backlog = [] ∧ State.reset.struck = []
  ∧ State.reset.lh.recoveries = [] ∧ (∀ p, (State.reset.session p).state = 0) ∧ State.reset.pkg.control = 0 ∧ State.reset.pkg.split = false
  ∧ (∀ d, d < 12 → State.reset.dieOwner d = 0) ∧ (∀ p, p < 4 → State.reset.cxlOwner p = 0) ∧ (∀ l, l < 36 → State.reset.linkOwner l = 0)

/-- The word of every well-formed engine instruction, with the operand registers it reads, decodes to that instruction with every operand as it was (R317 to R321): no bit of an
encoding is dropped or read twice. -/
def Obligations.NativeWordsDecode : Prop :=
  ∀ (i : Instr) (t : Task) (w : Nat), i.wellFormed = true → encodeWord i = some w → (handlesOf i).all (handleOk t.descriptors) = true →
    nestNamed t.nests i = true → w < 2 ^ 64 ∧ nativeInstr (engineOf i) t w (encodeData i) (encodeParams i) = some i

/-- NOP, END, SETLC, PARAM and RELEASE (R306, R318), each where it can issue: the next state is that of its own effect and its retirement. -/
def Obligations.EngineControlCompletes : Prop :=
  ∀ (x : EngRef) (s : State) (t : Task),
    (Runs s allEngines x (.nop x) t → exec (.nop x) s = .next ((s.begin' x).retire x t (.nop x)))
    ∧ (Runs s allEngines x (.endSeq x) t →
        exec (.endSeq x) s = .next ((s.begin' x).retire x t (.endSeq x) fun c => { c with ended := true, frames := [] }))
    ∧ (∀ lc i imm, Runs s allEngines x (.setlc x lc false i imm) t →
        exec (.setlc x lc false i imm) s
          = .next (((s.begin' x).setReg (lcReg x.core x.eng lc) (BitVec.ofNat 64 (imm % 2 ^ 32))).retire x t (.setlc x lc false i imm)))
    ∧ (∀ lc i imm, Runs s allEngines x (.setlc x lc true i imm) t →
        exec (.setlc x lc true i imm) s
          = .next (((s.begin' x).setReg (lcReg x.core x.eng lc) (BitVec.ofNat 64 ((s.begin' x).rf ⟨.pilShape, x.core, 16 * x.slot + i⟩ 31 0))).retire
              x t (.setlc x lc true i imm)))
    ∧ (∀ p v, Runs s allEngines x (.param x p v) t →
        exec (.param x p v) s = .next ((s.begin' x).retire x t (.param x p v) fun c => { c with params := c.params.set p (v % 2 ^ 48) }))
    ∧ (Runs s [7] x (.release x) t →
        exec (.release x) s = .next (((s.begin' x).updTask t.id fun t => { t with release := true }).retire x t (.release x)))

/-- The frame of NOP, SETLC and PARAM: one instruction retires, and beside the engine's own counts and loop registers nothing changes (R60, R61, R306, R318). -/
def Obligations.RegisterCommandsFrame : Prop :=
  ∀ (x : EngRef) (s : State) (t : Task) (i : Instr),
    (i = .nop x ∨ (∃ lc f n v, lc < 8 ∧ i = .setlc x lc f n v) ∨ ∃ p v, p < 4 ∧ i = .param x p v) →
    Runs s allEngines x i t → Quiet s x t → (s.eng x).frames = [] →
    ∃ u : State, exec i s = .next u
      ∧ (u.eng x).retired = (s.eng x).retired + 1 ∧ (u.eng x).blocked = none
      ∧ u.rf ⟨.pilQcount, x.core, x.eng⟩ 47 0 = (s.rf ⟨.pilQcount, x.core, x.eng⟩ 47 0 + 1) % 2 ^ 48
      ∧ (∀ lc n v, i = .setlc x lc false n v → u.reg (lcReg x.core x.eng lc) = BitVec.ofNat 64 (v % 2 ^ 32))
      ∧ (∀ p v, i = .param x p v → (u.eng x).params = (s.eng x).params.set p (v % 2 ^ 48))
      ∧ (∀ y, y ≠ x → u.eng y = s.eng y)
      ∧ (∀ r, retireReg x r = false → (∀ lc, lc < 8 → r ≠ lcReg x.core x.eng lc) → u.reg r = s.reg r)
      ∧ (∀ a, u.byteAt a = s.byteAt a)
      ∧ u.poison = s.poison ∧ u.struck = s.struck ∧ u.seals = s.seals ∧ u.backlog = s.backlog
      ∧ u.tasks = s.tasks ∧ u.frames = s.frames ∧ u.rings = s.rings ∧ u.chans = s.chans ∧ u.arrays = s.arrays ∧ u.pools = s.pools ∧ u.landed = s.landed
      ∧ u.disps = s.disps ∧ u.hops = s.hops ∧ u.links = s.links ∧ u.cxls = s.cxls ∧ u.ports = s.ports ∧ u.pkg = s.pkg ∧ u.lh = s.lh ∧ u.sessions = s.sessions
      ∧ u.phases = s.phases ∧ u.trust = s.trust ∧ u.out = s.out

/-- WAIT GE, TAKE and ACQ of a counter that is there already (R311, R312). -/
def Obligations.WaitsComplete : Prop :=
  ∀ (x : EngRef) (s : State) (t : Task) (n v : Nat),
    let b := s.begin' x
    (Runs s allEngines x (.waitGe x n v) t → n < 64 → v ≤ b.rf (tmReg x.core x.slot n) 31 0 →
      exec (.waitGe x n v) s = .next ((b.stall x (.ge n v)).retire x t (.waitGe x n v)))
    ∧ (Runs s allEngines x (.waitTake x n v) t → n < 64 → v ≤ b.rf (tmReg x.core x.slot n) 31 0 →
      exec (.waitTake x n v) s = .next (((((b.stall x (.take n v)).setRf (tmReg x.core x.slot n) 31 0 (b.rf (tmReg x.core x.slot n) 31 0 - v)).takeLanded
        x.core x.slot n v).retire x t (.waitTake x n v)).setRotation x.core ((x.eng + 1) % 8)))
    ∧ (Runs s allEngines x (.waitAcq x n v) t → n < 16 → v ≤ b.rf (semReg x.core x.slot n) 15 0 →
      exec (.waitAcq x n v) s = .next ((((b.stall x (.acq n v)).setRf (semReg x.core x.slot n) 15 0 (b.rf (semReg x.core x.slot n) 15 0 - v)).retire
        x t (.waitAcq x n v)).setRotation x.core ((x.eng + 1) % 8)))

/-- An increment of a Tidemark or a semaphore whose sum fits (R308): the sum, before the waits on it are tested. -/
def Obligations.IncrementsOfCounters : Prop :=
  ∀ (s : State) (core slot n k e : Nat),
    (n < 64 → s.rf (tmReg core slot n) 31 0 + k < 2 ^ 32 →
      ∃ u : State, s.incr core slot false n k core e = u.serveWaits core slot ∧ u.rf (tmReg core slot n) 31 0 = s.rf (tmReg core slot n) 31 0 + k
        ∧ ∀ r, r ≠ tmReg core slot n → u.reg r = s.reg r)
    ∧ (n < 16 → s.rf (semReg core slot n) 15 0 + k < 2 ^ 16 →
      ∃ u : State, s.incr core slot true n k core e = u.serveWaits core slot ∧ u.rf (semReg core slot n) 15 0 = s.rf (semReg core slot n) 15 0 + k
        ∧ ∀ r, r ≠ semReg core slot n → u.reg r = s.reg r)

/-- SIGNAL ADD, SIGNAL POST and CHSEND with nothing incomplete before them (R306, R309, R310): to the engine's own core at once, to another core of the die by a
frame. -/
def Obligations.SignalsComplete : Prop :=
  ∀ (x : EngRef) (s : State) (t : Task) (g n k d : Nat) (m : Bool), x.core < 384 → (s.eng x).moves = [] →
    let b := s.begin' x
    let other := g < 384 ∧ g ≠ x.core ∧ g / 32 = x.core / 32 ∧ s.enabled g = true ∧ t.cores.contains g = true
    (n < 64 → Runs s allEngines x (.signalAdd x 0x1FF n k) t →
      exec (.signalAdd x 0x1FF n k) s = .next ((b.retire x t (.signalAdd x 0x1FF n k)).incr x.core x.slot false n k x.core x.eng))
    ∧ (n < 16 → Runs s allEngines x (.signalPost x 0x1FF n k) t →
      exec (.signalPost x 0x1FF n k) s = .next ((b.retire x t (.signalPost x 0x1FF n k)).incr x.core x.slot true n k x.core x.eng))
    ∧ (Runs s allEngines x (.chsend x n m 0x1FF d) t →
      exec (.chsend x n m 0x1FF d) s = .next ((b.retire x t (.chsend x n m 0x1FF d)).pushWords x.core n [(d % 2 ^ 64, m)]))
    ∧ (other → n < 64 → Runs s allEngines x (.signalAdd x g n k) t →
      exec (.signalAdd x g n k) s = .next ((b.retire x t (.signalAdd x g n k)).send { coreFrame x t 6 (coveBase g) with counter := n, amount := k }))
    ∧ (other → n < 16 → Runs s allEngines x (.signalPost x g n k) t →
      exec (.signalPost x g n k) s
        = .next ((b.retire x t (.signalPost x g n k)).send { coreFrame x t 6 (coveBase g) with counter := n, post := true, amount := k }))
    ∧ (other → Runs s allEngines x (.chsend x n m g d) t →
      exec (.chsend x n m g d) s
        = .next ((b.retire x t (.chsend x n m g d)).send { coreFrame x t 7 (coveBase g) with counter := n, payload := leBytes 8 d, amount := b2n m }))

/-- CHRECV on a channel that no list runs into (R277, R306): with a word there, and on an empty TAGGED channel. -/
def Obligations.ChrecvCompletes : Prop :=
  ∀ (x : EngRef) (s : State) (t : Task) (c lc tlc : Nat) (tg : Bool), Runs s allEngines x (.chrecv x c lc tg tlc) t →
    let b := s.begin' x
    b.dispChannel x.core c = false →
    (∀ w m rest, (b.chan x.core c).words = (w, m) :: rest →
      exec (.chrecv x c lc tg tlc) s = .next
        (let u := (b.setChan x.core c { b.chan x.core c with words := rest }).setReg (lcReg x.core x.eng lc)
            (BitVec.ofNat 64 (if w = 2 ^ 64 - 1 ∧ m = true then 0 else w % 2 ^ 32))
         (if tg then u.setReg (lcReg x.core x.eng tlc) (BitVec.ofNat 64 (1 + 2 * b2n m)) else u).retire x t (.chrecv x c lc tg tlc)))
    ∧ ((b.chan x.core c).words = [] → b.rb ⟨.chCfg, x.core, c⟩ 0 = true →
      exec (.chrecv x c lc tg tlc) s = .next
        (let u := b.setReg (lcReg x.core x.eng lc) 0
         (if tg then u.setReg (lcReg x.core x.eng tlc) 0 else u).retire x t (.chrecv x c lc tg tlc)))

/-- LOOP and NEST (R297, R302, R304) whose arrangement is allowed (R298). -/
def Obligations.LoopsComplete : Prop :=
  ∀ (x : EngRef) (s : State) (t : Task) (lc n body : Nat),
    let b := s.begin' x
    (Runs s allEngines x (.loop x lc body) t → bodyFault (b.eng x) body = none →
      (b.rf (lcReg x.core x.eng lc) 31 0 = 0 →
        exec (.loop x lc body) s = .next (b.retire x t (.loop x lc body) fun c => c.drop body))
      ∧ (b.rf (lcReg x.core x.eng lc) 31 0 ≠ 0 →
        exec (.loop x lc body) s = .next (b.retire x t (.loop x lc body) fun c =>
          { c with frames := ⟨body, 0, b.rf (lcReg x.core x.eng lc) 31 0 - 1, c.fromQueue, none, c.bodyWords body⟩ :: c.frames })))
    ∧ (Runs s allEngines x (.nest x n body) t → bodyFault (b.eng x) body = none → inNest (b.eng x) = false → n < t.nests →
      ∀ e, b.nestEntry t x.core n = .ok e →
        (e.items = false → exec (.nest x n body) s = .next (b.retire x t (.nest x n body) fun c =>
          { c with frames := ⟨body, 0, e.points - 1, c.fromQueue, some ⟨n, e.points, false, none⟩, c.bodyWords body⟩ :: c.frames }))
        ∧ (e.items = true → bitOf e.engines x.eng = true → exec (.nest x n body) s = .next (b.retire x t (.nest x n body) fun c =>
          { c with frames := ⟨body, body, 0, c.fromQueue, some ⟨n, e.points, true, none⟩, c.bodyWords body⟩ :: c.frames })))

/-- LIST (R307), EBB SETIMM and EBB SETVEC (R294), where they can issue. -/
def Obligations.ListAndChainComplete : Prop :=
  ∀ (x : EngRef) (s : State) (t : Task) (k h i j : Nat) (ws : List Window) (a n : Nat),
    let b := s.begin' x
    let d := x.core / 32
    (Runs s [7] x (.list x k h) t → x.core % 32 ≠ k → exec (.list x k h) s = .next (b.retire x t (.list x k h)))
    ∧ (Runs s [7] x (.list x k h) t → x.core % 32 = k → b.windowTable t = .ok ws → b.listEntry t ws x.core h d = .ok (a, n) →
        (n = 0 → exec (.list x k h) s = .next ((b.retire x t (.list x k h)).endItems t d))
        ∧ (n ≠ 0 → exec (.list x k h) s = .next
            (((b.retire x t (.list x k h)).store .pilot ⟨.dspListbase, d, 0⟩ (BitVec.ofNat 64 a)).writeListctl .pilot d
              (BitVec.ofNat 64 (2 ^ 63 + t.partition * 2 ^ 56 + t.slot * 2 ^ 32 + n % 2 ^ 32)) (some t.id))))
    ∧ (Runs s [0, 1] x (.ebbSetimm x k i j) t →
        exec (.ebbSetimm x k i j) s = .next ((b.setReg ⟨.ebImm, x.core, 8 * x.eng + k⟩ (BitVec.ofNat 64 (i % 2 ^ 32 + j % 2 ^ 32 * 2 ^ 32))).retire
          x t (.ebbSetimm x k i j)))
    ∧ (Runs s [0, 1] x (.ebbSetvec x k h) t →
        exec (.ebbSetvec x k h) s = .next ((b.setRf ⟨.ebOp, x.core, 8 * x.eng + k⟩ 51 40 h).retire x t (.ebbSetvec x k h)))

/-- What MMA, SPMM or LOOKOUT has done when its last slot is committed, before it retires; none while a ring is short or when a check fails. -/
def arrayDone (s : State) (x : EngRef) (t : Task) (mode : ArrayMode) (o : MmaOps) (look : LookoutOps) : Option State :=
  match s.arrayEnv x t mode o look with
  | .error _ => none
  | .ok e =>
    match s.arrayRun x e with
    | .error _ => none
    | .ok (s, r) =>
      match State.arrayGo e (State.arrayFuel e) s r with
      | .done s r => some (s.arrayEnd e r)
      | _ => none

/-- The six instructions of the Matrix Arrays (R183 to R199, R230 to R233) where the rings hold what they ask. -/
def Obligations.ArrayCommandsComplete : Prop :=
  ∀ (x : EngRef) (s u : State) (t : Task) (o : MmaOps) (l : LookoutOps),
    let b := s.begin' x
    (Runs s [0, 1] x (.mmaDense x o) t → arrayDone b x t .dense o noLookout = some u → exec (.mmaDense x o) s = .next (u.retire x t (.mmaDense x o)))
    ∧ (Runs s [0, 1] x (.mmaSliding x o) t → arrayDone b x t .sliding o noLookout = some u →
        exec (.mmaSliding x o) s = .next (u.retire x t (.mmaSliding x o)))
    ∧ (Runs s [0, 1] x (.mmaTransposed x o) t → arrayDone b x t .transposed o noLookout = some u →
        exec (.mmaTransposed x o) s = .next (u.retire x t (.mmaTransposed x o)))
    ∧ (Runs s [0, 1] x (.mmaPlane x o) t → arrayDone b x t .plane o noLookout = some u → exec (.mmaPlane x o) s = .next (u.retire x t (.mmaPlane x o)))
    ∧ (Runs s [0, 1] x (.spmm x o) t → arrayDone b x t .sparse o noLookout = some u → exec (.spmm x o) s = .next (u.retire x t (.spmm x o)))
    ∧ (Runs s [0, 1] x (.lookout x l) t → arrayDone b x t .lookout (lookoutMma l) l = some u →
        exec (.lookout x l) s = .next (u.retire x t (.lookout x l)))

/-- What a MOVE has done when it retires; none where a check fails, an order or a ring holds it back, or a visit fails. -/
def moveDone (s : State) (x : EngRef) (t : Task) (o : MoveOps) : Option State :=
  match s.moveEnv x t o with
  | .error _ => none
  | .ok e =>
    let n := (s.eng x).nextId
    if (s.eng x).blocked == some (.ring (.move x o)) || !State.orderOk (s.eng x) e.sr.overlap then none
    else
      match (s.updEng x fun c => { c with blocked := none, nextId := c.nextId + 1, moves := c.moves ++ [s.newMove x e c.nextId] }).planRun x t e n (e.total + 1) with
      | (_, some _) => none
      | (u, none) =>
        match u.live t.id, u.move x n with
        | true, some m =>
          if m.next < m.total ∨ (e.sr.dst.ring = true ∧ (m.units ≠ [] ∨ (u.eng x).outbuf ≠ [])) then none else some (u.updMove x n fun m => { m with ring := none })
        | _, _ => none

/-- MOVE (R160 to R172), MOVE_COMPLETE (R172), ISECT (R238 to R245), MERGE (R253 to R257) and PACK (R225 to R228) where nothing holds them back. -/
def Obligations.DataUnitsComplete : Prop :=
  ∀ (x : EngRef) (s u : State) (t : Task),
    let b := s.begin' x
    (∀ o, Runs s [5, 6] x (.move x o) t → moveDone b x t o = some u → exec (.move x o) s = .next (u.retire x t (.move x o)))
    ∧ (∀ m, (s.eng x).moves.find? MoveSt.isDone = some m → exec (.moveComplete x) s
        = .next (((s.updEng x fun c => { c with moves := c.moves.filter fun n => n.id != m.id }).resumeSync x).tryDone x.core x.slot).admitHeld)
    ∧ (∀ o e r, Runs s [2] x (.isect x o) t → o.dest = true ∨ o.out = 0xFFF → b.isectEnv x t o = .ok e →
        (b.eng x).run = .isect r ∨ (∀ q, (b.eng x).run ≠ .isect q) ∧ r = ⟨0, 0, 0, none, 0, [], []⟩ →
        State.slGo e (2 * e.count + 8) b r = .done u →
        exec (.isect x o) s = .next (u.retire x t (.isect x o)))
    ∧ (∀ n r e, Runs s [3] x (.merge x n) t → 
        (b.eng x).run = .merge r ∨ (∀ q, (b.eng x).run ≠ .merge q) ∧ (∃ bs, b.readTable x t n = .ok bs ∧ r = ⟨bs, 0, [], 0, [], 0, [], none⟩) →
        b.mergeEnv x t n r.table = .ok e →
        State.mergeGo e (mtGroups r.table + mtTiles r.table + 2 ^ 12) b r = .done u → exec (.merge x n) s = .next (u.retire x t (.merge x n)))
    ∧ (∀ o e r, Runs s [4] x (.pack x o) t → o.append = true ∨ o.arena = 0xFFF → b.packEnv x t o = .ok e →
        (b.eng x).run = .pack r ∨ (∀ q, (b.eng x).run ≠ .pack q) ∧ r = ⟨0, e.low⟩ →
        State.packGo e (min (o.tiles - r.tile) (8 * 1024) + 1) b r = .done u →
        exec (.pack x o) s = .next (u.retire x t (.pack x o)))

/-- An integer addition of an accumulator (R215). -/
def Obligations.IntegerAccumulation : Prop :=
  ∀ a b, a < 2 ^ 32 → b < 2 ^ 32 →
    (a = 0x80000000 ∨ b = 0x80000000 ∨ sext 32 a + sext 32 b < -(2 ^ 31 - 1) ∨ 2 ^ 31 - 1 < sext 32 a + sext 32 b → accAdd 1 a b = 0x80000000)
    ∧ (a ≠ 0x80000000 → b ≠ 0x80000000 → -(2 ^ 31 - 1) ≤ sext 32 a + sext 32 b → sext 32 a + sext 32 b ≤ 2 ^ 31 - 1 →
        accAdd 1 a b < 2 ^ 32 ∧ accAdd 1 a b ≠ 0x80000000 ∧ sext 32 (accAdd 1 a b) = sext 32 a + sext 32 b)

/-- The exact sum of the products of the pairs that take part. -/
def exactSum (ca cb : Nat) (l : List (Cell × Cell)) : Int :=
  (l.map fun p => if p.1.on && p.2.on then eltInt ca p.1.v * eltInt cb p.2.v else 0).sum

/-- The partial of integers (R182, R212), with the check of R215 at every step. -/
def Obligations.IntegerPartials : Prop :=
  ∀ (ca cb : Nat) (l : List (Cell × Cell)),
    ((∀ n, -(2 ^ 31 - 1) ≤ exactSum ca cb (l.take n) ∧ exactSum ca cb (l.take n) ≤ 2 ^ 31 - 1) →
      dot 1 ca cb l < 2 ^ 32 ∧ sext 32 (dot 1 ca cb l) = exactSum ca cb l)
    ∧ ((∃ n, exactSum ca cb (l.take n) < -(2 ^ 31 - 1) ∨ 2 ^ 31 - 1 < exactSum ca cb (l.take n)) → dot 1 ca cb l = 0x80000000)

/-- Coordinate mode (R242): what windows and galloping emit is every common index, once and in order. -/
def Obligations.CoordinateMatching : Prop :=
  ∀ (as bs : List (Nat × Nat)), as.Pairwise (fun p q => p.1 < q.1) → bs.Pairwise (fun p q => p.1 < q.1) →
    (matchRuns (as.length + bs.length + 8) as bs 0 0).1
      = as.filterMap fun p => (bs.find? fun q => q.1 == p.1).map fun q => (p.1, p.2, q.2)

/-- The distinct keys of a group in ascending order (R256). -/
def Obligations.MergedKeysAscend : Prop :=
  ∀ l : List Nat, (mergeKeys l).Pairwise (· < ·) ∧ ∀ k, k ∈ mergeKeys l ↔ k ∈ l

/-- The tree over the ports (R254) with replace (R255). -/
def Obligations.ReplaceKeepsTheHighestPort : Prop :=
  ∀ (work : Nat) (v : List (Option Nat)), v.length = 16 → portTree 3 work v = (v.filterMap id).getLast?

/-- The address map (R156, R157) names every place once. -/
def Obligations.AddressesNameOnePlace : Prop :=
  (∀ a b, a < 2 ^ 52 → b < 2 ^ 52 → placeOf a = placeOf b → placeOf a ≠ .reserved → a = b)
  ∧ (∀ a t o, placeOf a = .tower t o → t < 8 ∧ o < 0x1800000000)
  ∧ (∀ a d o, placeOf a = .lagoon d o → d < 12 ∧ o < 0x4000000)
  ∧ (∀ a g o, placeOf a = .cove g o → g < 384 ∧ o < 0x10000000)
  ∧ (∀ a p o, placeOf a = .cxl p o → p < 4 ∧ o < 0x40000000000)

/-- TASK_QUEUE_DOORBELL (R389) and TASK_QUEUE_ENTRY (R392, R393). -/
def Obligations.TaskQueuesComplete : Prop :=
  ∀ (s : State) (p : Port) (q : Nat),
    let h := p.harbour
    let size := State.queueSize (s.rf ⟨.hbTqcfg, h, q⟩ 3 0)
    let part := s.rf ⟨.hbTqcfg, h, q⟩ 61 59
    (∀ tail, s.gate (.host p) true ⟨.hbTqdb, h, q⟩ = none → s.rb ⟨.hbPortstat, h, 0⟩ 63 = true → tail < size → (s.port p).heldWrites = [] →
      exec (.taskQueueDoorbell p q tail) s = .next (s.setRf ⟨.hbTqdb, h, q⟩ 15 0 tail))
    ∧ (∀ (f : QueueFetch) (lr : List Byte), s.queueServed p q = true →
        (bitOf (fieldAt f.entry 20 1) 0 = false ∨ ∀ t ∈ s.tasks, t.active = true → t.port = p → t.tq ≠ q) → entryBad f.entry f.map = false →
        s.fetch part (fieldAt f.entry 0 8) 256 = .ok lr → fieldAt lr 4 1 % 8 = part → (∀ g ∈ launchCores lr, s.dieOwner (g / 32) = part ∧ s.fenced 1 g = false) →
        (∀ t ∈ s.tasks, t.active = true → t.slot = fld (fieldAt lr 4 1) 5 4 → ∀ g ∈ t.cores, g ∉ launchCores lr) → s.takesTasks part = true →
        ∃ (u : State) (t : Task), exec (.taskQueueEntry p q (some f)) s = .next u ∧ u.tasks = s.tasks ++ [t] ∧ u.nextTask = s.nextTask + 1
          ∧ t.id = s.nextTask ∧ t.state = 1 ∧ t.number = fieldAt lr 0 4 ∧ t.slot = fld (fieldAt lr 4 1) 5 4 ∧ t.tag = fieldAt f.entry 16 4 ∧ t.partition = part
          ∧ t.cores = launchCores lr ∧ t.port = p ∧ t.tq = q ∧ t.cq = s.rf ⟨.hbTqcfg, h, q⟩ 53 48
          ∧ u.rf ⟨.hbTqstat, h, q⟩ 15 0 = (s.rf ⟨.hbTqstat, h, q⟩ 15 0 + 1) % size % 2 ^ 16 ∧ u.rb ⟨.hbTqstat, h, q⟩ 62 = false
          ∧ (∀ r, r ≠ ⟨.hbTqstat, h, q⟩ → u.reg r = s.reg r) ∧ u.mem = s.mem ∧ u.out = s.out)
    ∧ (s.queueServed p q = true →
        exec (.taskQueueEntry p q none) s = .next
          ((((s.setRf ⟨.hbTqcfg, h, q⟩ 63 63 0).setRf ⟨.hbTqstat, h, q⟩ 63 63 1).setRf ⟨.hbTqstat, h, q⟩ 62 62 0).logErr
            { portNotice p 0x0578 with partition := some part, detail := q }))

/-- STREAM_BLOCK_FETCH (R324) and EXPRESS_WRITE (R325). -/
def Obligations.StreamWordsArrive : Prop :=
  ∀ (s : State) (t : Task) (core slot e : Nat), s.taskAt core slot = some t → t.state ≠ 3 →
    (∀ ws : List Nat,
      let n := min 32 (mapCount t.map e - ((s.eng ⟨core, slot, e⟩).position + (s.eng ⟨core, slot, e⟩).early.length))
      mapExpress t.map e = false → mapDpa t.map e = false → n ≠ 0 → (∀ g ∈ t.cores, (s.eng ⟨g, slot, e⟩).words + n ≤ 256) →
      exec (.streamBlockFetch core slot e (some ws)) s = .next (s.deliverWords t e ((ws ++ List.replicate n 0).take n)))
    ∧ (∀ (p : Port) (k : Nat) (data : List Byte),
      let o := core * 0x20000 + slot * 0x8000 + e * 0x1000 + k
      slot < 4 → e < 8 → k + data.length ≤ 0x1000 → k % 8 = 0 → data.length % 8 = 0 → data ≠ [] → data.length ≤ 256 → (s.port p).linkUp = true →
      s.enabled core = true → s.standby p = false → (s.pkg.split = true → core / 192 = p.shore) → mapExpress t.map e = true →
      exec (.expressWrite p o data) s = .next (((chunksOf 8 32 data).map leNat).foldl (fun s w => s.expressWord p ⟨core, slot, e⟩ w) s))

/-- TASK_START (R287). -/
def Obligations.TaskStartCompletes : Prop :=
  ∀ (s : State) (t : Task) (g slot : Nat) (lr : List Byte), s.taskAt g slot = some t → t.started.contains g = false → t.state ≠ 3 → s.pkg.halted = false →
    (t.state = 1 → s.strataState t.partition = 0 ∧ ∀ c ∈ t.cores, s.fenced 1 c = false ∧ s.ownerOf (coveBase c) = t.partition) →
    s.fetch t.partition t.launchAt 256 = .ok lr →
    let u : Task := { t with launch := lr, skip := if t.started.isEmpty then s.rb ⟨.lhIntake, 0, 0⟩ t.partition else t.skip }
    let a := s.updTask t.id fun v => { v with launch := lr, skip := u.skip }
    let b := if u.debug && u.started.isEmpty then a.setTrust { a.trust with debugTasks := a.trust.debugTasks + 1 } else a
    (u.debug = true → (a.session t.partition).state = 0) → a.recordBad u = false → b.windowMoves u g = false → (b.setWindow u g).windowOk g u.slot = true →
    (∀ i, i < 16 → u.plan i ≠ 0 → u.shape i ≠ 0 ∧ u.shape i ≤ u.plan i) → ((b.setWindow u g).clearSlot u g).nestFault u = none →
    exec (.taskStart g slot) s = .next (((b.setWindow u g).clearSlot u g).release u g).admitHeld

/-- Steps 2, 3 and 5 of a start (R287). -/
def Obligations.StartSetsTheSlot : Prop :=
  ∀ (s : State) (t : Task) (g : Nat), t.slot < 4 →
    let u := (s.setWindow t g).clearSlot t g
    u.reg ⟨.cvBase, g, t.slot⟩ = BitVec.ofNat 64 t.cvbase
    ∧ u.reg ⟨.cvBound, g, t.slot⟩ = BitVec.ofNat 64 (2 ^ 63 + b2n t.retain * 2 ^ 62 + t.cvlimit)
    ∧ u.reg ⟨.pilSrSeed, g, 0⟩ = BitVec.ofNat 64 t.seed
    ∧ (∀ i, i < 16 → u.reg ⟨.pilShape, g, 16 * t.slot + i⟩ = BitVec.ofNat 64 (t.shape i))
    ∧ (∀ k, k < 64 → u.reg (tmReg g t.slot k) = 0) ∧ (∀ k, k < 16 → u.reg (semReg g t.slot k) = 0)
    ∧ (∀ e, e < 8 → u.reg ⟨.pilHscount, g, 4 * e + t.slot⟩ = 0)
    ∧ u.reg ⟨.pilOob, g, t.slot⟩ = 0 ∧ u.reg ⟨.pkCount, g, t.slot⟩ = 0 ∧ u.reg ⟨.slCount, g, t.slot⟩ = 0 ∧ u.reg ⟨.esCount, g, t.slot⟩ = 0
    ∧ (∀ r : RegId, r.unit ≠ g → u.reg r = s.reg r)
    ∧ (∀ slot, slot ≠ t.slot → slot < 4 → ∀ k, (k < 64 → u.reg (tmReg g slot k) = s.reg (tmReg g slot k)) ∧ (k < 16 → u.reg (semReg g slot k) = s.reg (semReg g slot k))
        ∧ (k < 16 → u.reg ⟨.pilShape, g, 16 * slot + k⟩ = s.reg ⟨.pilShape, g, 16 * slot + k⟩))
    ∧ u.mem = s.mem ∧ u.tasks = s.tasks

/-- DRAIN_END (R178), TRUNCATION_POINT (R334), HELD_COMPLETION_WRITE (R395) and CQ_ENABLE (R397). -/
def Obligations.TaskEndsComplete : Prop :=
  ∀ (s : State) (t : Task) (core slot : Nat) (p : Port) (q : Nat),
    (s.taskAt core slot = some t → t.state = 3 → s.drained t = true → t.truncated = false → s.taskId t.id = some t →
      exec (.drainEnd core slot) s = .next (s.finish t (if t.aborting then 5 else 4)).admitHeld)
    ∧ (∀ v, s.taskAt core slot = some t → t.state = 3 → s.drained t = true → t.truncated = true → (s.writeReports t).taskId t.id = some v →
      exec (.drainEnd core slot) s = .next ((s.writeReports t).finish v (if v.aborting then 5 else 4)).admitHeld)
    ∧ (s.taskAt core slot = some t → t.state = 2 → t.started.contains core = true → (s.eng ⟨core, slot, t.truncEngine⟩).ended = false →
        s.atTruncation ⟨core, slot, t.truncEngine⟩ t = true →
      exec (.truncationPoint core slot) s
        = .next (((s.updTask t.id fun t => { t with state := 3, truncated := true }).updEngines t EngCtx.truncate).stopLists t))
    ∧ (∀ h, (s.port p).held.find? (fun h => h.1 == q) = some h → s.cqOpen p q = true →
      exec (.heldCompletionWrite p q) s
        = .next (((s.setPort p { s.port p with held := (s.port p).held.erase h }).writeEntry p q h.2).fireCq p q))
    ∧ (∀ v, s.gate (.host p) true ⟨.hbCqcfg, p.harbour, q⟩ = none → wbit (BitVec.ofNat 64 v) 63 = true →
      exec (.cqEnable p q v) s = .next (((s.store (.host p) ⟨.hbCqcfg, p.harbour, q⟩ (BitVec.ofNat 64 v)).setRf ⟨.hbCqstat, p.harbour, q⟩ 15 0 0).setRf
        ⟨.hbCqstat, p.harbour, q⟩ 62 62 1))

/-- An entry of a completion queue (R394, R395). -/
def Obligations.CompletionEntriesAdvance : Prop :=
  ∀ (s : State) (p : Port) (q : Nat) (e : List Byte), e.length = 32 →
    let st : RegId := ⟨.hbCqstat, p.harbour, q⟩
    let tail := s.rf st 15 0
    let phase := s.rf st 62 62
    let size := State.queueSize (s.rf ⟨.hbCqcfg, p.harbour, q⟩ 3 0)
    let u := s.writeEntry p q e
    (∃ full : List Byte, u.out = s.out ++ [.completion p q tail full] ∧ full.length = 32
      ∧ (∀ k, k < 32 → k ≠ 11 → ¬ (16 ≤ k ∧ k < 24) → full[k]? = e[k]?)
      ∧ fieldAt full 11 1 = fieldAt e 11 1 % 128 + 128 * phase ∧ fieldAt full 16 8 = (s.port p).seq % 2 ^ 64)
    ∧ (tail < size → u.rf st 15 0 = (tail + 1) % size) ∧ u.rf st 62 62 = (if tail + 1 = size then 1 - phase else phase)
    ∧ (u.port p).seq = (s.port p).seq + 1 ∧ (∀ r, r ≠ st → u.reg r = s.reg r) ∧ u.mem = s.mem ∧ u.tasks = s.tasks

/-- WRITE (R33, R358), READ_REQUEST (R34, R358), READ_RESPONSE (R160, R358). -/
def Obligations.TransfersComplete : Prop :=
  ∀ (s : State) (f : Frame),
    let a := s.arrived f
    (f.package = 256 → a.serveFault f = none → a.writeFault f.address f.payload.length = none →
      (f.add = 0xFF ∧ (∀ b ∈ f.mask, b = 0xFF) ∨ a.readFault f.address f.payload.length = none) →
      exec (.write f) s = .next (((a.landFrame f).writeLanded f).endRotation f.partition))
    ∧ (∀ n, f.package ≠ 256 → a.routeLink f.partition f.package f.address = some n →
      exec (.write f) s = .next ((a.setLink n { a.link n with outbound := (a.link n).outbound ++ [(f, 0)] }).linkSend n
        { f with kind := 3, payload := [], count := 1, target := (placeOf f.address).target }))
    ∧ (f.package = 256 → a.serveFault f = none → ∀ (m : Media) (k : Nat),
      let at' := f.address + min k (f.count - 1)
      let u := (match m with
        | .good => a
        | .corrected _ => a.strikeOne (.memory at' false)
        | .uncorrectable _ => a.strikeOne (.memory at' true)).meet f.address f.count
      (m = .good ∨ m = .corrected k ∨ m = .uncorrectable k) →
      (u.readFault f.address f.count = none →
        exec (.readRequest f m) s = .next (u.send { f with kind := 2, payload := u.readBytes f.partition f.epoch f.address f.count }))
      ∧ (∀ c, u.readFault f.address f.count = some c → exec (.readRequest f m) s = .next (u.send (errorFrame f c))))
    ∧ (∀ n m, f.package ≠ 256 → a.routeLink f.partition f.package f.address = some n →
      exec (.readRequest f m) s = .next ((a.setLink n { a.link n with reads := (a.link n).reads ++ [f] }).linkSend n f))
    ∧ (f.source < 384 → exec (.readResponse f) s = .next ((a.readDone (State.frameEngine f) f.tag f.payload).endRotation f.partition))
    ∧ (512 ≤ f.source → exec (.readResponse f) s = .next (a.linkSend (f.source - 512) f))

/-- CREDIT_REQUEST, CREDIT_GRANT (R361), CREDIT_RETURN (R363, R364), SIGNAL (R310), CHANNEL_WRITE (R276). -/
def Obligations.CreditsMove : Prop :=
  ∀ (s : State) (f : Frame),
    let a := s.arrived f
    let x := State.frameEngine f
    (exec (.creditRequest f) s = .next (if a.targetFenced f.target then a.send (errorFrame f E.targetRecovering)
      else (a.setPool f.partition f.target { a.pool f.partition f.target with queue := (a.pool f.partition f.target).queue ++ [f] }).serve f.partition f.target))
    ∧ (∀ t id v, f.source < 384 → a.taskAt x.core x.slot = some t → t.aborting = false → f.tag ≠ syncTag → a.findXact x 1 f.tag = some (id, v) →
      exec (.creditGrant f) s = .next (a.grantXact x id v f.target f.gen))
    ∧ (∀ t i g, f.source < 384 → a.taskAt x.core x.slot = some t → t.aborting = false → f.tag = syncTag → (a.eng x).blocked = some (.send i g true) →
      exec (.creditGrant f) s = .next ((a.retire x t i).send { g with target := f.target, gen := f.gen }))
    ∧ (∀ w, 384 ≤ f.source → f.source < 512 → ((a.port (State.framePort f)).heldWrites.find? fun w => w.tag == f.tag) = some w →
      exec (.creditGrant f) s = .next (a.send { w with gen := f.gen, target := f.target }))
    ∧ (512 ≤ f.source → exec (.creditGrant f) s = .next (a.linkSend (f.source - 512) f))
    ∧ (exec (.creditReturn f) s = .next (if f.gen = (a.pool f.partition f.target).gen then
        (a.returnMany f.partition f.target f.count).serve f.partition f.target else a))
    ∧ (∀ g o, placeOf f.address = .cove g o →
      exec (.signal f) s = .next (if a.placeFenced f.source f.address then a.send (errorFrame f E.targetRecovering)
        else (a.returnFor f).incr g f.slot f.post f.counter f.amount f.source f.engine)
      ∧ exec (.channelWrite f) s = .next (if a.placeFenced f.source f.address then a.send (errorFrame f E.targetRecovering)
        else (a.pushWords g f.counter ((chunksOf 8 8 f.payload).mapIdx fun k b => (leNat b, bitOf f.amount k))).returnFor f))

/-- COMMAND, COMPLETION, IDLE (R358), ERROR_RESPONSE (R364), ACKNOWLEDGEMENT, NEGATIVE_ACKNOWLEDGEMENT (R360, R373). -/
def Obligations.HopsAdvance : Prop :=
  ∀ (s : State) (f : Frame) (hop dir seq n : Nat),
    let a := s.arrived f
    let code := if f.amount == 0 then E.targetRecovering else f.amount
    let v := s.hop hop dir
    let kept := v.buffer.filter fun g => seqLe seq g.1
    let again := if v.buffer.head?.map (·.1) = some seq then v.replays + 1 else 1
    exec (.command f) s = .next a ∧ exec (.completion f) s = .next a ∧ exec (.idle f) s = .next a
    ∧ (512 ≤ f.source → exec (.errorResponse f) s = .next (a.linkSend (f.source - 512) f))
    ∧ (384 ≤ f.source → f.source < 512 → exec (.errorResponse f) s = .next ((a.releaseWrite (State.framePort f) f.tag).logErr
        { portNotice (State.framePort f) E.memwinFault with partition := some f.partition, detail := f.address % 2 ^ 48 }))
    ∧ (f.source < 384 → exec (.errorResponse f) s = .next (if f.tag = syncTag then a.fail (State.frameEngine f) { code := code, addr := f.address }
        else a.xactError (State.frameEngine f) f.tag code f.asks))
    ∧ (hop < 100 → exec (.acknowledgement hop dir seq) s
        = .next (((s.setHop hop dir { v with buffer := v.buffer.filter fun g => !seqLe g.1 seq, replays := 0 }).accepts (hop, dir) seq).sendWaiting))
    ∧ (hop < 100 → hop ≠ causewayHop → exec (.negativeAcknowledgement hop dir seq) s = .next (s.setHop hop dir { v with buffer := kept, replays := again }).sendWaiting)
    ∧ (hop = causewayHop →
        let u := (s.setHop hop dir { v with buffer := kept, replays := again }).sendWaiting
        let w := (u.fresh.2.satRf ⟨.cwErr, 0, dir⟩ 63 32 kept.length).satRf ⟨.cwErr, 0, dir⟩ 31 0 (u.fresh.1 % 2)
        exec (.negativeAcknowledgement hop dir seq) s = .next (if 32 ≤ again then w.failCauseway else w))
    ∧ (∀ k, ((s.link n).replay.findIdx? fun g => g.counter == seq) = some k →
        let left := (s.link n).replay.drop k
        exec (.acknowledgement (100 + n) dir seq) s = .next (s.linkAcked n (k + 1))
        ∧ exec (.negativeAcknowledgement (100 + n) dir seq) s = .next (left.foldl (fun s g => s.emit (.linkFrame n g))
            (((s.linkAcked n k).satRf (blReg .blErr n) 31 0 left.length).emit (.linkReplay n seq left.length))))
    ∧ (((s.link n).replay.findIdx? fun g => g.counter == seq) = none → seq ≠ (s.link n).sendCounter →
        exec (.acknowledgement (100 + n) dir seq) s = .next s ∧ exec (.negativeAcknowledgement (100 + n) dir seq) s = .next s)

/-- The store of a write that software or a peer issues (R33, R358). -/
def Obligations.HostWritesStoreTheirBytes : Prop :=
  ∀ (s : State) (f : Frame), 384 ≤ f.source → f.package = 256 → f.add = 0xFF → f.mask = [] → f.arrive = false →
    (∀ p o, placeOf f.address ≠ .cxl p o) →
    ∃ t, exec (.write f) s = .next t
      ∧ ((s.serveFault f = none ∧ s.writeFault f.address f.payload.length = none →
          ∀ b, t.byteAt b = if f.address ≤ b then f.payload.getD (b - f.address) (s.byteAt b) else s.byteAt b)
        ∧ (¬ (s.serveFault f = none ∧ s.writeFault f.address f.payload.length = none) → ∀ b, t.byteAt b = s.byteAt b))

/-- The frame of READ_REQUEST (R34, R147). -/
def Obligations.ReadsLeaveMemory : Prop :=
  ∀ (s : State) (f : Frame) (m : Media), f.kind = 1 → ∃ t, exec (.readRequest f m) s = .next t ∧ t.mem = s.mem ∧ t.seals = s.seals ∧ t.tasks = s.tasks ∧ t.engs = s.engs
    ∧ t.rings = s.rings ∧ t.chans = s.chans ∧ t.arrays = s.arrays ∧ t.landed = s.landed ∧ t.pools = s.pools ∧ t.trust = s.trust
    ∧ ((∀ k, m ≠ .uncorrectable k) → (∀ e ∈ s.struck, e.2 = true → meets f.address f.count e = false) → t.poison = s.poison) ∧ (∀ e ∈ s.poison, e ∈ t.poison)

/-- Pools (R361 to R364). -/
def Obligations.CreditsAreConserved : Prop :=
  ∀ (s : State) (f : Frame),
    let a := s.arrived f
    let v := s.pool f.partition f.target
    let n := min f.count v.size
    (a.targetFenced f.target = false → v.queue = [] → n ≠ 0 → n ≤ v.avail →
      let g : Frame := { f with kind := 4, count := n, gen := v.gen, payload := [] }
      ∃ t, exec (.creditRequest f) s = .next t ∧ t.pool f.partition f.target = { v with avail := v.avail - n }
        ∧ (a.maySend g = true → t.frames = a.frames ++ [g] ∧ t.backlog = a.backlog) ∧ (a.maySend g = false → t.frames = a.frames ∧ t.backlog = a.backlog ++ [g])
        ∧ (∀ p q, (p, q) ≠ (f.partition, f.target) → t.pool p q = s.pool p q))
    ∧ (a.targetFenced f.target = false → v.queue = [] → v.avail < n →
      ∃ t, exec (.creditRequest f) s = .next t ∧ t.pool f.partition f.target = { v with queue := [f] } ∧ t.frames = a.frames)
    ∧ (f.gen = v.gen → v.queue = [] → s.quotaLimit f.partition 2 = none →
      ∃ t, exec (.creditReturn f) s = .next t ∧ t.pool f.partition f.target = { v with avail := v.avail + f.count } ∧ t.frames = a.frames)
    ∧ (f.gen ≠ v.gen → ∃ t, exec (.creditReturn f) s = .next t ∧ t.pools = s.pools ∧ t.frames = a.frames)

/-- OFFER, ACCEPT, CONFIRM, REQUEST, ABORT (R377, R378), ROTATE_OFFER, ROTATE_ACCEPT, READY (R379). -/
def Obligations.KeyMessagesComplete : Prop :=
  ∀ (s : State) (n : Nat) (m : KeyMessage), s.linkUp n = true →
    let l := s.link n
    let d := s.trust.draws + 1
    let drawn := s.setTrust { s.trust with draws := d }
    (s.leads n = false → s.linkKeyed n = false → (l.stage = 0 ∨ l.stage = 4) → s.trust.entropyOk = true →
      exec (.offer n m) s = .next (
        if Config.chainVerify (messageChain m.body) then
          let ct := Config.kemEncaps (messageKem m.body) d
          let tr := m.body ++ (leBytes 1 s.packageNumber ++ leBytes 1 n ++ zeros 2 ++ nonceOf d ++ leBytes 2 Config.certChain.length ++ Config.certChain ++ ct)
          (drawn.setLink n { l with stage := 8, transcript := tr, secret := secretOf (messageKem m.body) d }).askSignature .smbus 4 (sha256 tr) n
        else s.keyFail n true))
    ∧ (l.stage = 1 →
      let tr := l.transcript ++ m.body ++ m.signature
      exec (.accept n m) s = .next (
        if Config.chainVerify (messageChain m.body) && Config.slhVerify (Config.chainKey (messageChain m.body)) (sha256 (l.transcript ++ m.body)) m.signature then
          (s.setLink n { l with stage := 9, transcript := tr, secret := secretOf (messageKem m.body) l.secret }).askSignature .smbus 4 (sha256 tr) n
        else s.keyFail n true))
    ∧ (l.stage = 2 →
      exec (.confirm n m) s = .next (
        if Config.slhVerify (Config.chainKey (messageChain l.transcript)) (sha256 l.transcript) m.signature then s.installKeys n (l.transcript ++ m.signature)
        else s.keyFail n true))
    ∧ (s.leads n = false → s.linkKeyed n = true → (l.stage = 0 ∨ l.stage = 4) → s.trust.entropyOk = true →
      exec (.rotateOffer n m) s = .next ((((drawn.setRf (State.linkStat n) 60 60 1).setLink n { l with readySent := false, peerReady := false }).linkMessage n 5
        (Config.kemEncaps m.body d)).installNext n (secretOf m.body d)))
    ∧ (l.stage = 5 → exec (.rotateAccept n m) s = .next ((s.installNext n (secretOf m.body l.secret)).trySwitch n))
    ∧ (s.linkRotating n = true → l.peerReady = false → (l.stage = 5 ∨ l.stage = 7) →
      exec (.ready n (1 - s.linkEpoch n)) s = .next ((s.setLink n { l with peerReady := true }).trySwitch n))
    ∧ (s.leads n = true → l.stage = 0 → s.trust.entropyOk = true →
      (s.linkKeyed n = false → exec (.request n 1) s = .next (s.sendOffer n))
      ∧ (s.linkKeyed n = true → s.linkRotating n = false → exec (.request n 2) s = .next (((drawn.setRf (State.linkStat n) 60 60 1).setLink n
          { l with stage := 5, secret := d, readySent := false, peerReady := false }).linkMessage n 4 (Config.kemKey d))))
    ∧ (∀ code, (l.stage ≠ 0 ∨ s.linkRotating n = true) → exec (.abort n code) s = .next (s.keyFail n false))

/-- BL_LINK_UP (R377), BL_DOWN, KEY_DROP (R376), KEY_AGREE, KEY_ROTATE, KEY_ROTATION_FRAME_LIMIT (R379), DATA_FRAME_HOLD (R380), LINK_FRAME (R373). -/
def Obligations.LinkControlComplete : Prop :=
  ∀ (s : State) (n : Nat),
    let l := s.link n
    (∀ pk pl, s.rb (blReg .blCfg n) 63 = true → l.cable = true → s.linkUp n = false → s.fenced 5 n = false →
      exec (.blLinkUp n pk pl) s = .next (if pk = s.packageNumber then s.logErr (State.linkError n E.blPackage 0)
        else ((s.setReg (State.linkStat n) (BitVec.ofNat 64 (2 ^ 63 + pk % 256 * 2 ^ 40 + pl % 64 * 2 ^ 34))).setLink n
          { Link.down with cable := true, peerGen := l.peerGen }).startAgree n))
    ∧ (s.linkUp n = true →
      exec (.blDown n .training) s = .next (s.downLink n false) ∧ exec (.blDown n .authentication) s = .next (s.downLink n true)
      ∧ exec (.blDown n .keysDropped) s = .next (s.downLink n true) ∧ exec (.blDown n .keyFail) s = .next (s.keyFail n false)
      ∧ (s.linkKeyed n = true → exec (.dataFrameHold n) s = .next (if 2 ^ 40 + 2 ^ 32 ≤ l.sentUnder then s.setRf (State.linkStat n) 59 59 1 else s))
      ∧ (∀ p, s.gate (.host p) true (blReg .blKeyctl n) = none → exec (.keyDrop p n) s = .next (s.downLink n true)))
    ∧ (s.linkUp n = true → l.stage = 0 → s.linkRotating n = false → s.trust.entropyOk = true →
      let drawn := s.setTrust { s.trust with draws := s.trust.draws + 1 }
      let rotating := if s.leads n then ((drawn.setRf (State.linkStat n) 60 60 1).setLink n
            { l with stage := 5, secret := s.trust.draws + 1, readySent := false, peerReady := false }).linkMessage n 4 (Config.kemKey (s.trust.draws + 1))
          else ((s.setRf (State.linkStat n) 60 60 1).setLink n { l with stage := 4, readySent := false, peerReady := false }).linkMessage n 7 (leBytes 4 2)
      (s.linkKeyed n = true → exec (.keyRotationFrameLimit n) s = .next (if 2 ^ 40 ≤ max l.sentUnder l.recvUnder then rotating else s)
        ∧ (∀ p, s.gate (.host p) true (blReg .blKeyctl n) = none → exec (.keyRotate p n) s = .next rotating))
      ∧ (∀ p, s.linkKeyed n = false → s.gate (.host p) true (blReg .blKeyctl n) = none →
          exec (.keyAgree p n) s = .next (if s.leads n then s.sendOffer n else (s.setLink n { l with stage := 4 }).linkMessage n 7 (leBytes 4 1))))
    ∧ (∀ f : LinkFrame, s.linkUp n = true → f.fecOk = true → f.crcOk = true → f.counter = l.expected →
      ((l.recvKeys.1 = none ∧ l.recvKeys.2 = none ∧ f.kind = 11 ∧ f.subtype ≠ 0)
        ∨ ((State.slotOf l.recvKeys f.epoch).isSome = true ∧ f.authentic = true ∧ f.toPackage = s.packageNumber ∧ f.toLink = n)) →
      exec (.linkFrame n f) s = .next (s.acceptFrame n f))

/-- The first checks of a received link frame (R373). -/
def Obligations.BadLinkFramesChangeNothing : Prop :=
  ∀ (s : State) (n : Nat) (f : LinkFrame), s.linkUp n = true → ¬ (f.fecOk = true ∧ f.crcOk = true ∧ f.counter = (s.link n).expected) →
    ∃ t, exec (.linkFrame n f) s = .next t ∧ t.link n = s.link n ∧ t.links = s.links ∧ t.mem = s.mem ∧ t.tasks = s.tasks ∧ t.engs = s.engs ∧ t.pools = s.pools
      ∧ t.chans = s.chans ∧ t.frames = s.frames ∧ t.lh = s.lh ∧ (∀ r, r ≠ blReg .blErr n → t.reg r = s.reg r)
      ∧ t.out = s.out ++ [if f.fecOk = true ∧ f.crcOk = true ∧ f.counter < (s.link n).expected then .linkAck n true ((s.link n).expected - 1)
          else .linkAck n false (s.link n).expected]

/-- DSP_LISTCTL_START (R265, R274) and WORK_ITEM (R264, R266, R270). -/
def Obligations.DispensersComplete : Prop :=
  ∀ (s : State) (d : Nat),
    let v := s.disp d
    (∀ (a : Agent) (value : Nat),
      let r : RegId := ⟨.dspListctl, d, 0⟩
      let w := BitVec.ofNat 64 value
      let u := (s.store a r w).setRf r 63 63 0
      s.gate a false r = none → v.running = false → wbit w 63 = true → u.dispOk d = true →
      exec (.dspListctlStart a d value) s = .next
        ((((u.setDisp d { v with
          running := true, base := u.rf ⟨.dspListbase, d, 0⟩ 51 5 * 32, count := u.rf r 31 0, next := 0, head := none,
          partition := u.rf r 58 56, slot := u.rf r 33 32, sent := [], ended := [], task := none }).setReg ⟨.dspStatus, d, 0⟩ 0).setRf ⟨.dspFault, d, 0⟩ 63 63 0).pumpEnds d 3))
    ∧ (∀ (a : Agent) (value : Nat),
      let r : RegId := ⟨.dspListctl, d, 0⟩
      let w := BitVec.ofNat 64 value
      let u := (s.store a r w).setRf r 63 63 0
      s.gate a false r = none → v.running = false → wbit w 63 = true → u.dispOk d = false →
      exec (.dspListctlStart a d value) s = .next (
        match u.tasks.find? fun t => t.active && u.namesList t d none (u.rf r 58 56) (u.rf r 33 32) with
        | some t => u.abortWith t { code := E.dspConfig, severity := 1, kind := 2, unit := d }
        | none => u.logErr { code := E.dspConfig, severity := 0, kind := 2, unit := d, partition := some (u.rf r 58 56) }))
    ∧ (∀ c h, v.running = true → (v.next ≠ v.count ∨ v.head ≠ none) → s.nextCore d = some c → s.headItem d = .ok h → (v.head ≠ none ∨ s.itemBad d h = false) →
      let q := s.splitItem d h
      let u := (s.setDisp d { v with head := q.2, next := if q.2.isSome then v.next else v.next + 1, lastServed := c }).satRf ⟨.dspStatus, d, 0⟩ 31 0 1
      let u := if q.2.isSome then u.satRf ⟨.dspStatus, d, 0⟩ 55 32 1 else u
      exec (.workItem d) s = .next ((u.pushWords (32 * d + c) (u.rf ⟨.dspCfg, d, 0⟩ 34 32)
        [((itemWords q.1).getD 0 0, false), ((itemWords q.1).getD 1 0, false), ((itemWords q.1).getD 2 0, false), ((itemWords q.1).getD 3 0, true)] true).pumpEnds d 3))

/-- LANE_FAILING, LANE_SWAP_DONE (R368), CAUSEWAY_FAILED (R369), HOP_REPLAY_LIMIT (R366), TOWER_RETRY_LIMIT (R153). -/
def Obligations.LanesHopsAndTowersComplete : Prop :=
  ∀ (s : State) (dir lane : Nat),
    (s.pkg.causewayFailed = false →
      (exec (.laneFailing dir lane) s = .next (if s.spares dir = 0 then s.failCauseway
          else (s.setPkg { s.pkg with swaps := s.pkg.swaps ++ [(dir, lane)] }).setRf State.cwStatus 62 62 1))
      ∧ exec .causewayFailed s = .next ((((s.setPkg { s.pkg with causewayFailed := true, swaps := [] }).setRf State.cwStatus 63 62 2).forAll (List.range 8)
          fun s p => s.forAll (List.range 24) fun s t => s.resetPool p t).loseBacklog.manage { code := E.cwFailed, severity := 2, kind := 7 } 4 11 0 true))
    ∧ (∀ w, (s.pkg.swaps.find? fun w => w.1 == dir) = some w →
      exec (.laneSwapDone dir false) s = .next s.failCauseway
      ∧ ∃ u : State, u.pkg.swaps = s.pkg.swaps.erase w
          ∧ exec (.laneSwapDone dir true) s = .next (if s.rf State.cwStatus (State.spareBit dir + 3) (State.spareBit dir) = 1 then
              u.manage { code := E.cwLaneSpared, severity := 2, kind := 7, detail := w.2 } 2 7 0 false
            else u.logErr { code := E.cwLaneSpared, severity := 0, kind := 7, detail := w.2 })
          ∧ u.mem = s.mem ∧ u.tasks = s.tasks ∧ u.out = s.out)
    ∧ (∀ shore hop,
      let n := 7 * shore + hop
      let u := s.forAll [0, 1] fun s d => s.setHop n d { s.hop n d with replays := 0 }
      exec (.hopReplayLimit shore hop true) s = .next u.sendWaiting
      ∧ exec (.hopReplayLimit shore hop false) s = .next
          ((if u.pkg.hopsDown.contains n then u else u.setPkg { u.pkg with hopsDown := u.pkg.hopsDown ++ [n] }).manage
            { code := E.fabricHop, severity := 2, kind := 8, unit := n } 3 8 n true))
    ∧ (∀ t, exec (.towerRetryLimit t true) s = .next s
      ∧ exec (.towerRetryLimit t false) s = .next (s.manage { code := E.towerLink, severity := 2, kind := 3, unit := t } 2 3 t true))

/-- SAMPLE (R58), ENGINE_HUNG (R63), HEARTBEAT_STALE (R402), GATING_SPAN (R465), RECOVERY_DONE and MANAGEMENT_PROCESSOR_FAULT (R453). -/
def Obligations.LighthouseWorkCompletes : Prop :=
  ∀ (s : State),
    (s.lighthouseRuns = true →
      (∀ env, exec (.sample env) s = .next ((s.strike env.strikes).takeSample env))
      ∧ exec .managementProcessorFault s = .next (s.escalate (Recovery.of 4 11 0 (2 ^ 64 - 1)) true 0 (2 ^ 64 - 1)))
    ∧ (∀ g e, s.hung g e = true → exec (.engineHung g e) s = .next (s.declareHung g e))
    ∧ (s.pkg.split = false → s.pkg.control ≠ 0 → s.gapMs ≠ 0 → exec .heartbeatStale s = .next (s.setRf lhHoststat 59 59 1))
    ∧ (∀ d, Tab.get 0 s.lh.gating d ≠ 0 →
      exec (.gatingSpan d) s = .next (s.setLh { s.lh with spans := Tab.put id 0 s.lh.spans d ((Tab.get 0 s.lh.spans d + 1) % 16) }))
    ∧ (∀ n r, s.lh.recoveries.find? (fun e => e.1 == n) = some (n, r) → s.pkg.halted = false →
      let u := ((s.endDrains r).rebuild r).dropRecovery n
      let u := (u.setLh { u.lh with runs := u.lh.runs.filter (fun v => !State.inDomain r 1 (v.1 / 8)), due := u.lh.due.filter fun k => !State.inDomain r 1 (k / 8) }).bringUpAgain r
      let u := ((u.logErr { code := E.recoveryDone, severity := 0, kind := r.kind, unit := r.unit, cause := some r.first }).newGeneration).retryScrubs
      exec (.recoveryDone n) s = .next
        (((if r.level == 4 && u.pkg.causewayFailed && !u.pkg.split then u.enterSplit else u).startWaiting 8).sendWaiting.admitHeld.examineClaims))

/-- STRATA_LOAD (R350), STRATA_LOAD_DONE (R351), STRATA_HOLD (R348), SOUND, SUMMARY_WRITTEN (R459), LAYOUT_APPLY (R463). -/
def Obligations.StrataCompletes : Prop :=
  ∀ (s : State) (p : Nat) (o : Port),
    (∀ img xs, s.gate (.host o) true ⟨.lhStrataCtl, 0, p⟩ = none → s.strataState p = 2 → s.checkImage p (s.rf ⟨.lhStrataAddr, 0, p⟩ 51 12 * 4096) = .ok (img, xs) →
      ((s.session p).state = 0 ∨ (s.session p).log.length < 1016) →
      let u := if (s.session p).state = 0 then s else s.sessionEntry p 2 0 (fieldAt img 16 8) (sha256 img)
      exec (.strataLoad o p) s
        = .next ((u.setStrata p 3).setPhase p { u.phase p with loading := some img, loadAt := s.rf ⟨.lhStrataAddr, 0, p⟩ 51 12 * 4096, dropHold := false }))
    ∧ (∀ img xs n, (s.phase p).loading = some img → sectionsFrom img (fieldAt img 6 2) 0 64 = .ok (xs, n) →
      ∃ u : State, exec (.strataLoadDone p) s = .next u ∧ u.reg ⟨.lhStrataId, 0, p⟩ = BitVec.ofNat 64 (fieldAt img 16 8)
        ∧ u.rb (State.strataReg p) 60 = true ∧ u.rb (State.strataReg p) 61 = false ∧ u.rf (State.strataReg p) 47 32 = 0
        ∧ u.strataState p = (if (s.phase p).dropHold then 0 else 2) ∧ (u.phase p).loading = none ∧ (u.phase p).image = img)
    ∧ (s.gate (.host o) true ⟨.lhStrataCtl, 0, p⟩ = none →
      let h (b : Bool) := s.setRf ⟨.lhStrataCtl, 0, p⟩ 62 62 (b2n b)
      (s.strataState p = 0 → exec (.strataHold o p true) s = .next ((h true).setStrata p 1) ∧ exec (.strataHold o p false) s = .next (h false))
      ∧ ((s.strataState p = 1 ∨ s.strataState p = 2) → exec (.strataHold o p false) s = .next ((h false).setStrata p 0)
          ∧ exec (.strataHold o p true) s = .next (h true))
      ∧ (s.strataState p = 3 → ∀ b, exec (.strataHold o p b) s = .next ((h b).setPhase p { s.phase p with dropHold := !b })))
    ∧ (∀ (q : Port) (vector : Nat), s.gate (.host o) true ⟨.lhSoundctl, 0, q.shore⟩ = none →
      let u := s.setRf ⟨.lhSoundctl, 0, q.shore⟩ 9 0 vector
      exec (.sound q o vector) s = .next (if u.rb ⟨.lhSoundstat, 0, q.shore⟩ 63 then u
        else (u.setLh { u.lh with summaries := Tab.put id [] u.lh.summaries q.shore (u.summary q) }).setRf ⟨.lhSoundstat, 0, q.shore⟩ 63 63 1))
    ∧ (s.rb ⟨.lhSoundstat, 0, o.shore⟩ 63 = true →
      ∃ u : State, exec (.summaryWritten o true) s = .next (u.fireVector o (u.rf ⟨.lhSoundctl, 0, o.shore⟩ 9 0))
        ∧ u.out = s.out ++ [.summary o (s.rf ⟨.lhSoundaddr, 0, o.shore⟩ 63 12 * 4096) (Tab.get [] s.lh.summaries o.shore)]
        ∧ u.rb ⟨.lhSoundstat, 0, o.shore⟩ 63 = false ∧ u.rb ⟨.lhSoundstat, 0, o.shore⟩ 62 = true
        ∧ u.rf ⟨.lhSoundstat, 0, o.shore⟩ 31 0 = (s.rf ⟨.lhSoundstat, 0, o.shore⟩ 31 0 + 1) % 2 ^ 32 ∧ u.mem = s.mem)
    ∧ (let a := s.rf ⟨.lhLayoutaddr, 0, 0⟩ 51 12 * 4096
       let r := s.bytes a 576
       let new := s.recordPackage r
       s.gate (.host o) true State.lhLayoutctl = none → s.pkg.split = false → s.pkg.control = o.shore + 1 →
       (∃ t i t' i', placeOf a = .tower t i ∧ placeOf (a + 575) = .tower t' i') → s.poisoned a 576 = false → fieldAt r 0 1 = 0 → fieldAt r 1 1 = s.pkg.control →
       State.rangesApart new.ranges = true → (∀ x ∈ new.ranges, s.rangeUsable x = true) →
       (∀ q, q < 8 → State.layoutTouches s.pkg new q = true → s.strataState q = 2 ∧ (s.session q).state = 0) → (∀ q, q < 8 → s.layoutOverQuota new q = false) →
       exec (.layoutApply o) s = .next ((((s.setPkg new).setRf State.lhLayoutctl 47 32 0).passUnits s.pkg).newGeneration))

/-- CLAIM (R403), HEARTBEAT (R402), MODE_REQUEST, MODE_CHANGE_APPLIED (R400). -/
def Obligations.HostControlCompletes : Prop :=
  ∀ (s : State) (p : Port),
    (s.gate (.host p) true lhClaim = none →
      exec (.claim p) s = .next (if p ∈ s.pkg.claims then s else s.setPkg { s.pkg with claims := s.pkg.claims ++ [p] }))
    ∧ (∀ v, s.gate (.host p) true ⟨.lhHeartbeat, 0, 0⟩ = none →
      ∃ u : State, exec (.heartbeat p v) s = .next u ∧ u.reg ⟨.lhHeartbeat, 0, 0⟩ = BitVec.ofNat 64 v ∧ u.rb lhHoststat 59 = false ∧ u.lh.silence = 0
        ∧ u.mem = s.mem ∧ u.pkg = s.pkg ∧ u.tasks = s.tasks ∧ u.out = s.out)
    ∧ (∀ split toE, s.gate (.host p) true lhHostctl = none →
      let u := s.setReg lhHostctl (wput (BitVec.ofNat 64 (2 ^ 63 + b2n split * 2 ^ 62 + b2n toE * 2 ^ 61 + s.rf lhHostctl 9 0)) 63 63 0 &&& 0x60000000000003FF)
      u.modeMay split = true →
      (s.pkg.split = false → s.pkg.control ≠ 0 → exec (.modeRequest p split toE) s = .next (u.setPkg { s.pkg with changing := some (split, toE), requests := [] }))
      ∧ ((s.pkg.split = true ∨ s.pkg.control = 0) → (∀ r ∈ s.pkg.requests, r.1 = p) →
          exec (.modeRequest p split toE) s = .next (u.setPkg { s.pkg with requests := [(p, split, toE)] }))
      ∧ ((s.pkg.split = true ∨ s.pkg.control = 0) → s.pkg.requests = [(p.other, split, toE)] →
          exec (.modeRequest p split toE) s = .next (u.setPkg { s.pkg with changing := some (split, toE), requests := [] })))
    ∧ (∀ split toE, s.pkg.changing = some (split, toE) →
      exec .modeChangeApplied s = .next (
        if s.allSlack then if split then s.enterSplit else s.enterUnified toE
        else (s.setPkg { s.pkg with changing := none }).refuseMode))

/-- HOST_LINK_UP, HOST_LINK_DOWN, PERST_DEASSERT, HOST_PORT_RESET (R383, R385, R428, R474, R478), CONFIG_REQUEST (R384, R385), BAR4_READ, BAR4_WRITE
(R387, R388). -/
def Obligations.HostPortsComplete : Prop :=
  ∀ (s : State) (p : Port),
    let trained (s : State) (rate width : Nat) (flit : Bool) : State := (s.setPort p { s.port p with linkUp := true }).setReg (portstat p)
      (BitVec.ofNat 64 (b2n s.portsOpen * 2 ^ 63 + b2n (decide (width < 16 ∨ rate < 5)) * 2 ^ 60 + rate % 16 * 2 ^ 56 + width % 32 * 2 ^ 51 + b2n flit * 2 ^ 50))
    let down := ((s.setPort p { s.port p with linkUp := false, ide := [] }).setReg (portstat p) 0).forAll (List.range 8)
      fun s q => if s.portOwns p q then s.sessionError q 0 0 else s
    (∀ rate width flit, (s.port p).perst = false → s.portsOpen = true → exec (.hostLinkUp p rate width flit) s = .next (trained s rate width flit))
    ∧ exec (.hostLinkDown p) s = .next down
    ∧ (∀ rate width flit, exec (.perstDeassert p rate width flit) s = .next (
        let u := s.setPort p { s.port p with perst := false }
        if s.portsOpen then trained u rate width flit else u))
    ∧ (∀ k, exec (.hostPortReset p k) s = .next (
        let u := down.dropRegs fun r => r.unit == p.harbour && State.clearedByPort r.name
        let u := u.setTasks (u.tasks.map fun t => if t.active && decide (t.port = p) then { t with discarded := true } else t)
        u.setPort p { u.port p with seq := 0, held := [], sinceFired := [], heldBells := [], lastQueue := 63, bar4 := 30, perst := (u.port p).perst || decide (k = .perst) }))
    ∧ (∀ n, (s.port p).perst = false → s.rb (portstat p) 63 = true →
        exec (.configRequest p none) s = .next (s.emit (.config p (some (configSpace s p))))
        ∧ (let u := s.setPort p { s.port p with bar4 := min 40 (max 30 n) }
           exec (.configRequest p (some n)) s = .next (u.emit (.config p (some (configSpace u p)))))
        ∧ (configSpace s p).classCode = 0x12 ∧ (configSpace s p).device = (if s.pkg.gradeB then 0xD25B else 0xD25A) ∧ (configSpace s p).vectors = 1024)
    ∧ (∀ r, ((s.port p).perst = true ∨ s.rb (portstat p) 63 = false) → exec (.configRequest p r) s = .next (s.emit (.config p none)))
    ∧ (∀ t o n q a ep, (s.port p).linkUp = true → s.tdiRefuses p t o = false → 0 < n → n ≤ 256 - o % 256 → s.bar4Place p false o = some (q, a, ep) →
        let u := s.meet a n
        u.readFault a n = none → exec (.bar4Read p t o n) s = .next (u.emit (.readData p (u.readBytes q ep a n))))
    ∧ (∀ t o (data : List Byte) q a ep, (s.port p).linkUp = true → s.tdiRefuses p t o = false → data ≠ [] → data.length ≤ 256 - o % 256 →
        s.bar4Place p true o = some (q, a, ep) →
        ∃ (u : State) (f : Frame), exec (.bar4Write p t o data) s = .next u ∧ (u.port p).heldWrites = (s.port p).heldWrites ++ [f]
          ∧ f.kind = 0 ∧ f.partition = q ∧ f.address = a ∧ f.payload = data ∧ f.epoch = ep ∧ f.target = (placeOf a).target ∧ f.add = 0xFF ∧ f.arrive = false
          ∧ u.mem = s.mem
          ∧ (let g : Frame := { f with kind := 3, payload := [], count := 1 }
             if (s.port p).heldWrites = [] then
               if s.maySend g then u.frames = s.frames ++ [g] ∧ u.backlog = s.backlog else u.frames = s.frames ∧ u.backlog = s.backlog ++ [g]
             else u.frames = s.frames ∧ u.backlog = s.backlog))

/-- CXL_ENABLE, CXL_DISABLE, CXL_PORT_UP, CXL_DOWN (R406 to R408). -/
def Obligations.CxlPortsComplete : Prop :=
  ∀ (s : State) (o : Port) (p : Nat), p < 4 →
    let r := cxReg .cxCfg p
    let st := cxReg .cxStatus p
    (s.gate (.host o) true r = none →
      (s.rf st 63 61 = 0 → exec (.cxlEnable o p) s = .next
        ((((s.setRf r 63 63 1).setCxl p { s.cxl p with bringUp := true, perst := false })).setRf st 63 61 1))
      ∧ (s.rf st 63 61 = 0 → exec (.cxlDisable o p) s = .next ((s.setRf r 63 63 0).setCxl p { s.cxl p with perst := true }))
      ∧ (s.rf st 63 61 = 4 → (s.cxlOwner p < 8 → s.strataState (s.cxlOwner p) = 2) →
          ∃ u : State, exec (.cxlDisable o p) s = .next u ∧ (u.cxl p).perst = true ∧ (u.cxl p).ideKey = none ∧ (u.cxl p).capacity = 0 ∧ (u.cxl p).bringUp = false))
    ∧ ((s.cxl p).bringUp = true → s.fenced 6 p = false →
      (∀ dev, dev.present = false → exec (.cxlPortUp p dev) s = .next (s.cxlStays p (s.rf st 15 0)))
      ∧ (∀ dev : CxlDevice, dev.present = true → dev.direct = true → dev.ide = true → dev.authentic = true → s.trust.entropyOk = true →
          ∃ u : State, exec (.cxlPortUp p dev) s = .next u ∧ u.cxl p = ⟨false, some (s.trust.draws + 1), s.cxlUnits p dev.capacity * 0x10000000, (s.cxl p).perst⟩
            ∧ u.reg (cxReg .cxCap p) = BitVec.ofNat 64 (s.cxlUnits p dev.capacity) ∧ u.rf st 63 61 = 4 ∧ u.rf st 59 56 = dev.rate % 16 ∧ u.rf st 55 51 = dev.width % 32
            ∧ u.trust.draws = s.trust.draws + 1 ∧ u.mem = s.mem ∧ u.lh.generation = s.lh.generation + 1))
    ∧ (s.rf st 63 61 = 4 →
      let f := Recovery.of 2 6 p 0
      let down (s : State) (c : Nat) := (s.cxlDown p c (s.recoveryCause f)).escalate f false E.cxlDown (s.nextSeq (if p < 2 then 0 else 1))
      exec (.cxlDown p .link) s = .next (down s E.cxlDown) ∧ exec (.cxlDown p .removed) s = .next (down s E.cxlDown)
      ∧ exec (.cxlDown p .ide) s = .next ((s.manage { code := E.cxlIdeFail, severity := 2, kind := 6, unit := p } 2 6 p false).cxlGoesDown p E.cxlIdeFail))

/-- LOCK_INTERFACE, START_INTERFACE, STOP_INTERFACE, GET_DEVICE_INTERFACE_REPORT (R424, R425), IDE_KM (R423), HOST_IDE_FAIL (R428), SEAL_ROTATE,
PAGE_RESEALED (R433, R434), SCRUB_DONE (R438), ENTROPY_HEALTH_FAIL (R430). -/
def Obligations.InterfacesComplete : Prop :=
  ∀ (s : State) (o : Port) (p : Nat),
    let v := s.session p
    ((s.port o).linkUp = true →
      (s.lockMay o p = true → ∃ u : State, exec (.lockInterface o p) s = .next u ∧ (u.session p).state = 1 ∧ (u.session p).log.length = 2
          ∧ (u.session p).key0 = some (s.trust.draws + 1) ∧ (u.session p).key1 = none ∧ (u.session p).epoch = 0 ∧ (u.session p).rotating = false
          ∧ u.out = s.out ++ [.tdisp o p true] ∧ u.mem = s.mem)
      ∧ (s.portOwns o p = true →
          (v.state = 1 → v.stopping = false → exec (.startInterface o p) s = .next ((s.setSession p { v with state := 2 }).emit (.tdisp o p true)))
          ∧ (v.state = 3 → exec (.stopInterface o p) s = .next ((s.emit (.tdisp o p true)).setSession p
              (if v.scrub then { v with stopping := true } else { v with state := 0 })))
          ∧ ((v.state = 1 ∨ v.state = 2) →
              let u := (((s.emit (.tdisp o p true)).tasks.filter fun t => t.active && t.partition == p).foldl (fun s t => s.abortTask t.id) (s.emit (.tdisp o p true))).beginScrub p
              exec (.stopInterface o p) s = .next (u.setSession p { u.session p with stopping := true }))
          ∧ exec (.getDeviceInterfaceReport o p) s = .next (s.emit (.tdispReport o p (s.mmioRanges o p) (s.measurement (0x21 + 4 * p)))))
      ∧ (p ∉ (s.port o).ide → exec (.ideKm o p) s = .next (s.setPort o { s.port o with ide := (s.port o).ide ++ [p] })))
    ∧ (let u := s.setPort o { s.port o with ide := (s.port o).ide.filter fun q => q != p }
       exec (.hostIdeFail o p) s = .next (if s.portOwns o p then u.sessionError p 0 0 else u))
    ∧ (s.gate (.host o) true ⟨.lhSealctl, 0, p⟩ = none → s.inSession p = true → v.rotating = false → s.trust.entropyOk = true →
        let d := s.trust.draws + 1
        let w := (s.setTrust { s.trust with draws := d }).setSession p
          (if v.epoch = 0 then { v with key1 := some d, epoch := 1, rotating := true } else { v with key0 := some d, epoch := 1 - v.epoch, rotating := true })
        exec (.sealRotate o p) s = .next (((w.setRf ⟨.lhSealstat, 0, p⟩ 23 0 (w.oldPages p v.epoch)).newGeneration).endRotation p))
    ∧ (∀ page k k',
        let base := s.reg ⟨.lhPtbase, 0, 3 * p + 1⟩
        let a := wfld base 51 12 * 4096 + 8 * page
        let e := leNat (s.bytes a 8)
        let phys := fld e 35 0 * 0x10000
        v.rotating = true → wbit base 0 = true → bitOf e 63 = true → bitOf e 59 = true → fld e 58 58 = 1 - v.epoch → s.pageInFlight p (1 - v.epoch) phys = false →
        s.sealKey p (1 - v.epoch) = some k → s.sealKey p v.epoch = some k' →
        let w := (s.setSeals (s.seals.map fun u => if State.inPage phys (256 * u.1) && u.2 == k then (u.1, k') else u)).setBytes a (leBytes 8 (putFld e 58 58 v.epoch))
        let w := w.retranslate p (1 - v.epoch) v.epoch phys
        exec (.pageResealed p page) s = .next ((w.setRf ⟨.lhSealstat, 0, p⟩ 23 0 (w.rf ⟨.lhSealstat, 0, p⟩ 23 0 - 1)).endRotation p))
    ∧ (v.scrub = true → ∃ u : State, exec (.scrubDone p []) s = .next u ∧ (u.session p).scrub = false ∧ (u.session p).units = [] ∧ (u.session p).stopping = false
        ∧ (u.session p).state = (if v.stopping then 0 else v.state)
        ∧ (∀ c ∈ u.mem, c ∈ s.mem ∧ ∀ r ∈ s.sessionRanges p, ¬ (r.1 ≤ c.1 ∧ c.1 < r.1 + r.2)))
    ∧ (s.pkg.powered = true → exec .entropyHealthFail s = .next ((s.setTrust { s.trust with entropyOk := false }).lhManage E.entropy))

/-- COMMIT_LH, COMMIT_HB, COMMIT_PIL, PLDM_COMMIT (R418), LOCKFUSE (R441), FULLRES (R442), PILOT_FW_LOAD (R443), PLDM_FIRMWARE_UPDATE (R411, R417). -/
def Obligations.FirmwareAndFusesComplete : Prop :=
  ∀ (s : State) (o : Port),
    let up (c v : Nat) : Nat := min 63 (max c v)
    let pilots := (List.range 8).foldl (fun a p => max a (s.session p).pilotSvn) 0
    let lh := s.setTrust { s.trust with svnLh := up s.trust.svnLh s.trust.lh.svn }
    let hb := s.setTrust { s.trust with svnHb := up s.trust.svnHb s.trust.hb.svn }
    let pil := s.setTrust { s.trust with svnPil := up s.trust.svnPil pilots }
    (s.gate (.host o) true ⟨.lhSecctl, 0, 0⟩ = none →
      exec (.commitLh o) s = .next lh ∧ exec (.commitHb o) s = .next hb ∧ exec (.commitPil o) s = .next pil
      ∧ exec (.lockfuse o) s = .next (s.setTrust { s.trust with lockBlown := true }))
    ∧ (s.serves .smbus = true → exec (.pldmCommit 1) s = .next lh ∧ exec (.pldmCommit 2) s = .next hb ∧ exec (.pldmCommit 3) s = .next pil)
    ∧ (∀ (a : Agent) (on : Bool), s.gate a false ⟨.lhSecctl, 0, 0⟩ = none →
      exec (.fullres a on) s = .next (if s.trust.lockClosed then (if on then s.logErr (lhNotice E.debugClosed) else s) else s.setRf ⟨.lhSecctl, 0, 0⟩ 63 63 (b2n on)))
    ∧ (∀ p base,
      let r : RegId := ⟨.lhPilotfw, 0, p⟩
      let n := fieldAt (s.bytes (base * 4096) 64) 8 4
      let u := s.setReg r (BitVec.ofNat 64 (base % 2 ^ 40 * 4096))
      s.gate (.host o) true r = none → s.strataState p = 2 → (s.session p).state = 0 → s.ownTower p (base * 4096) 64 = true → n ≤ 0x40000 →
      u.ownTower p (base * 4096) (64 + n + 7856) = true →
      exec (.pilotFwLoad o p base) s = .next (match u.fwFault 3 (u.imageAt (base * 4096)) with
        | some c => (u.setRf ⟨.lhPartsec, 0, p⟩ 47 32 c).lhManage c
        | none => (u.setSession p { u.session p with
            pilotDigest := (((u.imageAt (base * 4096)).header.drop 16).take 32), pilotSvn := fieldAt (u.imageAt (base * 4096)).header 5 1, pilotOk := true }).setRf
              ⟨.lhPartsec, 0, p⟩ 47 32 0))
    ∧ (∀ i : FwImage, s.pkg.powered = true → s.pkg.heldReset = false →
      exec (.pldmFirmwareUpdate i) s = .next (match s.fwFault (if fwKind i == 1 || fwKind i == 2 then fwKind i else 3) i with
        | some c => (s.lhManage c).emit (.pldm 1 [c])
        | none => (s.setTrust { s.trust with staged := (s.trust.staged.filter fun j => fwKind j != fwKind i) ++ [i] }).emit (.pldm 1 [0])))

/-- CERTIFICATE, CHALLENGE, KEY_EXCHANGE, SIGNATURE_READY (R420), MEASUREMENTS (R421), ENDPOINT_ID_ASSIGNMENT (R410), TEST_PORT_INSTRUCTION (R442). -/
def Obligations.AttestationCompletes : Prop :=
  ∀ (s : State) (m : Medium),
    let waits (s : State) (kind : Nat) (bs : List Byte) : State := (s.emit (.responseNotReady m)).setTrust { s.trust with signing := s.trust.signing ++ [(m, kind, bs, 0)] }
    (s.serves m = true →
      exec (.certificate m) s = .next (s.emit (.spdm m 4 Config.certChain))
      ∧ (∀ nonce, exec (.challenge m nonce) s = .next (waits s 1 (nonce ++ sha256 Config.certChain)))
      ∧ (∀ is, exec (.measurements m is) s = .next (waits s 2 ((is.map s.measurement).flatten)))
      ∧ (∀ key, exec (.keyExchange m key) s = .next (if s.trust.entropyOk then
          waits (s.setTrust { s.trust with draws := s.trust.draws + 1 }) 3 (Config.kemEncaps key (s.trust.draws + 1)) else s.emit (.spdm m 0 []))))
    ∧ (∀ kind bs n rest, s.trust.signing = (m, kind, bs, n) :: rest →
      let u := s.setTrust { s.trust with signing := rest }
      exec .signatureReady s = .next (if kind = 4 then u.linkSigned n (Config.slhSign aliasKey bs) else u.emit (.spdm m kind (bs ++ Config.slhSign aliasKey (sha256 bs)))))
    ∧ (∀ eid,
      let k : Nat := match m with
        | .smbus => 0
        | .pcie .w => 1
        | .pcie .e => 2
        | .doe .w => 3
        | .doe .e => 4
      exec (.endpointIdAssignment m eid) s = .next (s.setTrust { s.trust with eids := Tab.put id 0 s.trust.eids k eid }))
    ∧ (∀ code,
      let c := if s.trust.lockClosed = true ∧ code ≠ 0 ∧ code ≠ 1 then 0 else code
      exec (.testPortInstruction code) s = .next ((s.setPkg { s.pkg with testInstruction := c }).emit (.testPort c)))

/-- PLDM_POWER_CAP, PLDM_SENSOR_READ (R411), PLDM_QUOTA_WRITE (R470), PLDM_EVENT_RETRIEVAL (R488), PLDM_RESET (R477), PACKAGE_RESET (R480). -/
def Obligations.ManagementCompletes : Prop :=
  ∀ (s : State),
    (s.serves .smbus = true →
      (∀ w,
        let kept := if w = 0 then 0 else min 3300 (max 1500 w)
        let u := s.setRf State.lhPowercap 47 32 kept
        exec (.pldmPowerCap w) s = .next (if kept = w then u else u.logErr { lhNotice E.capRange with detail := w }))
      ∧ (∀ d, let w := s.readReg (!s.fullres) ⟨.lhTelem, 0, d⟩
          exec (.pldmSensorRead d) s = .next (s.emit (.pldm 2 [wfld w 63 40, wfld w 39 28, wfld w 27 16])))
      ∧ (∀ p k limit, exec (.pldmQuotaWrite p k limit) s = .next (s.setRf ⟨.lhQuota, 0, 4 * p + k⟩ 31 0 limit))
      ∧ (∀ n, s.pkg.alerts = n + 1 → exec .pldmEventRetrieval s = .next ((s.setPkg { s.pkg with alerts := n }).emit (.pldm 3 [n])))
      ∧ (∀ env, s.pkg.railsOff = false → exec (.pldmReset env) s = .next (s.packageReset env 2)))
    ∧ (∀ o key env, s.gate (.host o) true State.lhResetctl = none →
      exec (.packageReset o key env) s = .next (if s.pkg.split = false ∧ key = 0x5AFE then s.packageReset env 1 else s.logErr (lhNotice E.resetRefused)))

/-- POWER_ON (R473, R474), UNDERVOLTAGE_SHUTDOWN, OVERVOLTAGE_SHUTDOWN (R472), THERMAL_SHUTDOWN (R466), RESET_N, RESET_N_RELEASE (R477, R490). What
start-up does with the firmware images is the model's reading (log entry 32). -/
def Obligations.PowerCommandsComplete : Prop :=
  ∀ (s : State) (env : BootEnv),
    (∃ t : State, exec (.powerOn env) s = .next (t.startUp env 0 true) ∧ t.pkg.powered = true ∧ t.pkg.thermtrip = false ∧ t.pkg.pwrGood = false
      ∧ t.pkg.address = 0x4C + env.straps % 8 ∧ (t.port .w).perst = true ∧ (t.port .e).perst = true ∧ t.regs = [] ∧ t.tasks = []
      ∧ (∀ a, t.byteAt a = if State.inCxl a then s.byteAt a else 0) ∧ t.trust.lockClosed = s.trust.lockBlown ∧ t.trust.boots = s.trust.boots ∧ t.pending = s.pending)
    ∧ (∃ t : State, exec .undervoltageShutdown s = .next t ∧ t.pkg.powered = false ∧ t.pkg.pwrGood = false ∧ t.pkg.thermtrip = false ∧ t.regs = [] ∧ t.tasks = [])
    ∧ (∃ t : State, exec .overvoltageShutdown s = .next t ∧ t.pkg.powered = false ∧ t.pkg.pwrGood = false ∧ t.pkg.thermtrip = s.pkg.thermtrip ∧ t.regs = [] ∧ t.tasks = [])
    ∧ (s.pkg.powered = true → ∃ t : State, exec .thermalShutdown s = .next t ∧ t.pkg.railsOff = true ∧ t.pkg.thermtrip = true ∧ t.pkg.pwrGood = false
        ∧ t.regs = s.regs.filter (fun e => e.1.name.info.block == .lighthouse) ∧ t.lh.west = s.lh.west ∧ t.lh.east = s.lh.east ∧ t.tasks = [] ∧ t.frames = [])
    ∧ (s.pkg.powered = false → exec .thermalShutdown s = .next s)
    ∧ (∀ us, (us < 1000 ∨ s.pkg.thermtrip = true) → exec (.resetN us) s = .next s)
    ∧ (∀ us, 1000 ≤ us → s.pkg.powered = true → s.pkg.thermtrip = false → s.pkg.railsOff = false →
        ∃ t : State, exec (.resetN us) s = .next t ∧ t.pkg.heldReset = true ∧ t.regs = [] ∧ t.tasks = [] ∧ t.pkg.powered = true ∧ (t.port .w).linkUp = false ∧ (t.port .e).linkUp = false)
    ∧ (s.pkg.heldReset = true → exec (.resetNRelease env) s = .next ((s.setPkg { s.pkg with heldReset := false }).startUp env 3 false))

/-- R472, R477. That a memory without power reads zero afterwards is the model's choice (log entry 37). -/
def Obligations.ResetsClearAndKeep : Prop :=
  ∀ (s t : State) (c : Instr),
    (c = .undervoltageShutdown ∨ c = .overvoltageShutdown
      ∨ (∃ us, c = .resetN us ∧ 1000 ≤ us ∧ s.pkg.powered = true ∧ s.pkg.thermtrip = false ∧ s.pkg.railsOff = false)) →
    exec c s = .next t →
      (∀ r, t.reg r = r.resetWord) ∧ t.tasks = [] ∧ (∀ x, t.eng x = EngCtx.idle) ∧ (∀ g n, t.ring g n = Ring.empty) ∧ (∀ g n, t.chan g n = Chan.empty)
      ∧ (∀ g a, t.array g a = ArraySt.idle) ∧ (∀ p i, t.pool p i = Pool.zero) ∧ t.frames = [] ∧ (∀ d, t.disp d = Disp.idle) ∧ (∀ p, t.session p = Session.none)
      ∧ (∀ p, t.phase p = Phase.none) ∧ (∀ n, (t.link n).sendKeys = (none, none) ∧ (t.link n).recvKeys = (none, none))
      ∧ t.log 0 = ErrLog.empty ∧ t.log 1 = ErrLog.empty
      ∧ (∀ a, t.byteAt a = if State.inCxl a then s.byteAt a else 0)
      ∧ t.trust.svnLh = s.trust.svnLh ∧ t.trust.svnHb = s.trust.svnHb ∧ t.trust.svnPil = s.trust.svnPil ∧ t.trust.revoked = s.trust.revoked
      ∧ t.trust.lockBlown = s.trust.lockBlown ∧ t.trust.lockClosed = s.trust.lockBlown ∧ t.trust.staged = s.trust.staged
      ∧ t.lh.repairMap = s.lh.repairMap ∧ t.lh.retired = s.lh.retired

/-- R313: the abort (R178) with its code, and the object's value. -/
def Obligations.OverflowAborts : Prop :=
  ∀ (s : State) (core slot n k g e : Nat) (sem : Bool) (t : Task),
    let r := if sem then semReg core slot n else tmReg core slot n
    let hi := if sem then 15 else 31
    let code := if sem then 0x0543 else 0x0542
    n < (if sem then 16 else 64) → 2 ^ (hi + 1) ≤ s.rf r hi 0 + k → s.taskAt core slot = some t → s.taskId t.id = some t →
      let u := s.incr core slot sem n k g e
      u = s.failTask t g e { code := code, detail := n }
      ∧ u.reg r = s.reg r
      ∧ ∃ v, u.taskId t.id = some v
          ∧ (t.state = 1 → v.state = 5) ∧ (t.state ≠ 1 → v.state = 3 ∧ v.aborting = true) ∧ v.error = (if t.error = 0 then code else t.error) ∧ v.logged = true

/-- RING_ENABLE (R131). Sizes are in units of 64 bytes, as base and slotsize are; two rings overlap when each begins before the other ends. -/
def Obligations.RingsEnable : Prop :=
  ∀ (s : State) (a : Agent) (core n value : Nat), n < 72 → value < 2 ^ 64 →
    let r : RegId := ⟨.rpCfg, core, n⟩
    let base := fld value 9 0
    let slots := fld value 47 44
    let size := fld value 26 16
    let other (m : Nat) : RegId := ⟨.rpCfg, core, m⟩
    let overlap := ∃ m, m / 8 = n / 8 ∧ m ≠ n ∧ s.rb (other m) 63 = true
      ∧ base < s.rf (other m) 9 0 + (s.rf (other m) 47 44 + 1) * s.rf (other m) 26 16 ∧ s.rf (other m) 9 0 < base + (slots + 1) * size
    let fails := slots < 2 ∨ 1024 < base + (slots + 1) * size ∨ overlap
    s.gate a false r = none → s.coreBusy core = false → bitOf value 63 = true →
      (fails → ∃ u : State, exec (.ringEnable a core n value) s = .next (u.logErr { code := 0x0104, severity := 0, kind := 1, unit := core })
          ∧ (u.logErr { code := 0x0104, severity := 0, kind := 1, unit := core }).rb r 63 = false ∧ u.lh = s.lh ∧ u.rings = s.rings)
      ∧ (¬ fails → ∃ u : State, exec (.ringEnable a core n value) s = .next u ∧ u.rb r 63 = true
          ∧ u.rf r 9 0 = base ∧ u.rf r 47 44 = slots ∧ u.rf r 26 16 = size ∧ u.rf r 55 52 = fld value 55 52
          ∧ u.ring core n = Ring.empty ∧ u.lh = s.lh)

/-- WINDOW_VALID and a write of CV_BASEn (R143). -/
def Obligations.WindowsValid : Prop :=
  ∀ (s : State) (a : Agent) (core n value : Nat), n < 4 → value < 2 ^ 64 →
    let rb : RegId := ⟨.cvBase, core, n⟩
    let r : RegId := ⟨.cvBound, core, n⟩
    let base := s.rf rb 9 0
    let limit := fld value 9 0
    let notice : ErrInfo := { code := 0x0103, severity := 0, kind := 1, unit := core }
    let overlap := ∃ m, m < 4 ∧ m ≠ n ∧ s.rb ⟨.cvBound, core, m⟩ 63 = true ∧ s.rf ⟨.cvBase, core, m⟩ 9 0 < limit ∧ base < s.rf ⟨.cvBound, core, m⟩ 9 0
    let fails := ¬ base < limit ∨ s.rf ⟨.cvSize, core, 0⟩ 9 0 < limit ∨ overlap
    s.gate a false r = none → s.busy a r (BitVec.ofNat 64 value) = false →
      (a = .pilot → bitOf value 63 = true → s.ownerOf (coveBase core) ≠ s.dieOwner (core / 32) → exec (.windowValid a core n value) s = .next s)
      ∧ ((a = .pilot → s.ownerOf (coveBase core) = s.dieOwner (core / 32)) →
      (s.rb r 63 = true → limit ≠ s.rf r 9 0 → exec (.windowValid a core n value) s = .next (s.logErr notice))
      ∧ (s.rb r 63 = true → base ≠ limit → s.writeReg a rb (BitVec.ofNat 64 value) = s.logErr notice)
      ∧ ((s.rb r 63 = true → limit = s.rf r 9 0) → bitOf value 63 = true →
          (fails → ∃ u : State, exec (.windowValid a core n value) s = .next (u.logErr notice) ∧ (u.logErr notice).rb r 63 = false ∧ u.lh = s.lh)
          ∧ (¬ fails → ∃ u : State, exec (.windowValid a core n value) s = .next u ∧ u.rb r 63 = true ∧ u.rf r 9 0 = limit
              ∧ u.rf r 62 62 = fld value 62 62 ∧ u.lh = s.lh ∧ u.reg rb = s.reg rb)))

/-- CHANNEL_FLUSH (R279), CHANNEL_MODE_CHANGE (R281), HOST_CHANNEL_READ, HOST_CHANNEL_PUSH, HOST_CHANNEL_PUSH_END (R278). -/
def Obligations.ChannelsComplete : Prop :=
  ∀ (s : State) (a : Agent) (p : Port) (core n : Nat), (s.disp (core / 32)).running = false → (∀ slot, slot < 4 → (s.eng ⟨core, slot, 7⟩).zeros = 0) →
    let r : RegId := ⟨.chCfg, core, n⟩
    let q := s.chan core n
    let still := ∀ slot e ch lc tagen tlc, (s.eng ⟨core, slot, e⟩).blocked ≠ some (.chrecv ch lc tagen tlc)
    (s.gate a false r = none →
      (still ∨ s.rf r 0 0 = 0 → ∃ u : State, exec (.channelFlush a core n) s = .next u ∧ u.chan core n = { q with words := [] } ∧ u.rf r 0 0 = s.rf r 0 0
          ∧ (∀ m, m ≠ n → u.chan core m = s.chan core m) ∧ u.mem = s.mem ∧ u.tasks = s.tasks ∧ u.engs = s.engs)
      ∧ exec (.channelModeChange a core n false) s = .next (s.store a r 0)
      ∧ exec (.channelModeChange a core n true) s = .next ((s.store a r 1).tagStalled core n)
      ∧ (still → (s.store a r 1).tagStalled core n = s.store a r 1))
    ∧ ((s.port p).linkUp = true → s.pkg.split = false → s.enabled core = true →
        ∀ off size,
        (∀ w b rest, q.words = (w, b) :: rest →
          exec (.hostChannelRead p core ⟨n, off, size⟩) s
            = .next ((s.setChan core n { q with words := rest, lvalid := true, lend := b }).emit (.readData p (((leBytes 8 w).drop off).take size))))
        ∧ (q.words = [] → exec (.hostChannelRead p core ⟨n, off, size⟩) s = .next ((s.setChan core n { q with lvalid := false, lend := false }).emit (.readData p (zeros size)))))
    ∧ (∀ d, still → q.words.length < 64 →
        (s.gate (.host p) true ⟨.chData, core, n⟩ = none →
          exec (.hostChannelPush p core n d) s = .next (s.setChan core n { q with words := q.words ++ [(d % 2 ^ 64, false)] }))
        ∧ (s.gate (.host p) true ⟨.chPushend, core, n⟩ = none →
          exec (.hostChannelPushEnd p core n d) s = .next (s.setChan core n { q with words := q.words ++ [(d % 2 ^ 64, true)] })))
    ∧ (∀ d, q.words.length = 64 → q.overrun = false → s.gate (.host p) true ⟨.chData, core, n⟩ = none →
        exec (.hostChannelPush p core n d) s
          = .next ((s.setChan core n { q with overrun := true }).logErr { code := 0x0532, severity := 0, kind := 1, unit := core, detail := n }))

/-- R340: the polynomial as it is written, input bits from the least significant (reflected input), the result reflected and inverted. -/
def Obligations.ChecksumsAreCrc32c : Prop :=
  let bits (b : Byte) : List Bool := (List.range 8).map b.toNat.testBit
  let shift (c : Nat) (b : Bool) : Nat := if c.testBit 31 != b then c * 2 % 2 ^ 32 ^^^ 0x1EDC6F41 else c * 2 % 2 ^ 32
  let reflect (c : Nat) : Nat := (List.range 32).foldl (fun v i => 2 * v + (c.testBit i).toNat) 0
  (∀ bs : List Byte, crc32c bs = reflect ((bs.flatMap bits).foldl shift 0xFFFFFFFF) ^^^ 0xFFFFFFFF)
  ∧ crc32c [0x31, 0x32, 0x33, 0x34, 0x35, 0x36, 0x37, 0x38, 0x39] = 0xE3069283

/-- R445, R446, R450: one entry of an error in the log of a shore h, with where the error goes. That the lost count stays at its largest value follows its
field (R451). -/
def Obligations.ErrorLogsKeepWhatIsUnread : Prop :=
  ∀ (s : State) (e : ErrInfo) (h : Nat), h < 2 →
    let l := s.log h
    let t := s.logErr e
    let l' := t.log h
    let both := decide (e.where' = 2)
    let sum : RegId := ⟨.hbErrsum, 2 * h, 0⟩
    (e.where' = 1 - h → l' = l ∧ t.reg sum = s.reg sum)
    ∧ (e.where' = h ∨ e.where' = 2 →
        l'.seq = l.seq + 1 ∧ l'.head = l.head
        ∧ (l.unread = 256 → l'.entries = l.entries ∧ l'.tail = l.tail ∧ l'.unread = 256 ∧ l'.lost = min (l.lost + 1) 65535 ∧ t.rb sum 60 = true)
        ∧ (l.unread < 256 → Tab.get [] l'.entries l.tail = e.bytes (h * 2 ^ 63 + l.seq) both ∧ (∀ k, k ≠ l.tail → Tab.get [] l'.entries k = Tab.get [] l.entries k)
            ∧ l'.tail = (l.tail + 1) % 256 ∧ l'.unread = l.unread + 1 ∧ l'.lost = l.lost ∧ t.rb sum 60 = s.rb sum 60)
        ∧ (e.severity < 3 → t.rb sum (61 + e.severity) = true) ∧ (∀ k, 1 ≤ k → k ≤ 8 → e.code / 256 = k → t.rb sum k = true)
        ∧ (∀ i, s.rb sum i = true → t.rb sum i = true))
    ∧ t.mem = s.mem ∧ t.tasks = s.tasks

/-- R12, R13, R495: the value a register holds after a write, and the notice. -/
def Obligations.FieldsFollowTheirClass : Prop :=
  (∀ (n : RegName) (b : Bool) (old new : Nat), old < 2 ^ 64 → new < 2 ^ 64 →
    let w := n.info.after b old new
    w < 2 ^ 64
    ∧ (∀ f ∈ n.info.fields,
        ((f.cls = .live ∨ f.cls = .task) → fld w f.hi f.lo = fld new f.hi f.lo)
        ∧ (f.cls = .quiet → fld w f.hi f.lo = fld (if b then old else new) f.hi f.lo)
        ∧ (f.cls = .sticky → ∀ i, (fld w f.hi f.lo).testBit i = ((fld old f.hi f.lo).testBit i && !(fld new f.hi f.lo).testBit i))
        ∧ (f.cls = .ro → fld w f.hi f.lo = fld old f.hi f.lo))
    ∧ (∀ i, (∀ f ∈ n.info.fields, ¬ (f.lo ≤ i ∧ i ≤ f.hi)) → w.testBit i = old.testBit i))
  ∧ (∀ (s : State) (a : Agent) (r : RegId) (v : Word),
    (s.store a r v).reg r = BitVec.ofNat 64 (r.name.info.after (s.busy a r v) (s.reg r).toNat v.toNat)
    ∧ (s.store a r v).lh
        = (if s.busy a r v = true ∧ ((∃ f ∈ r.name.info.fields, f.cls = .quiet ∧ wfld (s.reg r) f.hi f.lo ≠ wfld v f.hi f.lo) ∨ (∃ i ∈ r.name.actionBits, wbit v i = true))
           then (s.logErr (r.notice 0x0508)).lh else s.lh))

/-- REGISTER_WRITE (R11, R13, R159), ACC_DATA_READ (R209, R210), ERRLOG_HEAD_WRITE (R451). When debug mode ends is the model's reading (log entry 35); a head
written again on a full log is left to log entry 38. -/
def Obligations.RegisterCommandsComplete : Prop :=
  ∀ (s : State) (a : Agent) (p : Port),
    (∀ tbit offset width value,
      let c : Instr := .registerWrite a tbit offset width value
      ((width ≠ 8 ∨ offset % 8 ≠ 0) → exec c s = .next s)
      ∧ (width = 8 → offset % 8 = 0 →
          (∀ r, regAt offset = some r →
            (s.gate a tbit r = none → exec c s = .next (s.writeReg a r (BitVec.ofNat 64 value)))
            ∧ (∀ e, s.gate a tbit r = some e → exec c s = .next (s.refuse e)))
          ∧ (∀ o, a = .host o → (s.port o).linkUp = true → s.standby o = false → regAt offset = none →
              exec c s = .next (s.logErr { code := 0x0506, severity := 0, kind := 4, unit := o.harbour }))))
    ∧ (∀ (r : RegId) v, r.name ∈ [.slCfg, .esCfg, .esOut, .ebCfg, .ebOp, .ebImm, .maCfg, .maAccaddr, .seGroyne, .dspCfg, .dspTailNnz, .dspListbase, .hbTqbase, .hbTqcfg, .hbCqbase,
          .hbPortcfg, .lhRoute, .lhPtbase, .lhSharebase, .lhSharelim, .lhQuota, .lhSoundaddr] →
        s.writeReg a r v = s.store a r v)
    ∧ (∀ core k, (s.port p).linkUp = true → s.pkg.split = false → s.enabled core = true →
        let r : RegId := ⟨.maAccaddr, core, k⟩
        let w := s.rf r 18 3
        let u := s.setRf r 18 3 (if 0x8800 ≤ w + 1 then 0 else w + 1)
        (∀ off size, s.debugReads core = false → exec (.accDataRead p core ⟨k, off, size⟩) s = .next (u.emit (.readData p (zeros size))))
        ∧ (∀ off size, s.debugReads core = true → exec (.accDataRead p core ⟨k, off, size⟩) s
            = .next ((u.imageBytes (u.array core k) w 1).2.emit (.readData p (((u.imageBytes (u.array core k) w 1).1.drop off).take size))))
        ∧ (s.trust.lockClosed = true → s.debugReads core = false))
    ∧ (∀ shore head, shore < 2 → head < 256 → s.gate (.host p) true ⟨.hbErrhead, 2 * shore, 0⟩ = none →
        let l := s.log shore
        let d := (head + 256 - l.head) % 256
        (d ≠ 0 ∨ l.unread < 256) →
          (d ≤ l.unread → exec (.errlogHeadWrite p shore head) s = .next (s.setLog shore { l with head := head, unread := l.unread - d }))
          ∧ (l.unread < d → exec (.errlogHeadWrite p shore head) s = .next (s.logErr { code := 0x0507, severity := 0, kind := 4, unit := 2 * shore })))

end
end

