-- ==== Sys2Proof/Laws/Tab.lean ====
section
/-! SUPPORT. The laws of sparse tables: a read after a write, and the canonical form, which every operation keeps. -/

namespace Sys2Proof.Machine.Tab

set_option Elab.async false
set_option linter.unusedTactic false
set_option linter.unreachableTactic false

variable {K V : Type} [DecidableEq K] [DecidableEq V]

set_option linter.unusedSectionVars false

@[simp] theorem get_nil (d : V) (k : K) : get d ([] : List (K × V)) k = d := rfl

theorem get_erase_self (d : V) (t : List (K × V)) (k : K) : get d (erase t k) k = d := by
  induction t with
  | nil => rfl
  | cons e t ih =>
    obtain ⟨k', v⟩ := e
    by_cases h : k' = k <;> simp [erase, get, h, ih]

theorem get_erase_other (d : V) (t : List (K × V)) {k k' : K} (h : k' ≠ k) : get d (erase t k) k' = get d t k' := by
  induction t with
  | nil => rfl
  | cons e t ih =>
    obtain ⟨j, v⟩ := e
    by_cases hj : j = k
    · subst hj; simp [erase, get, ih, Ne.symm h]
    · by_cases hk : j = k' <;> simp [erase, get, hj, hk, ih, h]

theorem get_insert_self (num : K → Nat) (d : V) (t : List (K × V)) (k : K) (v : V) (h : ∀ e ∈ t, e.1 ≠ k) : get d (insert num t k v) k = v := by
  induction t with
  | nil => simp [insert, get]
  | cons e t ih =>
    obtain ⟨j, w⟩ := e
    have hj : j ≠ k := h (j, w) (by simp)
    have ht : ∀ e ∈ t, e.1 ≠ k := fun e he => h e (by simp [he])
    by_cases hn : num k < num j <;> simp [insert, get, hn, hj, ih ht]

theorem get_insert_other (num : K → Nat) (d : V) (t : List (K × V)) {k k' : K} (v : V) (h : k' ≠ k) : get d (insert num t k v) k' = get d t k' := by
  induction t with
  | nil => simp [insert, get, Ne.symm h]
  | cons e t ih =>
    obtain ⟨j, w⟩ := e
    by_cases hn : num k < num j
    · simp [insert, get, hn, Ne.symm h]
    · rw [insert, if_neg hn]
      by_cases hk : j = k' <;> simp [get, hk, ih]

theorem ne_of_mem_erase {t : List (K × V)} {k : K} : ∀ e ∈ erase t k, e.1 ≠ k := by
  induction t with
  | nil => simp [erase]
  | cons e t ih =>
    obtain ⟨j, w⟩ := e
    by_cases hj : j = k
    · simpa [erase, hj] using ih
    · intro e he
      simp only [erase, hj, if_false, List.mem_cons] at he
      rcases he with rfl | he
      · exact hj
      · exact ih e he

/-- A read after a write of the same key. -/
@[simp] theorem get_put_self (num : K → Nat) (d : V) (t : List (K × V)) (k : K) (v : V) : get d (put num d t k v) k = v := by
  by_cases h : v = d
  · simp [put, h, get_erase_self]
  · simp [put, h, get_insert_self num d _ k v ne_of_mem_erase]

/-- A read after a write of another key. -/
theorem get_put_other (num : K → Nat) (d d' : V) (t : List (K × V)) {k k' : K} (v : V) (h : k' ≠ k) : get d' (put num d t k v) k' = get d' t k' := by
  by_cases hv : v = d
  · simp [put, hv, get_erase_other d' t h]
  · simp [put, hv, get_insert_other num d' _ v h, get_erase_other d' t h]

/-! ## The canonical form -/

/-- The canonical form as two facts about the entries. -/
theorem wf_iff (num : K → Nat) (d : K → V) (t : List (K × V)) :
    wf num d t = true ↔ t.Pairwise (fun a b => num a.1 < num b.1) ∧ ∀ e ∈ t, e.2 ≠ d e.1 := by
  induction t with
  | nil => simp [wf]
  | cons e t ih =>
    obtain ⟨k, v⟩ := e
    cases t with
    | nil => simp [wf]
    | cons e' t =>
      obtain ⟨k', v'⟩ := e'
      simp only [wf, Bool.and_eq_true, ih, Bool.not_eq_true', decide_eq_false_iff_not, decide_eq_true_eq]
      constructor
      · rintro ⟨⟨hv, hk⟩, hp, hd⟩
        refine ⟨List.pairwise_cons.2 ⟨?_, hp⟩, ?_⟩
        · intro b hb
          rcases List.mem_cons.1 hb with rfl | hb
          · exact hk
          · exact Nat.lt_trans hk ((List.pairwise_cons.1 hp).1 b hb)
        · intro e he
          rcases List.mem_cons.1 he with rfl | he
          · exact hv
          · exact hd e he
      · rintro ⟨hp, hd⟩
        have h := List.pairwise_cons.1 hp
        exact ⟨⟨hd (k, v) (by simp), h.1 (k', v') (by simp)⟩, h.2, fun e he => hd e (List.mem_cons_of_mem _ he)⟩

theorem erase_sublist (t : List (K × V)) (k : K) : (erase t k).Sublist t := by
  induction t with
  | nil => simp [erase]
  | cons e t ih =>
    obtain ⟨j, w⟩ := e
    by_cases hj : j = k
    · simpa [erase, hj] using ih.cons (j, w)
    · simpa [erase, hj] using ih.cons_cons (j, w)

/-- A part of a canonical table is canonical. -/
theorem wf_sublist (num : K → Nat) (d : K → V) {t u : List (K × V)} (h : u.Sublist t) (ht : wf num d t = true) : wf num d u = true := by
  rw [wf_iff] at ht ⊢
  exact ⟨ht.1.sublist h, fun e he => ht.2 e (h.subset he)⟩

theorem mem_insert {num : K → Nat} {t : List (K × V)} {k : K} {v : V} {e : K × V} : e ∈ insert num t k v ↔ e = (k, v) ∨ e ∈ t := by
  induction t with
  | nil => simp [insert]
  | cons a t ih =>
    obtain ⟨j, w⟩ := a
    by_cases hn : num k < num j
    · simp [insert, hn]
    · simp only [insert, hn, if_false, List.mem_cons, ih]
      exact or_left_comm

theorem wf_insert (num : K → Nat) (hnum : ∀ a b, num a = num b → a = b) (d : K → V) {t : List (K × V)} (k : K) (v : V) (hv : v ≠ d k)
    (hk : ∀ e ∈ t, e.1 ≠ k) (ht : wf num d t = true) : wf num d (insert num t k v) = true := by
  rw [wf_iff] at ht ⊢
  obtain ⟨hp, hd⟩ := ht
  refine ⟨?_, ?_⟩
  · induction t with
    | nil => simp [insert]
    | cons a t ih =>
      obtain ⟨j, w⟩ := a
      have h := List.pairwise_cons.1 hp
      have hj : num j ≠ num k := fun e => hk (j, w) (by simp) (hnum _ _ e)
      by_cases hn : num k < num j
      · simp only [insert, hn, if_true]
        refine List.pairwise_cons.2 ⟨?_, hp⟩
        intro b hb
        rcases List.mem_cons.1 hb with rfl | hb
        · exact hn
        · exact Nat.lt_trans hn (h.1 b hb)
      · simp only [insert, hn, if_false]
        refine List.pairwise_cons.2 ⟨?_, ih (fun e he => hk e (by simp [he])) h.2 (fun e he => hd e (by simp [he]))⟩
        intro b hb
        rcases mem_insert.1 hb with rfl | hb
        · exact Nat.lt_of_le_of_ne (Nat.le_of_not_lt hn) hj
        · exact h.1 b hb
  · intro e he
    rcases mem_insert.1 he with rfl | he
    · exact hv
    · exact hd e he

/-- A write keeps the canonical form. -/
theorem wf_put (num : K → Nat) (hnum : ∀ a b, num a = num b → a = b) (d : K → V) (t : List (K × V)) (k : K) (v : V) (ht : wf num d t = true) :
    wf num d (put num (d k) t k v) = true := by
  have he := wf_sublist num d (erase_sublist t k) ht
  by_cases h : v = d k
  · simp [put, h, he]
  · simpa [put, h] using wf_insert num hnum d k v h ne_of_mem_erase he

end Sys2Proof.Machine.Tab
end

