-- ==== Sys2Proof/Laws/State.lean ====
section
/-! SUPPORT. What each named setter of State leaves alone, field by field, and what a read gives after a write. -/

namespace Sys2Proof.Machine.State

/-! ## Reads after writes -/

@[simp] theorem reg_setReg_self (s : State) (r : RegId) (w : Word) : (s.setReg r w).reg r = w := by simp [reg, setReg]
theorem reg_setReg_other (s : State) {r r' : RegId} (w : Word) (h : r' ≠ r) : (s.setReg r w).reg r' = s.reg r' :=
  Tab.get_put_other _ _ _ _ _ h
@[simp] theorem byteAt_setByte_self (s : State) (a : Nat) (b : Byte) : (s.setByte a b).byteAt a = b := by simp [byteAt, setByte, setMem]
theorem byteAt_setByte_other (s : State) {a a' : Nat} (b : Byte) (h : a' ≠ a) : (s.setByte a b).byteAt a' = s.byteAt a' :=
  Tab.get_put_other _ _ _ _ _ h

@[simp] theorem eng_setEng_self (s : State) (x : EngRef) (c : EngCtx) : (s.setEng x c).eng x = c := by simp [eng, setEng]
theorem eng_setEng_other (s : State) (x : EngRef) (c : EngCtx) (x' : EngRef) (ne : x' ≠ x) : (s.setEng x c).eng x' = s.eng x' :=
  Tab.get_put_other _ _ _ _ _ ne
@[simp] theorem ring_setRing_self (s : State) (g n : Nat) (v : Ring) : (s.setRing g n v).ring g n = v := by simp [ring, setRing]
theorem ring_setRing_other (s : State) (g n : Nat) (v : Ring) (g' n' : Nat) (ne : (g', n') ≠ (g, n)) : (s.setRing g n v).ring g' n' = s.ring g' n' :=
  Tab.get_put_other _ _ _ _ _ ne
@[simp] theorem chan_setChan_self (s : State) (g n : Nat) (v : Chan) : (s.setChan g n v).chan g n = v := by simp [chan, setChan]
theorem chan_setChan_other (s : State) (g n : Nat) (v : Chan) (g' n' : Nat) (ne : (g', n') ≠ (g, n)) : (s.setChan g n v).chan g' n' = s.chan g' n' :=
  Tab.get_put_other _ _ _ _ _ ne
@[simp] theorem array_setArray_self (s : State) (g a : Nat) (v : ArraySt) : (s.setArray g a v).array g a = v := by simp [array, setArray]
theorem array_setArray_other (s : State) (g a : Nat) (v : ArraySt) (g' a' : Nat) (ne : (g', a') ≠ (g, a)) : (s.setArray g a v).array g' a' = s.array g' a' :=
  Tab.get_put_other _ _ _ _ _ ne
@[simp] theorem pool_setPool_self (s : State) (p t : Nat) (v : Pool) : (s.setPool p t v).pool p t = v := by simp [pool, setPool]
theorem pool_setPool_other (s : State) (p t : Nat) (v : Pool) (p' t' : Nat) (ne : (p', t') ≠ (p, t)) : (s.setPool p t v).pool p' t' = s.pool p' t' :=
  Tab.get_put_other _ _ _ _ _ ne
@[simp] theorem hop_setHop_self (s : State) (h d : Nat) (v : Hop) : (s.setHop h d v).hop h d = v := by simp [hop, setHop]
theorem hop_setHop_other (s : State) (h d : Nat) (v : Hop) (h' d' : Nat) (ne : (h', d') ≠ (h, d)) : (s.setHop h d v).hop h' d' = s.hop h' d' :=
  Tab.get_put_other _ _ _ _ _ ne
@[simp] theorem disp_setDisp_self (s : State) (d : Nat) (v : Disp) : (s.setDisp d v).disp d = v := by simp [disp, setDisp]
theorem disp_setDisp_other (s : State) (d : Nat) (v : Disp) (d' : Nat) (ne : d' ≠ d) : (s.setDisp d v).disp d' = s.disp d' :=
  Tab.get_put_other _ _ _ _ _ ne
@[simp] theorem link_setLink_self (s : State) (n : Nat) (v : Link) : (s.setLink n v).link n = v := by simp [link, setLink]
theorem link_setLink_other (s : State) (n : Nat) (v : Link) (n' : Nat) (ne : n' ≠ n) : (s.setLink n v).link n' = s.link n' :=
  Tab.get_put_other _ _ _ _ _ ne
@[simp] theorem cxl_setCxl_self (s : State) (p : Nat) (v : CxlPort) : (s.setCxl p v).cxl p = v := by simp [cxl, setCxl]
theorem cxl_setCxl_other (s : State) (p : Nat) (v : CxlPort) (p' : Nat) (ne : p' ≠ p) : (s.setCxl p v).cxl p' = s.cxl p' :=
  Tab.get_put_other _ _ _ _ _ ne
@[simp] theorem session_setSession_self (s : State) (p : Nat) (v : Session) : (s.setSession p v).session p = v := by simp [session, setSession]
theorem session_setSession_other (s : State) (p : Nat) (v : Session) (p' : Nat) (ne : p' ≠ p) : (s.setSession p v).session p' = s.session p' :=
  Tab.get_put_other _ _ _ _ _ ne
@[simp] theorem phase_setPhase_self (s : State) (p : Nat) (v : Phase) : (s.setPhase p v).phase p = v := by simp [phase, setPhase]
theorem phase_setPhase_other (s : State) (p : Nat) (v : Phase) (p' : Nat) (ne : p' ≠ p) : (s.setPhase p v).phase p' = s.phase p' :=
  Tab.get_put_other _ _ _ _ _ ne
@[simp] theorem rotationAt_setRotation_self (s : State) (g v : Nat) : (s.setRotation g v).rotationAt g = v := by simp [rotationAt, setRotation]
theorem rotationAt_setRotation_other (s : State) (g v : Nat) (g' : Nat) (ne : g' ≠ g) : (s.setRotation g v).rotationAt g' = s.rotationAt g' :=
  Tab.get_put_other _ _ _ _ _ ne
@[simp] theorem turnAt_setTurn_self (s : State) (x : EngRef) (v : Nat) : (s.setTurn x v).turnAt x = v := by simp [turnAt, setTurn]
@[simp] theorem port_setPort_self (s : State) (p : Port) (v : HostPort) : (s.setPort p v).port p = v := by cases p <;> rfl
theorem port_setPort_other (s : State) (p p' : Port) (v : HostPort) (h : p' ≠ p) : (s.setPort p v).port p' = s.port p' := by
  cases p <;> cases p' <;> first | rfl | exact absurd rfl h

/-! ## setReg -/

@[simp] theorem setReg_mem (s : State) (r : RegId) (w : Word) : (s.setReg r w).mem = s.mem := (rfl)
@[simp] theorem setReg_poison (s : State) (r : RegId) (w : Word) : (s.setReg r w).poison = s.poison := (rfl)
@[simp] theorem setReg_struck (s : State) (r : RegId) (w : Word) : (s.setReg r w).struck = s.struck := (rfl)
@[simp] theorem setReg_seals (s : State) (r : RegId) (w : Word) : (s.setReg r w).seals = s.seals := (rfl)
@[simp] theorem setReg_tasks (s : State) (r : RegId) (w : Word) : (s.setReg r w).tasks = s.tasks := (rfl)
@[simp] theorem setReg_engs (s : State) (r : RegId) (w : Word) : (s.setReg r w).engs = s.engs := (rfl)
@[simp] theorem setReg_rings (s : State) (r : RegId) (w : Word) : (s.setReg r w).rings = s.rings := (rfl)
@[simp] theorem setReg_chans (s : State) (r : RegId) (w : Word) : (s.setReg r w).chans = s.chans := (rfl)
@[simp] theorem setReg_arrays (s : State) (r : RegId) (w : Word) : (s.setReg r w).arrays = s.arrays := (rfl)
@[simp] theorem setReg_landed (s : State) (r : RegId) (w : Word) : (s.setReg r w).landed = s.landed := (rfl)
@[simp] theorem setReg_rotation (s : State) (r : RegId) (w : Word) : (s.setReg r w).rotation = s.rotation := (rfl)
@[simp] theorem setReg_turns (s : State) (r : RegId) (w : Word) : (s.setReg r w).turns = s.turns := (rfl)
@[simp] theorem setReg_pools (s : State) (r : RegId) (w : Word) : (s.setReg r w).pools = s.pools := (rfl)
@[simp] theorem setReg_frames (s : State) (r : RegId) (w : Word) : (s.setReg r w).frames = s.frames := (rfl)
@[simp] theorem setReg_backlog (s : State) (r : RegId) (w : Word) : (s.setReg r w).backlog = s.backlog := (rfl)
@[simp] theorem setReg_hops (s : State) (r : RegId) (w : Word) : (s.setReg r w).hops = s.hops := (rfl)
@[simp] theorem setReg_disps (s : State) (r : RegId) (w : Word) : (s.setReg r w).disps = s.disps := (rfl)
@[simp] theorem setReg_links (s : State) (r : RegId) (w : Word) : (s.setReg r w).links = s.links := (rfl)
@[simp] theorem setReg_cxls (s : State) (r : RegId) (w : Word) : (s.setReg r w).cxls = s.cxls := (rfl)
@[simp] theorem setReg_ports (s : State) (r : RegId) (w : Word) : (s.setReg r w).ports = s.ports := (rfl)
@[simp] theorem setReg_pkg (s : State) (r : RegId) (w : Word) : (s.setReg r w).pkg = s.pkg := (rfl)
@[simp] theorem setReg_lh (s : State) (r : RegId) (w : Word) : (s.setReg r w).lh = s.lh := (rfl)
@[simp] theorem setReg_sessions (s : State) (r : RegId) (w : Word) : (s.setReg r w).sessions = s.sessions := (rfl)
@[simp] theorem setReg_phases (s : State) (r : RegId) (w : Word) : (s.setReg r w).phases = s.phases := (rfl)
@[simp] theorem setReg_trust (s : State) (r : RegId) (w : Word) : (s.setReg r w).trust = s.trust := (rfl)
@[simp] theorem setReg_nextTask (s : State) (r : RegId) (w : Word) : (s.setReg r w).nextTask = s.nextTask := (rfl)
@[simp] theorem setReg_free (s : State) (r : RegId) (w : Word) : (s.setReg r w).free = s.free := (rfl)
@[simp] theorem setReg_out (s : State) (r : RegId) (w : Word) : (s.setReg r w).out = s.out := (rfl)
@[simp] theorem setReg_pending (s : State) (r : RegId) (w : Word) : (s.setReg r w).pending = s.pending := (rfl)
@[simp] theorem eng_setReg (s : State) (r : RegId) (w : Word) (x' : EngRef) : (s.setReg r w).eng x' = s.eng x' := (rfl)
@[simp] theorem ring_setReg (s : State) (r : RegId) (w : Word) (g' n' : Nat) : (s.setReg r w).ring g' n' = s.ring g' n' := (rfl)
@[simp] theorem chan_setReg (s : State) (r : RegId) (w : Word) (g' n' : Nat) : (s.setReg r w).chan g' n' = s.chan g' n' := (rfl)
@[simp] theorem array_setReg (s : State) (r : RegId) (w : Word) (g' a' : Nat) : (s.setReg r w).array g' a' = s.array g' a' := (rfl)
@[simp] theorem pool_setReg (s : State) (r : RegId) (w : Word) (p' t' : Nat) : (s.setReg r w).pool p' t' = s.pool p' t' := (rfl)
@[simp] theorem hop_setReg (s : State) (r : RegId) (w : Word) (h' d' : Nat) : (s.setReg r w).hop h' d' = s.hop h' d' := (rfl)
@[simp] theorem disp_setReg (s : State) (r : RegId) (w : Word) (d' : Nat) : (s.setReg r w).disp d' = s.disp d' := (rfl)
@[simp] theorem link_setReg (s : State) (r : RegId) (w : Word) (n' : Nat) : (s.setReg r w).link n' = s.link n' := (rfl)
@[simp] theorem cxl_setReg (s : State) (r : RegId) (w : Word) (p' : Nat) : (s.setReg r w).cxl p' = s.cxl p' := (rfl)
@[simp] theorem session_setReg (s : State) (r : RegId) (w : Word) (p' : Nat) : (s.setReg r w).session p' = s.session p' := (rfl)
@[simp] theorem phase_setReg (s : State) (r : RegId) (w : Word) (p' : Nat) : (s.setReg r w).phase p' = s.phase p' := (rfl)
@[simp] theorem rotationAt_setReg (s : State) (r : RegId) (w : Word) (g' : Nat) : (s.setReg r w).rotationAt g' = s.rotationAt g' := (rfl)
@[simp] theorem turnAt_setReg (s : State) (r : RegId) (w : Word) (x' : EngRef) : (s.setReg r w).turnAt x' = s.turnAt x' := (rfl)
@[simp] theorem port_setReg (s : State) (r : RegId) (w : Word) (p' : Port) : (s.setReg r w).port p' = s.port p' := (rfl)
@[simp] theorem byteAt_setReg (s : State) (r : RegId) (w : Word) (a' : Nat) : (s.setReg r w).byteAt a' = s.byteAt a' := (rfl)

/-! ## setEng -/

@[simp] theorem setEng_regs (s : State) (x : EngRef) (c : EngCtx) : (s.setEng x c).regs = s.regs := (rfl)
@[simp] theorem setEng_mem (s : State) (x : EngRef) (c : EngCtx) : (s.setEng x c).mem = s.mem := (rfl)
@[simp] theorem setEng_poison (s : State) (x : EngRef) (c : EngCtx) : (s.setEng x c).poison = s.poison := (rfl)
@[simp] theorem setEng_struck (s : State) (x : EngRef) (c : EngCtx) : (s.setEng x c).struck = s.struck := (rfl)
@[simp] theorem setEng_seals (s : State) (x : EngRef) (c : EngCtx) : (s.setEng x c).seals = s.seals := (rfl)
@[simp] theorem setEng_tasks (s : State) (x : EngRef) (c : EngCtx) : (s.setEng x c).tasks = s.tasks := (rfl)
@[simp] theorem setEng_rings (s : State) (x : EngRef) (c : EngCtx) : (s.setEng x c).rings = s.rings := (rfl)
@[simp] theorem setEng_chans (s : State) (x : EngRef) (c : EngCtx) : (s.setEng x c).chans = s.chans := (rfl)
@[simp] theorem setEng_arrays (s : State) (x : EngRef) (c : EngCtx) : (s.setEng x c).arrays = s.arrays := (rfl)
@[simp] theorem setEng_landed (s : State) (x : EngRef) (c : EngCtx) : (s.setEng x c).landed = s.landed := (rfl)
@[simp] theorem setEng_rotation (s : State) (x : EngRef) (c : EngCtx) : (s.setEng x c).rotation = s.rotation := (rfl)
@[simp] theorem setEng_turns (s : State) (x : EngRef) (c : EngCtx) : (s.setEng x c).turns = s.turns := (rfl)
@[simp] theorem setEng_pools (s : State) (x : EngRef) (c : EngCtx) : (s.setEng x c).pools = s.pools := (rfl)
@[simp] theorem setEng_frames (s : State) (x : EngRef) (c : EngCtx) : (s.setEng x c).frames = s.frames := (rfl)
@[simp] theorem setEng_backlog (s : State) (x : EngRef) (c : EngCtx) : (s.setEng x c).backlog = s.backlog := (rfl)
@[simp] theorem setEng_hops (s : State) (x : EngRef) (c : EngCtx) : (s.setEng x c).hops = s.hops := (rfl)
@[simp] theorem setEng_disps (s : State) (x : EngRef) (c : EngCtx) : (s.setEng x c).disps = s.disps := (rfl)
@[simp] theorem setEng_links (s : State) (x : EngRef) (c : EngCtx) : (s.setEng x c).links = s.links := (rfl)
@[simp] theorem setEng_cxls (s : State) (x : EngRef) (c : EngCtx) : (s.setEng x c).cxls = s.cxls := (rfl)
@[simp] theorem setEng_ports (s : State) (x : EngRef) (c : EngCtx) : (s.setEng x c).ports = s.ports := (rfl)
@[simp] theorem setEng_pkg (s : State) (x : EngRef) (c : EngCtx) : (s.setEng x c).pkg = s.pkg := (rfl)
@[simp] theorem setEng_lh (s : State) (x : EngRef) (c : EngCtx) : (s.setEng x c).lh = s.lh := (rfl)
@[simp] theorem setEng_sessions (s : State) (x : EngRef) (c : EngCtx) : (s.setEng x c).sessions = s.sessions := (rfl)
@[simp] theorem setEng_phases (s : State) (x : EngRef) (c : EngCtx) : (s.setEng x c).phases = s.phases := (rfl)
@[simp] theorem setEng_trust (s : State) (x : EngRef) (c : EngCtx) : (s.setEng x c).trust = s.trust := (rfl)
@[simp] theorem setEng_nextTask (s : State) (x : EngRef) (c : EngCtx) : (s.setEng x c).nextTask = s.nextTask := (rfl)
@[simp] theorem setEng_free (s : State) (x : EngRef) (c : EngCtx) : (s.setEng x c).free = s.free := (rfl)
@[simp] theorem setEng_out (s : State) (x : EngRef) (c : EngCtx) : (s.setEng x c).out = s.out := (rfl)
@[simp] theorem setEng_pending (s : State) (x : EngRef) (c : EngCtx) : (s.setEng x c).pending = s.pending := (rfl)
@[simp] theorem reg_setEng (s : State) (x : EngRef) (c : EngCtx) (r' : RegId) : (s.setEng x c).reg r' = s.reg r' := (rfl)
@[simp] theorem ring_setEng (s : State) (x : EngRef) (c : EngCtx) (g' n' : Nat) : (s.setEng x c).ring g' n' = s.ring g' n' := (rfl)
@[simp] theorem chan_setEng (s : State) (x : EngRef) (c : EngCtx) (g' n' : Nat) : (s.setEng x c).chan g' n' = s.chan g' n' := (rfl)
@[simp] theorem array_setEng (s : State) (x : EngRef) (c : EngCtx) (g' a' : Nat) : (s.setEng x c).array g' a' = s.array g' a' := (rfl)
@[simp] theorem pool_setEng (s : State) (x : EngRef) (c : EngCtx) (p' t' : Nat) : (s.setEng x c).pool p' t' = s.pool p' t' := (rfl)
@[simp] theorem hop_setEng (s : State) (x : EngRef) (c : EngCtx) (h' d' : Nat) : (s.setEng x c).hop h' d' = s.hop h' d' := (rfl)
@[simp] theorem disp_setEng (s : State) (x : EngRef) (c : EngCtx) (d' : Nat) : (s.setEng x c).disp d' = s.disp d' := (rfl)
@[simp] theorem link_setEng (s : State) (x : EngRef) (c : EngCtx) (n' : Nat) : (s.setEng x c).link n' = s.link n' := (rfl)
@[simp] theorem cxl_setEng (s : State) (x : EngRef) (c : EngCtx) (p' : Nat) : (s.setEng x c).cxl p' = s.cxl p' := (rfl)
@[simp] theorem session_setEng (s : State) (x : EngRef) (c : EngCtx) (p' : Nat) : (s.setEng x c).session p' = s.session p' := (rfl)
@[simp] theorem phase_setEng (s : State) (x : EngRef) (c : EngCtx) (p' : Nat) : (s.setEng x c).phase p' = s.phase p' := (rfl)
@[simp] theorem rotationAt_setEng (s : State) (x : EngRef) (c : EngCtx) (g' : Nat) : (s.setEng x c).rotationAt g' = s.rotationAt g' := (rfl)
@[simp] theorem turnAt_setEng (s : State) (x : EngRef) (c : EngCtx) (x' : EngRef) : (s.setEng x c).turnAt x' = s.turnAt x' := (rfl)
@[simp] theorem port_setEng (s : State) (x : EngRef) (c : EngCtx) (p' : Port) : (s.setEng x c).port p' = s.port p' := (rfl)
@[simp] theorem byteAt_setEng (s : State) (x : EngRef) (c : EngCtx) (a' : Nat) : (s.setEng x c).byteAt a' = s.byteAt a' := (rfl)

/-! ## setRing -/

@[simp] theorem setRing_regs (s : State) (g n : Nat) (v : Ring) : (s.setRing g n v).regs = s.regs := (rfl)
@[simp] theorem setRing_mem (s : State) (g n : Nat) (v : Ring) : (s.setRing g n v).mem = s.mem := (rfl)
@[simp] theorem setRing_poison (s : State) (g n : Nat) (v : Ring) : (s.setRing g n v).poison = s.poison := (rfl)
@[simp] theorem setRing_struck (s : State) (g n : Nat) (v : Ring) : (s.setRing g n v).struck = s.struck := (rfl)
@[simp] theorem setRing_seals (s : State) (g n : Nat) (v : Ring) : (s.setRing g n v).seals = s.seals := (rfl)
@[simp] theorem setRing_tasks (s : State) (g n : Nat) (v : Ring) : (s.setRing g n v).tasks = s.tasks := (rfl)
@[simp] theorem setRing_engs (s : State) (g n : Nat) (v : Ring) : (s.setRing g n v).engs = s.engs := (rfl)
@[simp] theorem setRing_chans (s : State) (g n : Nat) (v : Ring) : (s.setRing g n v).chans = s.chans := (rfl)
@[simp] theorem setRing_arrays (s : State) (g n : Nat) (v : Ring) : (s.setRing g n v).arrays = s.arrays := (rfl)
@[simp] theorem setRing_landed (s : State) (g n : Nat) (v : Ring) : (s.setRing g n v).landed = s.landed := (rfl)
@[simp] theorem setRing_rotation (s : State) (g n : Nat) (v : Ring) : (s.setRing g n v).rotation = s.rotation := (rfl)
@[simp] theorem setRing_turns (s : State) (g n : Nat) (v : Ring) : (s.setRing g n v).turns = s.turns := (rfl)
@[simp] theorem setRing_pools (s : State) (g n : Nat) (v : Ring) : (s.setRing g n v).pools = s.pools := (rfl)
@[simp] theorem setRing_frames (s : State) (g n : Nat) (v : Ring) : (s.setRing g n v).frames = s.frames := (rfl)
@[simp] theorem setRing_backlog (s : State) (g n : Nat) (v : Ring) : (s.setRing g n v).backlog = s.backlog := (rfl)
@[simp] theorem setRing_hops (s : State) (g n : Nat) (v : Ring) : (s.setRing g n v).hops = s.hops := (rfl)
@[simp] theorem setRing_disps (s : State) (g n : Nat) (v : Ring) : (s.setRing g n v).disps = s.disps := (rfl)
@[simp] theorem setRing_links (s : State) (g n : Nat) (v : Ring) : (s.setRing g n v).links = s.links := (rfl)
@[simp] theorem setRing_cxls (s : State) (g n : Nat) (v : Ring) : (s.setRing g n v).cxls = s.cxls := (rfl)
@[simp] theorem setRing_ports (s : State) (g n : Nat) (v : Ring) : (s.setRing g n v).ports = s.ports := (rfl)
@[simp] theorem setRing_pkg (s : State) (g n : Nat) (v : Ring) : (s.setRing g n v).pkg = s.pkg := (rfl)
@[simp] theorem setRing_lh (s : State) (g n : Nat) (v : Ring) : (s.setRing g n v).lh = s.lh := (rfl)
@[simp] theorem setRing_sessions (s : State) (g n : Nat) (v : Ring) : (s.setRing g n v).sessions = s.sessions := (rfl)
@[simp] theorem setRing_phases (s : State) (g n : Nat) (v : Ring) : (s.setRing g n v).phases = s.phases := (rfl)
@[simp] theorem setRing_trust (s : State) (g n : Nat) (v : Ring) : (s.setRing g n v).trust = s.trust := (rfl)
@[simp] theorem setRing_nextTask (s : State) (g n : Nat) (v : Ring) : (s.setRing g n v).nextTask = s.nextTask := (rfl)
@[simp] theorem setRing_free (s : State) (g n : Nat) (v : Ring) : (s.setRing g n v).free = s.free := (rfl)
@[simp] theorem setRing_out (s : State) (g n : Nat) (v : Ring) : (s.setRing g n v).out = s.out := (rfl)
@[simp] theorem setRing_pending (s : State) (g n : Nat) (v : Ring) : (s.setRing g n v).pending = s.pending := (rfl)
@[simp] theorem reg_setRing (s : State) (g n : Nat) (v : Ring) (r' : RegId) : (s.setRing g n v).reg r' = s.reg r' := (rfl)
@[simp] theorem eng_setRing (s : State) (g n : Nat) (v : Ring) (x' : EngRef) : (s.setRing g n v).eng x' = s.eng x' := (rfl)
@[simp] theorem chan_setRing (s : State) (g n : Nat) (v : Ring) (g' n' : Nat) : (s.setRing g n v).chan g' n' = s.chan g' n' := (rfl)
@[simp] theorem array_setRing (s : State) (g n : Nat) (v : Ring) (g' a' : Nat) : (s.setRing g n v).array g' a' = s.array g' a' := (rfl)
@[simp] theorem pool_setRing (s : State) (g n : Nat) (v : Ring) (p' t' : Nat) : (s.setRing g n v).pool p' t' = s.pool p' t' := (rfl)
@[simp] theorem hop_setRing (s : State) (g n : Nat) (v : Ring) (h' d' : Nat) : (s.setRing g n v).hop h' d' = s.hop h' d' := (rfl)
@[simp] theorem disp_setRing (s : State) (g n : Nat) (v : Ring) (d' : Nat) : (s.setRing g n v).disp d' = s.disp d' := (rfl)
@[simp] theorem link_setRing (s : State) (g n : Nat) (v : Ring) (n' : Nat) : (s.setRing g n v).link n' = s.link n' := (rfl)
@[simp] theorem cxl_setRing (s : State) (g n : Nat) (v : Ring) (p' : Nat) : (s.setRing g n v).cxl p' = s.cxl p' := (rfl)
@[simp] theorem session_setRing (s : State) (g n : Nat) (v : Ring) (p' : Nat) : (s.setRing g n v).session p' = s.session p' := (rfl)
@[simp] theorem phase_setRing (s : State) (g n : Nat) (v : Ring) (p' : Nat) : (s.setRing g n v).phase p' = s.phase p' := (rfl)
@[simp] theorem rotationAt_setRing (s : State) (g n : Nat) (v : Ring) (g' : Nat) : (s.setRing g n v).rotationAt g' = s.rotationAt g' := (rfl)
@[simp] theorem turnAt_setRing (s : State) (g n : Nat) (v : Ring) (x' : EngRef) : (s.setRing g n v).turnAt x' = s.turnAt x' := (rfl)
@[simp] theorem port_setRing (s : State) (g n : Nat) (v : Ring) (p' : Port) : (s.setRing g n v).port p' = s.port p' := (rfl)
@[simp] theorem byteAt_setRing (s : State) (g n : Nat) (v : Ring) (a' : Nat) : (s.setRing g n v).byteAt a' = s.byteAt a' := (rfl)

/-! ## setChan -/

@[simp] theorem setChan_regs (s : State) (g n : Nat) (v : Chan) : (s.setChan g n v).regs = s.regs := (rfl)
@[simp] theorem setChan_mem (s : State) (g n : Nat) (v : Chan) : (s.setChan g n v).mem = s.mem := (rfl)
@[simp] theorem setChan_poison (s : State) (g n : Nat) (v : Chan) : (s.setChan g n v).poison = s.poison := (rfl)
@[simp] theorem setChan_struck (s : State) (g n : Nat) (v : Chan) : (s.setChan g n v).struck = s.struck := (rfl)
@[simp] theorem setChan_seals (s : State) (g n : Nat) (v : Chan) : (s.setChan g n v).seals = s.seals := (rfl)
@[simp] theorem setChan_tasks (s : State) (g n : Nat) (v : Chan) : (s.setChan g n v).tasks = s.tasks := (rfl)
@[simp] theorem setChan_engs (s : State) (g n : Nat) (v : Chan) : (s.setChan g n v).engs = s.engs := (rfl)
@[simp] theorem setChan_rings (s : State) (g n : Nat) (v : Chan) : (s.setChan g n v).rings = s.rings := (rfl)
@[simp] theorem setChan_arrays (s : State) (g n : Nat) (v : Chan) : (s.setChan g n v).arrays = s.arrays := (rfl)
@[simp] theorem setChan_landed (s : State) (g n : Nat) (v : Chan) : (s.setChan g n v).landed = s.landed := (rfl)
@[simp] theorem setChan_rotation (s : State) (g n : Nat) (v : Chan) : (s.setChan g n v).rotation = s.rotation := (rfl)
@[simp] theorem setChan_turns (s : State) (g n : Nat) (v : Chan) : (s.setChan g n v).turns = s.turns := (rfl)
@[simp] theorem setChan_pools (s : State) (g n : Nat) (v : Chan) : (s.setChan g n v).pools = s.pools := (rfl)
@[simp] theorem setChan_frames (s : State) (g n : Nat) (v : Chan) : (s.setChan g n v).frames = s.frames := (rfl)
@[simp] theorem setChan_backlog (s : State) (g n : Nat) (v : Chan) : (s.setChan g n v).backlog = s.backlog := (rfl)
@[simp] theorem setChan_hops (s : State) (g n : Nat) (v : Chan) : (s.setChan g n v).hops = s.hops := (rfl)
@[simp] theorem setChan_disps (s : State) (g n : Nat) (v : Chan) : (s.setChan g n v).disps = s.disps := (rfl)
@[simp] theorem setChan_links (s : State) (g n : Nat) (v : Chan) : (s.setChan g n v).links = s.links := (rfl)
@[simp] theorem setChan_cxls (s : State) (g n : Nat) (v : Chan) : (s.setChan g n v).cxls = s.cxls := (rfl)
@[simp] theorem setChan_ports (s : State) (g n : Nat) (v : Chan) : (s.setChan g n v).ports = s.ports := (rfl)
@[simp] theorem setChan_pkg (s : State) (g n : Nat) (v : Chan) : (s.setChan g n v).pkg = s.pkg := (rfl)
@[simp] theorem setChan_lh (s : State) (g n : Nat) (v : Chan) : (s.setChan g n v).lh = s.lh := (rfl)
@[simp] theorem setChan_sessions (s : State) (g n : Nat) (v : Chan) : (s.setChan g n v).sessions = s.sessions := (rfl)
@[simp] theorem setChan_phases (s : State) (g n : Nat) (v : Chan) : (s.setChan g n v).phases = s.phases := (rfl)
@[simp] theorem setChan_trust (s : State) (g n : Nat) (v : Chan) : (s.setChan g n v).trust = s.trust := (rfl)
@[simp] theorem setChan_nextTask (s : State) (g n : Nat) (v : Chan) : (s.setChan g n v).nextTask = s.nextTask := (rfl)
@[simp] theorem setChan_free (s : State) (g n : Nat) (v : Chan) : (s.setChan g n v).free = s.free := (rfl)
@[simp] theorem setChan_out (s : State) (g n : Nat) (v : Chan) : (s.setChan g n v).out = s.out := (rfl)
@[simp] theorem setChan_pending (s : State) (g n : Nat) (v : Chan) : (s.setChan g n v).pending = s.pending := (rfl)
@[simp] theorem reg_setChan (s : State) (g n : Nat) (v : Chan) (r' : RegId) : (s.setChan g n v).reg r' = s.reg r' := (rfl)
@[simp] theorem eng_setChan (s : State) (g n : Nat) (v : Chan) (x' : EngRef) : (s.setChan g n v).eng x' = s.eng x' := (rfl)
@[simp] theorem ring_setChan (s : State) (g n : Nat) (v : Chan) (g' n' : Nat) : (s.setChan g n v).ring g' n' = s.ring g' n' := (rfl)
@[simp] theorem array_setChan (s : State) (g n : Nat) (v : Chan) (g' a' : Nat) : (s.setChan g n v).array g' a' = s.array g' a' := (rfl)
@[simp] theorem pool_setChan (s : State) (g n : Nat) (v : Chan) (p' t' : Nat) : (s.setChan g n v).pool p' t' = s.pool p' t' := (rfl)
@[simp] theorem hop_setChan (s : State) (g n : Nat) (v : Chan) (h' d' : Nat) : (s.setChan g n v).hop h' d' = s.hop h' d' := (rfl)
@[simp] theorem disp_setChan (s : State) (g n : Nat) (v : Chan) (d' : Nat) : (s.setChan g n v).disp d' = s.disp d' := (rfl)
@[simp] theorem link_setChan (s : State) (g n : Nat) (v : Chan) (n' : Nat) : (s.setChan g n v).link n' = s.link n' := (rfl)
@[simp] theorem cxl_setChan (s : State) (g n : Nat) (v : Chan) (p' : Nat) : (s.setChan g n v).cxl p' = s.cxl p' := (rfl)
@[simp] theorem session_setChan (s : State) (g n : Nat) (v : Chan) (p' : Nat) : (s.setChan g n v).session p' = s.session p' := (rfl)
@[simp] theorem phase_setChan (s : State) (g n : Nat) (v : Chan) (p' : Nat) : (s.setChan g n v).phase p' = s.phase p' := (rfl)
@[simp] theorem rotationAt_setChan (s : State) (g n : Nat) (v : Chan) (g' : Nat) : (s.setChan g n v).rotationAt g' = s.rotationAt g' := (rfl)
@[simp] theorem turnAt_setChan (s : State) (g n : Nat) (v : Chan) (x' : EngRef) : (s.setChan g n v).turnAt x' = s.turnAt x' := (rfl)
@[simp] theorem port_setChan (s : State) (g n : Nat) (v : Chan) (p' : Port) : (s.setChan g n v).port p' = s.port p' := (rfl)
@[simp] theorem byteAt_setChan (s : State) (g n : Nat) (v : Chan) (a' : Nat) : (s.setChan g n v).byteAt a' = s.byteAt a' := (rfl)

/-! ## setArray -/

@[simp] theorem setArray_regs (s : State) (g a : Nat) (v : ArraySt) : (s.setArray g a v).regs = s.regs := (rfl)
@[simp] theorem setArray_mem (s : State) (g a : Nat) (v : ArraySt) : (s.setArray g a v).mem = s.mem := (rfl)
@[simp] theorem setArray_poison (s : State) (g a : Nat) (v : ArraySt) : (s.setArray g a v).poison = s.poison := (rfl)
@[simp] theorem setArray_struck (s : State) (g a : Nat) (v : ArraySt) : (s.setArray g a v).struck = s.struck := (rfl)
@[simp] theorem setArray_seals (s : State) (g a : Nat) (v : ArraySt) : (s.setArray g a v).seals = s.seals := (rfl)
@[simp] theorem setArray_tasks (s : State) (g a : Nat) (v : ArraySt) : (s.setArray g a v).tasks = s.tasks := (rfl)
@[simp] theorem setArray_engs (s : State) (g a : Nat) (v : ArraySt) : (s.setArray g a v).engs = s.engs := (rfl)
@[simp] theorem setArray_rings (s : State) (g a : Nat) (v : ArraySt) : (s.setArray g a v).rings = s.rings := (rfl)
@[simp] theorem setArray_chans (s : State) (g a : Nat) (v : ArraySt) : (s.setArray g a v).chans = s.chans := (rfl)
@[simp] theorem setArray_landed (s : State) (g a : Nat) (v : ArraySt) : (s.setArray g a v).landed = s.landed := (rfl)
@[simp] theorem setArray_rotation (s : State) (g a : Nat) (v : ArraySt) : (s.setArray g a v).rotation = s.rotation := (rfl)
@[simp] theorem setArray_turns (s : State) (g a : Nat) (v : ArraySt) : (s.setArray g a v).turns = s.turns := (rfl)
@[simp] theorem setArray_pools (s : State) (g a : Nat) (v : ArraySt) : (s.setArray g a v).pools = s.pools := (rfl)
@[simp] theorem setArray_frames (s : State) (g a : Nat) (v : ArraySt) : (s.setArray g a v).frames = s.frames := (rfl)
@[simp] theorem setArray_backlog (s : State) (g a : Nat) (v : ArraySt) : (s.setArray g a v).backlog = s.backlog := (rfl)
@[simp] theorem setArray_hops (s : State) (g a : Nat) (v : ArraySt) : (s.setArray g a v).hops = s.hops := (rfl)
@[simp] theorem setArray_disps (s : State) (g a : Nat) (v : ArraySt) : (s.setArray g a v).disps = s.disps := (rfl)
@[simp] theorem setArray_links (s : State) (g a : Nat) (v : ArraySt) : (s.setArray g a v).links = s.links := (rfl)
@[simp] theorem setArray_cxls (s : State) (g a : Nat) (v : ArraySt) : (s.setArray g a v).cxls = s.cxls := (rfl)
@[simp] theorem setArray_ports (s : State) (g a : Nat) (v : ArraySt) : (s.setArray g a v).ports = s.ports := (rfl)
@[simp] theorem setArray_pkg (s : State) (g a : Nat) (v : ArraySt) : (s.setArray g a v).pkg = s.pkg := (rfl)
@[simp] theorem setArray_lh (s : State) (g a : Nat) (v : ArraySt) : (s.setArray g a v).lh = s.lh := (rfl)
@[simp] theorem setArray_sessions (s : State) (g a : Nat) (v : ArraySt) : (s.setArray g a v).sessions = s.sessions := (rfl)
@[simp] theorem setArray_phases (s : State) (g a : Nat) (v : ArraySt) : (s.setArray g a v).phases = s.phases := (rfl)
@[simp] theorem setArray_trust (s : State) (g a : Nat) (v : ArraySt) : (s.setArray g a v).trust = s.trust := (rfl)
@[simp] theorem setArray_nextTask (s : State) (g a : Nat) (v : ArraySt) : (s.setArray g a v).nextTask = s.nextTask := (rfl)
@[simp] theorem setArray_free (s : State) (g a : Nat) (v : ArraySt) : (s.setArray g a v).free = s.free := (rfl)
@[simp] theorem setArray_out (s : State) (g a : Nat) (v : ArraySt) : (s.setArray g a v).out = s.out := (rfl)
@[simp] theorem setArray_pending (s : State) (g a : Nat) (v : ArraySt) : (s.setArray g a v).pending = s.pending := (rfl)
@[simp] theorem reg_setArray (s : State) (g a : Nat) (v : ArraySt) (r' : RegId) : (s.setArray g a v).reg r' = s.reg r' := (rfl)
@[simp] theorem eng_setArray (s : State) (g a : Nat) (v : ArraySt) (x' : EngRef) : (s.setArray g a v).eng x' = s.eng x' := (rfl)
@[simp] theorem ring_setArray (s : State) (g a : Nat) (v : ArraySt) (g' n' : Nat) : (s.setArray g a v).ring g' n' = s.ring g' n' := (rfl)
@[simp] theorem chan_setArray (s : State) (g a : Nat) (v : ArraySt) (g' n' : Nat) : (s.setArray g a v).chan g' n' = s.chan g' n' := (rfl)
@[simp] theorem pool_setArray (s : State) (g a : Nat) (v : ArraySt) (p' t' : Nat) : (s.setArray g a v).pool p' t' = s.pool p' t' := (rfl)
@[simp] theorem hop_setArray (s : State) (g a : Nat) (v : ArraySt) (h' d' : Nat) : (s.setArray g a v).hop h' d' = s.hop h' d' := (rfl)
@[simp] theorem disp_setArray (s : State) (g a : Nat) (v : ArraySt) (d' : Nat) : (s.setArray g a v).disp d' = s.disp d' := (rfl)
@[simp] theorem link_setArray (s : State) (g a : Nat) (v : ArraySt) (n' : Nat) : (s.setArray g a v).link n' = s.link n' := (rfl)
@[simp] theorem cxl_setArray (s : State) (g a : Nat) (v : ArraySt) (p' : Nat) : (s.setArray g a v).cxl p' = s.cxl p' := (rfl)
@[simp] theorem session_setArray (s : State) (g a : Nat) (v : ArraySt) (p' : Nat) : (s.setArray g a v).session p' = s.session p' := (rfl)
@[simp] theorem phase_setArray (s : State) (g a : Nat) (v : ArraySt) (p' : Nat) : (s.setArray g a v).phase p' = s.phase p' := (rfl)
@[simp] theorem rotationAt_setArray (s : State) (g a : Nat) (v : ArraySt) (g' : Nat) : (s.setArray g a v).rotationAt g' = s.rotationAt g' := (rfl)
@[simp] theorem turnAt_setArray (s : State) (g a : Nat) (v : ArraySt) (x' : EngRef) : (s.setArray g a v).turnAt x' = s.turnAt x' := (rfl)
@[simp] theorem port_setArray (s : State) (g a : Nat) (v : ArraySt) (p' : Port) : (s.setArray g a v).port p' = s.port p' := (rfl)
@[simp] theorem byteAt_setArray (s : State) (g a : Nat) (v : ArraySt) (a' : Nat) : (s.setArray g a v).byteAt a' = s.byteAt a' := (rfl)

/-! ## setPool -/

@[simp] theorem setPool_regs (s : State) (p t : Nat) (v : Pool) : (s.setPool p t v).regs = s.regs := (rfl)
@[simp] theorem setPool_mem (s : State) (p t : Nat) (v : Pool) : (s.setPool p t v).mem = s.mem := (rfl)
@[simp] theorem setPool_poison (s : State) (p t : Nat) (v : Pool) : (s.setPool p t v).poison = s.poison := (rfl)
@[simp] theorem setPool_struck (s : State) (p t : Nat) (v : Pool) : (s.setPool p t v).struck = s.struck := (rfl)
@[simp] theorem setPool_seals (s : State) (p t : Nat) (v : Pool) : (s.setPool p t v).seals = s.seals := (rfl)
@[simp] theorem setPool_tasks (s : State) (p t : Nat) (v : Pool) : (s.setPool p t v).tasks = s.tasks := (rfl)
@[simp] theorem setPool_engs (s : State) (p t : Nat) (v : Pool) : (s.setPool p t v).engs = s.engs := (rfl)
@[simp] theorem setPool_rings (s : State) (p t : Nat) (v : Pool) : (s.setPool p t v).rings = s.rings := (rfl)
@[simp] theorem setPool_chans (s : State) (p t : Nat) (v : Pool) : (s.setPool p t v).chans = s.chans := (rfl)
@[simp] theorem setPool_arrays (s : State) (p t : Nat) (v : Pool) : (s.setPool p t v).arrays = s.arrays := (rfl)
@[simp] theorem setPool_landed (s : State) (p t : Nat) (v : Pool) : (s.setPool p t v).landed = s.landed := (rfl)
@[simp] theorem setPool_rotation (s : State) (p t : Nat) (v : Pool) : (s.setPool p t v).rotation = s.rotation := (rfl)
@[simp] theorem setPool_turns (s : State) (p t : Nat) (v : Pool) : (s.setPool p t v).turns = s.turns := (rfl)
@[simp] theorem setPool_frames (s : State) (p t : Nat) (v : Pool) : (s.setPool p t v).frames = s.frames := (rfl)
@[simp] theorem setPool_backlog (s : State) (p t : Nat) (v : Pool) : (s.setPool p t v).backlog = s.backlog := (rfl)
@[simp] theorem setPool_hops (s : State) (p t : Nat) (v : Pool) : (s.setPool p t v).hops = s.hops := (rfl)
@[simp] theorem setPool_disps (s : State) (p t : Nat) (v : Pool) : (s.setPool p t v).disps = s.disps := (rfl)
@[simp] theorem setPool_links (s : State) (p t : Nat) (v : Pool) : (s.setPool p t v).links = s.links := (rfl)
@[simp] theorem setPool_cxls (s : State) (p t : Nat) (v : Pool) : (s.setPool p t v).cxls = s.cxls := (rfl)
@[simp] theorem setPool_ports (s : State) (p t : Nat) (v : Pool) : (s.setPool p t v).ports = s.ports := (rfl)
@[simp] theorem setPool_pkg (s : State) (p t : Nat) (v : Pool) : (s.setPool p t v).pkg = s.pkg := (rfl)
@[simp] theorem setPool_lh (s : State) (p t : Nat) (v : Pool) : (s.setPool p t v).lh = s.lh := (rfl)
@[simp] theorem setPool_sessions (s : State) (p t : Nat) (v : Pool) : (s.setPool p t v).sessions = s.sessions := (rfl)
@[simp] theorem setPool_phases (s : State) (p t : Nat) (v : Pool) : (s.setPool p t v).phases = s.phases := (rfl)
@[simp] theorem setPool_trust (s : State) (p t : Nat) (v : Pool) : (s.setPool p t v).trust = s.trust := (rfl)
@[simp] theorem setPool_nextTask (s : State) (p t : Nat) (v : Pool) : (s.setPool p t v).nextTask = s.nextTask := (rfl)
@[simp] theorem setPool_free (s : State) (p t : Nat) (v : Pool) : (s.setPool p t v).free = s.free := (rfl)
@[simp] theorem setPool_out (s : State) (p t : Nat) (v : Pool) : (s.setPool p t v).out = s.out := (rfl)
@[simp] theorem setPool_pending (s : State) (p t : Nat) (v : Pool) : (s.setPool p t v).pending = s.pending := (rfl)
@[simp] theorem reg_setPool (s : State) (p t : Nat) (v : Pool) (r' : RegId) : (s.setPool p t v).reg r' = s.reg r' := (rfl)
@[simp] theorem eng_setPool (s : State) (p t : Nat) (v : Pool) (x' : EngRef) : (s.setPool p t v).eng x' = s.eng x' := (rfl)
@[simp] theorem ring_setPool (s : State) (p t : Nat) (v : Pool) (g' n' : Nat) : (s.setPool p t v).ring g' n' = s.ring g' n' := (rfl)
@[simp] theorem chan_setPool (s : State) (p t : Nat) (v : Pool) (g' n' : Nat) : (s.setPool p t v).chan g' n' = s.chan g' n' := (rfl)
@[simp] theorem array_setPool (s : State) (p t : Nat) (v : Pool) (g' a' : Nat) : (s.setPool p t v).array g' a' = s.array g' a' := (rfl)
@[simp] theorem hop_setPool (s : State) (p t : Nat) (v : Pool) (h' d' : Nat) : (s.setPool p t v).hop h' d' = s.hop h' d' := (rfl)
@[simp] theorem disp_setPool (s : State) (p t : Nat) (v : Pool) (d' : Nat) : (s.setPool p t v).disp d' = s.disp d' := (rfl)
@[simp] theorem link_setPool (s : State) (p t : Nat) (v : Pool) (n' : Nat) : (s.setPool p t v).link n' = s.link n' := (rfl)
@[simp] theorem cxl_setPool (s : State) (p t : Nat) (v : Pool) (p' : Nat) : (s.setPool p t v).cxl p' = s.cxl p' := (rfl)
@[simp] theorem session_setPool (s : State) (p t : Nat) (v : Pool) (p' : Nat) : (s.setPool p t v).session p' = s.session p' := (rfl)
@[simp] theorem phase_setPool (s : State) (p t : Nat) (v : Pool) (p' : Nat) : (s.setPool p t v).phase p' = s.phase p' := (rfl)
@[simp] theorem rotationAt_setPool (s : State) (p t : Nat) (v : Pool) (g' : Nat) : (s.setPool p t v).rotationAt g' = s.rotationAt g' := (rfl)
@[simp] theorem turnAt_setPool (s : State) (p t : Nat) (v : Pool) (x' : EngRef) : (s.setPool p t v).turnAt x' = s.turnAt x' := (rfl)
@[simp] theorem port_setPool (s : State) (p t : Nat) (v : Pool) (p' : Port) : (s.setPool p t v).port p' = s.port p' := (rfl)
@[simp] theorem byteAt_setPool (s : State) (p t : Nat) (v : Pool) (a' : Nat) : (s.setPool p t v).byteAt a' = s.byteAt a' := (rfl)

/-! ## setHop -/

@[simp] theorem setHop_regs (s : State) (h d : Nat) (v : Hop) : (s.setHop h d v).regs = s.regs := (rfl)
@[simp] theorem setHop_mem (s : State) (h d : Nat) (v : Hop) : (s.setHop h d v).mem = s.mem := (rfl)
@[simp] theorem setHop_poison (s : State) (h d : Nat) (v : Hop) : (s.setHop h d v).poison = s.poison := (rfl)
@[simp] theorem setHop_struck (s : State) (h d : Nat) (v : Hop) : (s.setHop h d v).struck = s.struck := (rfl)
@[simp] theorem setHop_seals (s : State) (h d : Nat) (v : Hop) : (s.setHop h d v).seals = s.seals := (rfl)
@[simp] theorem setHop_tasks (s : State) (h d : Nat) (v : Hop) : (s.setHop h d v).tasks = s.tasks := (rfl)
@[simp] theorem setHop_engs (s : State) (h d : Nat) (v : Hop) : (s.setHop h d v).engs = s.engs := (rfl)
@[simp] theorem setHop_rings (s : State) (h d : Nat) (v : Hop) : (s.setHop h d v).rings = s.rings := (rfl)
@[simp] theorem setHop_chans (s : State) (h d : Nat) (v : Hop) : (s.setHop h d v).chans = s.chans := (rfl)
@[simp] theorem setHop_arrays (s : State) (h d : Nat) (v : Hop) : (s.setHop h d v).arrays = s.arrays := (rfl)
@[simp] theorem setHop_landed (s : State) (h d : Nat) (v : Hop) : (s.setHop h d v).landed = s.landed := (rfl)
@[simp] theorem setHop_rotation (s : State) (h d : Nat) (v : Hop) : (s.setHop h d v).rotation = s.rotation := (rfl)
@[simp] theorem setHop_turns (s : State) (h d : Nat) (v : Hop) : (s.setHop h d v).turns = s.turns := (rfl)
@[simp] theorem setHop_pools (s : State) (h d : Nat) (v : Hop) : (s.setHop h d v).pools = s.pools := (rfl)
@[simp] theorem setHop_frames (s : State) (h d : Nat) (v : Hop) : (s.setHop h d v).frames = s.frames := (rfl)
@[simp] theorem setHop_backlog (s : State) (h d : Nat) (v : Hop) : (s.setHop h d v).backlog = s.backlog := (rfl)
@[simp] theorem setHop_disps (s : State) (h d : Nat) (v : Hop) : (s.setHop h d v).disps = s.disps := (rfl)
@[simp] theorem setHop_links (s : State) (h d : Nat) (v : Hop) : (s.setHop h d v).links = s.links := (rfl)
@[simp] theorem setHop_cxls (s : State) (h d : Nat) (v : Hop) : (s.setHop h d v).cxls = s.cxls := (rfl)
@[simp] theorem setHop_ports (s : State) (h d : Nat) (v : Hop) : (s.setHop h d v).ports = s.ports := (rfl)
@[simp] theorem setHop_pkg (s : State) (h d : Nat) (v : Hop) : (s.setHop h d v).pkg = s.pkg := (rfl)
@[simp] theorem setHop_lh (s : State) (h d : Nat) (v : Hop) : (s.setHop h d v).lh = s.lh := (rfl)
@[simp] theorem setHop_sessions (s : State) (h d : Nat) (v : Hop) : (s.setHop h d v).sessions = s.sessions := (rfl)
@[simp] theorem setHop_phases (s : State) (h d : Nat) (v : Hop) : (s.setHop h d v).phases = s.phases := (rfl)
@[simp] theorem setHop_trust (s : State) (h d : Nat) (v : Hop) : (s.setHop h d v).trust = s.trust := (rfl)
@[simp] theorem setHop_nextTask (s : State) (h d : Nat) (v : Hop) : (s.setHop h d v).nextTask = s.nextTask := (rfl)
@[simp] theorem setHop_free (s : State) (h d : Nat) (v : Hop) : (s.setHop h d v).free = s.free := (rfl)
@[simp] theorem setHop_out (s : State) (h d : Nat) (v : Hop) : (s.setHop h d v).out = s.out := (rfl)
@[simp] theorem setHop_pending (s : State) (h d : Nat) (v : Hop) : (s.setHop h d v).pending = s.pending := (rfl)
@[simp] theorem reg_setHop (s : State) (h d : Nat) (v : Hop) (r' : RegId) : (s.setHop h d v).reg r' = s.reg r' := (rfl)
@[simp] theorem eng_setHop (s : State) (h d : Nat) (v : Hop) (x' : EngRef) : (s.setHop h d v).eng x' = s.eng x' := (rfl)
@[simp] theorem ring_setHop (s : State) (h d : Nat) (v : Hop) (g' n' : Nat) : (s.setHop h d v).ring g' n' = s.ring g' n' := (rfl)
@[simp] theorem chan_setHop (s : State) (h d : Nat) (v : Hop) (g' n' : Nat) : (s.setHop h d v).chan g' n' = s.chan g' n' := (rfl)
@[simp] theorem array_setHop (s : State) (h d : Nat) (v : Hop) (g' a' : Nat) : (s.setHop h d v).array g' a' = s.array g' a' := (rfl)
@[simp] theorem pool_setHop (s : State) (h d : Nat) (v : Hop) (p' t' : Nat) : (s.setHop h d v).pool p' t' = s.pool p' t' := (rfl)
@[simp] theorem disp_setHop (s : State) (h d : Nat) (v : Hop) (d' : Nat) : (s.setHop h d v).disp d' = s.disp d' := (rfl)
@[simp] theorem link_setHop (s : State) (h d : Nat) (v : Hop) (n' : Nat) : (s.setHop h d v).link n' = s.link n' := (rfl)
@[simp] theorem cxl_setHop (s : State) (h d : Nat) (v : Hop) (p' : Nat) : (s.setHop h d v).cxl p' = s.cxl p' := (rfl)
@[simp] theorem session_setHop (s : State) (h d : Nat) (v : Hop) (p' : Nat) : (s.setHop h d v).session p' = s.session p' := (rfl)
@[simp] theorem phase_setHop (s : State) (h d : Nat) (v : Hop) (p' : Nat) : (s.setHop h d v).phase p' = s.phase p' := (rfl)
@[simp] theorem rotationAt_setHop (s : State) (h d : Nat) (v : Hop) (g' : Nat) : (s.setHop h d v).rotationAt g' = s.rotationAt g' := (rfl)
@[simp] theorem turnAt_setHop (s : State) (h d : Nat) (v : Hop) (x' : EngRef) : (s.setHop h d v).turnAt x' = s.turnAt x' := (rfl)
@[simp] theorem port_setHop (s : State) (h d : Nat) (v : Hop) (p' : Port) : (s.setHop h d v).port p' = s.port p' := (rfl)
@[simp] theorem byteAt_setHop (s : State) (h d : Nat) (v : Hop) (a' : Nat) : (s.setHop h d v).byteAt a' = s.byteAt a' := (rfl)

/-! ## setDisp -/

@[simp] theorem setDisp_regs (s : State) (d : Nat) (v : Disp) : (s.setDisp d v).regs = s.regs := (rfl)
@[simp] theorem setDisp_mem (s : State) (d : Nat) (v : Disp) : (s.setDisp d v).mem = s.mem := (rfl)
@[simp] theorem setDisp_poison (s : State) (d : Nat) (v : Disp) : (s.setDisp d v).poison = s.poison := (rfl)
@[simp] theorem setDisp_struck (s : State) (d : Nat) (v : Disp) : (s.setDisp d v).struck = s.struck := (rfl)
@[simp] theorem setDisp_seals (s : State) (d : Nat) (v : Disp) : (s.setDisp d v).seals = s.seals := (rfl)
@[simp] theorem setDisp_tasks (s : State) (d : Nat) (v : Disp) : (s.setDisp d v).tasks = s.tasks := (rfl)
@[simp] theorem setDisp_engs (s : State) (d : Nat) (v : Disp) : (s.setDisp d v).engs = s.engs := (rfl)
@[simp] theorem setDisp_rings (s : State) (d : Nat) (v : Disp) : (s.setDisp d v).rings = s.rings := (rfl)
@[simp] theorem setDisp_chans (s : State) (d : Nat) (v : Disp) : (s.setDisp d v).chans = s.chans := (rfl)
@[simp] theorem setDisp_arrays (s : State) (d : Nat) (v : Disp) : (s.setDisp d v).arrays = s.arrays := (rfl)
@[simp] theorem setDisp_landed (s : State) (d : Nat) (v : Disp) : (s.setDisp d v).landed = s.landed := (rfl)
@[simp] theorem setDisp_rotation (s : State) (d : Nat) (v : Disp) : (s.setDisp d v).rotation = s.rotation := (rfl)
@[simp] theorem setDisp_turns (s : State) (d : Nat) (v : Disp) : (s.setDisp d v).turns = s.turns := (rfl)
@[simp] theorem setDisp_pools (s : State) (d : Nat) (v : Disp) : (s.setDisp d v).pools = s.pools := (rfl)
@[simp] theorem setDisp_frames (s : State) (d : Nat) (v : Disp) : (s.setDisp d v).frames = s.frames := (rfl)
@[simp] theorem setDisp_backlog (s : State) (d : Nat) (v : Disp) : (s.setDisp d v).backlog = s.backlog := (rfl)
@[simp] theorem setDisp_hops (s : State) (d : Nat) (v : Disp) : (s.setDisp d v).hops = s.hops := (rfl)
@[simp] theorem setDisp_links (s : State) (d : Nat) (v : Disp) : (s.setDisp d v).links = s.links := (rfl)
@[simp] theorem setDisp_cxls (s : State) (d : Nat) (v : Disp) : (s.setDisp d v).cxls = s.cxls := (rfl)
@[simp] theorem setDisp_ports (s : State) (d : Nat) (v : Disp) : (s.setDisp d v).ports = s.ports := (rfl)
@[simp] theorem setDisp_pkg (s : State) (d : Nat) (v : Disp) : (s.setDisp d v).pkg = s.pkg := (rfl)
@[simp] theorem setDisp_lh (s : State) (d : Nat) (v : Disp) : (s.setDisp d v).lh = s.lh := (rfl)
@[simp] theorem setDisp_sessions (s : State) (d : Nat) (v : Disp) : (s.setDisp d v).sessions = s.sessions := (rfl)
@[simp] theorem setDisp_phases (s : State) (d : Nat) (v : Disp) : (s.setDisp d v).phases = s.phases := (rfl)
@[simp] theorem setDisp_trust (s : State) (d : Nat) (v : Disp) : (s.setDisp d v).trust = s.trust := (rfl)
@[simp] theorem setDisp_nextTask (s : State) (d : Nat) (v : Disp) : (s.setDisp d v).nextTask = s.nextTask := (rfl)
@[simp] theorem setDisp_free (s : State) (d : Nat) (v : Disp) : (s.setDisp d v).free = s.free := (rfl)
@[simp] theorem setDisp_out (s : State) (d : Nat) (v : Disp) : (s.setDisp d v).out = s.out := (rfl)
@[simp] theorem setDisp_pending (s : State) (d : Nat) (v : Disp) : (s.setDisp d v).pending = s.pending := (rfl)
@[simp] theorem reg_setDisp (s : State) (d : Nat) (v : Disp) (r' : RegId) : (s.setDisp d v).reg r' = s.reg r' := (rfl)
@[simp] theorem eng_setDisp (s : State) (d : Nat) (v : Disp) (x' : EngRef) : (s.setDisp d v).eng x' = s.eng x' := (rfl)
@[simp] theorem ring_setDisp (s : State) (d : Nat) (v : Disp) (g' n' : Nat) : (s.setDisp d v).ring g' n' = s.ring g' n' := (rfl)
@[simp] theorem chan_setDisp (s : State) (d : Nat) (v : Disp) (g' n' : Nat) : (s.setDisp d v).chan g' n' = s.chan g' n' := (rfl)
@[simp] theorem array_setDisp (s : State) (d : Nat) (v : Disp) (g' a' : Nat) : (s.setDisp d v).array g' a' = s.array g' a' := (rfl)
@[simp] theorem pool_setDisp (s : State) (d : Nat) (v : Disp) (p' t' : Nat) : (s.setDisp d v).pool p' t' = s.pool p' t' := (rfl)
@[simp] theorem hop_setDisp (s : State) (d : Nat) (v : Disp) (h' d' : Nat) : (s.setDisp d v).hop h' d' = s.hop h' d' := (rfl)
@[simp] theorem link_setDisp (s : State) (d : Nat) (v : Disp) (n' : Nat) : (s.setDisp d v).link n' = s.link n' := (rfl)
@[simp] theorem cxl_setDisp (s : State) (d : Nat) (v : Disp) (p' : Nat) : (s.setDisp d v).cxl p' = s.cxl p' := (rfl)
@[simp] theorem session_setDisp (s : State) (d : Nat) (v : Disp) (p' : Nat) : (s.setDisp d v).session p' = s.session p' := (rfl)
@[simp] theorem phase_setDisp (s : State) (d : Nat) (v : Disp) (p' : Nat) : (s.setDisp d v).phase p' = s.phase p' := (rfl)
@[simp] theorem rotationAt_setDisp (s : State) (d : Nat) (v : Disp) (g' : Nat) : (s.setDisp d v).rotationAt g' = s.rotationAt g' := (rfl)
@[simp] theorem turnAt_setDisp (s : State) (d : Nat) (v : Disp) (x' : EngRef) : (s.setDisp d v).turnAt x' = s.turnAt x' := (rfl)
@[simp] theorem port_setDisp (s : State) (d : Nat) (v : Disp) (p' : Port) : (s.setDisp d v).port p' = s.port p' := (rfl)
@[simp] theorem byteAt_setDisp (s : State) (d : Nat) (v : Disp) (a' : Nat) : (s.setDisp d v).byteAt a' = s.byteAt a' := (rfl)

/-! ## setLink -/

@[simp] theorem setLink_regs (s : State) (n : Nat) (v : Link) : (s.setLink n v).regs = s.regs := (rfl)
@[simp] theorem setLink_mem (s : State) (n : Nat) (v : Link) : (s.setLink n v).mem = s.mem := (rfl)
@[simp] theorem setLink_poison (s : State) (n : Nat) (v : Link) : (s.setLink n v).poison = s.poison := (rfl)
@[simp] theorem setLink_struck (s : State) (n : Nat) (v : Link) : (s.setLink n v).struck = s.struck := (rfl)
@[simp] theorem setLink_seals (s : State) (n : Nat) (v : Link) : (s.setLink n v).seals = s.seals := (rfl)
@[simp] theorem setLink_tasks (s : State) (n : Nat) (v : Link) : (s.setLink n v).tasks = s.tasks := (rfl)
@[simp] theorem setLink_engs (s : State) (n : Nat) (v : Link) : (s.setLink n v).engs = s.engs := (rfl)
@[simp] theorem setLink_rings (s : State) (n : Nat) (v : Link) : (s.setLink n v).rings = s.rings := (rfl)
@[simp] theorem setLink_chans (s : State) (n : Nat) (v : Link) : (s.setLink n v).chans = s.chans := (rfl)
@[simp] theorem setLink_arrays (s : State) (n : Nat) (v : Link) : (s.setLink n v).arrays = s.arrays := (rfl)
@[simp] theorem setLink_landed (s : State) (n : Nat) (v : Link) : (s.setLink n v).landed = s.landed := (rfl)
@[simp] theorem setLink_rotation (s : State) (n : Nat) (v : Link) : (s.setLink n v).rotation = s.rotation := (rfl)
@[simp] theorem setLink_turns (s : State) (n : Nat) (v : Link) : (s.setLink n v).turns = s.turns := (rfl)
@[simp] theorem setLink_pools (s : State) (n : Nat) (v : Link) : (s.setLink n v).pools = s.pools := (rfl)
@[simp] theorem setLink_frames (s : State) (n : Nat) (v : Link) : (s.setLink n v).frames = s.frames := (rfl)
@[simp] theorem setLink_backlog (s : State) (n : Nat) (v : Link) : (s.setLink n v).backlog = s.backlog := (rfl)
@[simp] theorem setLink_hops (s : State) (n : Nat) (v : Link) : (s.setLink n v).hops = s.hops := (rfl)
@[simp] theorem setLink_disps (s : State) (n : Nat) (v : Link) : (s.setLink n v).disps = s.disps := (rfl)
@[simp] theorem setLink_cxls (s : State) (n : Nat) (v : Link) : (s.setLink n v).cxls = s.cxls := (rfl)
@[simp] theorem setLink_ports (s : State) (n : Nat) (v : Link) : (s.setLink n v).ports = s.ports := (rfl)
@[simp] theorem setLink_pkg (s : State) (n : Nat) (v : Link) : (s.setLink n v).pkg = s.pkg := (rfl)
@[simp] theorem setLink_lh (s : State) (n : Nat) (v : Link) : (s.setLink n v).lh = s.lh := (rfl)
@[simp] theorem setLink_sessions (s : State) (n : Nat) (v : Link) : (s.setLink n v).sessions = s.sessions := (rfl)
@[simp] theorem setLink_phases (s : State) (n : Nat) (v : Link) : (s.setLink n v).phases = s.phases := (rfl)
@[simp] theorem setLink_trust (s : State) (n : Nat) (v : Link) : (s.setLink n v).trust = s.trust := (rfl)
@[simp] theorem setLink_nextTask (s : State) (n : Nat) (v : Link) : (s.setLink n v).nextTask = s.nextTask := (rfl)
@[simp] theorem setLink_free (s : State) (n : Nat) (v : Link) : (s.setLink n v).free = s.free := (rfl)
@[simp] theorem setLink_out (s : State) (n : Nat) (v : Link) : (s.setLink n v).out = s.out := (rfl)
@[simp] theorem setLink_pending (s : State) (n : Nat) (v : Link) : (s.setLink n v).pending = s.pending := (rfl)
@[simp] theorem reg_setLink (s : State) (n : Nat) (v : Link) (r' : RegId) : (s.setLink n v).reg r' = s.reg r' := (rfl)
@[simp] theorem eng_setLink (s : State) (n : Nat) (v : Link) (x' : EngRef) : (s.setLink n v).eng x' = s.eng x' := (rfl)
@[simp] theorem ring_setLink (s : State) (n : Nat) (v : Link) (g' n' : Nat) : (s.setLink n v).ring g' n' = s.ring g' n' := (rfl)
@[simp] theorem chan_setLink (s : State) (n : Nat) (v : Link) (g' n' : Nat) : (s.setLink n v).chan g' n' = s.chan g' n' := (rfl)
@[simp] theorem array_setLink (s : State) (n : Nat) (v : Link) (g' a' : Nat) : (s.setLink n v).array g' a' = s.array g' a' := (rfl)
@[simp] theorem pool_setLink (s : State) (n : Nat) (v : Link) (p' t' : Nat) : (s.setLink n v).pool p' t' = s.pool p' t' := (rfl)
@[simp] theorem hop_setLink (s : State) (n : Nat) (v : Link) (h' d' : Nat) : (s.setLink n v).hop h' d' = s.hop h' d' := (rfl)
@[simp] theorem disp_setLink (s : State) (n : Nat) (v : Link) (d' : Nat) : (s.setLink n v).disp d' = s.disp d' := (rfl)
@[simp] theorem cxl_setLink (s : State) (n : Nat) (v : Link) (p' : Nat) : (s.setLink n v).cxl p' = s.cxl p' := (rfl)
@[simp] theorem session_setLink (s : State) (n : Nat) (v : Link) (p' : Nat) : (s.setLink n v).session p' = s.session p' := (rfl)
@[simp] theorem phase_setLink (s : State) (n : Nat) (v : Link) (p' : Nat) : (s.setLink n v).phase p' = s.phase p' := (rfl)
@[simp] theorem rotationAt_setLink (s : State) (n : Nat) (v : Link) (g' : Nat) : (s.setLink n v).rotationAt g' = s.rotationAt g' := (rfl)
@[simp] theorem turnAt_setLink (s : State) (n : Nat) (v : Link) (x' : EngRef) : (s.setLink n v).turnAt x' = s.turnAt x' := (rfl)
@[simp] theorem port_setLink (s : State) (n : Nat) (v : Link) (p' : Port) : (s.setLink n v).port p' = s.port p' := (rfl)
@[simp] theorem byteAt_setLink (s : State) (n : Nat) (v : Link) (a' : Nat) : (s.setLink n v).byteAt a' = s.byteAt a' := (rfl)

/-! ## setCxl -/

@[simp] theorem setCxl_regs (s : State) (p : Nat) (v : CxlPort) : (s.setCxl p v).regs = s.regs := (rfl)
@[simp] theorem setCxl_mem (s : State) (p : Nat) (v : CxlPort) : (s.setCxl p v).mem = s.mem := (rfl)
@[simp] theorem setCxl_poison (s : State) (p : Nat) (v : CxlPort) : (s.setCxl p v).poison = s.poison := (rfl)
@[simp] theorem setCxl_struck (s : State) (p : Nat) (v : CxlPort) : (s.setCxl p v).struck = s.struck := (rfl)
@[simp] theorem setCxl_seals (s : State) (p : Nat) (v : CxlPort) : (s.setCxl p v).seals = s.seals := (rfl)
@[simp] theorem setCxl_tasks (s : State) (p : Nat) (v : CxlPort) : (s.setCxl p v).tasks = s.tasks := (rfl)
@[simp] theorem setCxl_engs (s : State) (p : Nat) (v : CxlPort) : (s.setCxl p v).engs = s.engs := (rfl)
@[simp] theorem setCxl_rings (s : State) (p : Nat) (v : CxlPort) : (s.setCxl p v).rings = s.rings := (rfl)
@[simp] theorem setCxl_chans (s : State) (p : Nat) (v : CxlPort) : (s.setCxl p v).chans = s.chans := (rfl)
@[simp] theorem setCxl_arrays (s : State) (p : Nat) (v : CxlPort) : (s.setCxl p v).arrays = s.arrays := (rfl)
@[simp] theorem setCxl_landed (s : State) (p : Nat) (v : CxlPort) : (s.setCxl p v).landed = s.landed := (rfl)
@[simp] theorem setCxl_rotation (s : State) (p : Nat) (v : CxlPort) : (s.setCxl p v).rotation = s.rotation := (rfl)
@[simp] theorem setCxl_turns (s : State) (p : Nat) (v : CxlPort) : (s.setCxl p v).turns = s.turns := (rfl)
@[simp] theorem setCxl_pools (s : State) (p : Nat) (v : CxlPort) : (s.setCxl p v).pools = s.pools := (rfl)
@[simp] theorem setCxl_frames (s : State) (p : Nat) (v : CxlPort) : (s.setCxl p v).frames = s.frames := (rfl)
@[simp] theorem setCxl_backlog (s : State) (p : Nat) (v : CxlPort) : (s.setCxl p v).backlog = s.backlog := (rfl)
@[simp] theorem setCxl_hops (s : State) (p : Nat) (v : CxlPort) : (s.setCxl p v).hops = s.hops := (rfl)
@[simp] theorem setCxl_disps (s : State) (p : Nat) (v : CxlPort) : (s.setCxl p v).disps = s.disps := (rfl)
@[simp] theorem setCxl_links (s : State) (p : Nat) (v : CxlPort) : (s.setCxl p v).links = s.links := (rfl)
@[simp] theorem setCxl_ports (s : State) (p : Nat) (v : CxlPort) : (s.setCxl p v).ports = s.ports := (rfl)
@[simp] theorem setCxl_pkg (s : State) (p : Nat) (v : CxlPort) : (s.setCxl p v).pkg = s.pkg := (rfl)
@[simp] theorem setCxl_lh (s : State) (p : Nat) (v : CxlPort) : (s.setCxl p v).lh = s.lh := (rfl)
@[simp] theorem setCxl_sessions (s : State) (p : Nat) (v : CxlPort) : (s.setCxl p v).sessions = s.sessions := (rfl)
@[simp] theorem setCxl_phases (s : State) (p : Nat) (v : CxlPort) : (s.setCxl p v).phases = s.phases := (rfl)
@[simp] theorem setCxl_trust (s : State) (p : Nat) (v : CxlPort) : (s.setCxl p v).trust = s.trust := (rfl)
@[simp] theorem setCxl_nextTask (s : State) (p : Nat) (v : CxlPort) : (s.setCxl p v).nextTask = s.nextTask := (rfl)
@[simp] theorem setCxl_free (s : State) (p : Nat) (v : CxlPort) : (s.setCxl p v).free = s.free := (rfl)
@[simp] theorem setCxl_out (s : State) (p : Nat) (v : CxlPort) : (s.setCxl p v).out = s.out := (rfl)
@[simp] theorem setCxl_pending (s : State) (p : Nat) (v : CxlPort) : (s.setCxl p v).pending = s.pending := (rfl)
@[simp] theorem reg_setCxl (s : State) (p : Nat) (v : CxlPort) (r' : RegId) : (s.setCxl p v).reg r' = s.reg r' := (rfl)
@[simp] theorem eng_setCxl (s : State) (p : Nat) (v : CxlPort) (x' : EngRef) : (s.setCxl p v).eng x' = s.eng x' := (rfl)
@[simp] theorem ring_setCxl (s : State) (p : Nat) (v : CxlPort) (g' n' : Nat) : (s.setCxl p v).ring g' n' = s.ring g' n' := (rfl)
@[simp] theorem chan_setCxl (s : State) (p : Nat) (v : CxlPort) (g' n' : Nat) : (s.setCxl p v).chan g' n' = s.chan g' n' := (rfl)
@[simp] theorem array_setCxl (s : State) (p : Nat) (v : CxlPort) (g' a' : Nat) : (s.setCxl p v).array g' a' = s.array g' a' := (rfl)
@[simp] theorem pool_setCxl (s : State) (p : Nat) (v : CxlPort) (p' t' : Nat) : (s.setCxl p v).pool p' t' = s.pool p' t' := (rfl)
@[simp] theorem hop_setCxl (s : State) (p : Nat) (v : CxlPort) (h' d' : Nat) : (s.setCxl p v).hop h' d' = s.hop h' d' := (rfl)
@[simp] theorem disp_setCxl (s : State) (p : Nat) (v : CxlPort) (d' : Nat) : (s.setCxl p v).disp d' = s.disp d' := (rfl)
@[simp] theorem link_setCxl (s : State) (p : Nat) (v : CxlPort) (n' : Nat) : (s.setCxl p v).link n' = s.link n' := (rfl)
@[simp] theorem session_setCxl (s : State) (p : Nat) (v : CxlPort) (p' : Nat) : (s.setCxl p v).session p' = s.session p' := (rfl)
@[simp] theorem phase_setCxl (s : State) (p : Nat) (v : CxlPort) (p' : Nat) : (s.setCxl p v).phase p' = s.phase p' := (rfl)
@[simp] theorem rotationAt_setCxl (s : State) (p : Nat) (v : CxlPort) (g' : Nat) : (s.setCxl p v).rotationAt g' = s.rotationAt g' := (rfl)
@[simp] theorem turnAt_setCxl (s : State) (p : Nat) (v : CxlPort) (x' : EngRef) : (s.setCxl p v).turnAt x' = s.turnAt x' := (rfl)
@[simp] theorem port_setCxl (s : State) (p : Nat) (v : CxlPort) (p' : Port) : (s.setCxl p v).port p' = s.port p' := (rfl)
@[simp] theorem byteAt_setCxl (s : State) (p : Nat) (v : CxlPort) (a' : Nat) : (s.setCxl p v).byteAt a' = s.byteAt a' := (rfl)

/-! ## setSession -/

@[simp] theorem setSession_regs (s : State) (p : Nat) (v : Session) : (s.setSession p v).regs = s.regs := (rfl)
@[simp] theorem setSession_mem (s : State) (p : Nat) (v : Session) : (s.setSession p v).mem = s.mem := (rfl)
@[simp] theorem setSession_poison (s : State) (p : Nat) (v : Session) : (s.setSession p v).poison = s.poison := (rfl)
@[simp] theorem setSession_struck (s : State) (p : Nat) (v : Session) : (s.setSession p v).struck = s.struck := (rfl)
@[simp] theorem setSession_seals (s : State) (p : Nat) (v : Session) : (s.setSession p v).seals = s.seals := (rfl)
@[simp] theorem setSession_tasks (s : State) (p : Nat) (v : Session) : (s.setSession p v).tasks = s.tasks := (rfl)
@[simp] theorem setSession_engs (s : State) (p : Nat) (v : Session) : (s.setSession p v).engs = s.engs := (rfl)
@[simp] theorem setSession_rings (s : State) (p : Nat) (v : Session) : (s.setSession p v).rings = s.rings := (rfl)
@[simp] theorem setSession_chans (s : State) (p : Nat) (v : Session) : (s.setSession p v).chans = s.chans := (rfl)
@[simp] theorem setSession_arrays (s : State) (p : Nat) (v : Session) : (s.setSession p v).arrays = s.arrays := (rfl)
@[simp] theorem setSession_landed (s : State) (p : Nat) (v : Session) : (s.setSession p v).landed = s.landed := (rfl)
@[simp] theorem setSession_rotation (s : State) (p : Nat) (v : Session) : (s.setSession p v).rotation = s.rotation := (rfl)
@[simp] theorem setSession_turns (s : State) (p : Nat) (v : Session) : (s.setSession p v).turns = s.turns := (rfl)
@[simp] theorem setSession_pools (s : State) (p : Nat) (v : Session) : (s.setSession p v).pools = s.pools := (rfl)
@[simp] theorem setSession_frames (s : State) (p : Nat) (v : Session) : (s.setSession p v).frames = s.frames := (rfl)
@[simp] theorem setSession_backlog (s : State) (p : Nat) (v : Session) : (s.setSession p v).backlog = s.backlog := (rfl)
@[simp] theorem setSession_hops (s : State) (p : Nat) (v : Session) : (s.setSession p v).hops = s.hops := (rfl)
@[simp] theorem setSession_disps (s : State) (p : Nat) (v : Session) : (s.setSession p v).disps = s.disps := (rfl)
@[simp] theorem setSession_links (s : State) (p : Nat) (v : Session) : (s.setSession p v).links = s.links := (rfl)
@[simp] theorem setSession_cxls (s : State) (p : Nat) (v : Session) : (s.setSession p v).cxls = s.cxls := (rfl)
@[simp] theorem setSession_ports (s : State) (p : Nat) (v : Session) : (s.setSession p v).ports = s.ports := (rfl)
@[simp] theorem setSession_pkg (s : State) (p : Nat) (v : Session) : (s.setSession p v).pkg = s.pkg := (rfl)
@[simp] theorem setSession_lh (s : State) (p : Nat) (v : Session) : (s.setSession p v).lh = s.lh := (rfl)
@[simp] theorem setSession_phases (s : State) (p : Nat) (v : Session) : (s.setSession p v).phases = s.phases := (rfl)
@[simp] theorem setSession_trust (s : State) (p : Nat) (v : Session) : (s.setSession p v).trust = s.trust := (rfl)
@[simp] theorem setSession_nextTask (s : State) (p : Nat) (v : Session) : (s.setSession p v).nextTask = s.nextTask := (rfl)
@[simp] theorem setSession_free (s : State) (p : Nat) (v : Session) : (s.setSession p v).free = s.free := (rfl)
@[simp] theorem setSession_out (s : State) (p : Nat) (v : Session) : (s.setSession p v).out = s.out := (rfl)
@[simp] theorem setSession_pending (s : State) (p : Nat) (v : Session) : (s.setSession p v).pending = s.pending := (rfl)
@[simp] theorem reg_setSession (s : State) (p : Nat) (v : Session) (r' : RegId) : (s.setSession p v).reg r' = s.reg r' := (rfl)
@[simp] theorem eng_setSession (s : State) (p : Nat) (v : Session) (x' : EngRef) : (s.setSession p v).eng x' = s.eng x' := (rfl)
@[simp] theorem ring_setSession (s : State) (p : Nat) (v : Session) (g' n' : Nat) : (s.setSession p v).ring g' n' = s.ring g' n' := (rfl)
@[simp] theorem chan_setSession (s : State) (p : Nat) (v : Session) (g' n' : Nat) : (s.setSession p v).chan g' n' = s.chan g' n' := (rfl)
@[simp] theorem array_setSession (s : State) (p : Nat) (v : Session) (g' a' : Nat) : (s.setSession p v).array g' a' = s.array g' a' := (rfl)
@[simp] theorem pool_setSession (s : State) (p : Nat) (v : Session) (p' t' : Nat) : (s.setSession p v).pool p' t' = s.pool p' t' := (rfl)
@[simp] theorem hop_setSession (s : State) (p : Nat) (v : Session) (h' d' : Nat) : (s.setSession p v).hop h' d' = s.hop h' d' := (rfl)
@[simp] theorem disp_setSession (s : State) (p : Nat) (v : Session) (d' : Nat) : (s.setSession p v).disp d' = s.disp d' := (rfl)
@[simp] theorem link_setSession (s : State) (p : Nat) (v : Session) (n' : Nat) : (s.setSession p v).link n' = s.link n' := (rfl)
@[simp] theorem cxl_setSession (s : State) (p : Nat) (v : Session) (p' : Nat) : (s.setSession p v).cxl p' = s.cxl p' := (rfl)
@[simp] theorem phase_setSession (s : State) (p : Nat) (v : Session) (p' : Nat) : (s.setSession p v).phase p' = s.phase p' := (rfl)
@[simp] theorem rotationAt_setSession (s : State) (p : Nat) (v : Session) (g' : Nat) : (s.setSession p v).rotationAt g' = s.rotationAt g' := (rfl)
@[simp] theorem turnAt_setSession (s : State) (p : Nat) (v : Session) (x' : EngRef) : (s.setSession p v).turnAt x' = s.turnAt x' := (rfl)
@[simp] theorem port_setSession (s : State) (p : Nat) (v : Session) (p' : Port) : (s.setSession p v).port p' = s.port p' := (rfl)
@[simp] theorem byteAt_setSession (s : State) (p : Nat) (v : Session) (a' : Nat) : (s.setSession p v).byteAt a' = s.byteAt a' := (rfl)

/-! ## setPhase -/

@[simp] theorem setPhase_regs (s : State) (p : Nat) (v : Phase) : (s.setPhase p v).regs = s.regs := (rfl)
@[simp] theorem setPhase_mem (s : State) (p : Nat) (v : Phase) : (s.setPhase p v).mem = s.mem := (rfl)
@[simp] theorem setPhase_poison (s : State) (p : Nat) (v : Phase) : (s.setPhase p v).poison = s.poison := (rfl)
@[simp] theorem setPhase_struck (s : State) (p : Nat) (v : Phase) : (s.setPhase p v).struck = s.struck := (rfl)
@[simp] theorem setPhase_seals (s : State) (p : Nat) (v : Phase) : (s.setPhase p v).seals = s.seals := (rfl)
@[simp] theorem setPhase_tasks (s : State) (p : Nat) (v : Phase) : (s.setPhase p v).tasks = s.tasks := (rfl)
@[simp] theorem setPhase_engs (s : State) (p : Nat) (v : Phase) : (s.setPhase p v).engs = s.engs := (rfl)
@[simp] theorem setPhase_rings (s : State) (p : Nat) (v : Phase) : (s.setPhase p v).rings = s.rings := (rfl)
@[simp] theorem setPhase_chans (s : State) (p : Nat) (v : Phase) : (s.setPhase p v).chans = s.chans := (rfl)
@[simp] theorem setPhase_arrays (s : State) (p : Nat) (v : Phase) : (s.setPhase p v).arrays = s.arrays := (rfl)
@[simp] theorem setPhase_landed (s : State) (p : Nat) (v : Phase) : (s.setPhase p v).landed = s.landed := (rfl)
@[simp] theorem setPhase_rotation (s : State) (p : Nat) (v : Phase) : (s.setPhase p v).rotation = s.rotation := (rfl)
@[simp] theorem setPhase_turns (s : State) (p : Nat) (v : Phase) : (s.setPhase p v).turns = s.turns := (rfl)
@[simp] theorem setPhase_pools (s : State) (p : Nat) (v : Phase) : (s.setPhase p v).pools = s.pools := (rfl)
@[simp] theorem setPhase_frames (s : State) (p : Nat) (v : Phase) : (s.setPhase p v).frames = s.frames := (rfl)
@[simp] theorem setPhase_backlog (s : State) (p : Nat) (v : Phase) : (s.setPhase p v).backlog = s.backlog := (rfl)
@[simp] theorem setPhase_hops (s : State) (p : Nat) (v : Phase) : (s.setPhase p v).hops = s.hops := (rfl)
@[simp] theorem setPhase_disps (s : State) (p : Nat) (v : Phase) : (s.setPhase p v).disps = s.disps := (rfl)
@[simp] theorem setPhase_links (s : State) (p : Nat) (v : Phase) : (s.setPhase p v).links = s.links := (rfl)
@[simp] theorem setPhase_cxls (s : State) (p : Nat) (v : Phase) : (s.setPhase p v).cxls = s.cxls := (rfl)
@[simp] theorem setPhase_ports (s : State) (p : Nat) (v : Phase) : (s.setPhase p v).ports = s.ports := (rfl)
@[simp] theorem setPhase_pkg (s : State) (p : Nat) (v : Phase) : (s.setPhase p v).pkg = s.pkg := (rfl)
@[simp] theorem setPhase_lh (s : State) (p : Nat) (v : Phase) : (s.setPhase p v).lh = s.lh := (rfl)
@[simp] theorem setPhase_sessions (s : State) (p : Nat) (v : Phase) : (s.setPhase p v).sessions = s.sessions := (rfl)
@[simp] theorem setPhase_trust (s : State) (p : Nat) (v : Phase) : (s.setPhase p v).trust = s.trust := (rfl)
@[simp] theorem setPhase_nextTask (s : State) (p : Nat) (v : Phase) : (s.setPhase p v).nextTask = s.nextTask := (rfl)
@[simp] theorem setPhase_free (s : State) (p : Nat) (v : Phase) : (s.setPhase p v).free = s.free := (rfl)
@[simp] theorem setPhase_out (s : State) (p : Nat) (v : Phase) : (s.setPhase p v).out = s.out := (rfl)
@[simp] theorem setPhase_pending (s : State) (p : Nat) (v : Phase) : (s.setPhase p v).pending = s.pending := (rfl)
@[simp] theorem reg_setPhase (s : State) (p : Nat) (v : Phase) (r' : RegId) : (s.setPhase p v).reg r' = s.reg r' := (rfl)
@[simp] theorem eng_setPhase (s : State) (p : Nat) (v : Phase) (x' : EngRef) : (s.setPhase p v).eng x' = s.eng x' := (rfl)
@[simp] theorem ring_setPhase (s : State) (p : Nat) (v : Phase) (g' n' : Nat) : (s.setPhase p v).ring g' n' = s.ring g' n' := (rfl)
@[simp] theorem chan_setPhase (s : State) (p : Nat) (v : Phase) (g' n' : Nat) : (s.setPhase p v).chan g' n' = s.chan g' n' := (rfl)
@[simp] theorem array_setPhase (s : State) (p : Nat) (v : Phase) (g' a' : Nat) : (s.setPhase p v).array g' a' = s.array g' a' := (rfl)
@[simp] theorem pool_setPhase (s : State) (p : Nat) (v : Phase) (p' t' : Nat) : (s.setPhase p v).pool p' t' = s.pool p' t' := (rfl)
@[simp] theorem hop_setPhase (s : State) (p : Nat) (v : Phase) (h' d' : Nat) : (s.setPhase p v).hop h' d' = s.hop h' d' := (rfl)
@[simp] theorem disp_setPhase (s : State) (p : Nat) (v : Phase) (d' : Nat) : (s.setPhase p v).disp d' = s.disp d' := (rfl)
@[simp] theorem link_setPhase (s : State) (p : Nat) (v : Phase) (n' : Nat) : (s.setPhase p v).link n' = s.link n' := (rfl)
@[simp] theorem cxl_setPhase (s : State) (p : Nat) (v : Phase) (p' : Nat) : (s.setPhase p v).cxl p' = s.cxl p' := (rfl)
@[simp] theorem session_setPhase (s : State) (p : Nat) (v : Phase) (p' : Nat) : (s.setPhase p v).session p' = s.session p' := (rfl)
@[simp] theorem rotationAt_setPhase (s : State) (p : Nat) (v : Phase) (g' : Nat) : (s.setPhase p v).rotationAt g' = s.rotationAt g' := (rfl)
@[simp] theorem turnAt_setPhase (s : State) (p : Nat) (v : Phase) (x' : EngRef) : (s.setPhase p v).turnAt x' = s.turnAt x' := (rfl)
@[simp] theorem port_setPhase (s : State) (p : Nat) (v : Phase) (p' : Port) : (s.setPhase p v).port p' = s.port p' := (rfl)
@[simp] theorem byteAt_setPhase (s : State) (p : Nat) (v : Phase) (a' : Nat) : (s.setPhase p v).byteAt a' = s.byteAt a' := (rfl)

/-! ## setRotation -/

@[simp] theorem setRotation_regs (s : State) (g v : Nat) : (s.setRotation g v).regs = s.regs := (rfl)
@[simp] theorem setRotation_mem (s : State) (g v : Nat) : (s.setRotation g v).mem = s.mem := (rfl)
@[simp] theorem setRotation_poison (s : State) (g v : Nat) : (s.setRotation g v).poison = s.poison := (rfl)
@[simp] theorem setRotation_struck (s : State) (g v : Nat) : (s.setRotation g v).struck = s.struck := (rfl)
@[simp] theorem setRotation_seals (s : State) (g v : Nat) : (s.setRotation g v).seals = s.seals := (rfl)
@[simp] theorem setRotation_tasks (s : State) (g v : Nat) : (s.setRotation g v).tasks = s.tasks := (rfl)
@[simp] theorem setRotation_engs (s : State) (g v : Nat) : (s.setRotation g v).engs = s.engs := (rfl)
@[simp] theorem setRotation_rings (s : State) (g v : Nat) : (s.setRotation g v).rings = s.rings := (rfl)
@[simp] theorem setRotation_chans (s : State) (g v : Nat) : (s.setRotation g v).chans = s.chans := (rfl)
@[simp] theorem setRotation_arrays (s : State) (g v : Nat) : (s.setRotation g v).arrays = s.arrays := (rfl)
@[simp] theorem setRotation_landed (s : State) (g v : Nat) : (s.setRotation g v).landed = s.landed := (rfl)
@[simp] theorem setRotation_turns (s : State) (g v : Nat) : (s.setRotation g v).turns = s.turns := (rfl)
@[simp] theorem setRotation_pools (s : State) (g v : Nat) : (s.setRotation g v).pools = s.pools := (rfl)
@[simp] theorem setRotation_frames (s : State) (g v : Nat) : (s.setRotation g v).frames = s.frames := (rfl)
@[simp] theorem setRotation_backlog (s : State) (g v : Nat) : (s.setRotation g v).backlog = s.backlog := (rfl)
@[simp] theorem setRotation_hops (s : State) (g v : Nat) : (s.setRotation g v).hops = s.hops := (rfl)
@[simp] theorem setRotation_disps (s : State) (g v : Nat) : (s.setRotation g v).disps = s.disps := (rfl)
@[simp] theorem setRotation_links (s : State) (g v : Nat) : (s.setRotation g v).links = s.links := (rfl)
@[simp] theorem setRotation_cxls (s : State) (g v : Nat) : (s.setRotation g v).cxls = s.cxls := (rfl)
@[simp] theorem setRotation_ports (s : State) (g v : Nat) : (s.setRotation g v).ports = s.ports := (rfl)
@[simp] theorem setRotation_pkg (s : State) (g v : Nat) : (s.setRotation g v).pkg = s.pkg := (rfl)
@[simp] theorem setRotation_lh (s : State) (g v : Nat) : (s.setRotation g v).lh = s.lh := (rfl)
@[simp] theorem setRotation_sessions (s : State) (g v : Nat) : (s.setRotation g v).sessions = s.sessions := (rfl)
@[simp] theorem setRotation_phases (s : State) (g v : Nat) : (s.setRotation g v).phases = s.phases := (rfl)
@[simp] theorem setRotation_trust (s : State) (g v : Nat) : (s.setRotation g v).trust = s.trust := (rfl)
@[simp] theorem setRotation_nextTask (s : State) (g v : Nat) : (s.setRotation g v).nextTask = s.nextTask := (rfl)
@[simp] theorem setRotation_free (s : State) (g v : Nat) : (s.setRotation g v).free = s.free := (rfl)
@[simp] theorem setRotation_out (s : State) (g v : Nat) : (s.setRotation g v).out = s.out := (rfl)
@[simp] theorem setRotation_pending (s : State) (g v : Nat) : (s.setRotation g v).pending = s.pending := (rfl)
@[simp] theorem reg_setRotation (s : State) (g v : Nat) (r' : RegId) : (s.setRotation g v).reg r' = s.reg r' := (rfl)
@[simp] theorem eng_setRotation (s : State) (g v : Nat) (x' : EngRef) : (s.setRotation g v).eng x' = s.eng x' := (rfl)
@[simp] theorem ring_setRotation (s : State) (g v : Nat) (g' n' : Nat) : (s.setRotation g v).ring g' n' = s.ring g' n' := (rfl)
@[simp] theorem chan_setRotation (s : State) (g v : Nat) (g' n' : Nat) : (s.setRotation g v).chan g' n' = s.chan g' n' := (rfl)
@[simp] theorem array_setRotation (s : State) (g v : Nat) (g' a' : Nat) : (s.setRotation g v).array g' a' = s.array g' a' := (rfl)
@[simp] theorem pool_setRotation (s : State) (g v : Nat) (p' t' : Nat) : (s.setRotation g v).pool p' t' = s.pool p' t' := (rfl)
@[simp] theorem hop_setRotation (s : State) (g v : Nat) (h' d' : Nat) : (s.setRotation g v).hop h' d' = s.hop h' d' := (rfl)
@[simp] theorem disp_setRotation (s : State) (g v : Nat) (d' : Nat) : (s.setRotation g v).disp d' = s.disp d' := (rfl)
@[simp] theorem link_setRotation (s : State) (g v : Nat) (n' : Nat) : (s.setRotation g v).link n' = s.link n' := (rfl)
@[simp] theorem cxl_setRotation (s : State) (g v : Nat) (p' : Nat) : (s.setRotation g v).cxl p' = s.cxl p' := (rfl)
@[simp] theorem session_setRotation (s : State) (g v : Nat) (p' : Nat) : (s.setRotation g v).session p' = s.session p' := (rfl)
@[simp] theorem phase_setRotation (s : State) (g v : Nat) (p' : Nat) : (s.setRotation g v).phase p' = s.phase p' := (rfl)
@[simp] theorem turnAt_setRotation (s : State) (g v : Nat) (x' : EngRef) : (s.setRotation g v).turnAt x' = s.turnAt x' := (rfl)
@[simp] theorem port_setRotation (s : State) (g v : Nat) (p' : Port) : (s.setRotation g v).port p' = s.port p' := (rfl)
@[simp] theorem byteAt_setRotation (s : State) (g v : Nat) (a' : Nat) : (s.setRotation g v).byteAt a' = s.byteAt a' := (rfl)

/-! ## setTurn -/

@[simp] theorem setTurn_regs (s : State) (x : EngRef) (v : Nat) : (s.setTurn x v).regs = s.regs := (rfl)
@[simp] theorem setTurn_mem (s : State) (x : EngRef) (v : Nat) : (s.setTurn x v).mem = s.mem := (rfl)
@[simp] theorem setTurn_poison (s : State) (x : EngRef) (v : Nat) : (s.setTurn x v).poison = s.poison := (rfl)
@[simp] theorem setTurn_struck (s : State) (x : EngRef) (v : Nat) : (s.setTurn x v).struck = s.struck := (rfl)
@[simp] theorem setTurn_seals (s : State) (x : EngRef) (v : Nat) : (s.setTurn x v).seals = s.seals := (rfl)
@[simp] theorem setTurn_tasks (s : State) (x : EngRef) (v : Nat) : (s.setTurn x v).tasks = s.tasks := (rfl)
@[simp] theorem setTurn_engs (s : State) (x : EngRef) (v : Nat) : (s.setTurn x v).engs = s.engs := (rfl)
@[simp] theorem setTurn_rings (s : State) (x : EngRef) (v : Nat) : (s.setTurn x v).rings = s.rings := (rfl)
@[simp] theorem setTurn_chans (s : State) (x : EngRef) (v : Nat) : (s.setTurn x v).chans = s.chans := (rfl)
@[simp] theorem setTurn_arrays (s : State) (x : EngRef) (v : Nat) : (s.setTurn x v).arrays = s.arrays := (rfl)
@[simp] theorem setTurn_landed (s : State) (x : EngRef) (v : Nat) : (s.setTurn x v).landed = s.landed := (rfl)
@[simp] theorem setTurn_rotation (s : State) (x : EngRef) (v : Nat) : (s.setTurn x v).rotation = s.rotation := (rfl)
@[simp] theorem setTurn_pools (s : State) (x : EngRef) (v : Nat) : (s.setTurn x v).pools = s.pools := (rfl)
@[simp] theorem setTurn_frames (s : State) (x : EngRef) (v : Nat) : (s.setTurn x v).frames = s.frames := (rfl)
@[simp] theorem setTurn_backlog (s : State) (x : EngRef) (v : Nat) : (s.setTurn x v).backlog = s.backlog := (rfl)
@[simp] theorem setTurn_hops (s : State) (x : EngRef) (v : Nat) : (s.setTurn x v).hops = s.hops := (rfl)
@[simp] theorem setTurn_disps (s : State) (x : EngRef) (v : Nat) : (s.setTurn x v).disps = s.disps := (rfl)
@[simp] theorem setTurn_links (s : State) (x : EngRef) (v : Nat) : (s.setTurn x v).links = s.links := (rfl)
@[simp] theorem setTurn_cxls (s : State) (x : EngRef) (v : Nat) : (s.setTurn x v).cxls = s.cxls := (rfl)
@[simp] theorem setTurn_ports (s : State) (x : EngRef) (v : Nat) : (s.setTurn x v).ports = s.ports := (rfl)
@[simp] theorem setTurn_pkg (s : State) (x : EngRef) (v : Nat) : (s.setTurn x v).pkg = s.pkg := (rfl)
@[simp] theorem setTurn_lh (s : State) (x : EngRef) (v : Nat) : (s.setTurn x v).lh = s.lh := (rfl)
@[simp] theorem setTurn_sessions (s : State) (x : EngRef) (v : Nat) : (s.setTurn x v).sessions = s.sessions := (rfl)
@[simp] theorem setTurn_phases (s : State) (x : EngRef) (v : Nat) : (s.setTurn x v).phases = s.phases := (rfl)
@[simp] theorem setTurn_trust (s : State) (x : EngRef) (v : Nat) : (s.setTurn x v).trust = s.trust := (rfl)
@[simp] theorem setTurn_nextTask (s : State) (x : EngRef) (v : Nat) : (s.setTurn x v).nextTask = s.nextTask := (rfl)
@[simp] theorem setTurn_free (s : State) (x : EngRef) (v : Nat) : (s.setTurn x v).free = s.free := (rfl)
@[simp] theorem setTurn_out (s : State) (x : EngRef) (v : Nat) : (s.setTurn x v).out = s.out := (rfl)
@[simp] theorem setTurn_pending (s : State) (x : EngRef) (v : Nat) : (s.setTurn x v).pending = s.pending := (rfl)
@[simp] theorem reg_setTurn (s : State) (x : EngRef) (v : Nat) (r' : RegId) : (s.setTurn x v).reg r' = s.reg r' := (rfl)
@[simp] theorem eng_setTurn (s : State) (x : EngRef) (v : Nat) (x' : EngRef) : (s.setTurn x v).eng x' = s.eng x' := (rfl)
@[simp] theorem ring_setTurn (s : State) (x : EngRef) (v : Nat) (g' n' : Nat) : (s.setTurn x v).ring g' n' = s.ring g' n' := (rfl)
@[simp] theorem chan_setTurn (s : State) (x : EngRef) (v : Nat) (g' n' : Nat) : (s.setTurn x v).chan g' n' = s.chan g' n' := (rfl)
@[simp] theorem array_setTurn (s : State) (x : EngRef) (v : Nat) (g' a' : Nat) : (s.setTurn x v).array g' a' = s.array g' a' := (rfl)
@[simp] theorem pool_setTurn (s : State) (x : EngRef) (v : Nat) (p' t' : Nat) : (s.setTurn x v).pool p' t' = s.pool p' t' := (rfl)
@[simp] theorem hop_setTurn (s : State) (x : EngRef) (v : Nat) (h' d' : Nat) : (s.setTurn x v).hop h' d' = s.hop h' d' := (rfl)
@[simp] theorem disp_setTurn (s : State) (x : EngRef) (v : Nat) (d' : Nat) : (s.setTurn x v).disp d' = s.disp d' := (rfl)
@[simp] theorem link_setTurn (s : State) (x : EngRef) (v : Nat) (n' : Nat) : (s.setTurn x v).link n' = s.link n' := (rfl)
@[simp] theorem cxl_setTurn (s : State) (x : EngRef) (v : Nat) (p' : Nat) : (s.setTurn x v).cxl p' = s.cxl p' := (rfl)
@[simp] theorem session_setTurn (s : State) (x : EngRef) (v : Nat) (p' : Nat) : (s.setTurn x v).session p' = s.session p' := (rfl)
@[simp] theorem phase_setTurn (s : State) (x : EngRef) (v : Nat) (p' : Nat) : (s.setTurn x v).phase p' = s.phase p' := (rfl)
@[simp] theorem rotationAt_setTurn (s : State) (x : EngRef) (v : Nat) (g' : Nat) : (s.setTurn x v).rotationAt g' = s.rotationAt g' := (rfl)
@[simp] theorem port_setTurn (s : State) (x : EngRef) (v : Nat) (p' : Port) : (s.setTurn x v).port p' = s.port p' := (rfl)
@[simp] theorem byteAt_setTurn (s : State) (x : EngRef) (v : Nat) (a' : Nat) : (s.setTurn x v).byteAt a' = s.byteAt a' := (rfl)

/-! ## setPort -/

@[simp] theorem setPort_regs (s : State) (p : Port) (v : HostPort) : (s.setPort p v).regs = s.regs := by cases p <;> rfl
@[simp] theorem setPort_mem (s : State) (p : Port) (v : HostPort) : (s.setPort p v).mem = s.mem := by cases p <;> rfl
@[simp] theorem setPort_poison (s : State) (p : Port) (v : HostPort) : (s.setPort p v).poison = s.poison := by cases p <;> rfl
@[simp] theorem setPort_struck (s : State) (p : Port) (v : HostPort) : (s.setPort p v).struck = s.struck := by cases p <;> rfl
@[simp] theorem setPort_seals (s : State) (p : Port) (v : HostPort) : (s.setPort p v).seals = s.seals := by cases p <;> rfl
@[simp] theorem setPort_tasks (s : State) (p : Port) (v : HostPort) : (s.setPort p v).tasks = s.tasks := by cases p <;> rfl
@[simp] theorem setPort_engs (s : State) (p : Port) (v : HostPort) : (s.setPort p v).engs = s.engs := by cases p <;> rfl
@[simp] theorem setPort_rings (s : State) (p : Port) (v : HostPort) : (s.setPort p v).rings = s.rings := by cases p <;> rfl
@[simp] theorem setPort_chans (s : State) (p : Port) (v : HostPort) : (s.setPort p v).chans = s.chans := by cases p <;> rfl
@[simp] theorem setPort_arrays (s : State) (p : Port) (v : HostPort) : (s.setPort p v).arrays = s.arrays := by cases p <;> rfl
@[simp] theorem setPort_landed (s : State) (p : Port) (v : HostPort) : (s.setPort p v).landed = s.landed := by cases p <;> rfl
@[simp] theorem setPort_rotation (s : State) (p : Port) (v : HostPort) : (s.setPort p v).rotation = s.rotation := by cases p <;> rfl
@[simp] theorem setPort_turns (s : State) (p : Port) (v : HostPort) : (s.setPort p v).turns = s.turns := by cases p <;> rfl
@[simp] theorem setPort_pools (s : State) (p : Port) (v : HostPort) : (s.setPort p v).pools = s.pools := by cases p <;> rfl
@[simp] theorem setPort_frames (s : State) (p : Port) (v : HostPort) : (s.setPort p v).frames = s.frames := by cases p <;> rfl
@[simp] theorem setPort_backlog (s : State) (p : Port) (v : HostPort) : (s.setPort p v).backlog = s.backlog := by cases p <;> rfl
@[simp] theorem setPort_hops (s : State) (p : Port) (v : HostPort) : (s.setPort p v).hops = s.hops := by cases p <;> rfl
@[simp] theorem setPort_disps (s : State) (p : Port) (v : HostPort) : (s.setPort p v).disps = s.disps := by cases p <;> rfl
@[simp] theorem setPort_links (s : State) (p : Port) (v : HostPort) : (s.setPort p v).links = s.links := by cases p <;> rfl
@[simp] theorem setPort_cxls (s : State) (p : Port) (v : HostPort) : (s.setPort p v).cxls = s.cxls := by cases p <;> rfl
@[simp] theorem setPort_pkg (s : State) (p : Port) (v : HostPort) : (s.setPort p v).pkg = s.pkg := by cases p <;> rfl
@[simp] theorem setPort_lh (s : State) (p : Port) (v : HostPort) : (s.setPort p v).lh = s.lh := by cases p <;> rfl
@[simp] theorem setPort_sessions (s : State) (p : Port) (v : HostPort) : (s.setPort p v).sessions = s.sessions := by cases p <;> rfl
@[simp] theorem setPort_phases (s : State) (p : Port) (v : HostPort) : (s.setPort p v).phases = s.phases := by cases p <;> rfl
@[simp] theorem setPort_trust (s : State) (p : Port) (v : HostPort) : (s.setPort p v).trust = s.trust := by cases p <;> rfl
@[simp] theorem setPort_nextTask (s : State) (p : Port) (v : HostPort) : (s.setPort p v).nextTask = s.nextTask := by cases p <;> rfl
@[simp] theorem setPort_free (s : State) (p : Port) (v : HostPort) : (s.setPort p v).free = s.free := by cases p <;> rfl
@[simp] theorem setPort_out (s : State) (p : Port) (v : HostPort) : (s.setPort p v).out = s.out := by cases p <;> rfl
@[simp] theorem setPort_pending (s : State) (p : Port) (v : HostPort) : (s.setPort p v).pending = s.pending := by cases p <;> rfl
@[simp] theorem reg_setPort (s : State) (p : Port) (v : HostPort) (r' : RegId) : (s.setPort p v).reg r' = s.reg r' := by cases p <;> rfl
@[simp] theorem eng_setPort (s : State) (p : Port) (v : HostPort) (x' : EngRef) : (s.setPort p v).eng x' = s.eng x' := by cases p <;> rfl
@[simp] theorem ring_setPort (s : State) (p : Port) (v : HostPort) (g' n' : Nat) : (s.setPort p v).ring g' n' = s.ring g' n' := by cases p <;> rfl
@[simp] theorem chan_setPort (s : State) (p : Port) (v : HostPort) (g' n' : Nat) : (s.setPort p v).chan g' n' = s.chan g' n' := by cases p <;> rfl
@[simp] theorem array_setPort (s : State) (p : Port) (v : HostPort) (g' a' : Nat) : (s.setPort p v).array g' a' = s.array g' a' := by cases p <;> rfl
@[simp] theorem pool_setPort (s : State) (p : Port) (v : HostPort) (p' t' : Nat) : (s.setPort p v).pool p' t' = s.pool p' t' := by cases p <;> rfl
@[simp] theorem hop_setPort (s : State) (p : Port) (v : HostPort) (h' d' : Nat) : (s.setPort p v).hop h' d' = s.hop h' d' := by cases p <;> rfl
@[simp] theorem disp_setPort (s : State) (p : Port) (v : HostPort) (d' : Nat) : (s.setPort p v).disp d' = s.disp d' := by cases p <;> rfl
@[simp] theorem link_setPort (s : State) (p : Port) (v : HostPort) (n' : Nat) : (s.setPort p v).link n' = s.link n' := by cases p <;> rfl
@[simp] theorem cxl_setPort (s : State) (p : Port) (v : HostPort) (p' : Nat) : (s.setPort p v).cxl p' = s.cxl p' := by cases p <;> rfl
@[simp] theorem session_setPort (s : State) (p : Port) (v : HostPort) (p' : Nat) : (s.setPort p v).session p' = s.session p' := by cases p <;> rfl
@[simp] theorem phase_setPort (s : State) (p : Port) (v : HostPort) (p' : Nat) : (s.setPort p v).phase p' = s.phase p' := by cases p <;> rfl
@[simp] theorem rotationAt_setPort (s : State) (p : Port) (v : HostPort) (g' : Nat) : (s.setPort p v).rotationAt g' = s.rotationAt g' := by cases p <;> rfl
@[simp] theorem turnAt_setPort (s : State) (p : Port) (v : HostPort) (x' : EngRef) : (s.setPort p v).turnAt x' = s.turnAt x' := by cases p <;> rfl
@[simp] theorem byteAt_setPort (s : State) (p : Port) (v : HostPort) (a' : Nat) : (s.setPort p v).byteAt a' = s.byteAt a' := by cases p <;> rfl

/-! ## setPkg -/

@[simp] theorem setPkg_regs (s : State) (v : Package) : (s.setPkg v).regs = s.regs := (rfl)
@[simp] theorem setPkg_mem (s : State) (v : Package) : (s.setPkg v).mem = s.mem := (rfl)
@[simp] theorem setPkg_poison (s : State) (v : Package) : (s.setPkg v).poison = s.poison := (rfl)
@[simp] theorem setPkg_struck (s : State) (v : Package) : (s.setPkg v).struck = s.struck := (rfl)
@[simp] theorem setPkg_seals (s : State) (v : Package) : (s.setPkg v).seals = s.seals := (rfl)
@[simp] theorem setPkg_tasks (s : State) (v : Package) : (s.setPkg v).tasks = s.tasks := (rfl)
@[simp] theorem setPkg_engs (s : State) (v : Package) : (s.setPkg v).engs = s.engs := (rfl)
@[simp] theorem setPkg_rings (s : State) (v : Package) : (s.setPkg v).rings = s.rings := (rfl)
@[simp] theorem setPkg_chans (s : State) (v : Package) : (s.setPkg v).chans = s.chans := (rfl)
@[simp] theorem setPkg_arrays (s : State) (v : Package) : (s.setPkg v).arrays = s.arrays := (rfl)
@[simp] theorem setPkg_landed (s : State) (v : Package) : (s.setPkg v).landed = s.landed := (rfl)
@[simp] theorem setPkg_rotation (s : State) (v : Package) : (s.setPkg v).rotation = s.rotation := (rfl)
@[simp] theorem setPkg_turns (s : State) (v : Package) : (s.setPkg v).turns = s.turns := (rfl)
@[simp] theorem setPkg_pools (s : State) (v : Package) : (s.setPkg v).pools = s.pools := (rfl)
@[simp] theorem setPkg_frames (s : State) (v : Package) : (s.setPkg v).frames = s.frames := (rfl)
@[simp] theorem setPkg_backlog (s : State) (v : Package) : (s.setPkg v).backlog = s.backlog := (rfl)
@[simp] theorem setPkg_hops (s : State) (v : Package) : (s.setPkg v).hops = s.hops := (rfl)
@[simp] theorem setPkg_disps (s : State) (v : Package) : (s.setPkg v).disps = s.disps := (rfl)
@[simp] theorem setPkg_links (s : State) (v : Package) : (s.setPkg v).links = s.links := (rfl)
@[simp] theorem setPkg_cxls (s : State) (v : Package) : (s.setPkg v).cxls = s.cxls := (rfl)
@[simp] theorem setPkg_ports (s : State) (v : Package) : (s.setPkg v).ports = s.ports := (rfl)
@[simp] theorem setPkg_pkg (s : State) (v : Package) : (s.setPkg v).pkg = v := (rfl)
@[simp] theorem setPkg_lh (s : State) (v : Package) : (s.setPkg v).lh = s.lh := (rfl)
@[simp] theorem setPkg_sessions (s : State) (v : Package) : (s.setPkg v).sessions = s.sessions := (rfl)
@[simp] theorem setPkg_phases (s : State) (v : Package) : (s.setPkg v).phases = s.phases := (rfl)
@[simp] theorem setPkg_trust (s : State) (v : Package) : (s.setPkg v).trust = s.trust := (rfl)
@[simp] theorem setPkg_nextTask (s : State) (v : Package) : (s.setPkg v).nextTask = s.nextTask := (rfl)
@[simp] theorem setPkg_free (s : State) (v : Package) : (s.setPkg v).free = s.free := (rfl)
@[simp] theorem setPkg_out (s : State) (v : Package) : (s.setPkg v).out = s.out := (rfl)
@[simp] theorem setPkg_pending (s : State) (v : Package) : (s.setPkg v).pending = s.pending := (rfl)
@[simp] theorem reg_setPkg (s : State) (v : Package) (r' : RegId) : (s.setPkg v).reg r' = s.reg r' := (rfl)
@[simp] theorem eng_setPkg (s : State) (v : Package) (x' : EngRef) : (s.setPkg v).eng x' = s.eng x' := (rfl)
@[simp] theorem ring_setPkg (s : State) (v : Package) (g' n' : Nat) : (s.setPkg v).ring g' n' = s.ring g' n' := (rfl)
@[simp] theorem chan_setPkg (s : State) (v : Package) (g' n' : Nat) : (s.setPkg v).chan g' n' = s.chan g' n' := (rfl)
@[simp] theorem array_setPkg (s : State) (v : Package) (g' a' : Nat) : (s.setPkg v).array g' a' = s.array g' a' := (rfl)
@[simp] theorem pool_setPkg (s : State) (v : Package) (p' t' : Nat) : (s.setPkg v).pool p' t' = s.pool p' t' := (rfl)
@[simp] theorem hop_setPkg (s : State) (v : Package) (h' d' : Nat) : (s.setPkg v).hop h' d' = s.hop h' d' := (rfl)
@[simp] theorem disp_setPkg (s : State) (v : Package) (d' : Nat) : (s.setPkg v).disp d' = s.disp d' := (rfl)
@[simp] theorem link_setPkg (s : State) (v : Package) (n' : Nat) : (s.setPkg v).link n' = s.link n' := (rfl)
@[simp] theorem cxl_setPkg (s : State) (v : Package) (p' : Nat) : (s.setPkg v).cxl p' = s.cxl p' := (rfl)
@[simp] theorem session_setPkg (s : State) (v : Package) (p' : Nat) : (s.setPkg v).session p' = s.session p' := (rfl)
@[simp] theorem phase_setPkg (s : State) (v : Package) (p' : Nat) : (s.setPkg v).phase p' = s.phase p' := (rfl)
@[simp] theorem rotationAt_setPkg (s : State) (v : Package) (g' : Nat) : (s.setPkg v).rotationAt g' = s.rotationAt g' := (rfl)
@[simp] theorem turnAt_setPkg (s : State) (v : Package) (x' : EngRef) : (s.setPkg v).turnAt x' = s.turnAt x' := (rfl)
@[simp] theorem port_setPkg (s : State) (v : Package) (p' : Port) : (s.setPkg v).port p' = s.port p' := (rfl)
@[simp] theorem byteAt_setPkg (s : State) (v : Package) (a' : Nat) : (s.setPkg v).byteAt a' = s.byteAt a' := (rfl)

/-! ## setLh -/

@[simp] theorem setLh_regs (s : State) (v : Lighthouse) : (s.setLh v).regs = s.regs := (rfl)
@[simp] theorem setLh_mem (s : State) (v : Lighthouse) : (s.setLh v).mem = s.mem := (rfl)
@[simp] theorem setLh_poison (s : State) (v : Lighthouse) : (s.setLh v).poison = s.poison := (rfl)
@[simp] theorem setLh_struck (s : State) (v : Lighthouse) : (s.setLh v).struck = s.struck := (rfl)
@[simp] theorem setLh_seals (s : State) (v : Lighthouse) : (s.setLh v).seals = s.seals := (rfl)
@[simp] theorem setLh_tasks (s : State) (v : Lighthouse) : (s.setLh v).tasks = s.tasks := (rfl)
@[simp] theorem setLh_engs (s : State) (v : Lighthouse) : (s.setLh v).engs = s.engs := (rfl)
@[simp] theorem setLh_rings (s : State) (v : Lighthouse) : (s.setLh v).rings = s.rings := (rfl)
@[simp] theorem setLh_chans (s : State) (v : Lighthouse) : (s.setLh v).chans = s.chans := (rfl)
@[simp] theorem setLh_arrays (s : State) (v : Lighthouse) : (s.setLh v).arrays = s.arrays := (rfl)
@[simp] theorem setLh_landed (s : State) (v : Lighthouse) : (s.setLh v).landed = s.landed := (rfl)
@[simp] theorem setLh_rotation (s : State) (v : Lighthouse) : (s.setLh v).rotation = s.rotation := (rfl)
@[simp] theorem setLh_turns (s : State) (v : Lighthouse) : (s.setLh v).turns = s.turns := (rfl)
@[simp] theorem setLh_pools (s : State) (v : Lighthouse) : (s.setLh v).pools = s.pools := (rfl)
@[simp] theorem setLh_frames (s : State) (v : Lighthouse) : (s.setLh v).frames = s.frames := (rfl)
@[simp] theorem setLh_backlog (s : State) (v : Lighthouse) : (s.setLh v).backlog = s.backlog := (rfl)
@[simp] theorem setLh_hops (s : State) (v : Lighthouse) : (s.setLh v).hops = s.hops := (rfl)
@[simp] theorem setLh_disps (s : State) (v : Lighthouse) : (s.setLh v).disps = s.disps := (rfl)
@[simp] theorem setLh_links (s : State) (v : Lighthouse) : (s.setLh v).links = s.links := (rfl)
@[simp] theorem setLh_cxls (s : State) (v : Lighthouse) : (s.setLh v).cxls = s.cxls := (rfl)
@[simp] theorem setLh_ports (s : State) (v : Lighthouse) : (s.setLh v).ports = s.ports := (rfl)
@[simp] theorem setLh_pkg (s : State) (v : Lighthouse) : (s.setLh v).pkg = s.pkg := (rfl)
@[simp] theorem setLh_lh (s : State) (v : Lighthouse) : (s.setLh v).lh = v := (rfl)
@[simp] theorem setLh_sessions (s : State) (v : Lighthouse) : (s.setLh v).sessions = s.sessions := (rfl)
@[simp] theorem setLh_phases (s : State) (v : Lighthouse) : (s.setLh v).phases = s.phases := (rfl)
@[simp] theorem setLh_trust (s : State) (v : Lighthouse) : (s.setLh v).trust = s.trust := (rfl)
@[simp] theorem setLh_nextTask (s : State) (v : Lighthouse) : (s.setLh v).nextTask = s.nextTask := (rfl)
@[simp] theorem setLh_free (s : State) (v : Lighthouse) : (s.setLh v).free = s.free := (rfl)
@[simp] theorem setLh_out (s : State) (v : Lighthouse) : (s.setLh v).out = s.out := (rfl)
@[simp] theorem setLh_pending (s : State) (v : Lighthouse) : (s.setLh v).pending = s.pending := (rfl)
@[simp] theorem reg_setLh (s : State) (v : Lighthouse) (r' : RegId) : (s.setLh v).reg r' = s.reg r' := (rfl)
@[simp] theorem eng_setLh (s : State) (v : Lighthouse) (x' : EngRef) : (s.setLh v).eng x' = s.eng x' := (rfl)
@[simp] theorem ring_setLh (s : State) (v : Lighthouse) (g' n' : Nat) : (s.setLh v).ring g' n' = s.ring g' n' := (rfl)
@[simp] theorem chan_setLh (s : State) (v : Lighthouse) (g' n' : Nat) : (s.setLh v).chan g' n' = s.chan g' n' := (rfl)
@[simp] theorem array_setLh (s : State) (v : Lighthouse) (g' a' : Nat) : (s.setLh v).array g' a' = s.array g' a' := (rfl)
@[simp] theorem pool_setLh (s : State) (v : Lighthouse) (p' t' : Nat) : (s.setLh v).pool p' t' = s.pool p' t' := (rfl)
@[simp] theorem hop_setLh (s : State) (v : Lighthouse) (h' d' : Nat) : (s.setLh v).hop h' d' = s.hop h' d' := (rfl)
@[simp] theorem disp_setLh (s : State) (v : Lighthouse) (d' : Nat) : (s.setLh v).disp d' = s.disp d' := (rfl)
@[simp] theorem link_setLh (s : State) (v : Lighthouse) (n' : Nat) : (s.setLh v).link n' = s.link n' := (rfl)
@[simp] theorem cxl_setLh (s : State) (v : Lighthouse) (p' : Nat) : (s.setLh v).cxl p' = s.cxl p' := (rfl)
@[simp] theorem session_setLh (s : State) (v : Lighthouse) (p' : Nat) : (s.setLh v).session p' = s.session p' := (rfl)
@[simp] theorem phase_setLh (s : State) (v : Lighthouse) (p' : Nat) : (s.setLh v).phase p' = s.phase p' := (rfl)
@[simp] theorem rotationAt_setLh (s : State) (v : Lighthouse) (g' : Nat) : (s.setLh v).rotationAt g' = s.rotationAt g' := (rfl)
@[simp] theorem turnAt_setLh (s : State) (v : Lighthouse) (x' : EngRef) : (s.setLh v).turnAt x' = s.turnAt x' := (rfl)
@[simp] theorem port_setLh (s : State) (v : Lighthouse) (p' : Port) : (s.setLh v).port p' = s.port p' := (rfl)
@[simp] theorem byteAt_setLh (s : State) (v : Lighthouse) (a' : Nat) : (s.setLh v).byteAt a' = s.byteAt a' := (rfl)

/-! ## setTrust -/

@[simp] theorem setTrust_regs (s : State) (v : Trust) : (s.setTrust v).regs = s.regs := (rfl)
@[simp] theorem setTrust_mem (s : State) (v : Trust) : (s.setTrust v).mem = s.mem := (rfl)
@[simp] theorem setTrust_poison (s : State) (v : Trust) : (s.setTrust v).poison = s.poison := (rfl)
@[simp] theorem setTrust_struck (s : State) (v : Trust) : (s.setTrust v).struck = s.struck := (rfl)
@[simp] theorem setTrust_seals (s : State) (v : Trust) : (s.setTrust v).seals = s.seals := (rfl)
@[simp] theorem setTrust_tasks (s : State) (v : Trust) : (s.setTrust v).tasks = s.tasks := (rfl)
@[simp] theorem setTrust_engs (s : State) (v : Trust) : (s.setTrust v).engs = s.engs := (rfl)
@[simp] theorem setTrust_rings (s : State) (v : Trust) : (s.setTrust v).rings = s.rings := (rfl)
@[simp] theorem setTrust_chans (s : State) (v : Trust) : (s.setTrust v).chans = s.chans := (rfl)
@[simp] theorem setTrust_arrays (s : State) (v : Trust) : (s.setTrust v).arrays = s.arrays := (rfl)
@[simp] theorem setTrust_landed (s : State) (v : Trust) : (s.setTrust v).landed = s.landed := (rfl)
@[simp] theorem setTrust_rotation (s : State) (v : Trust) : (s.setTrust v).rotation = s.rotation := (rfl)
@[simp] theorem setTrust_turns (s : State) (v : Trust) : (s.setTrust v).turns = s.turns := (rfl)
@[simp] theorem setTrust_pools (s : State) (v : Trust) : (s.setTrust v).pools = s.pools := (rfl)
@[simp] theorem setTrust_frames (s : State) (v : Trust) : (s.setTrust v).frames = s.frames := (rfl)
@[simp] theorem setTrust_backlog (s : State) (v : Trust) : (s.setTrust v).backlog = s.backlog := (rfl)
@[simp] theorem setTrust_hops (s : State) (v : Trust) : (s.setTrust v).hops = s.hops := (rfl)
@[simp] theorem setTrust_disps (s : State) (v : Trust) : (s.setTrust v).disps = s.disps := (rfl)
@[simp] theorem setTrust_links (s : State) (v : Trust) : (s.setTrust v).links = s.links := (rfl)
@[simp] theorem setTrust_cxls (s : State) (v : Trust) : (s.setTrust v).cxls = s.cxls := (rfl)
@[simp] theorem setTrust_ports (s : State) (v : Trust) : (s.setTrust v).ports = s.ports := (rfl)
@[simp] theorem setTrust_pkg (s : State) (v : Trust) : (s.setTrust v).pkg = s.pkg := (rfl)
@[simp] theorem setTrust_lh (s : State) (v : Trust) : (s.setTrust v).lh = s.lh := (rfl)
@[simp] theorem setTrust_sessions (s : State) (v : Trust) : (s.setTrust v).sessions = s.sessions := (rfl)
@[simp] theorem setTrust_phases (s : State) (v : Trust) : (s.setTrust v).phases = s.phases := (rfl)
@[simp] theorem setTrust_trust (s : State) (v : Trust) : (s.setTrust v).trust = v := (rfl)
@[simp] theorem setTrust_nextTask (s : State) (v : Trust) : (s.setTrust v).nextTask = s.nextTask := (rfl)
@[simp] theorem setTrust_free (s : State) (v : Trust) : (s.setTrust v).free = s.free := (rfl)
@[simp] theorem setTrust_out (s : State) (v : Trust) : (s.setTrust v).out = s.out := (rfl)
@[simp] theorem setTrust_pending (s : State) (v : Trust) : (s.setTrust v).pending = s.pending := (rfl)
@[simp] theorem reg_setTrust (s : State) (v : Trust) (r' : RegId) : (s.setTrust v).reg r' = s.reg r' := (rfl)
@[simp] theorem eng_setTrust (s : State) (v : Trust) (x' : EngRef) : (s.setTrust v).eng x' = s.eng x' := (rfl)
@[simp] theorem ring_setTrust (s : State) (v : Trust) (g' n' : Nat) : (s.setTrust v).ring g' n' = s.ring g' n' := (rfl)
@[simp] theorem chan_setTrust (s : State) (v : Trust) (g' n' : Nat) : (s.setTrust v).chan g' n' = s.chan g' n' := (rfl)
@[simp] theorem array_setTrust (s : State) (v : Trust) (g' a' : Nat) : (s.setTrust v).array g' a' = s.array g' a' := (rfl)
@[simp] theorem pool_setTrust (s : State) (v : Trust) (p' t' : Nat) : (s.setTrust v).pool p' t' = s.pool p' t' := (rfl)
@[simp] theorem hop_setTrust (s : State) (v : Trust) (h' d' : Nat) : (s.setTrust v).hop h' d' = s.hop h' d' := (rfl)
@[simp] theorem disp_setTrust (s : State) (v : Trust) (d' : Nat) : (s.setTrust v).disp d' = s.disp d' := (rfl)
@[simp] theorem link_setTrust (s : State) (v : Trust) (n' : Nat) : (s.setTrust v).link n' = s.link n' := (rfl)
@[simp] theorem cxl_setTrust (s : State) (v : Trust) (p' : Nat) : (s.setTrust v).cxl p' = s.cxl p' := (rfl)
@[simp] theorem session_setTrust (s : State) (v : Trust) (p' : Nat) : (s.setTrust v).session p' = s.session p' := (rfl)
@[simp] theorem phase_setTrust (s : State) (v : Trust) (p' : Nat) : (s.setTrust v).phase p' = s.phase p' := (rfl)
@[simp] theorem rotationAt_setTrust (s : State) (v : Trust) (g' : Nat) : (s.setTrust v).rotationAt g' = s.rotationAt g' := (rfl)
@[simp] theorem turnAt_setTrust (s : State) (v : Trust) (x' : EngRef) : (s.setTrust v).turnAt x' = s.turnAt x' := (rfl)
@[simp] theorem port_setTrust (s : State) (v : Trust) (p' : Port) : (s.setTrust v).port p' = s.port p' := (rfl)
@[simp] theorem byteAt_setTrust (s : State) (v : Trust) (a' : Nat) : (s.setTrust v).byteAt a' = s.byteAt a' := (rfl)

/-! ## setTasks -/

@[simp] theorem setTasks_regs (s : State) (v : List Task) : (s.setTasks v).regs = s.regs := (rfl)
@[simp] theorem setTasks_mem (s : State) (v : List Task) : (s.setTasks v).mem = s.mem := (rfl)
@[simp] theorem setTasks_poison (s : State) (v : List Task) : (s.setTasks v).poison = s.poison := (rfl)
@[simp] theorem setTasks_struck (s : State) (v : List Task) : (s.setTasks v).struck = s.struck := (rfl)
@[simp] theorem setTasks_seals (s : State) (v : List Task) : (s.setTasks v).seals = s.seals := (rfl)
@[simp] theorem setTasks_tasks (s : State) (v : List Task) : (s.setTasks v).tasks = v := (rfl)
@[simp] theorem setTasks_engs (s : State) (v : List Task) : (s.setTasks v).engs = s.engs := (rfl)
@[simp] theorem setTasks_rings (s : State) (v : List Task) : (s.setTasks v).rings = s.rings := (rfl)
@[simp] theorem setTasks_chans (s : State) (v : List Task) : (s.setTasks v).chans = s.chans := (rfl)
@[simp] theorem setTasks_arrays (s : State) (v : List Task) : (s.setTasks v).arrays = s.arrays := (rfl)
@[simp] theorem setTasks_landed (s : State) (v : List Task) : (s.setTasks v).landed = s.landed := (rfl)
@[simp] theorem setTasks_rotation (s : State) (v : List Task) : (s.setTasks v).rotation = s.rotation := (rfl)
@[simp] theorem setTasks_turns (s : State) (v : List Task) : (s.setTasks v).turns = s.turns := (rfl)
@[simp] theorem setTasks_pools (s : State) (v : List Task) : (s.setTasks v).pools = s.pools := (rfl)
@[simp] theorem setTasks_frames (s : State) (v : List Task) : (s.setTasks v).frames = s.frames := (rfl)
@[simp] theorem setTasks_backlog (s : State) (v : List Task) : (s.setTasks v).backlog = s.backlog := (rfl)
@[simp] theorem setTasks_hops (s : State) (v : List Task) : (s.setTasks v).hops = s.hops := (rfl)
@[simp] theorem setTasks_disps (s : State) (v : List Task) : (s.setTasks v).disps = s.disps := (rfl)
@[simp] theorem setTasks_links (s : State) (v : List Task) : (s.setTasks v).links = s.links := (rfl)
@[simp] theorem setTasks_cxls (s : State) (v : List Task) : (s.setTasks v).cxls = s.cxls := (rfl)
@[simp] theorem setTasks_ports (s : State) (v : List Task) : (s.setTasks v).ports = s.ports := (rfl)
@[simp] theorem setTasks_pkg (s : State) (v : List Task) : (s.setTasks v).pkg = s.pkg := (rfl)
@[simp] theorem setTasks_lh (s : State) (v : List Task) : (s.setTasks v).lh = s.lh := (rfl)
@[simp] theorem setTasks_sessions (s : State) (v : List Task) : (s.setTasks v).sessions = s.sessions := (rfl)
@[simp] theorem setTasks_phases (s : State) (v : List Task) : (s.setTasks v).phases = s.phases := (rfl)
@[simp] theorem setTasks_trust (s : State) (v : List Task) : (s.setTasks v).trust = s.trust := (rfl)
@[simp] theorem setTasks_nextTask (s : State) (v : List Task) : (s.setTasks v).nextTask = s.nextTask := (rfl)
@[simp] theorem setTasks_free (s : State) (v : List Task) : (s.setTasks v).free = s.free := (rfl)
@[simp] theorem setTasks_out (s : State) (v : List Task) : (s.setTasks v).out = s.out := (rfl)
@[simp] theorem setTasks_pending (s : State) (v : List Task) : (s.setTasks v).pending = s.pending := (rfl)
@[simp] theorem reg_setTasks (s : State) (v : List Task) (r' : RegId) : (s.setTasks v).reg r' = s.reg r' := (rfl)
@[simp] theorem eng_setTasks (s : State) (v : List Task) (x' : EngRef) : (s.setTasks v).eng x' = s.eng x' := (rfl)
@[simp] theorem ring_setTasks (s : State) (v : List Task) (g' n' : Nat) : (s.setTasks v).ring g' n' = s.ring g' n' := (rfl)
@[simp] theorem chan_setTasks (s : State) (v : List Task) (g' n' : Nat) : (s.setTasks v).chan g' n' = s.chan g' n' := (rfl)
@[simp] theorem array_setTasks (s : State) (v : List Task) (g' a' : Nat) : (s.setTasks v).array g' a' = s.array g' a' := (rfl)
@[simp] theorem pool_setTasks (s : State) (v : List Task) (p' t' : Nat) : (s.setTasks v).pool p' t' = s.pool p' t' := (rfl)
@[simp] theorem hop_setTasks (s : State) (v : List Task) (h' d' : Nat) : (s.setTasks v).hop h' d' = s.hop h' d' := (rfl)
@[simp] theorem disp_setTasks (s : State) (v : List Task) (d' : Nat) : (s.setTasks v).disp d' = s.disp d' := (rfl)
@[simp] theorem link_setTasks (s : State) (v : List Task) (n' : Nat) : (s.setTasks v).link n' = s.link n' := (rfl)
@[simp] theorem cxl_setTasks (s : State) (v : List Task) (p' : Nat) : (s.setTasks v).cxl p' = s.cxl p' := (rfl)
@[simp] theorem session_setTasks (s : State) (v : List Task) (p' : Nat) : (s.setTasks v).session p' = s.session p' := (rfl)
@[simp] theorem phase_setTasks (s : State) (v : List Task) (p' : Nat) : (s.setTasks v).phase p' = s.phase p' := (rfl)
@[simp] theorem rotationAt_setTasks (s : State) (v : List Task) (g' : Nat) : (s.setTasks v).rotationAt g' = s.rotationAt g' := (rfl)
@[simp] theorem turnAt_setTasks (s : State) (v : List Task) (x' : EngRef) : (s.setTasks v).turnAt x' = s.turnAt x' := (rfl)
@[simp] theorem port_setTasks (s : State) (v : List Task) (p' : Port) : (s.setTasks v).port p' = s.port p' := (rfl)
@[simp] theorem byteAt_setTasks (s : State) (v : List Task) (a' : Nat) : (s.setTasks v).byteAt a' = s.byteAt a' := (rfl)

/-! ## setFrames -/

@[simp] theorem setFrames_regs (s : State) (v : List Frame) : (s.setFrames v).regs = s.regs := (rfl)
@[simp] theorem setFrames_mem (s : State) (v : List Frame) : (s.setFrames v).mem = s.mem := (rfl)
@[simp] theorem setFrames_poison (s : State) (v : List Frame) : (s.setFrames v).poison = s.poison := (rfl)
@[simp] theorem setFrames_struck (s : State) (v : List Frame) : (s.setFrames v).struck = s.struck := (rfl)
@[simp] theorem setFrames_seals (s : State) (v : List Frame) : (s.setFrames v).seals = s.seals := (rfl)
@[simp] theorem setFrames_tasks (s : State) (v : List Frame) : (s.setFrames v).tasks = s.tasks := (rfl)
@[simp] theorem setFrames_engs (s : State) (v : List Frame) : (s.setFrames v).engs = s.engs := (rfl)
@[simp] theorem setFrames_rings (s : State) (v : List Frame) : (s.setFrames v).rings = s.rings := (rfl)
@[simp] theorem setFrames_chans (s : State) (v : List Frame) : (s.setFrames v).chans = s.chans := (rfl)
@[simp] theorem setFrames_arrays (s : State) (v : List Frame) : (s.setFrames v).arrays = s.arrays := (rfl)
@[simp] theorem setFrames_landed (s : State) (v : List Frame) : (s.setFrames v).landed = s.landed := (rfl)
@[simp] theorem setFrames_rotation (s : State) (v : List Frame) : (s.setFrames v).rotation = s.rotation := (rfl)
@[simp] theorem setFrames_turns (s : State) (v : List Frame) : (s.setFrames v).turns = s.turns := (rfl)
@[simp] theorem setFrames_pools (s : State) (v : List Frame) : (s.setFrames v).pools = s.pools := (rfl)
@[simp] theorem setFrames_frames (s : State) (v : List Frame) : (s.setFrames v).frames = v := (rfl)
@[simp] theorem setFrames_backlog (s : State) (v : List Frame) : (s.setFrames v).backlog = s.backlog := (rfl)
@[simp] theorem setFrames_hops (s : State) (v : List Frame) : (s.setFrames v).hops = s.hops := (rfl)
@[simp] theorem setFrames_disps (s : State) (v : List Frame) : (s.setFrames v).disps = s.disps := (rfl)
@[simp] theorem setFrames_links (s : State) (v : List Frame) : (s.setFrames v).links = s.links := (rfl)
@[simp] theorem setFrames_cxls (s : State) (v : List Frame) : (s.setFrames v).cxls = s.cxls := (rfl)
@[simp] theorem setFrames_ports (s : State) (v : List Frame) : (s.setFrames v).ports = s.ports := (rfl)
@[simp] theorem setFrames_pkg (s : State) (v : List Frame) : (s.setFrames v).pkg = s.pkg := (rfl)
@[simp] theorem setFrames_lh (s : State) (v : List Frame) : (s.setFrames v).lh = s.lh := (rfl)
@[simp] theorem setFrames_sessions (s : State) (v : List Frame) : (s.setFrames v).sessions = s.sessions := (rfl)
@[simp] theorem setFrames_phases (s : State) (v : List Frame) : (s.setFrames v).phases = s.phases := (rfl)
@[simp] theorem setFrames_trust (s : State) (v : List Frame) : (s.setFrames v).trust = s.trust := (rfl)
@[simp] theorem setFrames_nextTask (s : State) (v : List Frame) : (s.setFrames v).nextTask = s.nextTask := (rfl)
@[simp] theorem setFrames_free (s : State) (v : List Frame) : (s.setFrames v).free = s.free := (rfl)
@[simp] theorem setFrames_out (s : State) (v : List Frame) : (s.setFrames v).out = s.out := (rfl)
@[simp] theorem setFrames_pending (s : State) (v : List Frame) : (s.setFrames v).pending = s.pending := (rfl)
@[simp] theorem reg_setFrames (s : State) (v : List Frame) (r' : RegId) : (s.setFrames v).reg r' = s.reg r' := (rfl)
@[simp] theorem eng_setFrames (s : State) (v : List Frame) (x' : EngRef) : (s.setFrames v).eng x' = s.eng x' := (rfl)
@[simp] theorem ring_setFrames (s : State) (v : List Frame) (g' n' : Nat) : (s.setFrames v).ring g' n' = s.ring g' n' := (rfl)
@[simp] theorem chan_setFrames (s : State) (v : List Frame) (g' n' : Nat) : (s.setFrames v).chan g' n' = s.chan g' n' := (rfl)
@[simp] theorem array_setFrames (s : State) (v : List Frame) (g' a' : Nat) : (s.setFrames v).array g' a' = s.array g' a' := (rfl)
@[simp] theorem pool_setFrames (s : State) (v : List Frame) (p' t' : Nat) : (s.setFrames v).pool p' t' = s.pool p' t' := (rfl)
@[simp] theorem hop_setFrames (s : State) (v : List Frame) (h' d' : Nat) : (s.setFrames v).hop h' d' = s.hop h' d' := (rfl)
@[simp] theorem disp_setFrames (s : State) (v : List Frame) (d' : Nat) : (s.setFrames v).disp d' = s.disp d' := (rfl)
@[simp] theorem link_setFrames (s : State) (v : List Frame) (n' : Nat) : (s.setFrames v).link n' = s.link n' := (rfl)
@[simp] theorem cxl_setFrames (s : State) (v : List Frame) (p' : Nat) : (s.setFrames v).cxl p' = s.cxl p' := (rfl)
@[simp] theorem session_setFrames (s : State) (v : List Frame) (p' : Nat) : (s.setFrames v).session p' = s.session p' := (rfl)
@[simp] theorem phase_setFrames (s : State) (v : List Frame) (p' : Nat) : (s.setFrames v).phase p' = s.phase p' := (rfl)
@[simp] theorem rotationAt_setFrames (s : State) (v : List Frame) (g' : Nat) : (s.setFrames v).rotationAt g' = s.rotationAt g' := (rfl)
@[simp] theorem turnAt_setFrames (s : State) (v : List Frame) (x' : EngRef) : (s.setFrames v).turnAt x' = s.turnAt x' := (rfl)
@[simp] theorem port_setFrames (s : State) (v : List Frame) (p' : Port) : (s.setFrames v).port p' = s.port p' := (rfl)
@[simp] theorem byteAt_setFrames (s : State) (v : List Frame) (a' : Nat) : (s.setFrames v).byteAt a' = s.byteAt a' := (rfl)

/-! ## setBacklog -/

@[simp] theorem setBacklog_regs (s : State) (v : List Frame) : (s.setBacklog v).regs = s.regs := (rfl)
@[simp] theorem setBacklog_mem (s : State) (v : List Frame) : (s.setBacklog v).mem = s.mem := (rfl)
@[simp] theorem setBacklog_poison (s : State) (v : List Frame) : (s.setBacklog v).poison = s.poison := (rfl)
@[simp] theorem setBacklog_struck (s : State) (v : List Frame) : (s.setBacklog v).struck = s.struck := (rfl)
@[simp] theorem setBacklog_seals (s : State) (v : List Frame) : (s.setBacklog v).seals = s.seals := (rfl)
@[simp] theorem setBacklog_tasks (s : State) (v : List Frame) : (s.setBacklog v).tasks = s.tasks := (rfl)
@[simp] theorem setBacklog_engs (s : State) (v : List Frame) : (s.setBacklog v).engs = s.engs := (rfl)
@[simp] theorem setBacklog_rings (s : State) (v : List Frame) : (s.setBacklog v).rings = s.rings := (rfl)
@[simp] theorem setBacklog_chans (s : State) (v : List Frame) : (s.setBacklog v).chans = s.chans := (rfl)
@[simp] theorem setBacklog_arrays (s : State) (v : List Frame) : (s.setBacklog v).arrays = s.arrays := (rfl)
@[simp] theorem setBacklog_landed (s : State) (v : List Frame) : (s.setBacklog v).landed = s.landed := (rfl)
@[simp] theorem setBacklog_rotation (s : State) (v : List Frame) : (s.setBacklog v).rotation = s.rotation := (rfl)
@[simp] theorem setBacklog_turns (s : State) (v : List Frame) : (s.setBacklog v).turns = s.turns := (rfl)
@[simp] theorem setBacklog_pools (s : State) (v : List Frame) : (s.setBacklog v).pools = s.pools := (rfl)
@[simp] theorem setBacklog_frames (s : State) (v : List Frame) : (s.setBacklog v).frames = s.frames := (rfl)
@[simp] theorem setBacklog_backlog (s : State) (v : List Frame) : (s.setBacklog v).backlog = v := (rfl)
@[simp] theorem setBacklog_hops (s : State) (v : List Frame) : (s.setBacklog v).hops = s.hops := (rfl)
@[simp] theorem setBacklog_disps (s : State) (v : List Frame) : (s.setBacklog v).disps = s.disps := (rfl)
@[simp] theorem setBacklog_links (s : State) (v : List Frame) : (s.setBacklog v).links = s.links := (rfl)
@[simp] theorem setBacklog_cxls (s : State) (v : List Frame) : (s.setBacklog v).cxls = s.cxls := (rfl)
@[simp] theorem setBacklog_ports (s : State) (v : List Frame) : (s.setBacklog v).ports = s.ports := (rfl)
@[simp] theorem setBacklog_pkg (s : State) (v : List Frame) : (s.setBacklog v).pkg = s.pkg := (rfl)
@[simp] theorem setBacklog_lh (s : State) (v : List Frame) : (s.setBacklog v).lh = s.lh := (rfl)
@[simp] theorem setBacklog_sessions (s : State) (v : List Frame) : (s.setBacklog v).sessions = s.sessions := (rfl)
@[simp] theorem setBacklog_phases (s : State) (v : List Frame) : (s.setBacklog v).phases = s.phases := (rfl)
@[simp] theorem setBacklog_trust (s : State) (v : List Frame) : (s.setBacklog v).trust = s.trust := (rfl)
@[simp] theorem setBacklog_nextTask (s : State) (v : List Frame) : (s.setBacklog v).nextTask = s.nextTask := (rfl)
@[simp] theorem setBacklog_free (s : State) (v : List Frame) : (s.setBacklog v).free = s.free := (rfl)
@[simp] theorem setBacklog_out (s : State) (v : List Frame) : (s.setBacklog v).out = s.out := (rfl)
@[simp] theorem setBacklog_pending (s : State) (v : List Frame) : (s.setBacklog v).pending = s.pending := (rfl)
@[simp] theorem reg_setBacklog (s : State) (v : List Frame) (r' : RegId) : (s.setBacklog v).reg r' = s.reg r' := (rfl)
@[simp] theorem eng_setBacklog (s : State) (v : List Frame) (x' : EngRef) : (s.setBacklog v).eng x' = s.eng x' := (rfl)
@[simp] theorem ring_setBacklog (s : State) (v : List Frame) (g' n' : Nat) : (s.setBacklog v).ring g' n' = s.ring g' n' := (rfl)
@[simp] theorem chan_setBacklog (s : State) (v : List Frame) (g' n' : Nat) : (s.setBacklog v).chan g' n' = s.chan g' n' := (rfl)
@[simp] theorem array_setBacklog (s : State) (v : List Frame) (g' a' : Nat) : (s.setBacklog v).array g' a' = s.array g' a' := (rfl)
@[simp] theorem pool_setBacklog (s : State) (v : List Frame) (p' t' : Nat) : (s.setBacklog v).pool p' t' = s.pool p' t' := (rfl)
@[simp] theorem hop_setBacklog (s : State) (v : List Frame) (h' d' : Nat) : (s.setBacklog v).hop h' d' = s.hop h' d' := (rfl)
@[simp] theorem disp_setBacklog (s : State) (v : List Frame) (d' : Nat) : (s.setBacklog v).disp d' = s.disp d' := (rfl)
@[simp] theorem link_setBacklog (s : State) (v : List Frame) (n' : Nat) : (s.setBacklog v).link n' = s.link n' := (rfl)
@[simp] theorem cxl_setBacklog (s : State) (v : List Frame) (p' : Nat) : (s.setBacklog v).cxl p' = s.cxl p' := (rfl)
@[simp] theorem session_setBacklog (s : State) (v : List Frame) (p' : Nat) : (s.setBacklog v).session p' = s.session p' := (rfl)
@[simp] theorem phase_setBacklog (s : State) (v : List Frame) (p' : Nat) : (s.setBacklog v).phase p' = s.phase p' := (rfl)
@[simp] theorem rotationAt_setBacklog (s : State) (v : List Frame) (g' : Nat) : (s.setBacklog v).rotationAt g' = s.rotationAt g' := (rfl)
@[simp] theorem turnAt_setBacklog (s : State) (v : List Frame) (x' : EngRef) : (s.setBacklog v).turnAt x' = s.turnAt x' := (rfl)
@[simp] theorem port_setBacklog (s : State) (v : List Frame) (p' : Port) : (s.setBacklog v).port p' = s.port p' := (rfl)
@[simp] theorem byteAt_setBacklog (s : State) (v : List Frame) (a' : Nat) : (s.setBacklog v).byteAt a' = s.byteAt a' := (rfl)

/-! ## setStruck -/

@[simp] theorem setStruck_regs (s : State) (v : List (Nat × Bool)) : (s.setStruck v).regs = s.regs := (rfl)
@[simp] theorem setStruck_mem (s : State) (v : List (Nat × Bool)) : (s.setStruck v).mem = s.mem := (rfl)
@[simp] theorem setStruck_poison (s : State) (v : List (Nat × Bool)) : (s.setStruck v).poison = s.poison := (rfl)
@[simp] theorem setStruck_struck (s : State) (v : List (Nat × Bool)) : (s.setStruck v).struck = v := (rfl)
@[simp] theorem setStruck_seals (s : State) (v : List (Nat × Bool)) : (s.setStruck v).seals = s.seals := (rfl)
@[simp] theorem setStruck_tasks (s : State) (v : List (Nat × Bool)) : (s.setStruck v).tasks = s.tasks := (rfl)
@[simp] theorem setStruck_engs (s : State) (v : List (Nat × Bool)) : (s.setStruck v).engs = s.engs := (rfl)
@[simp] theorem setStruck_rings (s : State) (v : List (Nat × Bool)) : (s.setStruck v).rings = s.rings := (rfl)
@[simp] theorem setStruck_chans (s : State) (v : List (Nat × Bool)) : (s.setStruck v).chans = s.chans := (rfl)
@[simp] theorem setStruck_arrays (s : State) (v : List (Nat × Bool)) : (s.setStruck v).arrays = s.arrays := (rfl)
@[simp] theorem setStruck_landed (s : State) (v : List (Nat × Bool)) : (s.setStruck v).landed = s.landed := (rfl)
@[simp] theorem setStruck_rotation (s : State) (v : List (Nat × Bool)) : (s.setStruck v).rotation = s.rotation := (rfl)
@[simp] theorem setStruck_turns (s : State) (v : List (Nat × Bool)) : (s.setStruck v).turns = s.turns := (rfl)
@[simp] theorem setStruck_pools (s : State) (v : List (Nat × Bool)) : (s.setStruck v).pools = s.pools := (rfl)
@[simp] theorem setStruck_frames (s : State) (v : List (Nat × Bool)) : (s.setStruck v).frames = s.frames := (rfl)
@[simp] theorem setStruck_backlog (s : State) (v : List (Nat × Bool)) : (s.setStruck v).backlog = s.backlog := (rfl)
@[simp] theorem setStruck_hops (s : State) (v : List (Nat × Bool)) : (s.setStruck v).hops = s.hops := (rfl)
@[simp] theorem setStruck_disps (s : State) (v : List (Nat × Bool)) : (s.setStruck v).disps = s.disps := (rfl)
@[simp] theorem setStruck_links (s : State) (v : List (Nat × Bool)) : (s.setStruck v).links = s.links := (rfl)
@[simp] theorem setStruck_cxls (s : State) (v : List (Nat × Bool)) : (s.setStruck v).cxls = s.cxls := (rfl)
@[simp] theorem setStruck_ports (s : State) (v : List (Nat × Bool)) : (s.setStruck v).ports = s.ports := (rfl)
@[simp] theorem setStruck_pkg (s : State) (v : List (Nat × Bool)) : (s.setStruck v).pkg = s.pkg := (rfl)
@[simp] theorem setStruck_lh (s : State) (v : List (Nat × Bool)) : (s.setStruck v).lh = s.lh := (rfl)
@[simp] theorem setStruck_sessions (s : State) (v : List (Nat × Bool)) : (s.setStruck v).sessions = s.sessions := (rfl)
@[simp] theorem setStruck_phases (s : State) (v : List (Nat × Bool)) : (s.setStruck v).phases = s.phases := (rfl)
@[simp] theorem setStruck_trust (s : State) (v : List (Nat × Bool)) : (s.setStruck v).trust = s.trust := (rfl)
@[simp] theorem setStruck_nextTask (s : State) (v : List (Nat × Bool)) : (s.setStruck v).nextTask = s.nextTask := (rfl)
@[simp] theorem setStruck_free (s : State) (v : List (Nat × Bool)) : (s.setStruck v).free = s.free := (rfl)
@[simp] theorem setStruck_out (s : State) (v : List (Nat × Bool)) : (s.setStruck v).out = s.out := (rfl)
@[simp] theorem setStruck_pending (s : State) (v : List (Nat × Bool)) : (s.setStruck v).pending = s.pending := (rfl)
@[simp] theorem reg_setStruck (s : State) (v : List (Nat × Bool)) (r' : RegId) : (s.setStruck v).reg r' = s.reg r' := (rfl)
@[simp] theorem eng_setStruck (s : State) (v : List (Nat × Bool)) (x' : EngRef) : (s.setStruck v).eng x' = s.eng x' := (rfl)
@[simp] theorem ring_setStruck (s : State) (v : List (Nat × Bool)) (g' n' : Nat) : (s.setStruck v).ring g' n' = s.ring g' n' := (rfl)
@[simp] theorem chan_setStruck (s : State) (v : List (Nat × Bool)) (g' n' : Nat) : (s.setStruck v).chan g' n' = s.chan g' n' := (rfl)
@[simp] theorem array_setStruck (s : State) (v : List (Nat × Bool)) (g' a' : Nat) : (s.setStruck v).array g' a' = s.array g' a' := (rfl)
@[simp] theorem pool_setStruck (s : State) (v : List (Nat × Bool)) (p' t' : Nat) : (s.setStruck v).pool p' t' = s.pool p' t' := (rfl)
@[simp] theorem hop_setStruck (s : State) (v : List (Nat × Bool)) (h' d' : Nat) : (s.setStruck v).hop h' d' = s.hop h' d' := (rfl)
@[simp] theorem disp_setStruck (s : State) (v : List (Nat × Bool)) (d' : Nat) : (s.setStruck v).disp d' = s.disp d' := (rfl)
@[simp] theorem link_setStruck (s : State) (v : List (Nat × Bool)) (n' : Nat) : (s.setStruck v).link n' = s.link n' := (rfl)
@[simp] theorem cxl_setStruck (s : State) (v : List (Nat × Bool)) (p' : Nat) : (s.setStruck v).cxl p' = s.cxl p' := (rfl)
@[simp] theorem session_setStruck (s : State) (v : List (Nat × Bool)) (p' : Nat) : (s.setStruck v).session p' = s.session p' := (rfl)
@[simp] theorem phase_setStruck (s : State) (v : List (Nat × Bool)) (p' : Nat) : (s.setStruck v).phase p' = s.phase p' := (rfl)
@[simp] theorem rotationAt_setStruck (s : State) (v : List (Nat × Bool)) (g' : Nat) : (s.setStruck v).rotationAt g' = s.rotationAt g' := (rfl)
@[simp] theorem turnAt_setStruck (s : State) (v : List (Nat × Bool)) (x' : EngRef) : (s.setStruck v).turnAt x' = s.turnAt x' := (rfl)
@[simp] theorem port_setStruck (s : State) (v : List (Nat × Bool)) (p' : Port) : (s.setStruck v).port p' = s.port p' := (rfl)
@[simp] theorem byteAt_setStruck (s : State) (v : List (Nat × Bool)) (a' : Nat) : (s.setStruck v).byteAt a' = s.byteAt a' := (rfl)

/-! ## setLanded -/

@[simp] theorem setLanded_regs (s : State) (v : List (Nat × Nat × Nat × Nat × Nat)) : (s.setLanded v).regs = s.regs := (rfl)
@[simp] theorem setLanded_mem (s : State) (v : List (Nat × Nat × Nat × Nat × Nat)) : (s.setLanded v).mem = s.mem := (rfl)
@[simp] theorem setLanded_poison (s : State) (v : List (Nat × Nat × Nat × Nat × Nat)) : (s.setLanded v).poison = s.poison := (rfl)
@[simp] theorem setLanded_struck (s : State) (v : List (Nat × Nat × Nat × Nat × Nat)) : (s.setLanded v).struck = s.struck := (rfl)
@[simp] theorem setLanded_seals (s : State) (v : List (Nat × Nat × Nat × Nat × Nat)) : (s.setLanded v).seals = s.seals := (rfl)
@[simp] theorem setLanded_tasks (s : State) (v : List (Nat × Nat × Nat × Nat × Nat)) : (s.setLanded v).tasks = s.tasks := (rfl)
@[simp] theorem setLanded_engs (s : State) (v : List (Nat × Nat × Nat × Nat × Nat)) : (s.setLanded v).engs = s.engs := (rfl)
@[simp] theorem setLanded_rings (s : State) (v : List (Nat × Nat × Nat × Nat × Nat)) : (s.setLanded v).rings = s.rings := (rfl)
@[simp] theorem setLanded_chans (s : State) (v : List (Nat × Nat × Nat × Nat × Nat)) : (s.setLanded v).chans = s.chans := (rfl)
@[simp] theorem setLanded_arrays (s : State) (v : List (Nat × Nat × Nat × Nat × Nat)) : (s.setLanded v).arrays = s.arrays := (rfl)
@[simp] theorem setLanded_landed (s : State) (v : List (Nat × Nat × Nat × Nat × Nat)) : (s.setLanded v).landed = v := (rfl)
@[simp] theorem setLanded_rotation (s : State) (v : List (Nat × Nat × Nat × Nat × Nat)) : (s.setLanded v).rotation = s.rotation := (rfl)
@[simp] theorem setLanded_turns (s : State) (v : List (Nat × Nat × Nat × Nat × Nat)) : (s.setLanded v).turns = s.turns := (rfl)
@[simp] theorem setLanded_pools (s : State) (v : List (Nat × Nat × Nat × Nat × Nat)) : (s.setLanded v).pools = s.pools := (rfl)
@[simp] theorem setLanded_frames (s : State) (v : List (Nat × Nat × Nat × Nat × Nat)) : (s.setLanded v).frames = s.frames := (rfl)
@[simp] theorem setLanded_backlog (s : State) (v : List (Nat × Nat × Nat × Nat × Nat)) : (s.setLanded v).backlog = s.backlog := (rfl)
@[simp] theorem setLanded_hops (s : State) (v : List (Nat × Nat × Nat × Nat × Nat)) : (s.setLanded v).hops = s.hops := (rfl)
@[simp] theorem setLanded_disps (s : State) (v : List (Nat × Nat × Nat × Nat × Nat)) : (s.setLanded v).disps = s.disps := (rfl)
@[simp] theorem setLanded_links (s : State) (v : List (Nat × Nat × Nat × Nat × Nat)) : (s.setLanded v).links = s.links := (rfl)
@[simp] theorem setLanded_cxls (s : State) (v : List (Nat × Nat × Nat × Nat × Nat)) : (s.setLanded v).cxls = s.cxls := (rfl)
@[simp] theorem setLanded_ports (s : State) (v : List (Nat × Nat × Nat × Nat × Nat)) : (s.setLanded v).ports = s.ports := (rfl)
@[simp] theorem setLanded_pkg (s : State) (v : List (Nat × Nat × Nat × Nat × Nat)) : (s.setLanded v).pkg = s.pkg := (rfl)
@[simp] theorem setLanded_lh (s : State) (v : List (Nat × Nat × Nat × Nat × Nat)) : (s.setLanded v).lh = s.lh := (rfl)
@[simp] theorem setLanded_sessions (s : State) (v : List (Nat × Nat × Nat × Nat × Nat)) : (s.setLanded v).sessions = s.sessions := (rfl)
@[simp] theorem setLanded_phases (s : State) (v : List (Nat × Nat × Nat × Nat × Nat)) : (s.setLanded v).phases = s.phases := (rfl)
@[simp] theorem setLanded_trust (s : State) (v : List (Nat × Nat × Nat × Nat × Nat)) : (s.setLanded v).trust = s.trust := (rfl)
@[simp] theorem setLanded_nextTask (s : State) (v : List (Nat × Nat × Nat × Nat × Nat)) : (s.setLanded v).nextTask = s.nextTask := (rfl)
@[simp] theorem setLanded_free (s : State) (v : List (Nat × Nat × Nat × Nat × Nat)) : (s.setLanded v).free = s.free := (rfl)
@[simp] theorem setLanded_out (s : State) (v : List (Nat × Nat × Nat × Nat × Nat)) : (s.setLanded v).out = s.out := (rfl)
@[simp] theorem setLanded_pending (s : State) (v : List (Nat × Nat × Nat × Nat × Nat)) : (s.setLanded v).pending = s.pending := (rfl)
@[simp] theorem reg_setLanded (s : State) (v : List (Nat × Nat × Nat × Nat × Nat)) (r' : RegId) : (s.setLanded v).reg r' = s.reg r' := (rfl)
@[simp] theorem eng_setLanded (s : State) (v : List (Nat × Nat × Nat × Nat × Nat)) (x' : EngRef) : (s.setLanded v).eng x' = s.eng x' := (rfl)
@[simp] theorem ring_setLanded (s : State) (v : List (Nat × Nat × Nat × Nat × Nat)) (g' n' : Nat) : (s.setLanded v).ring g' n' = s.ring g' n' := (rfl)
@[simp] theorem chan_setLanded (s : State) (v : List (Nat × Nat × Nat × Nat × Nat)) (g' n' : Nat) : (s.setLanded v).chan g' n' = s.chan g' n' := (rfl)
@[simp] theorem array_setLanded (s : State) (v : List (Nat × Nat × Nat × Nat × Nat)) (g' a' : Nat) : (s.setLanded v).array g' a' = s.array g' a' := (rfl)
@[simp] theorem pool_setLanded (s : State) (v : List (Nat × Nat × Nat × Nat × Nat)) (p' t' : Nat) : (s.setLanded v).pool p' t' = s.pool p' t' := (rfl)
@[simp] theorem hop_setLanded (s : State) (v : List (Nat × Nat × Nat × Nat × Nat)) (h' d' : Nat) : (s.setLanded v).hop h' d' = s.hop h' d' := (rfl)
@[simp] theorem disp_setLanded (s : State) (v : List (Nat × Nat × Nat × Nat × Nat)) (d' : Nat) : (s.setLanded v).disp d' = s.disp d' := (rfl)
@[simp] theorem link_setLanded (s : State) (v : List (Nat × Nat × Nat × Nat × Nat)) (n' : Nat) : (s.setLanded v).link n' = s.link n' := (rfl)
@[simp] theorem cxl_setLanded (s : State) (v : List (Nat × Nat × Nat × Nat × Nat)) (p' : Nat) : (s.setLanded v).cxl p' = s.cxl p' := (rfl)
@[simp] theorem session_setLanded (s : State) (v : List (Nat × Nat × Nat × Nat × Nat)) (p' : Nat) : (s.setLanded v).session p' = s.session p' := (rfl)
@[simp] theorem phase_setLanded (s : State) (v : List (Nat × Nat × Nat × Nat × Nat)) (p' : Nat) : (s.setLanded v).phase p' = s.phase p' := (rfl)
@[simp] theorem rotationAt_setLanded (s : State) (v : List (Nat × Nat × Nat × Nat × Nat)) (g' : Nat) : (s.setLanded v).rotationAt g' = s.rotationAt g' := (rfl)
@[simp] theorem turnAt_setLanded (s : State) (v : List (Nat × Nat × Nat × Nat × Nat)) (x' : EngRef) : (s.setLanded v).turnAt x' = s.turnAt x' := (rfl)
@[simp] theorem port_setLanded (s : State) (v : List (Nat × Nat × Nat × Nat × Nat)) (p' : Port) : (s.setLanded v).port p' = s.port p' := (rfl)
@[simp] theorem byteAt_setLanded (s : State) (v : List (Nat × Nat × Nat × Nat × Nat)) (a' : Nat) : (s.setLanded v).byteAt a' = s.byteAt a' := (rfl)

/-! ## setMem -/

@[simp] theorem setMem_regs (s : State) (v : List Host.Cell) : (s.setMem v).regs = s.regs := (rfl)
@[simp] theorem setMem_mem (s : State) (v : List Host.Cell) : (s.setMem v).mem = v := (rfl)
@[simp] theorem setMem_poison (s : State) (v : List Host.Cell) : (s.setMem v).poison = s.poison := (rfl)
@[simp] theorem setMem_struck (s : State) (v : List Host.Cell) : (s.setMem v).struck = s.struck := (rfl)
@[simp] theorem setMem_seals (s : State) (v : List Host.Cell) : (s.setMem v).seals = s.seals := (rfl)
@[simp] theorem setMem_tasks (s : State) (v : List Host.Cell) : (s.setMem v).tasks = s.tasks := (rfl)
@[simp] theorem setMem_engs (s : State) (v : List Host.Cell) : (s.setMem v).engs = s.engs := (rfl)
@[simp] theorem setMem_rings (s : State) (v : List Host.Cell) : (s.setMem v).rings = s.rings := (rfl)
@[simp] theorem setMem_chans (s : State) (v : List Host.Cell) : (s.setMem v).chans = s.chans := (rfl)
@[simp] theorem setMem_arrays (s : State) (v : List Host.Cell) : (s.setMem v).arrays = s.arrays := (rfl)
@[simp] theorem setMem_landed (s : State) (v : List Host.Cell) : (s.setMem v).landed = s.landed := (rfl)
@[simp] theorem setMem_rotation (s : State) (v : List Host.Cell) : (s.setMem v).rotation = s.rotation := (rfl)
@[simp] theorem setMem_turns (s : State) (v : List Host.Cell) : (s.setMem v).turns = s.turns := (rfl)
@[simp] theorem setMem_pools (s : State) (v : List Host.Cell) : (s.setMem v).pools = s.pools := (rfl)
@[simp] theorem setMem_frames (s : State) (v : List Host.Cell) : (s.setMem v).frames = s.frames := (rfl)
@[simp] theorem setMem_backlog (s : State) (v : List Host.Cell) : (s.setMem v).backlog = s.backlog := (rfl)
@[simp] theorem setMem_hops (s : State) (v : List Host.Cell) : (s.setMem v).hops = s.hops := (rfl)
@[simp] theorem setMem_disps (s : State) (v : List Host.Cell) : (s.setMem v).disps = s.disps := (rfl)
@[simp] theorem setMem_links (s : State) (v : List Host.Cell) : (s.setMem v).links = s.links := (rfl)
@[simp] theorem setMem_cxls (s : State) (v : List Host.Cell) : (s.setMem v).cxls = s.cxls := (rfl)
@[simp] theorem setMem_ports (s : State) (v : List Host.Cell) : (s.setMem v).ports = s.ports := (rfl)
@[simp] theorem setMem_pkg (s : State) (v : List Host.Cell) : (s.setMem v).pkg = s.pkg := (rfl)
@[simp] theorem setMem_lh (s : State) (v : List Host.Cell) : (s.setMem v).lh = s.lh := (rfl)
@[simp] theorem setMem_sessions (s : State) (v : List Host.Cell) : (s.setMem v).sessions = s.sessions := (rfl)
@[simp] theorem setMem_phases (s : State) (v : List Host.Cell) : (s.setMem v).phases = s.phases := (rfl)
@[simp] theorem setMem_trust (s : State) (v : List Host.Cell) : (s.setMem v).trust = s.trust := (rfl)
@[simp] theorem setMem_nextTask (s : State) (v : List Host.Cell) : (s.setMem v).nextTask = s.nextTask := (rfl)
@[simp] theorem setMem_free (s : State) (v : List Host.Cell) : (s.setMem v).free = s.free := (rfl)
@[simp] theorem setMem_out (s : State) (v : List Host.Cell) : (s.setMem v).out = s.out := (rfl)
@[simp] theorem setMem_pending (s : State) (v : List Host.Cell) : (s.setMem v).pending = s.pending := (rfl)
@[simp] theorem reg_setMem (s : State) (v : List Host.Cell) (r' : RegId) : (s.setMem v).reg r' = s.reg r' := (rfl)
@[simp] theorem eng_setMem (s : State) (v : List Host.Cell) (x' : EngRef) : (s.setMem v).eng x' = s.eng x' := (rfl)
@[simp] theorem ring_setMem (s : State) (v : List Host.Cell) (g' n' : Nat) : (s.setMem v).ring g' n' = s.ring g' n' := (rfl)
@[simp] theorem chan_setMem (s : State) (v : List Host.Cell) (g' n' : Nat) : (s.setMem v).chan g' n' = s.chan g' n' := (rfl)
@[simp] theorem array_setMem (s : State) (v : List Host.Cell) (g' a' : Nat) : (s.setMem v).array g' a' = s.array g' a' := (rfl)
@[simp] theorem pool_setMem (s : State) (v : List Host.Cell) (p' t' : Nat) : (s.setMem v).pool p' t' = s.pool p' t' := (rfl)
@[simp] theorem hop_setMem (s : State) (v : List Host.Cell) (h' d' : Nat) : (s.setMem v).hop h' d' = s.hop h' d' := (rfl)
@[simp] theorem disp_setMem (s : State) (v : List Host.Cell) (d' : Nat) : (s.setMem v).disp d' = s.disp d' := (rfl)
@[simp] theorem link_setMem (s : State) (v : List Host.Cell) (n' : Nat) : (s.setMem v).link n' = s.link n' := (rfl)
@[simp] theorem cxl_setMem (s : State) (v : List Host.Cell) (p' : Nat) : (s.setMem v).cxl p' = s.cxl p' := (rfl)
@[simp] theorem session_setMem (s : State) (v : List Host.Cell) (p' : Nat) : (s.setMem v).session p' = s.session p' := (rfl)
@[simp] theorem phase_setMem (s : State) (v : List Host.Cell) (p' : Nat) : (s.setMem v).phase p' = s.phase p' := (rfl)
@[simp] theorem rotationAt_setMem (s : State) (v : List Host.Cell) (g' : Nat) : (s.setMem v).rotationAt g' = s.rotationAt g' := (rfl)
@[simp] theorem turnAt_setMem (s : State) (v : List Host.Cell) (x' : EngRef) : (s.setMem v).turnAt x' = s.turnAt x' := (rfl)
@[simp] theorem port_setMem (s : State) (v : List Host.Cell) (p' : Port) : (s.setMem v).port p' = s.port p' := (rfl)

/-! ## setPoison -/

@[simp] theorem setPoison_regs (s : State) (v : List (Nat × Nat)) : (s.setPoison v).regs = s.regs := (rfl)
@[simp] theorem setPoison_mem (s : State) (v : List (Nat × Nat)) : (s.setPoison v).mem = s.mem := (rfl)
@[simp] theorem setPoison_poison (s : State) (v : List (Nat × Nat)) : (s.setPoison v).poison = v := (rfl)
@[simp] theorem setPoison_struck (s : State) (v : List (Nat × Nat)) : (s.setPoison v).struck = s.struck := (rfl)
@[simp] theorem setPoison_seals (s : State) (v : List (Nat × Nat)) : (s.setPoison v).seals = s.seals := (rfl)
@[simp] theorem setPoison_tasks (s : State) (v : List (Nat × Nat)) : (s.setPoison v).tasks = s.tasks := (rfl)
@[simp] theorem setPoison_engs (s : State) (v : List (Nat × Nat)) : (s.setPoison v).engs = s.engs := (rfl)
@[simp] theorem setPoison_rings (s : State) (v : List (Nat × Nat)) : (s.setPoison v).rings = s.rings := (rfl)
@[simp] theorem setPoison_chans (s : State) (v : List (Nat × Nat)) : (s.setPoison v).chans = s.chans := (rfl)
@[simp] theorem setPoison_arrays (s : State) (v : List (Nat × Nat)) : (s.setPoison v).arrays = s.arrays := (rfl)
@[simp] theorem setPoison_landed (s : State) (v : List (Nat × Nat)) : (s.setPoison v).landed = s.landed := (rfl)
@[simp] theorem setPoison_rotation (s : State) (v : List (Nat × Nat)) : (s.setPoison v).rotation = s.rotation := (rfl)
@[simp] theorem setPoison_turns (s : State) (v : List (Nat × Nat)) : (s.setPoison v).turns = s.turns := (rfl)
@[simp] theorem setPoison_pools (s : State) (v : List (Nat × Nat)) : (s.setPoison v).pools = s.pools := (rfl)
@[simp] theorem setPoison_frames (s : State) (v : List (Nat × Nat)) : (s.setPoison v).frames = s.frames := (rfl)
@[simp] theorem setPoison_backlog (s : State) (v : List (Nat × Nat)) : (s.setPoison v).backlog = s.backlog := (rfl)
@[simp] theorem setPoison_hops (s : State) (v : List (Nat × Nat)) : (s.setPoison v).hops = s.hops := (rfl)
@[simp] theorem setPoison_disps (s : State) (v : List (Nat × Nat)) : (s.setPoison v).disps = s.disps := (rfl)
@[simp] theorem setPoison_links (s : State) (v : List (Nat × Nat)) : (s.setPoison v).links = s.links := (rfl)
@[simp] theorem setPoison_cxls (s : State) (v : List (Nat × Nat)) : (s.setPoison v).cxls = s.cxls := (rfl)
@[simp] theorem setPoison_ports (s : State) (v : List (Nat × Nat)) : (s.setPoison v).ports = s.ports := (rfl)
@[simp] theorem setPoison_pkg (s : State) (v : List (Nat × Nat)) : (s.setPoison v).pkg = s.pkg := (rfl)
@[simp] theorem setPoison_lh (s : State) (v : List (Nat × Nat)) : (s.setPoison v).lh = s.lh := (rfl)
@[simp] theorem setPoison_sessions (s : State) (v : List (Nat × Nat)) : (s.setPoison v).sessions = s.sessions := (rfl)
@[simp] theorem setPoison_phases (s : State) (v : List (Nat × Nat)) : (s.setPoison v).phases = s.phases := (rfl)
@[simp] theorem setPoison_trust (s : State) (v : List (Nat × Nat)) : (s.setPoison v).trust = s.trust := (rfl)
@[simp] theorem setPoison_nextTask (s : State) (v : List (Nat × Nat)) : (s.setPoison v).nextTask = s.nextTask := (rfl)
@[simp] theorem setPoison_free (s : State) (v : List (Nat × Nat)) : (s.setPoison v).free = s.free := (rfl)
@[simp] theorem setPoison_out (s : State) (v : List (Nat × Nat)) : (s.setPoison v).out = s.out := (rfl)
@[simp] theorem setPoison_pending (s : State) (v : List (Nat × Nat)) : (s.setPoison v).pending = s.pending := (rfl)
@[simp] theorem reg_setPoison (s : State) (v : List (Nat × Nat)) (r' : RegId) : (s.setPoison v).reg r' = s.reg r' := (rfl)
@[simp] theorem eng_setPoison (s : State) (v : List (Nat × Nat)) (x' : EngRef) : (s.setPoison v).eng x' = s.eng x' := (rfl)
@[simp] theorem ring_setPoison (s : State) (v : List (Nat × Nat)) (g' n' : Nat) : (s.setPoison v).ring g' n' = s.ring g' n' := (rfl)
@[simp] theorem chan_setPoison (s : State) (v : List (Nat × Nat)) (g' n' : Nat) : (s.setPoison v).chan g' n' = s.chan g' n' := (rfl)
@[simp] theorem array_setPoison (s : State) (v : List (Nat × Nat)) (g' a' : Nat) : (s.setPoison v).array g' a' = s.array g' a' := (rfl)
@[simp] theorem pool_setPoison (s : State) (v : List (Nat × Nat)) (p' t' : Nat) : (s.setPoison v).pool p' t' = s.pool p' t' := (rfl)
@[simp] theorem hop_setPoison (s : State) (v : List (Nat × Nat)) (h' d' : Nat) : (s.setPoison v).hop h' d' = s.hop h' d' := (rfl)
@[simp] theorem disp_setPoison (s : State) (v : List (Nat × Nat)) (d' : Nat) : (s.setPoison v).disp d' = s.disp d' := (rfl)
@[simp] theorem link_setPoison (s : State) (v : List (Nat × Nat)) (n' : Nat) : (s.setPoison v).link n' = s.link n' := (rfl)
@[simp] theorem cxl_setPoison (s : State) (v : List (Nat × Nat)) (p' : Nat) : (s.setPoison v).cxl p' = s.cxl p' := (rfl)
@[simp] theorem session_setPoison (s : State) (v : List (Nat × Nat)) (p' : Nat) : (s.setPoison v).session p' = s.session p' := (rfl)
@[simp] theorem phase_setPoison (s : State) (v : List (Nat × Nat)) (p' : Nat) : (s.setPoison v).phase p' = s.phase p' := (rfl)
@[simp] theorem rotationAt_setPoison (s : State) (v : List (Nat × Nat)) (g' : Nat) : (s.setPoison v).rotationAt g' = s.rotationAt g' := (rfl)
@[simp] theorem turnAt_setPoison (s : State) (v : List (Nat × Nat)) (x' : EngRef) : (s.setPoison v).turnAt x' = s.turnAt x' := (rfl)
@[simp] theorem port_setPoison (s : State) (v : List (Nat × Nat)) (p' : Port) : (s.setPoison v).port p' = s.port p' := (rfl)
@[simp] theorem byteAt_setPoison (s : State) (v : List (Nat × Nat)) (a' : Nat) : (s.setPoison v).byteAt a' = s.byteAt a' := (rfl)

/-! ## setSeals -/

@[simp] theorem setSeals_regs (s : State) (v : List (Nat × Nat)) : (s.setSeals v).regs = s.regs := (rfl)
@[simp] theorem setSeals_mem (s : State) (v : List (Nat × Nat)) : (s.setSeals v).mem = s.mem := (rfl)
@[simp] theorem setSeals_poison (s : State) (v : List (Nat × Nat)) : (s.setSeals v).poison = s.poison := (rfl)
@[simp] theorem setSeals_struck (s : State) (v : List (Nat × Nat)) : (s.setSeals v).struck = s.struck := (rfl)
@[simp] theorem setSeals_seals (s : State) (v : List (Nat × Nat)) : (s.setSeals v).seals = v := (rfl)
@[simp] theorem setSeals_tasks (s : State) (v : List (Nat × Nat)) : (s.setSeals v).tasks = s.tasks := (rfl)
@[simp] theorem setSeals_engs (s : State) (v : List (Nat × Nat)) : (s.setSeals v).engs = s.engs := (rfl)
@[simp] theorem setSeals_rings (s : State) (v : List (Nat × Nat)) : (s.setSeals v).rings = s.rings := (rfl)
@[simp] theorem setSeals_chans (s : State) (v : List (Nat × Nat)) : (s.setSeals v).chans = s.chans := (rfl)
@[simp] theorem setSeals_arrays (s : State) (v : List (Nat × Nat)) : (s.setSeals v).arrays = s.arrays := (rfl)
@[simp] theorem setSeals_landed (s : State) (v : List (Nat × Nat)) : (s.setSeals v).landed = s.landed := (rfl)
@[simp] theorem setSeals_rotation (s : State) (v : List (Nat × Nat)) : (s.setSeals v).rotation = s.rotation := (rfl)
@[simp] theorem setSeals_turns (s : State) (v : List (Nat × Nat)) : (s.setSeals v).turns = s.turns := (rfl)
@[simp] theorem setSeals_pools (s : State) (v : List (Nat × Nat)) : (s.setSeals v).pools = s.pools := (rfl)
@[simp] theorem setSeals_frames (s : State) (v : List (Nat × Nat)) : (s.setSeals v).frames = s.frames := (rfl)
@[simp] theorem setSeals_backlog (s : State) (v : List (Nat × Nat)) : (s.setSeals v).backlog = s.backlog := (rfl)
@[simp] theorem setSeals_hops (s : State) (v : List (Nat × Nat)) : (s.setSeals v).hops = s.hops := (rfl)
@[simp] theorem setSeals_disps (s : State) (v : List (Nat × Nat)) : (s.setSeals v).disps = s.disps := (rfl)
@[simp] theorem setSeals_links (s : State) (v : List (Nat × Nat)) : (s.setSeals v).links = s.links := (rfl)
@[simp] theorem setSeals_cxls (s : State) (v : List (Nat × Nat)) : (s.setSeals v).cxls = s.cxls := (rfl)
@[simp] theorem setSeals_ports (s : State) (v : List (Nat × Nat)) : (s.setSeals v).ports = s.ports := (rfl)
@[simp] theorem setSeals_pkg (s : State) (v : List (Nat × Nat)) : (s.setSeals v).pkg = s.pkg := (rfl)
@[simp] theorem setSeals_lh (s : State) (v : List (Nat × Nat)) : (s.setSeals v).lh = s.lh := (rfl)
@[simp] theorem setSeals_sessions (s : State) (v : List (Nat × Nat)) : (s.setSeals v).sessions = s.sessions := (rfl)
@[simp] theorem setSeals_phases (s : State) (v : List (Nat × Nat)) : (s.setSeals v).phases = s.phases := (rfl)
@[simp] theorem setSeals_trust (s : State) (v : List (Nat × Nat)) : (s.setSeals v).trust = s.trust := (rfl)
@[simp] theorem setSeals_nextTask (s : State) (v : List (Nat × Nat)) : (s.setSeals v).nextTask = s.nextTask := (rfl)
@[simp] theorem setSeals_free (s : State) (v : List (Nat × Nat)) : (s.setSeals v).free = s.free := (rfl)
@[simp] theorem setSeals_out (s : State) (v : List (Nat × Nat)) : (s.setSeals v).out = s.out := (rfl)
@[simp] theorem setSeals_pending (s : State) (v : List (Nat × Nat)) : (s.setSeals v).pending = s.pending := (rfl)
@[simp] theorem reg_setSeals (s : State) (v : List (Nat × Nat)) (r' : RegId) : (s.setSeals v).reg r' = s.reg r' := (rfl)
@[simp] theorem eng_setSeals (s : State) (v : List (Nat × Nat)) (x' : EngRef) : (s.setSeals v).eng x' = s.eng x' := (rfl)
@[simp] theorem ring_setSeals (s : State) (v : List (Nat × Nat)) (g' n' : Nat) : (s.setSeals v).ring g' n' = s.ring g' n' := (rfl)
@[simp] theorem chan_setSeals (s : State) (v : List (Nat × Nat)) (g' n' : Nat) : (s.setSeals v).chan g' n' = s.chan g' n' := (rfl)
@[simp] theorem array_setSeals (s : State) (v : List (Nat × Nat)) (g' a' : Nat) : (s.setSeals v).array g' a' = s.array g' a' := (rfl)
@[simp] theorem pool_setSeals (s : State) (v : List (Nat × Nat)) (p' t' : Nat) : (s.setSeals v).pool p' t' = s.pool p' t' := (rfl)
@[simp] theorem hop_setSeals (s : State) (v : List (Nat × Nat)) (h' d' : Nat) : (s.setSeals v).hop h' d' = s.hop h' d' := (rfl)
@[simp] theorem disp_setSeals (s : State) (v : List (Nat × Nat)) (d' : Nat) : (s.setSeals v).disp d' = s.disp d' := (rfl)
@[simp] theorem link_setSeals (s : State) (v : List (Nat × Nat)) (n' : Nat) : (s.setSeals v).link n' = s.link n' := (rfl)
@[simp] theorem cxl_setSeals (s : State) (v : List (Nat × Nat)) (p' : Nat) : (s.setSeals v).cxl p' = s.cxl p' := (rfl)
@[simp] theorem session_setSeals (s : State) (v : List (Nat × Nat)) (p' : Nat) : (s.setSeals v).session p' = s.session p' := (rfl)
@[simp] theorem phase_setSeals (s : State) (v : List (Nat × Nat)) (p' : Nat) : (s.setSeals v).phase p' = s.phase p' := (rfl)
@[simp] theorem rotationAt_setSeals (s : State) (v : List (Nat × Nat)) (g' : Nat) : (s.setSeals v).rotationAt g' = s.rotationAt g' := (rfl)
@[simp] theorem turnAt_setSeals (s : State) (v : List (Nat × Nat)) (x' : EngRef) : (s.setSeals v).turnAt x' = s.turnAt x' := (rfl)
@[simp] theorem port_setSeals (s : State) (v : List (Nat × Nat)) (p' : Port) : (s.setSeals v).port p' = s.port p' := (rfl)
@[simp] theorem byteAt_setSeals (s : State) (v : List (Nat × Nat)) (a' : Nat) : (s.setSeals v).byteAt a' = s.byteAt a' := (rfl)

/-! ## setRings -/

@[simp] theorem setRings_regs (s : State) (v : List ((Nat × Nat) × Ring)) : (s.setRings v).regs = s.regs := (rfl)
@[simp] theorem setRings_mem (s : State) (v : List ((Nat × Nat) × Ring)) : (s.setRings v).mem = s.mem := (rfl)
@[simp] theorem setRings_poison (s : State) (v : List ((Nat × Nat) × Ring)) : (s.setRings v).poison = s.poison := (rfl)
@[simp] theorem setRings_struck (s : State) (v : List ((Nat × Nat) × Ring)) : (s.setRings v).struck = s.struck := (rfl)
@[simp] theorem setRings_seals (s : State) (v : List ((Nat × Nat) × Ring)) : (s.setRings v).seals = s.seals := (rfl)
@[simp] theorem setRings_tasks (s : State) (v : List ((Nat × Nat) × Ring)) : (s.setRings v).tasks = s.tasks := (rfl)
@[simp] theorem setRings_engs (s : State) (v : List ((Nat × Nat) × Ring)) : (s.setRings v).engs = s.engs := (rfl)
@[simp] theorem setRings_rings (s : State) (v : List ((Nat × Nat) × Ring)) : (s.setRings v).rings = v := (rfl)
@[simp] theorem setRings_chans (s : State) (v : List ((Nat × Nat) × Ring)) : (s.setRings v).chans = s.chans := (rfl)
@[simp] theorem setRings_arrays (s : State) (v : List ((Nat × Nat) × Ring)) : (s.setRings v).arrays = s.arrays := (rfl)
@[simp] theorem setRings_landed (s : State) (v : List ((Nat × Nat) × Ring)) : (s.setRings v).landed = s.landed := (rfl)
@[simp] theorem setRings_rotation (s : State) (v : List ((Nat × Nat) × Ring)) : (s.setRings v).rotation = s.rotation := (rfl)
@[simp] theorem setRings_turns (s : State) (v : List ((Nat × Nat) × Ring)) : (s.setRings v).turns = s.turns := (rfl)
@[simp] theorem setRings_pools (s : State) (v : List ((Nat × Nat) × Ring)) : (s.setRings v).pools = s.pools := (rfl)
@[simp] theorem setRings_frames (s : State) (v : List ((Nat × Nat) × Ring)) : (s.setRings v).frames = s.frames := (rfl)
@[simp] theorem setRings_backlog (s : State) (v : List ((Nat × Nat) × Ring)) : (s.setRings v).backlog = s.backlog := (rfl)
@[simp] theorem setRings_hops (s : State) (v : List ((Nat × Nat) × Ring)) : (s.setRings v).hops = s.hops := (rfl)
@[simp] theorem setRings_disps (s : State) (v : List ((Nat × Nat) × Ring)) : (s.setRings v).disps = s.disps := (rfl)
@[simp] theorem setRings_links (s : State) (v : List ((Nat × Nat) × Ring)) : (s.setRings v).links = s.links := (rfl)
@[simp] theorem setRings_cxls (s : State) (v : List ((Nat × Nat) × Ring)) : (s.setRings v).cxls = s.cxls := (rfl)
@[simp] theorem setRings_ports (s : State) (v : List ((Nat × Nat) × Ring)) : (s.setRings v).ports = s.ports := (rfl)
@[simp] theorem setRings_pkg (s : State) (v : List ((Nat × Nat) × Ring)) : (s.setRings v).pkg = s.pkg := (rfl)
@[simp] theorem setRings_lh (s : State) (v : List ((Nat × Nat) × Ring)) : (s.setRings v).lh = s.lh := (rfl)
@[simp] theorem setRings_sessions (s : State) (v : List ((Nat × Nat) × Ring)) : (s.setRings v).sessions = s.sessions := (rfl)
@[simp] theorem setRings_phases (s : State) (v : List ((Nat × Nat) × Ring)) : (s.setRings v).phases = s.phases := (rfl)
@[simp] theorem setRings_trust (s : State) (v : List ((Nat × Nat) × Ring)) : (s.setRings v).trust = s.trust := (rfl)
@[simp] theorem setRings_nextTask (s : State) (v : List ((Nat × Nat) × Ring)) : (s.setRings v).nextTask = s.nextTask := (rfl)
@[simp] theorem setRings_free (s : State) (v : List ((Nat × Nat) × Ring)) : (s.setRings v).free = s.free := (rfl)
@[simp] theorem setRings_out (s : State) (v : List ((Nat × Nat) × Ring)) : (s.setRings v).out = s.out := (rfl)
@[simp] theorem setRings_pending (s : State) (v : List ((Nat × Nat) × Ring)) : (s.setRings v).pending = s.pending := (rfl)
@[simp] theorem reg_setRings (s : State) (v : List ((Nat × Nat) × Ring)) (r' : RegId) : (s.setRings v).reg r' = s.reg r' := (rfl)
@[simp] theorem eng_setRings (s : State) (v : List ((Nat × Nat) × Ring)) (x' : EngRef) : (s.setRings v).eng x' = s.eng x' := (rfl)
@[simp] theorem chan_setRings (s : State) (v : List ((Nat × Nat) × Ring)) (g' n' : Nat) : (s.setRings v).chan g' n' = s.chan g' n' := (rfl)
@[simp] theorem array_setRings (s : State) (v : List ((Nat × Nat) × Ring)) (g' a' : Nat) : (s.setRings v).array g' a' = s.array g' a' := (rfl)
@[simp] theorem pool_setRings (s : State) (v : List ((Nat × Nat) × Ring)) (p' t' : Nat) : (s.setRings v).pool p' t' = s.pool p' t' := (rfl)
@[simp] theorem hop_setRings (s : State) (v : List ((Nat × Nat) × Ring)) (h' d' : Nat) : (s.setRings v).hop h' d' = s.hop h' d' := (rfl)
@[simp] theorem disp_setRings (s : State) (v : List ((Nat × Nat) × Ring)) (d' : Nat) : (s.setRings v).disp d' = s.disp d' := (rfl)
@[simp] theorem link_setRings (s : State) (v : List ((Nat × Nat) × Ring)) (n' : Nat) : (s.setRings v).link n' = s.link n' := (rfl)
@[simp] theorem cxl_setRings (s : State) (v : List ((Nat × Nat) × Ring)) (p' : Nat) : (s.setRings v).cxl p' = s.cxl p' := (rfl)
@[simp] theorem session_setRings (s : State) (v : List ((Nat × Nat) × Ring)) (p' : Nat) : (s.setRings v).session p' = s.session p' := (rfl)
@[simp] theorem phase_setRings (s : State) (v : List ((Nat × Nat) × Ring)) (p' : Nat) : (s.setRings v).phase p' = s.phase p' := (rfl)
@[simp] theorem rotationAt_setRings (s : State) (v : List ((Nat × Nat) × Ring)) (g' : Nat) : (s.setRings v).rotationAt g' = s.rotationAt g' := (rfl)
@[simp] theorem turnAt_setRings (s : State) (v : List ((Nat × Nat) × Ring)) (x' : EngRef) : (s.setRings v).turnAt x' = s.turnAt x' := (rfl)
@[simp] theorem port_setRings (s : State) (v : List ((Nat × Nat) × Ring)) (p' : Port) : (s.setRings v).port p' = s.port p' := (rfl)
@[simp] theorem byteAt_setRings (s : State) (v : List ((Nat × Nat) × Ring)) (a' : Nat) : (s.setRings v).byteAt a' = s.byteAt a' := (rfl)

/-! ## setEngs -/

@[simp] theorem setEngs_regs (s : State) (v : List (EngRef × EngCtx)) : (s.setEngs v).regs = s.regs := (rfl)
@[simp] theorem setEngs_mem (s : State) (v : List (EngRef × EngCtx)) : (s.setEngs v).mem = s.mem := (rfl)
@[simp] theorem setEngs_poison (s : State) (v : List (EngRef × EngCtx)) : (s.setEngs v).poison = s.poison := (rfl)
@[simp] theorem setEngs_struck (s : State) (v : List (EngRef × EngCtx)) : (s.setEngs v).struck = s.struck := (rfl)
@[simp] theorem setEngs_seals (s : State) (v : List (EngRef × EngCtx)) : (s.setEngs v).seals = s.seals := (rfl)
@[simp] theorem setEngs_tasks (s : State) (v : List (EngRef × EngCtx)) : (s.setEngs v).tasks = s.tasks := (rfl)
@[simp] theorem setEngs_engs (s : State) (v : List (EngRef × EngCtx)) : (s.setEngs v).engs = v := (rfl)
@[simp] theorem setEngs_rings (s : State) (v : List (EngRef × EngCtx)) : (s.setEngs v).rings = s.rings := (rfl)
@[simp] theorem setEngs_chans (s : State) (v : List (EngRef × EngCtx)) : (s.setEngs v).chans = s.chans := (rfl)
@[simp] theorem setEngs_arrays (s : State) (v : List (EngRef × EngCtx)) : (s.setEngs v).arrays = s.arrays := (rfl)
@[simp] theorem setEngs_landed (s : State) (v : List (EngRef × EngCtx)) : (s.setEngs v).landed = s.landed := (rfl)
@[simp] theorem setEngs_rotation (s : State) (v : List (EngRef × EngCtx)) : (s.setEngs v).rotation = s.rotation := (rfl)
@[simp] theorem setEngs_turns (s : State) (v : List (EngRef × EngCtx)) : (s.setEngs v).turns = s.turns := (rfl)
@[simp] theorem setEngs_pools (s : State) (v : List (EngRef × EngCtx)) : (s.setEngs v).pools = s.pools := (rfl)
@[simp] theorem setEngs_frames (s : State) (v : List (EngRef × EngCtx)) : (s.setEngs v).frames = s.frames := (rfl)
@[simp] theorem setEngs_backlog (s : State) (v : List (EngRef × EngCtx)) : (s.setEngs v).backlog = s.backlog := (rfl)
@[simp] theorem setEngs_hops (s : State) (v : List (EngRef × EngCtx)) : (s.setEngs v).hops = s.hops := (rfl)
@[simp] theorem setEngs_disps (s : State) (v : List (EngRef × EngCtx)) : (s.setEngs v).disps = s.disps := (rfl)
@[simp] theorem setEngs_links (s : State) (v : List (EngRef × EngCtx)) : (s.setEngs v).links = s.links := (rfl)
@[simp] theorem setEngs_cxls (s : State) (v : List (EngRef × EngCtx)) : (s.setEngs v).cxls = s.cxls := (rfl)
@[simp] theorem setEngs_ports (s : State) (v : List (EngRef × EngCtx)) : (s.setEngs v).ports = s.ports := (rfl)
@[simp] theorem setEngs_pkg (s : State) (v : List (EngRef × EngCtx)) : (s.setEngs v).pkg = s.pkg := (rfl)
@[simp] theorem setEngs_lh (s : State) (v : List (EngRef × EngCtx)) : (s.setEngs v).lh = s.lh := (rfl)
@[simp] theorem setEngs_sessions (s : State) (v : List (EngRef × EngCtx)) : (s.setEngs v).sessions = s.sessions := (rfl)
@[simp] theorem setEngs_phases (s : State) (v : List (EngRef × EngCtx)) : (s.setEngs v).phases = s.phases := (rfl)
@[simp] theorem setEngs_trust (s : State) (v : List (EngRef × EngCtx)) : (s.setEngs v).trust = s.trust := (rfl)
@[simp] theorem setEngs_nextTask (s : State) (v : List (EngRef × EngCtx)) : (s.setEngs v).nextTask = s.nextTask := (rfl)
@[simp] theorem setEngs_free (s : State) (v : List (EngRef × EngCtx)) : (s.setEngs v).free = s.free := (rfl)
@[simp] theorem setEngs_out (s : State) (v : List (EngRef × EngCtx)) : (s.setEngs v).out = s.out := (rfl)
@[simp] theorem setEngs_pending (s : State) (v : List (EngRef × EngCtx)) : (s.setEngs v).pending = s.pending := (rfl)
@[simp] theorem reg_setEngs (s : State) (v : List (EngRef × EngCtx)) (r' : RegId) : (s.setEngs v).reg r' = s.reg r' := (rfl)
@[simp] theorem ring_setEngs (s : State) (v : List (EngRef × EngCtx)) (g' n' : Nat) : (s.setEngs v).ring g' n' = s.ring g' n' := (rfl)
@[simp] theorem chan_setEngs (s : State) (v : List (EngRef × EngCtx)) (g' n' : Nat) : (s.setEngs v).chan g' n' = s.chan g' n' := (rfl)
@[simp] theorem array_setEngs (s : State) (v : List (EngRef × EngCtx)) (g' a' : Nat) : (s.setEngs v).array g' a' = s.array g' a' := (rfl)
@[simp] theorem pool_setEngs (s : State) (v : List (EngRef × EngCtx)) (p' t' : Nat) : (s.setEngs v).pool p' t' = s.pool p' t' := (rfl)
@[simp] theorem hop_setEngs (s : State) (v : List (EngRef × EngCtx)) (h' d' : Nat) : (s.setEngs v).hop h' d' = s.hop h' d' := (rfl)
@[simp] theorem disp_setEngs (s : State) (v : List (EngRef × EngCtx)) (d' : Nat) : (s.setEngs v).disp d' = s.disp d' := (rfl)
@[simp] theorem link_setEngs (s : State) (v : List (EngRef × EngCtx)) (n' : Nat) : (s.setEngs v).link n' = s.link n' := (rfl)
@[simp] theorem cxl_setEngs (s : State) (v : List (EngRef × EngCtx)) (p' : Nat) : (s.setEngs v).cxl p' = s.cxl p' := (rfl)
@[simp] theorem session_setEngs (s : State) (v : List (EngRef × EngCtx)) (p' : Nat) : (s.setEngs v).session p' = s.session p' := (rfl)
@[simp] theorem phase_setEngs (s : State) (v : List (EngRef × EngCtx)) (p' : Nat) : (s.setEngs v).phase p' = s.phase p' := (rfl)
@[simp] theorem rotationAt_setEngs (s : State) (v : List (EngRef × EngCtx)) (g' : Nat) : (s.setEngs v).rotationAt g' = s.rotationAt g' := (rfl)
@[simp] theorem turnAt_setEngs (s : State) (v : List (EngRef × EngCtx)) (x' : EngRef) : (s.setEngs v).turnAt x' = s.turnAt x' := (rfl)
@[simp] theorem port_setEngs (s : State) (v : List (EngRef × EngCtx)) (p' : Port) : (s.setEngs v).port p' = s.port p' := (rfl)
@[simp] theorem byteAt_setEngs (s : State) (v : List (EngRef × EngCtx)) (a' : Nat) : (s.setEngs v).byteAt a' = s.byteAt a' := (rfl)

/-! ## dropRegs -/

@[simp] theorem dropRegs_mem (s : State) (p : RegId → Bool) : (s.dropRegs p).mem = s.mem := (rfl)
@[simp] theorem dropRegs_poison (s : State) (p : RegId → Bool) : (s.dropRegs p).poison = s.poison := (rfl)
@[simp] theorem dropRegs_struck (s : State) (p : RegId → Bool) : (s.dropRegs p).struck = s.struck := (rfl)
@[simp] theorem dropRegs_seals (s : State) (p : RegId → Bool) : (s.dropRegs p).seals = s.seals := (rfl)
@[simp] theorem dropRegs_tasks (s : State) (p : RegId → Bool) : (s.dropRegs p).tasks = s.tasks := (rfl)
@[simp] theorem dropRegs_engs (s : State) (p : RegId → Bool) : (s.dropRegs p).engs = s.engs := (rfl)
@[simp] theorem dropRegs_rings (s : State) (p : RegId → Bool) : (s.dropRegs p).rings = s.rings := (rfl)
@[simp] theorem dropRegs_chans (s : State) (p : RegId → Bool) : (s.dropRegs p).chans = s.chans := (rfl)
@[simp] theorem dropRegs_arrays (s : State) (p : RegId → Bool) : (s.dropRegs p).arrays = s.arrays := (rfl)
@[simp] theorem dropRegs_landed (s : State) (p : RegId → Bool) : (s.dropRegs p).landed = s.landed := (rfl)
@[simp] theorem dropRegs_rotation (s : State) (p : RegId → Bool) : (s.dropRegs p).rotation = s.rotation := (rfl)
@[simp] theorem dropRegs_turns (s : State) (p : RegId → Bool) : (s.dropRegs p).turns = s.turns := (rfl)
@[simp] theorem dropRegs_pools (s : State) (p : RegId → Bool) : (s.dropRegs p).pools = s.pools := (rfl)
@[simp] theorem dropRegs_frames (s : State) (p : RegId → Bool) : (s.dropRegs p).frames = s.frames := (rfl)
@[simp] theorem dropRegs_backlog (s : State) (p : RegId → Bool) : (s.dropRegs p).backlog = s.backlog := (rfl)
@[simp] theorem dropRegs_hops (s : State) (p : RegId → Bool) : (s.dropRegs p).hops = s.hops := (rfl)
@[simp] theorem dropRegs_disps (s : State) (p : RegId → Bool) : (s.dropRegs p).disps = s.disps := (rfl)
@[simp] theorem dropRegs_links (s : State) (p : RegId → Bool) : (s.dropRegs p).links = s.links := (rfl)
@[simp] theorem dropRegs_cxls (s : State) (p : RegId → Bool) : (s.dropRegs p).cxls = s.cxls := (rfl)
@[simp] theorem dropRegs_ports (s : State) (p : RegId → Bool) : (s.dropRegs p).ports = s.ports := (rfl)
@[simp] theorem dropRegs_pkg (s : State) (p : RegId → Bool) : (s.dropRegs p).pkg = s.pkg := (rfl)
@[simp] theorem dropRegs_lh (s : State) (p : RegId → Bool) : (s.dropRegs p).lh = s.lh := (rfl)
@[simp] theorem dropRegs_sessions (s : State) (p : RegId → Bool) : (s.dropRegs p).sessions = s.sessions := (rfl)
@[simp] theorem dropRegs_phases (s : State) (p : RegId → Bool) : (s.dropRegs p).phases = s.phases := (rfl)
@[simp] theorem dropRegs_trust (s : State) (p : RegId → Bool) : (s.dropRegs p).trust = s.trust := (rfl)
@[simp] theorem dropRegs_nextTask (s : State) (p : RegId → Bool) : (s.dropRegs p).nextTask = s.nextTask := (rfl)
@[simp] theorem dropRegs_free (s : State) (p : RegId → Bool) : (s.dropRegs p).free = s.free := (rfl)
@[simp] theorem dropRegs_out (s : State) (p : RegId → Bool) : (s.dropRegs p).out = s.out := (rfl)
@[simp] theorem dropRegs_pending (s : State) (p : RegId → Bool) : (s.dropRegs p).pending = s.pending := (rfl)
@[simp] theorem eng_dropRegs (s : State) (p : RegId → Bool) (x' : EngRef) : (s.dropRegs p).eng x' = s.eng x' := (rfl)
@[simp] theorem ring_dropRegs (s : State) (p : RegId → Bool) (g' n' : Nat) : (s.dropRegs p).ring g' n' = s.ring g' n' := (rfl)
@[simp] theorem chan_dropRegs (s : State) (p : RegId → Bool) (g' n' : Nat) : (s.dropRegs p).chan g' n' = s.chan g' n' := (rfl)
@[simp] theorem array_dropRegs (s : State) (p : RegId → Bool) (g' a' : Nat) : (s.dropRegs p).array g' a' = s.array g' a' := (rfl)
@[simp] theorem pool_dropRegs (s : State) (p : RegId → Bool) (p' t' : Nat) : (s.dropRegs p).pool p' t' = s.pool p' t' := (rfl)
@[simp] theorem hop_dropRegs (s : State) (p : RegId → Bool) (h' d' : Nat) : (s.dropRegs p).hop h' d' = s.hop h' d' := (rfl)
@[simp] theorem disp_dropRegs (s : State) (p : RegId → Bool) (d' : Nat) : (s.dropRegs p).disp d' = s.disp d' := (rfl)
@[simp] theorem link_dropRegs (s : State) (p : RegId → Bool) (n' : Nat) : (s.dropRegs p).link n' = s.link n' := (rfl)
@[simp] theorem cxl_dropRegs (s : State) (p : RegId → Bool) (p' : Nat) : (s.dropRegs p).cxl p' = s.cxl p' := (rfl)
@[simp] theorem session_dropRegs (s : State) (p : RegId → Bool) (p' : Nat) : (s.dropRegs p).session p' = s.session p' := (rfl)
@[simp] theorem phase_dropRegs (s : State) (p : RegId → Bool) (p' : Nat) : (s.dropRegs p).phase p' = s.phase p' := (rfl)
@[simp] theorem rotationAt_dropRegs (s : State) (p : RegId → Bool) (g' : Nat) : (s.dropRegs p).rotationAt g' = s.rotationAt g' := (rfl)
@[simp] theorem turnAt_dropRegs (s : State) (p : RegId → Bool) (x' : EngRef) : (s.dropRegs p).turnAt x' = s.turnAt x' := (rfl)
@[simp] theorem port_dropRegs (s : State) (p : RegId → Bool) (p' : Port) : (s.dropRegs p).port p' = s.port p' := (rfl)
@[simp] theorem byteAt_dropRegs (s : State) (p : RegId → Bool) (a' : Nat) : (s.dropRegs p).byteAt a' = s.byteAt a' := (rfl)

/-! ## setPending -/

@[simp] theorem setPending_regs (s : State) (v : List Instr) : (s.setPending v).regs = s.regs := (rfl)
@[simp] theorem setPending_mem (s : State) (v : List Instr) : (s.setPending v).mem = s.mem := (rfl)
@[simp] theorem setPending_poison (s : State) (v : List Instr) : (s.setPending v).poison = s.poison := (rfl)
@[simp] theorem setPending_struck (s : State) (v : List Instr) : (s.setPending v).struck = s.struck := (rfl)
@[simp] theorem setPending_seals (s : State) (v : List Instr) : (s.setPending v).seals = s.seals := (rfl)
@[simp] theorem setPending_tasks (s : State) (v : List Instr) : (s.setPending v).tasks = s.tasks := (rfl)
@[simp] theorem setPending_engs (s : State) (v : List Instr) : (s.setPending v).engs = s.engs := (rfl)
@[simp] theorem setPending_rings (s : State) (v : List Instr) : (s.setPending v).rings = s.rings := (rfl)
@[simp] theorem setPending_chans (s : State) (v : List Instr) : (s.setPending v).chans = s.chans := (rfl)
@[simp] theorem setPending_arrays (s : State) (v : List Instr) : (s.setPending v).arrays = s.arrays := (rfl)
@[simp] theorem setPending_landed (s : State) (v : List Instr) : (s.setPending v).landed = s.landed := (rfl)
@[simp] theorem setPending_rotation (s : State) (v : List Instr) : (s.setPending v).rotation = s.rotation := (rfl)
@[simp] theorem setPending_turns (s : State) (v : List Instr) : (s.setPending v).turns = s.turns := (rfl)
@[simp] theorem setPending_pools (s : State) (v : List Instr) : (s.setPending v).pools = s.pools := (rfl)
@[simp] theorem setPending_frames (s : State) (v : List Instr) : (s.setPending v).frames = s.frames := (rfl)
@[simp] theorem setPending_backlog (s : State) (v : List Instr) : (s.setPending v).backlog = s.backlog := (rfl)
@[simp] theorem setPending_hops (s : State) (v : List Instr) : (s.setPending v).hops = s.hops := (rfl)
@[simp] theorem setPending_disps (s : State) (v : List Instr) : (s.setPending v).disps = s.disps := (rfl)
@[simp] theorem setPending_links (s : State) (v : List Instr) : (s.setPending v).links = s.links := (rfl)
@[simp] theorem setPending_cxls (s : State) (v : List Instr) : (s.setPending v).cxls = s.cxls := (rfl)
@[simp] theorem setPending_ports (s : State) (v : List Instr) : (s.setPending v).ports = s.ports := (rfl)
@[simp] theorem setPending_pkg (s : State) (v : List Instr) : (s.setPending v).pkg = s.pkg := (rfl)
@[simp] theorem setPending_lh (s : State) (v : List Instr) : (s.setPending v).lh = s.lh := (rfl)
@[simp] theorem setPending_sessions (s : State) (v : List Instr) : (s.setPending v).sessions = s.sessions := (rfl)
@[simp] theorem setPending_phases (s : State) (v : List Instr) : (s.setPending v).phases = s.phases := (rfl)
@[simp] theorem setPending_trust (s : State) (v : List Instr) : (s.setPending v).trust = s.trust := (rfl)
@[simp] theorem setPending_nextTask (s : State) (v : List Instr) : (s.setPending v).nextTask = s.nextTask := (rfl)
@[simp] theorem setPending_free (s : State) (v : List Instr) : (s.setPending v).free = s.free := (rfl)
@[simp] theorem setPending_out (s : State) (v : List Instr) : (s.setPending v).out = s.out := (rfl)
@[simp] theorem setPending_pending (s : State) (v : List Instr) : (s.setPending v).pending = v := (rfl)
@[simp] theorem reg_setPending (s : State) (v : List Instr) (r' : RegId) : (s.setPending v).reg r' = s.reg r' := (rfl)
@[simp] theorem eng_setPending (s : State) (v : List Instr) (x' : EngRef) : (s.setPending v).eng x' = s.eng x' := (rfl)
@[simp] theorem ring_setPending (s : State) (v : List Instr) (g' n' : Nat) : (s.setPending v).ring g' n' = s.ring g' n' := (rfl)
@[simp] theorem chan_setPending (s : State) (v : List Instr) (g' n' : Nat) : (s.setPending v).chan g' n' = s.chan g' n' := (rfl)
@[simp] theorem array_setPending (s : State) (v : List Instr) (g' a' : Nat) : (s.setPending v).array g' a' = s.array g' a' := (rfl)
@[simp] theorem pool_setPending (s : State) (v : List Instr) (p' t' : Nat) : (s.setPending v).pool p' t' = s.pool p' t' := (rfl)
@[simp] theorem hop_setPending (s : State) (v : List Instr) (h' d' : Nat) : (s.setPending v).hop h' d' = s.hop h' d' := (rfl)
@[simp] theorem disp_setPending (s : State) (v : List Instr) (d' : Nat) : (s.setPending v).disp d' = s.disp d' := (rfl)
@[simp] theorem link_setPending (s : State) (v : List Instr) (n' : Nat) : (s.setPending v).link n' = s.link n' := (rfl)
@[simp] theorem cxl_setPending (s : State) (v : List Instr) (p' : Nat) : (s.setPending v).cxl p' = s.cxl p' := (rfl)
@[simp] theorem session_setPending (s : State) (v : List Instr) (p' : Nat) : (s.setPending v).session p' = s.session p' := (rfl)
@[simp] theorem phase_setPending (s : State) (v : List Instr) (p' : Nat) : (s.setPending v).phase p' = s.phase p' := (rfl)
@[simp] theorem rotationAt_setPending (s : State) (v : List Instr) (g' : Nat) : (s.setPending v).rotationAt g' = s.rotationAt g' := (rfl)
@[simp] theorem turnAt_setPending (s : State) (v : List Instr) (x' : EngRef) : (s.setPending v).turnAt x' = s.turnAt x' := (rfl)
@[simp] theorem port_setPending (s : State) (v : List Instr) (p' : Port) : (s.setPending v).port p' = s.port p' := (rfl)
@[simp] theorem byteAt_setPending (s : State) (v : List Instr) (a' : Nat) : (s.setPending v).byteAt a' = s.byteAt a' := (rfl)

/-! ## setFree -/

@[simp] theorem setFree_regs (s : State) (v : Nat) : (s.setFree v).regs = s.regs := (rfl)
@[simp] theorem setFree_mem (s : State) (v : Nat) : (s.setFree v).mem = s.mem := (rfl)
@[simp] theorem setFree_poison (s : State) (v : Nat) : (s.setFree v).poison = s.poison := (rfl)
@[simp] theorem setFree_struck (s : State) (v : Nat) : (s.setFree v).struck = s.struck := (rfl)
@[simp] theorem setFree_seals (s : State) (v : Nat) : (s.setFree v).seals = s.seals := (rfl)
@[simp] theorem setFree_tasks (s : State) (v : Nat) : (s.setFree v).tasks = s.tasks := (rfl)
@[simp] theorem setFree_engs (s : State) (v : Nat) : (s.setFree v).engs = s.engs := (rfl)
@[simp] theorem setFree_rings (s : State) (v : Nat) : (s.setFree v).rings = s.rings := (rfl)
@[simp] theorem setFree_chans (s : State) (v : Nat) : (s.setFree v).chans = s.chans := (rfl)
@[simp] theorem setFree_arrays (s : State) (v : Nat) : (s.setFree v).arrays = s.arrays := (rfl)
@[simp] theorem setFree_landed (s : State) (v : Nat) : (s.setFree v).landed = s.landed := (rfl)
@[simp] theorem setFree_rotation (s : State) (v : Nat) : (s.setFree v).rotation = s.rotation := (rfl)
@[simp] theorem setFree_turns (s : State) (v : Nat) : (s.setFree v).turns = s.turns := (rfl)
@[simp] theorem setFree_pools (s : State) (v : Nat) : (s.setFree v).pools = s.pools := (rfl)
@[simp] theorem setFree_frames (s : State) (v : Nat) : (s.setFree v).frames = s.frames := (rfl)
@[simp] theorem setFree_backlog (s : State) (v : Nat) : (s.setFree v).backlog = s.backlog := (rfl)
@[simp] theorem setFree_hops (s : State) (v : Nat) : (s.setFree v).hops = s.hops := (rfl)
@[simp] theorem setFree_disps (s : State) (v : Nat) : (s.setFree v).disps = s.disps := (rfl)
@[simp] theorem setFree_links (s : State) (v : Nat) : (s.setFree v).links = s.links := (rfl)
@[simp] theorem setFree_cxls (s : State) (v : Nat) : (s.setFree v).cxls = s.cxls := (rfl)
@[simp] theorem setFree_ports (s : State) (v : Nat) : (s.setFree v).ports = s.ports := (rfl)
@[simp] theorem setFree_pkg (s : State) (v : Nat) : (s.setFree v).pkg = s.pkg := (rfl)
@[simp] theorem setFree_lh (s : State) (v : Nat) : (s.setFree v).lh = s.lh := (rfl)
@[simp] theorem setFree_sessions (s : State) (v : Nat) : (s.setFree v).sessions = s.sessions := (rfl)
@[simp] theorem setFree_phases (s : State) (v : Nat) : (s.setFree v).phases = s.phases := (rfl)
@[simp] theorem setFree_trust (s : State) (v : Nat) : (s.setFree v).trust = s.trust := (rfl)
@[simp] theorem setFree_nextTask (s : State) (v : Nat) : (s.setFree v).nextTask = s.nextTask := (rfl)
@[simp] theorem setFree_free (s : State) (v : Nat) : (s.setFree v).free = v := (rfl)
@[simp] theorem setFree_out (s : State) (v : Nat) : (s.setFree v).out = s.out := (rfl)
@[simp] theorem setFree_pending (s : State) (v : Nat) : (s.setFree v).pending = s.pending := (rfl)
@[simp] theorem reg_setFree (s : State) (v : Nat) (r' : RegId) : (s.setFree v).reg r' = s.reg r' := (rfl)
@[simp] theorem eng_setFree (s : State) (v : Nat) (x' : EngRef) : (s.setFree v).eng x' = s.eng x' := (rfl)
@[simp] theorem ring_setFree (s : State) (v : Nat) (g' n' : Nat) : (s.setFree v).ring g' n' = s.ring g' n' := (rfl)
@[simp] theorem chan_setFree (s : State) (v : Nat) (g' n' : Nat) : (s.setFree v).chan g' n' = s.chan g' n' := (rfl)
@[simp] theorem array_setFree (s : State) (v : Nat) (g' a' : Nat) : (s.setFree v).array g' a' = s.array g' a' := (rfl)
@[simp] theorem pool_setFree (s : State) (v : Nat) (p' t' : Nat) : (s.setFree v).pool p' t' = s.pool p' t' := (rfl)
@[simp] theorem hop_setFree (s : State) (v : Nat) (h' d' : Nat) : (s.setFree v).hop h' d' = s.hop h' d' := (rfl)
@[simp] theorem disp_setFree (s : State) (v : Nat) (d' : Nat) : (s.setFree v).disp d' = s.disp d' := (rfl)
@[simp] theorem link_setFree (s : State) (v : Nat) (n' : Nat) : (s.setFree v).link n' = s.link n' := (rfl)
@[simp] theorem cxl_setFree (s : State) (v : Nat) (p' : Nat) : (s.setFree v).cxl p' = s.cxl p' := (rfl)
@[simp] theorem session_setFree (s : State) (v : Nat) (p' : Nat) : (s.setFree v).session p' = s.session p' := (rfl)
@[simp] theorem phase_setFree (s : State) (v : Nat) (p' : Nat) : (s.setFree v).phase p' = s.phase p' := (rfl)
@[simp] theorem rotationAt_setFree (s : State) (v : Nat) (g' : Nat) : (s.setFree v).rotationAt g' = s.rotationAt g' := (rfl)
@[simp] theorem turnAt_setFree (s : State) (v : Nat) (x' : EngRef) : (s.setFree v).turnAt x' = s.turnAt x' := (rfl)
@[simp] theorem port_setFree (s : State) (v : Nat) (p' : Port) : (s.setFree v).port p' = s.port p' := (rfl)
@[simp] theorem byteAt_setFree (s : State) (v : Nat) (a' : Nat) : (s.setFree v).byteAt a' = s.byteAt a' := (rfl)

/-! ## setNextTask -/

@[simp] theorem setNextTask_regs (s : State) (v : Nat) : (s.setNextTask v).regs = s.regs := (rfl)
@[simp] theorem setNextTask_mem (s : State) (v : Nat) : (s.setNextTask v).mem = s.mem := (rfl)
@[simp] theorem setNextTask_poison (s : State) (v : Nat) : (s.setNextTask v).poison = s.poison := (rfl)
@[simp] theorem setNextTask_struck (s : State) (v : Nat) : (s.setNextTask v).struck = s.struck := (rfl)
@[simp] theorem setNextTask_seals (s : State) (v : Nat) : (s.setNextTask v).seals = s.seals := (rfl)
@[simp] theorem setNextTask_tasks (s : State) (v : Nat) : (s.setNextTask v).tasks = s.tasks := (rfl)
@[simp] theorem setNextTask_engs (s : State) (v : Nat) : (s.setNextTask v).engs = s.engs := (rfl)
@[simp] theorem setNextTask_rings (s : State) (v : Nat) : (s.setNextTask v).rings = s.rings := (rfl)
@[simp] theorem setNextTask_chans (s : State) (v : Nat) : (s.setNextTask v).chans = s.chans := (rfl)
@[simp] theorem setNextTask_arrays (s : State) (v : Nat) : (s.setNextTask v).arrays = s.arrays := (rfl)
@[simp] theorem setNextTask_landed (s : State) (v : Nat) : (s.setNextTask v).landed = s.landed := (rfl)
@[simp] theorem setNextTask_rotation (s : State) (v : Nat) : (s.setNextTask v).rotation = s.rotation := (rfl)
@[simp] theorem setNextTask_turns (s : State) (v : Nat) : (s.setNextTask v).turns = s.turns := (rfl)
@[simp] theorem setNextTask_pools (s : State) (v : Nat) : (s.setNextTask v).pools = s.pools := (rfl)
@[simp] theorem setNextTask_frames (s : State) (v : Nat) : (s.setNextTask v).frames = s.frames := (rfl)
@[simp] theorem setNextTask_backlog (s : State) (v : Nat) : (s.setNextTask v).backlog = s.backlog := (rfl)
@[simp] theorem setNextTask_hops (s : State) (v : Nat) : (s.setNextTask v).hops = s.hops := (rfl)
@[simp] theorem setNextTask_disps (s : State) (v : Nat) : (s.setNextTask v).disps = s.disps := (rfl)
@[simp] theorem setNextTask_links (s : State) (v : Nat) : (s.setNextTask v).links = s.links := (rfl)
@[simp] theorem setNextTask_cxls (s : State) (v : Nat) : (s.setNextTask v).cxls = s.cxls := (rfl)
@[simp] theorem setNextTask_ports (s : State) (v : Nat) : (s.setNextTask v).ports = s.ports := (rfl)
@[simp] theorem setNextTask_pkg (s : State) (v : Nat) : (s.setNextTask v).pkg = s.pkg := (rfl)
@[simp] theorem setNextTask_lh (s : State) (v : Nat) : (s.setNextTask v).lh = s.lh := (rfl)
@[simp] theorem setNextTask_sessions (s : State) (v : Nat) : (s.setNextTask v).sessions = s.sessions := (rfl)
@[simp] theorem setNextTask_phases (s : State) (v : Nat) : (s.setNextTask v).phases = s.phases := (rfl)
@[simp] theorem setNextTask_trust (s : State) (v : Nat) : (s.setNextTask v).trust = s.trust := (rfl)
@[simp] theorem setNextTask_nextTask (s : State) (v : Nat) : (s.setNextTask v).nextTask = v := (rfl)
@[simp] theorem setNextTask_free (s : State) (v : Nat) : (s.setNextTask v).free = s.free := (rfl)
@[simp] theorem setNextTask_out (s : State) (v : Nat) : (s.setNextTask v).out = s.out := (rfl)
@[simp] theorem setNextTask_pending (s : State) (v : Nat) : (s.setNextTask v).pending = s.pending := (rfl)
@[simp] theorem reg_setNextTask (s : State) (v : Nat) (r' : RegId) : (s.setNextTask v).reg r' = s.reg r' := (rfl)
@[simp] theorem eng_setNextTask (s : State) (v : Nat) (x' : EngRef) : (s.setNextTask v).eng x' = s.eng x' := (rfl)
@[simp] theorem ring_setNextTask (s : State) (v : Nat) (g' n' : Nat) : (s.setNextTask v).ring g' n' = s.ring g' n' := (rfl)
@[simp] theorem chan_setNextTask (s : State) (v : Nat) (g' n' : Nat) : (s.setNextTask v).chan g' n' = s.chan g' n' := (rfl)
@[simp] theorem array_setNextTask (s : State) (v : Nat) (g' a' : Nat) : (s.setNextTask v).array g' a' = s.array g' a' := (rfl)
@[simp] theorem pool_setNextTask (s : State) (v : Nat) (p' t' : Nat) : (s.setNextTask v).pool p' t' = s.pool p' t' := (rfl)
@[simp] theorem hop_setNextTask (s : State) (v : Nat) (h' d' : Nat) : (s.setNextTask v).hop h' d' = s.hop h' d' := (rfl)
@[simp] theorem disp_setNextTask (s : State) (v : Nat) (d' : Nat) : (s.setNextTask v).disp d' = s.disp d' := (rfl)
@[simp] theorem link_setNextTask (s : State) (v : Nat) (n' : Nat) : (s.setNextTask v).link n' = s.link n' := (rfl)
@[simp] theorem cxl_setNextTask (s : State) (v : Nat) (p' : Nat) : (s.setNextTask v).cxl p' = s.cxl p' := (rfl)
@[simp] theorem session_setNextTask (s : State) (v : Nat) (p' : Nat) : (s.setNextTask v).session p' = s.session p' := (rfl)
@[simp] theorem phase_setNextTask (s : State) (v : Nat) (p' : Nat) : (s.setNextTask v).phase p' = s.phase p' := (rfl)
@[simp] theorem rotationAt_setNextTask (s : State) (v : Nat) (g' : Nat) : (s.setNextTask v).rotationAt g' = s.rotationAt g' := (rfl)
@[simp] theorem turnAt_setNextTask (s : State) (v : Nat) (x' : EngRef) : (s.setNextTask v).turnAt x' = s.turnAt x' := (rfl)
@[simp] theorem port_setNextTask (s : State) (v : Nat) (p' : Port) : (s.setNextTask v).port p' = s.port p' := (rfl)
@[simp] theorem byteAt_setNextTask (s : State) (v : Nat) (a' : Nat) : (s.setNextTask v).byteAt a' = s.byteAt a' := (rfl)

/-! ## emit -/

@[simp] theorem emit_regs (s : State) (o : OutEvent) : (s.emit o).regs = s.regs := (rfl)
@[simp] theorem emit_mem (s : State) (o : OutEvent) : (s.emit o).mem = s.mem := (rfl)
@[simp] theorem emit_poison (s : State) (o : OutEvent) : (s.emit o).poison = s.poison := (rfl)
@[simp] theorem emit_struck (s : State) (o : OutEvent) : (s.emit o).struck = s.struck := (rfl)
@[simp] theorem emit_seals (s : State) (o : OutEvent) : (s.emit o).seals = s.seals := (rfl)
@[simp] theorem emit_tasks (s : State) (o : OutEvent) : (s.emit o).tasks = s.tasks := (rfl)
@[simp] theorem emit_engs (s : State) (o : OutEvent) : (s.emit o).engs = s.engs := (rfl)
@[simp] theorem emit_rings (s : State) (o : OutEvent) : (s.emit o).rings = s.rings := (rfl)
@[simp] theorem emit_chans (s : State) (o : OutEvent) : (s.emit o).chans = s.chans := (rfl)
@[simp] theorem emit_arrays (s : State) (o : OutEvent) : (s.emit o).arrays = s.arrays := (rfl)
@[simp] theorem emit_landed (s : State) (o : OutEvent) : (s.emit o).landed = s.landed := (rfl)
@[simp] theorem emit_rotation (s : State) (o : OutEvent) : (s.emit o).rotation = s.rotation := (rfl)
@[simp] theorem emit_turns (s : State) (o : OutEvent) : (s.emit o).turns = s.turns := (rfl)
@[simp] theorem emit_pools (s : State) (o : OutEvent) : (s.emit o).pools = s.pools := (rfl)
@[simp] theorem emit_frames (s : State) (o : OutEvent) : (s.emit o).frames = s.frames := (rfl)
@[simp] theorem emit_backlog (s : State) (o : OutEvent) : (s.emit o).backlog = s.backlog := (rfl)
@[simp] theorem emit_hops (s : State) (o : OutEvent) : (s.emit o).hops = s.hops := (rfl)
@[simp] theorem emit_disps (s : State) (o : OutEvent) : (s.emit o).disps = s.disps := (rfl)
@[simp] theorem emit_links (s : State) (o : OutEvent) : (s.emit o).links = s.links := (rfl)
@[simp] theorem emit_cxls (s : State) (o : OutEvent) : (s.emit o).cxls = s.cxls := (rfl)
@[simp] theorem emit_ports (s : State) (o : OutEvent) : (s.emit o).ports = s.ports := (rfl)
@[simp] theorem emit_pkg (s : State) (o : OutEvent) : (s.emit o).pkg = s.pkg := (rfl)
@[simp] theorem emit_lh (s : State) (o : OutEvent) : (s.emit o).lh = s.lh := (rfl)
@[simp] theorem emit_sessions (s : State) (o : OutEvent) : (s.emit o).sessions = s.sessions := (rfl)
@[simp] theorem emit_phases (s : State) (o : OutEvent) : (s.emit o).phases = s.phases := (rfl)
@[simp] theorem emit_trust (s : State) (o : OutEvent) : (s.emit o).trust = s.trust := (rfl)
@[simp] theorem emit_nextTask (s : State) (o : OutEvent) : (s.emit o).nextTask = s.nextTask := (rfl)
@[simp] theorem emit_free (s : State) (o : OutEvent) : (s.emit o).free = s.free := (rfl)
@[simp] theorem emit_out (s : State) (o : OutEvent) : (s.emit o).out = s.out ++ [o] := (rfl)
@[simp] theorem emit_pending (s : State) (o : OutEvent) : (s.emit o).pending = s.pending := (rfl)
@[simp] theorem reg_emit (s : State) (o : OutEvent) (r' : RegId) : (s.emit o).reg r' = s.reg r' := (rfl)
@[simp] theorem eng_emit (s : State) (o : OutEvent) (x' : EngRef) : (s.emit o).eng x' = s.eng x' := (rfl)
@[simp] theorem ring_emit (s : State) (o : OutEvent) (g' n' : Nat) : (s.emit o).ring g' n' = s.ring g' n' := (rfl)
@[simp] theorem chan_emit (s : State) (o : OutEvent) (g' n' : Nat) : (s.emit o).chan g' n' = s.chan g' n' := (rfl)
@[simp] theorem array_emit (s : State) (o : OutEvent) (g' a' : Nat) : (s.emit o).array g' a' = s.array g' a' := (rfl)
@[simp] theorem pool_emit (s : State) (o : OutEvent) (p' t' : Nat) : (s.emit o).pool p' t' = s.pool p' t' := (rfl)
@[simp] theorem hop_emit (s : State) (o : OutEvent) (h' d' : Nat) : (s.emit o).hop h' d' = s.hop h' d' := (rfl)
@[simp] theorem disp_emit (s : State) (o : OutEvent) (d' : Nat) : (s.emit o).disp d' = s.disp d' := (rfl)
@[simp] theorem link_emit (s : State) (o : OutEvent) (n' : Nat) : (s.emit o).link n' = s.link n' := (rfl)
@[simp] theorem cxl_emit (s : State) (o : OutEvent) (p' : Nat) : (s.emit o).cxl p' = s.cxl p' := (rfl)
@[simp] theorem session_emit (s : State) (o : OutEvent) (p' : Nat) : (s.emit o).session p' = s.session p' := (rfl)
@[simp] theorem phase_emit (s : State) (o : OutEvent) (p' : Nat) : (s.emit o).phase p' = s.phase p' := (rfl)
@[simp] theorem rotationAt_emit (s : State) (o : OutEvent) (g' : Nat) : (s.emit o).rotationAt g' = s.rotationAt g' := (rfl)
@[simp] theorem turnAt_emit (s : State) (o : OutEvent) (x' : EngRef) : (s.emit o).turnAt x' = s.turnAt x' := (rfl)
@[simp] theorem port_emit (s : State) (o : OutEvent) (p' : Port) : (s.emit o).port p' = s.port p' := (rfl)
@[simp] theorem byteAt_emit (s : State) (o : OutEvent) (a' : Nat) : (s.emit o).byteAt a' = s.byteAt a' := (rfl)

/-! ## setRf -/

@[simp] theorem setRf_mem (s : State) (r : RegId) (hi lo v : Nat) : (s.setRf r hi lo v).mem = s.mem := setReg_mem _ _ _
@[simp] theorem setRf_poison (s : State) (r : RegId) (hi lo v : Nat) : (s.setRf r hi lo v).poison = s.poison := setReg_poison _ _ _
@[simp] theorem setRf_struck (s : State) (r : RegId) (hi lo v : Nat) : (s.setRf r hi lo v).struck = s.struck := setReg_struck _ _ _
@[simp] theorem setRf_seals (s : State) (r : RegId) (hi lo v : Nat) : (s.setRf r hi lo v).seals = s.seals := setReg_seals _ _ _
@[simp] theorem setRf_tasks (s : State) (r : RegId) (hi lo v : Nat) : (s.setRf r hi lo v).tasks = s.tasks := setReg_tasks _ _ _
@[simp] theorem setRf_engs (s : State) (r : RegId) (hi lo v : Nat) : (s.setRf r hi lo v).engs = s.engs := setReg_engs _ _ _
@[simp] theorem setRf_rings (s : State) (r : RegId) (hi lo v : Nat) : (s.setRf r hi lo v).rings = s.rings := setReg_rings _ _ _
@[simp] theorem setRf_chans (s : State) (r : RegId) (hi lo v : Nat) : (s.setRf r hi lo v).chans = s.chans := setReg_chans _ _ _
@[simp] theorem setRf_arrays (s : State) (r : RegId) (hi lo v : Nat) : (s.setRf r hi lo v).arrays = s.arrays := setReg_arrays _ _ _
@[simp] theorem setRf_landed (s : State) (r : RegId) (hi lo v : Nat) : (s.setRf r hi lo v).landed = s.landed := setReg_landed _ _ _
@[simp] theorem setRf_rotation (s : State) (r : RegId) (hi lo v : Nat) : (s.setRf r hi lo v).rotation = s.rotation := setReg_rotation _ _ _
@[simp] theorem setRf_turns (s : State) (r : RegId) (hi lo v : Nat) : (s.setRf r hi lo v).turns = s.turns := setReg_turns _ _ _
@[simp] theorem setRf_pools (s : State) (r : RegId) (hi lo v : Nat) : (s.setRf r hi lo v).pools = s.pools := setReg_pools _ _ _
@[simp] theorem setRf_frames (s : State) (r : RegId) (hi lo v : Nat) : (s.setRf r hi lo v).frames = s.frames := setReg_frames _ _ _
@[simp] theorem setRf_backlog (s : State) (r : RegId) (hi lo v : Nat) : (s.setRf r hi lo v).backlog = s.backlog := setReg_backlog _ _ _
@[simp] theorem setRf_hops (s : State) (r : RegId) (hi lo v : Nat) : (s.setRf r hi lo v).hops = s.hops := setReg_hops _ _ _
@[simp] theorem setRf_disps (s : State) (r : RegId) (hi lo v : Nat) : (s.setRf r hi lo v).disps = s.disps := setReg_disps _ _ _
@[simp] theorem setRf_links (s : State) (r : RegId) (hi lo v : Nat) : (s.setRf r hi lo v).links = s.links := setReg_links _ _ _
@[simp] theorem setRf_cxls (s : State) (r : RegId) (hi lo v : Nat) : (s.setRf r hi lo v).cxls = s.cxls := setReg_cxls _ _ _
@[simp] theorem setRf_ports (s : State) (r : RegId) (hi lo v : Nat) : (s.setRf r hi lo v).ports = s.ports := setReg_ports _ _ _
@[simp] theorem setRf_pkg (s : State) (r : RegId) (hi lo v : Nat) : (s.setRf r hi lo v).pkg = s.pkg := setReg_pkg _ _ _
@[simp] theorem setRf_lh (s : State) (r : RegId) (hi lo v : Nat) : (s.setRf r hi lo v).lh = s.lh := setReg_lh _ _ _
@[simp] theorem setRf_sessions (s : State) (r : RegId) (hi lo v : Nat) : (s.setRf r hi lo v).sessions = s.sessions := setReg_sessions _ _ _
@[simp] theorem setRf_phases (s : State) (r : RegId) (hi lo v : Nat) : (s.setRf r hi lo v).phases = s.phases := setReg_phases _ _ _
@[simp] theorem setRf_trust (s : State) (r : RegId) (hi lo v : Nat) : (s.setRf r hi lo v).trust = s.trust := setReg_trust _ _ _
@[simp] theorem setRf_nextTask (s : State) (r : RegId) (hi lo v : Nat) : (s.setRf r hi lo v).nextTask = s.nextTask := setReg_nextTask _ _ _
@[simp] theorem setRf_free (s : State) (r : RegId) (hi lo v : Nat) : (s.setRf r hi lo v).free = s.free := setReg_free _ _ _
@[simp] theorem setRf_out (s : State) (r : RegId) (hi lo v : Nat) : (s.setRf r hi lo v).out = s.out := setReg_out _ _ _
@[simp] theorem setRf_pending (s : State) (r : RegId) (hi lo v : Nat) : (s.setRf r hi lo v).pending = s.pending := setReg_pending _ _ _
@[simp] theorem eng_setRf (s : State) (r : RegId) (hi lo v : Nat) (x' : EngRef) : (s.setRf r hi lo v).eng x' = s.eng x' := eng_setReg _ _ _ _
@[simp] theorem ring_setRf (s : State) (r : RegId) (hi lo v : Nat) (g' n' : Nat) : (s.setRf r hi lo v).ring g' n' = s.ring g' n' := ring_setReg _ _ _ _ _
@[simp] theorem chan_setRf (s : State) (r : RegId) (hi lo v : Nat) (g' n' : Nat) : (s.setRf r hi lo v).chan g' n' = s.chan g' n' := chan_setReg _ _ _ _ _
@[simp] theorem array_setRf (s : State) (r : RegId) (hi lo v : Nat) (g' a' : Nat) : (s.setRf r hi lo v).array g' a' = s.array g' a' := array_setReg _ _ _ _ _
@[simp] theorem pool_setRf (s : State) (r : RegId) (hi lo v : Nat) (p' t' : Nat) : (s.setRf r hi lo v).pool p' t' = s.pool p' t' := pool_setReg _ _ _ _ _
@[simp] theorem hop_setRf (s : State) (r : RegId) (hi lo v : Nat) (h' d' : Nat) : (s.setRf r hi lo v).hop h' d' = s.hop h' d' := hop_setReg _ _ _ _ _
@[simp] theorem disp_setRf (s : State) (r : RegId) (hi lo v : Nat) (d' : Nat) : (s.setRf r hi lo v).disp d' = s.disp d' := disp_setReg _ _ _ _
@[simp] theorem link_setRf (s : State) (r : RegId) (hi lo v : Nat) (n' : Nat) : (s.setRf r hi lo v).link n' = s.link n' := link_setReg _ _ _ _
@[simp] theorem cxl_setRf (s : State) (r : RegId) (hi lo v : Nat) (p' : Nat) : (s.setRf r hi lo v).cxl p' = s.cxl p' := cxl_setReg _ _ _ _
@[simp] theorem session_setRf (s : State) (r : RegId) (hi lo v : Nat) (p' : Nat) : (s.setRf r hi lo v).session p' = s.session p' := session_setReg _ _ _ _
@[simp] theorem phase_setRf (s : State) (r : RegId) (hi lo v : Nat) (p' : Nat) : (s.setRf r hi lo v).phase p' = s.phase p' := phase_setReg _ _ _ _
@[simp] theorem rotationAt_setRf (s : State) (r : RegId) (hi lo v : Nat) (g' : Nat) : (s.setRf r hi lo v).rotationAt g' = s.rotationAt g' := rotationAt_setReg _ _ _ _
@[simp] theorem turnAt_setRf (s : State) (r : RegId) (hi lo v : Nat) (x' : EngRef) : (s.setRf r hi lo v).turnAt x' = s.turnAt x' := turnAt_setReg _ _ _ _
@[simp] theorem port_setRf (s : State) (r : RegId) (hi lo v : Nat) (p' : Port) : (s.setRf r hi lo v).port p' = s.port p' := port_setReg _ _ _ _
@[simp] theorem byteAt_setRf (s : State) (r : RegId) (hi lo v : Nat) (a' : Nat) : (s.setRf r hi lo v).byteAt a' = s.byteAt a' := byteAt_setReg _ _ _ _

/-! ## satRf -/

@[simp] theorem satRf_mem (s : State) (r : RegId) (hi lo n : Nat) : (s.satRf r hi lo n).mem = s.mem := setRf_mem _ _ _ _ _
@[simp] theorem satRf_poison (s : State) (r : RegId) (hi lo n : Nat) : (s.satRf r hi lo n).poison = s.poison := setRf_poison _ _ _ _ _
@[simp] theorem satRf_struck (s : State) (r : RegId) (hi lo n : Nat) : (s.satRf r hi lo n).struck = s.struck := setRf_struck _ _ _ _ _
@[simp] theorem satRf_seals (s : State) (r : RegId) (hi lo n : Nat) : (s.satRf r hi lo n).seals = s.seals := setRf_seals _ _ _ _ _
@[simp] theorem satRf_tasks (s : State) (r : RegId) (hi lo n : Nat) : (s.satRf r hi lo n).tasks = s.tasks := setRf_tasks _ _ _ _ _
@[simp] theorem satRf_engs (s : State) (r : RegId) (hi lo n : Nat) : (s.satRf r hi lo n).engs = s.engs := setRf_engs _ _ _ _ _
@[simp] theorem satRf_rings (s : State) (r : RegId) (hi lo n : Nat) : (s.satRf r hi lo n).rings = s.rings := setRf_rings _ _ _ _ _
@[simp] theorem satRf_chans (s : State) (r : RegId) (hi lo n : Nat) : (s.satRf r hi lo n).chans = s.chans := setRf_chans _ _ _ _ _
@[simp] theorem satRf_arrays (s : State) (r : RegId) (hi lo n : Nat) : (s.satRf r hi lo n).arrays = s.arrays := setRf_arrays _ _ _ _ _
@[simp] theorem satRf_landed (s : State) (r : RegId) (hi lo n : Nat) : (s.satRf r hi lo n).landed = s.landed := setRf_landed _ _ _ _ _
@[simp] theorem satRf_rotation (s : State) (r : RegId) (hi lo n : Nat) : (s.satRf r hi lo n).rotation = s.rotation := setRf_rotation _ _ _ _ _
@[simp] theorem satRf_turns (s : State) (r : RegId) (hi lo n : Nat) : (s.satRf r hi lo n).turns = s.turns := setRf_turns _ _ _ _ _
@[simp] theorem satRf_pools (s : State) (r : RegId) (hi lo n : Nat) : (s.satRf r hi lo n).pools = s.pools := setRf_pools _ _ _ _ _
@[simp] theorem satRf_frames (s : State) (r : RegId) (hi lo n : Nat) : (s.satRf r hi lo n).frames = s.frames := setRf_frames _ _ _ _ _
@[simp] theorem satRf_backlog (s : State) (r : RegId) (hi lo n : Nat) : (s.satRf r hi lo n).backlog = s.backlog := setRf_backlog _ _ _ _ _
@[simp] theorem satRf_hops (s : State) (r : RegId) (hi lo n : Nat) : (s.satRf r hi lo n).hops = s.hops := setRf_hops _ _ _ _ _
@[simp] theorem satRf_disps (s : State) (r : RegId) (hi lo n : Nat) : (s.satRf r hi lo n).disps = s.disps := setRf_disps _ _ _ _ _
@[simp] theorem satRf_links (s : State) (r : RegId) (hi lo n : Nat) : (s.satRf r hi lo n).links = s.links := setRf_links _ _ _ _ _
@[simp] theorem satRf_cxls (s : State) (r : RegId) (hi lo n : Nat) : (s.satRf r hi lo n).cxls = s.cxls := setRf_cxls _ _ _ _ _
@[simp] theorem satRf_ports (s : State) (r : RegId) (hi lo n : Nat) : (s.satRf r hi lo n).ports = s.ports := setRf_ports _ _ _ _ _
@[simp] theorem satRf_pkg (s : State) (r : RegId) (hi lo n : Nat) : (s.satRf r hi lo n).pkg = s.pkg := setRf_pkg _ _ _ _ _
@[simp] theorem satRf_lh (s : State) (r : RegId) (hi lo n : Nat) : (s.satRf r hi lo n).lh = s.lh := setRf_lh _ _ _ _ _
@[simp] theorem satRf_sessions (s : State) (r : RegId) (hi lo n : Nat) : (s.satRf r hi lo n).sessions = s.sessions := setRf_sessions _ _ _ _ _
@[simp] theorem satRf_phases (s : State) (r : RegId) (hi lo n : Nat) : (s.satRf r hi lo n).phases = s.phases := setRf_phases _ _ _ _ _
@[simp] theorem satRf_trust (s : State) (r : RegId) (hi lo n : Nat) : (s.satRf r hi lo n).trust = s.trust := setRf_trust _ _ _ _ _
@[simp] theorem satRf_nextTask (s : State) (r : RegId) (hi lo n : Nat) : (s.satRf r hi lo n).nextTask = s.nextTask := setRf_nextTask _ _ _ _ _
@[simp] theorem satRf_free (s : State) (r : RegId) (hi lo n : Nat) : (s.satRf r hi lo n).free = s.free := setRf_free _ _ _ _ _
@[simp] theorem satRf_out (s : State) (r : RegId) (hi lo n : Nat) : (s.satRf r hi lo n).out = s.out := setRf_out _ _ _ _ _
@[simp] theorem satRf_pending (s : State) (r : RegId) (hi lo n : Nat) : (s.satRf r hi lo n).pending = s.pending := setRf_pending _ _ _ _ _
@[simp] theorem eng_satRf (s : State) (r : RegId) (hi lo n : Nat) (x' : EngRef) : (s.satRf r hi lo n).eng x' = s.eng x' := eng_setRf _ _ _ _ _ _
@[simp] theorem ring_satRf (s : State) (r : RegId) (hi lo n : Nat) (g' n' : Nat) : (s.satRf r hi lo n).ring g' n' = s.ring g' n' := ring_setRf _ _ _ _ _ _ _
@[simp] theorem chan_satRf (s : State) (r : RegId) (hi lo n : Nat) (g' n' : Nat) : (s.satRf r hi lo n).chan g' n' = s.chan g' n' := chan_setRf _ _ _ _ _ _ _
@[simp] theorem array_satRf (s : State) (r : RegId) (hi lo n : Nat) (g' a' : Nat) : (s.satRf r hi lo n).array g' a' = s.array g' a' := array_setRf _ _ _ _ _ _ _
@[simp] theorem pool_satRf (s : State) (r : RegId) (hi lo n : Nat) (p' t' : Nat) : (s.satRf r hi lo n).pool p' t' = s.pool p' t' := pool_setRf _ _ _ _ _ _ _
@[simp] theorem hop_satRf (s : State) (r : RegId) (hi lo n : Nat) (h' d' : Nat) : (s.satRf r hi lo n).hop h' d' = s.hop h' d' := hop_setRf _ _ _ _ _ _ _
@[simp] theorem disp_satRf (s : State) (r : RegId) (hi lo n : Nat) (d' : Nat) : (s.satRf r hi lo n).disp d' = s.disp d' := disp_setRf _ _ _ _ _ _
@[simp] theorem link_satRf (s : State) (r : RegId) (hi lo n : Nat) (n' : Nat) : (s.satRf r hi lo n).link n' = s.link n' := link_setRf _ _ _ _ _ _
@[simp] theorem cxl_satRf (s : State) (r : RegId) (hi lo n : Nat) (p' : Nat) : (s.satRf r hi lo n).cxl p' = s.cxl p' := cxl_setRf _ _ _ _ _ _
@[simp] theorem session_satRf (s : State) (r : RegId) (hi lo n : Nat) (p' : Nat) : (s.satRf r hi lo n).session p' = s.session p' := session_setRf _ _ _ _ _ _
@[simp] theorem phase_satRf (s : State) (r : RegId) (hi lo n : Nat) (p' : Nat) : (s.satRf r hi lo n).phase p' = s.phase p' := phase_setRf _ _ _ _ _ _
@[simp] theorem rotationAt_satRf (s : State) (r : RegId) (hi lo n : Nat) (g' : Nat) : (s.satRf r hi lo n).rotationAt g' = s.rotationAt g' := rotationAt_setRf _ _ _ _ _ _
@[simp] theorem turnAt_satRf (s : State) (r : RegId) (hi lo n : Nat) (x' : EngRef) : (s.satRf r hi lo n).turnAt x' = s.turnAt x' := turnAt_setRf _ _ _ _ _ _
@[simp] theorem port_satRf (s : State) (r : RegId) (hi lo n : Nat) (p' : Port) : (s.satRf r hi lo n).port p' = s.port p' := port_setRf _ _ _ _ _ _
@[simp] theorem byteAt_satRf (s : State) (r : RegId) (hi lo n : Nat) (a' : Nat) : (s.satRf r hi lo n).byteAt a' = s.byteAt a' := byteAt_setRf _ _ _ _ _ _

/-! ## addRf -/

@[simp] theorem addRf_mem (s : State) (r : RegId) (hi lo n : Nat) : (s.addRf r hi lo n).mem = s.mem := setRf_mem _ _ _ _ _
@[simp] theorem addRf_poison (s : State) (r : RegId) (hi lo n : Nat) : (s.addRf r hi lo n).poison = s.poison := setRf_poison _ _ _ _ _
@[simp] theorem addRf_struck (s : State) (r : RegId) (hi lo n : Nat) : (s.addRf r hi lo n).struck = s.struck := setRf_struck _ _ _ _ _
@[simp] theorem addRf_seals (s : State) (r : RegId) (hi lo n : Nat) : (s.addRf r hi lo n).seals = s.seals := setRf_seals _ _ _ _ _
@[simp] theorem addRf_tasks (s : State) (r : RegId) (hi lo n : Nat) : (s.addRf r hi lo n).tasks = s.tasks := setRf_tasks _ _ _ _ _
@[simp] theorem addRf_engs (s : State) (r : RegId) (hi lo n : Nat) : (s.addRf r hi lo n).engs = s.engs := setRf_engs _ _ _ _ _
@[simp] theorem addRf_rings (s : State) (r : RegId) (hi lo n : Nat) : (s.addRf r hi lo n).rings = s.rings := setRf_rings _ _ _ _ _
@[simp] theorem addRf_chans (s : State) (r : RegId) (hi lo n : Nat) : (s.addRf r hi lo n).chans = s.chans := setRf_chans _ _ _ _ _
@[simp] theorem addRf_arrays (s : State) (r : RegId) (hi lo n : Nat) : (s.addRf r hi lo n).arrays = s.arrays := setRf_arrays _ _ _ _ _
@[simp] theorem addRf_landed (s : State) (r : RegId) (hi lo n : Nat) : (s.addRf r hi lo n).landed = s.landed := setRf_landed _ _ _ _ _
@[simp] theorem addRf_rotation (s : State) (r : RegId) (hi lo n : Nat) : (s.addRf r hi lo n).rotation = s.rotation := setRf_rotation _ _ _ _ _
@[simp] theorem addRf_turns (s : State) (r : RegId) (hi lo n : Nat) : (s.addRf r hi lo n).turns = s.turns := setRf_turns _ _ _ _ _
@[simp] theorem addRf_pools (s : State) (r : RegId) (hi lo n : Nat) : (s.addRf r hi lo n).pools = s.pools := setRf_pools _ _ _ _ _
@[simp] theorem addRf_frames (s : State) (r : RegId) (hi lo n : Nat) : (s.addRf r hi lo n).frames = s.frames := setRf_frames _ _ _ _ _
@[simp] theorem addRf_backlog (s : State) (r : RegId) (hi lo n : Nat) : (s.addRf r hi lo n).backlog = s.backlog := setRf_backlog _ _ _ _ _
@[simp] theorem addRf_hops (s : State) (r : RegId) (hi lo n : Nat) : (s.addRf r hi lo n).hops = s.hops := setRf_hops _ _ _ _ _
@[simp] theorem addRf_disps (s : State) (r : RegId) (hi lo n : Nat) : (s.addRf r hi lo n).disps = s.disps := setRf_disps _ _ _ _ _
@[simp] theorem addRf_links (s : State) (r : RegId) (hi lo n : Nat) : (s.addRf r hi lo n).links = s.links := setRf_links _ _ _ _ _
@[simp] theorem addRf_cxls (s : State) (r : RegId) (hi lo n : Nat) : (s.addRf r hi lo n).cxls = s.cxls := setRf_cxls _ _ _ _ _
@[simp] theorem addRf_ports (s : State) (r : RegId) (hi lo n : Nat) : (s.addRf r hi lo n).ports = s.ports := setRf_ports _ _ _ _ _
@[simp] theorem addRf_pkg (s : State) (r : RegId) (hi lo n : Nat) : (s.addRf r hi lo n).pkg = s.pkg := setRf_pkg _ _ _ _ _
@[simp] theorem addRf_lh (s : State) (r : RegId) (hi lo n : Nat) : (s.addRf r hi lo n).lh = s.lh := setRf_lh _ _ _ _ _
@[simp] theorem addRf_sessions (s : State) (r : RegId) (hi lo n : Nat) : (s.addRf r hi lo n).sessions = s.sessions := setRf_sessions _ _ _ _ _
@[simp] theorem addRf_phases (s : State) (r : RegId) (hi lo n : Nat) : (s.addRf r hi lo n).phases = s.phases := setRf_phases _ _ _ _ _
@[simp] theorem addRf_trust (s : State) (r : RegId) (hi lo n : Nat) : (s.addRf r hi lo n).trust = s.trust := setRf_trust _ _ _ _ _
@[simp] theorem addRf_nextTask (s : State) (r : RegId) (hi lo n : Nat) : (s.addRf r hi lo n).nextTask = s.nextTask := setRf_nextTask _ _ _ _ _
@[simp] theorem addRf_free (s : State) (r : RegId) (hi lo n : Nat) : (s.addRf r hi lo n).free = s.free := setRf_free _ _ _ _ _
@[simp] theorem addRf_out (s : State) (r : RegId) (hi lo n : Nat) : (s.addRf r hi lo n).out = s.out := setRf_out _ _ _ _ _
@[simp] theorem addRf_pending (s : State) (r : RegId) (hi lo n : Nat) : (s.addRf r hi lo n).pending = s.pending := setRf_pending _ _ _ _ _
@[simp] theorem eng_addRf (s : State) (r : RegId) (hi lo n : Nat) (x' : EngRef) : (s.addRf r hi lo n).eng x' = s.eng x' := eng_setRf _ _ _ _ _ _
@[simp] theorem ring_addRf (s : State) (r : RegId) (hi lo n : Nat) (g' n' : Nat) : (s.addRf r hi lo n).ring g' n' = s.ring g' n' := ring_setRf _ _ _ _ _ _ _
@[simp] theorem chan_addRf (s : State) (r : RegId) (hi lo n : Nat) (g' n' : Nat) : (s.addRf r hi lo n).chan g' n' = s.chan g' n' := chan_setRf _ _ _ _ _ _ _
@[simp] theorem array_addRf (s : State) (r : RegId) (hi lo n : Nat) (g' a' : Nat) : (s.addRf r hi lo n).array g' a' = s.array g' a' := array_setRf _ _ _ _ _ _ _
@[simp] theorem pool_addRf (s : State) (r : RegId) (hi lo n : Nat) (p' t' : Nat) : (s.addRf r hi lo n).pool p' t' = s.pool p' t' := pool_setRf _ _ _ _ _ _ _
@[simp] theorem hop_addRf (s : State) (r : RegId) (hi lo n : Nat) (h' d' : Nat) : (s.addRf r hi lo n).hop h' d' = s.hop h' d' := hop_setRf _ _ _ _ _ _ _
@[simp] theorem disp_addRf (s : State) (r : RegId) (hi lo n : Nat) (d' : Nat) : (s.addRf r hi lo n).disp d' = s.disp d' := disp_setRf _ _ _ _ _ _
@[simp] theorem link_addRf (s : State) (r : RegId) (hi lo n : Nat) (n' : Nat) : (s.addRf r hi lo n).link n' = s.link n' := link_setRf _ _ _ _ _ _
@[simp] theorem cxl_addRf (s : State) (r : RegId) (hi lo n : Nat) (p' : Nat) : (s.addRf r hi lo n).cxl p' = s.cxl p' := cxl_setRf _ _ _ _ _ _
@[simp] theorem session_addRf (s : State) (r : RegId) (hi lo n : Nat) (p' : Nat) : (s.addRf r hi lo n).session p' = s.session p' := session_setRf _ _ _ _ _ _
@[simp] theorem phase_addRf (s : State) (r : RegId) (hi lo n : Nat) (p' : Nat) : (s.addRf r hi lo n).phase p' = s.phase p' := phase_setRf _ _ _ _ _ _
@[simp] theorem rotationAt_addRf (s : State) (r : RegId) (hi lo n : Nat) (g' : Nat) : (s.addRf r hi lo n).rotationAt g' = s.rotationAt g' := rotationAt_setRf _ _ _ _ _ _
@[simp] theorem turnAt_addRf (s : State) (r : RegId) (hi lo n : Nat) (x' : EngRef) : (s.addRf r hi lo n).turnAt x' = s.turnAt x' := turnAt_setRf _ _ _ _ _ _
@[simp] theorem port_addRf (s : State) (r : RegId) (hi lo n : Nat) (p' : Port) : (s.addRf r hi lo n).port p' = s.port p' := port_setRf _ _ _ _ _ _
@[simp] theorem byteAt_addRf (s : State) (r : RegId) (hi lo n : Nat) (a' : Nat) : (s.addRf r hi lo n).byteAt a' = s.byteAt a' := byteAt_setRf _ _ _ _ _ _

end Sys2Proof.Machine.State
end

