-- ==== Sys2Proof/Laws/Later.lean ====
section
/-! SUPPORT. That a named operation leads to a later state (Safety.Later): the setters, the operations of memory, and the shapes by which operations
are put together. -/

namespace Sys2Proof.Machine

set_option Elab.async false
set_option linter.unusedTactic false
set_option linter.unreachableTactic false

theorem TrustLater.refl (a : Trust) : TrustLater a a :=
  ⟨Nat.min_le_right _ _, Nat.min_le_right _ _, Nat.min_le_right _ _, rfl, id, Nat.min_le_right _ _, Nat.le_refl _⟩

theorem TrustLater.trans {a b c : Trust} (h : TrustLater a b) (k : TrustLater b c) : TrustLater a c where
  svnLh := by have := h.svnLh; have := k.svnLh; omega
  svnHb := by have := h.svnHb; have := k.svnHb; omega
  svnPil := by have := h.svnPil; have := k.svnPil; omega
  revoked := k.revoked.trans h.revoked
  lock := fun x => k.lock (h.lock x)
  boots := by have := h.boots; have := k.boots; omega
  draws := Nat.le_trans h.draws k.draws

/-- Blowing fuses of a counter. -/
theorem TrustLater.fuses (a b : Nat) : min 63 a ≤ min 63 (max a b) := by omega

/-- Counting a start-up. -/
theorem TrustLater.boot (n : Nat) : min (2 ^ 32 - 1) n ≤ min (2 ^ 32 - 1) (n + 1) := by omega

theorem FlashLater.refl (a : Lighthouse) : FlashLater a a := ⟨List.prefix_refl _, List.prefix_refl _⟩

theorem FlashLater.trans {a b c : Lighthouse} (h : FlashLater a b) (k : FlashLater b c) : FlashLater a c :=
  ⟨h.repairMap.trans k.repairMap, h.retired.trans k.retired⟩

namespace Later

theorem refl (s : State) : Later s s := ⟨rfl, id, List.prefix_refl _, Nat.le_refl _, Nat.le_refl _, .refl _, .refl _⟩

theorem trans {s t u : State} (h : Later s t) (k : Later t u) : Later s u where
  queue := k.queue.trans h.queue
  mem := fun x => k.mem (h.mem x)
  out := h.out.trans k.out
  tasks := Nat.le_trans h.tasks k.tasks
  free := Nat.le_trans h.free k.free
  trust := h.trust.trans k.trust
  flash := h.flash.trans k.flash

/-- A change of the fields that Later does not speak of. -/
theorem of_same {s t : State} (h1 : t.pending = s.pending) (h2 : t.mem = s.mem) (h3 : t.out = s.out) (h4 : t.nextTask = s.nextTask) (h5 : t.free = s.free)
    (h6 : t.trust = s.trust) (h7 : t.lh = s.lh) : Later s t :=
  ⟨h1, fun x => h2 ▸ x, h3 ▸ List.prefix_refl _, h4 ▸ Nat.le_refl _, h5 ▸ Nat.le_refl _, h6 ▸ .refl _, h7 ▸ .refl _⟩

/-- The state that a pair holds. -/
theorem of_snd {α : Type} {s t : State} {a : α} {p : α × State} (e : p = (a, t)) (h : Later s p.2) : Later s t := by subst e; exact h

theorem of_fst {α : Type} {s t : State} {a : α} {p : State × α} (e : p = (t, a)) (h : Later s p.1) : Later s t := by subst e; exact h

theorem foldl {α : Type} {s0 s : State} {l : List α} {f : State → α → State} (h : Later s0 s) (k : ∀ t a, Later s0 t → Later s0 (f t a)) :
    Later s0 (l.foldl f s) := by
  induction l generalizing s with
  | nil => exact h
  | cons a l ih => exact ih (k s a h)

/-- A fold over something that carries a state. -/
theorem foldl_with {α β : Type} {s0 : State} {l : List α} {f : β → α → β} {b : β} (g : β → State) (h : Later s0 (g b))
    (k : ∀ b a, Later s0 (g b) → Later s0 (g (f b a))) : Later s0 (g (l.foldl f b)) := by
  induction l generalizing b with
  | nil => exact h
  | cons a l ih => exact ih (k b a h)

end Later

/-- What holds of the answer of a computation that can fail. -/
def Post {ε α : Type} (P : ε → Prop) (Q : α → Prop) : Except ε α → Prop
  | .ok a => Q a
  | .error e => P e

namespace Post

theorem ok {ε α : Type} {P : ε → Prop} {Q : α → Prop} {a : α} (h : Q a) : Post P Q (.ok a) := h
theorem pure {ε α : Type} {P : ε → Prop} {Q : α → Prop} {a : α} (h : Q a) : Post P Q (Pure.pure a) := h
theorem error {ε α : Type} {P : ε → Prop} {Q : α → Prop} {e : ε} (h : P e) : Post P Q (.error e) := h
theorem throw {ε α : Type} {P : ε → Prop} {Q : α → Prop} {e : ε} (h : P e) : Post P Q (MonadExcept.throw e) := h

theorem any {ε α : Type} (x : Except ε α) : Post (fun _ => True) (fun _ => True) x := by cases x <;> exact True.intro

theorem bind {ε α β : Type} {P : ε → Prop} {Q : α → Prop} {R : β → Prop} {x : Except ε α} {f : α → Except ε β} (h : Post P Q x)
    (k : ∀ a, Q a → Post P R (f a)) : Post P R (x >>= f) := by
  cases x with
  | ok a => exact k a h
  | error e => exact h

theorem map {ε α β : Type} {P : ε → Prop} {Q : α → Prop} {R : β → Prop} {x : Except ε α} {f : α → β} (h : Post P Q x)
    (k : ∀ a, Q a → R (f a)) : Post P R (x.map f) := by
  cases x with
  | ok a => exact k a h
  | error e => exact h

end Post

namespace Later

/-! The state that a computation that did not fail answers, or that its failure leaves. -/

theorem of_ok {ε : Type} {P : ε → Prop} {s t : State} {x : Except ε State} (e : x = .ok t) (h : Post P (fun p => Later s p) x) : Later s t := by
  subst e; exact h
theorem of_ok1 {ε α : Type} {P : ε → Prop} {s t : State} {a : α} {x : Except ε (State × α)} (e : x = .ok (t, a))
    (h : Post P (fun p => Later s p.1) x) : Later s t := by subst e; exact h
theorem of_ok2 {ε α : Type} {P : ε → Prop} {s t : State} {a : α} {x : Except ε (α × State)} (e : x = .ok (a, t))
    (h : Post P (fun p => Later s p.2) x) : Later s t := by subst e; exact h
theorem of_err1 {ε α : Type} {Q : α → Prop} {s t : State} {a : ε} {x : Except (State × ε) α} (e : x = .error (t, a))
    (h : Post (fun p => Later s p.1) Q x) : Later s t := by subst e; exact h

end Later

namespace State

/-! ## The setters -/

theorem setReg_later {s0 s : State} {r : RegId} {w : Word} (h : Later s0 s) : Later s0 (s.setReg r w) := h.trans (.of_same rfl rfl rfl rfl rfl rfl rfl)
theorem setEng_later {s0 s : State} {x : EngRef} {c : EngCtx} (h : Later s0 s) : Later s0 (s.setEng x c) := h.trans (.of_same rfl rfl rfl rfl rfl rfl rfl)
theorem setRing_later {s0 s : State} {g n : Nat} {v : Ring} (h : Later s0 s) : Later s0 (s.setRing g n v) := h.trans (.of_same rfl rfl rfl rfl rfl rfl rfl)
theorem setChan_later {s0 s : State} {g n : Nat} {v : Chan} (h : Later s0 s) : Later s0 (s.setChan g n v) := h.trans (.of_same rfl rfl rfl rfl rfl rfl rfl)
theorem setArray_later {s0 s : State} {g a : Nat} {v : ArraySt} (h : Later s0 s) : Later s0 (s.setArray g a v) := h.trans (.of_same rfl rfl rfl rfl rfl rfl rfl)
theorem setPool_later {s0 s : State} {p t : Nat} {v : Pool} (h : Later s0 s) : Later s0 (s.setPool p t v) := h.trans (.of_same rfl rfl rfl rfl rfl rfl rfl)
theorem setHop_later {s0 s : State} {h d : Nat} {v : Hop} (k : Later s0 s) : Later s0 (s.setHop h d v) := k.trans (.of_same rfl rfl rfl rfl rfl rfl rfl)
theorem setDisp_later {s0 s : State} {d : Nat} {v : Disp} (h : Later s0 s) : Later s0 (s.setDisp d v) := h.trans (.of_same rfl rfl rfl rfl rfl rfl rfl)
theorem setLink_later {s0 s : State} {n : Nat} {v : Link} (h : Later s0 s) : Later s0 (s.setLink n v) := h.trans (.of_same rfl rfl rfl rfl rfl rfl rfl)
theorem setCxl_later {s0 s : State} {p : Nat} {v : CxlPort} (h : Later s0 s) : Later s0 (s.setCxl p v) := h.trans (.of_same rfl rfl rfl rfl rfl rfl rfl)
theorem setSession_later {s0 s : State} {p : Nat} {v : Session} (h : Later s0 s) : Later s0 (s.setSession p v) := h.trans (.of_same rfl rfl rfl rfl rfl rfl rfl)
theorem setPhase_later {s0 s : State} {p : Nat} {v : Phase} (h : Later s0 s) : Later s0 (s.setPhase p v) := h.trans (.of_same rfl rfl rfl rfl rfl rfl rfl)
theorem setRotation_later {s0 s : State} {g v : Nat} (h : Later s0 s) : Later s0 (s.setRotation g v) := h.trans (.of_same rfl rfl rfl rfl rfl rfl rfl)
theorem setPort_later {s0 s : State} {p : Port} {v : HostPort} (h : Later s0 s) : Later s0 (s.setPort p v) := by
  cases p <;> exact h.trans (.of_same rfl rfl rfl rfl rfl rfl rfl)
theorem setPkg_later {s0 s : State} {v : Package} (h : Later s0 s) : Later s0 (s.setPkg v) := h.trans (.of_same rfl rfl rfl rfl rfl rfl rfl)
theorem setTasks_later {s0 s : State} {v : List Task} (h : Later s0 s) : Later s0 (s.setTasks v) := h.trans (.of_same rfl rfl rfl rfl rfl rfl rfl)
theorem setFrames_later {s0 s : State} {v : List Frame} (h : Later s0 s) : Later s0 (s.setFrames v) := h.trans (.of_same rfl rfl rfl rfl rfl rfl rfl)
theorem setBacklog_later {s0 s : State} {v : List Frame} (h : Later s0 s) : Later s0 (s.setBacklog v) := h.trans (.of_same rfl rfl rfl rfl rfl rfl rfl)
theorem setStruck_later {s0 s : State} {v : List (Nat × Bool)} (h : Later s0 s) : Later s0 (s.setStruck v) := h.trans (.of_same rfl rfl rfl rfl rfl rfl rfl)
theorem setTurn_later {s0 s : State} {x : EngRef} {v : Nat} (h : Later s0 s) : Later s0 (s.setTurn x v) := h.trans (.of_same rfl rfl rfl rfl rfl rfl rfl)
theorem setLanded_later {s0 s : State} {v : List (Nat × Nat × Nat × Nat × Nat)} (h : Later s0 s) : Later s0 (s.setLanded v) := h.trans (.of_same rfl rfl rfl rfl rfl rfl rfl)
theorem setPoison_later {s0 s : State} {v : List (Nat × Nat)} (h : Later s0 s) : Later s0 (s.setPoison v) := h.trans (.of_same rfl rfl rfl rfl rfl rfl rfl)
theorem setSeals_later {s0 s : State} {v : List (Nat × Nat)} (h : Later s0 s) : Later s0 (s.setSeals v) := h.trans (.of_same rfl rfl rfl rfl rfl rfl rfl)
theorem setRings_later {s0 s : State} {v : List ((Nat × Nat) × Ring)} (h : Later s0 s) : Later s0 (s.setRings v) := h.trans (.of_same rfl rfl rfl rfl rfl rfl rfl)

theorem setEngs_later {s0 s : State} {v : List (EngRef × EngCtx)} (h : Later s0 s) : Later s0 (s.setEngs v) := h.trans (.of_same rfl rfl rfl rfl rfl rfl rfl)
theorem dropRegs_later {s0 s : State} {p : RegId → Bool} (h : Later s0 s) : Later s0 (s.dropRegs p) := h.trans (.of_same rfl rfl rfl rfl rfl rfl rfl)

theorem setLh_later {s0 s : State} {v : Lighthouse} (h : Later s0 s) (k : FlashLater s.lh v) : Later s0 (s.setLh v) :=
  h.trans ⟨rfl, id, List.prefix_refl _, Nat.le_refl _, Nat.le_refl _, .refl _, k⟩
theorem setTrust_later {s0 s : State} {v : Trust} (h : Later s0 s) (k : TrustLater s.trust v) : Later s0 (s.setTrust v) :=
  h.trans ⟨rfl, id, List.prefix_refl _, Nat.le_refl _, Nat.le_refl _, k, .refl _⟩
theorem setMem_later {s0 s : State} {v : List Host.Cell} (h : Later s0 s) (k : Memory.wf s.mem = true → Memory.wf v = true) : Later s0 (s.setMem v) :=
  h.trans ⟨rfl, k, List.prefix_refl _, Nat.le_refl _, Nat.le_refl _, .refl _, .refl _⟩
theorem setFree_later {s0 s : State} {n : Nat} (h : Later s0 s) (k : s.free ≤ n) : Later s0 (s.setFree n) :=
  h.trans ⟨rfl, id, List.prefix_refl _, Nat.le_refl _, k, .refl _, .refl _⟩
theorem setNextTask_later {s0 s : State} {n : Nat} (h : Later s0 s) (k : s.nextTask ≤ n) : Later s0 (s.setNextTask n) :=
  h.trans ⟨rfl, id, List.prefix_refl _, k, Nat.le_refl _, .refl _, .refl _⟩
theorem emit_later {s0 s : State} {o : OutEvent} (h : Later s0 s) : Later s0 (s.emit o) :=
  h.trans ⟨rfl, id, List.prefix_append _ _, Nat.le_refl _, Nat.le_refl _, .refl _, .refl _⟩

/-! ## Memory: every operation keeps the canonical form -/

theorem wf_filter {m : List Host.Cell} (f : Host.Cell → Bool) (h : Memory.wf m = true) : Memory.wf (m.filter f) = true :=
  Tab.wf_sublist _ _ List.filter_sublist h

theorem setByte_later {s0 s : State} {a : Nat} {b : Byte} (h : Later s0 s) : Later s0 (s.setByte a b) :=
  setMem_later h fun h => Tab.wf_put id (fun _ _ e => e) (fun _ => 0) s.mem a b h

theorem setBytes_later {s0 s : State} {a : Nat} {bs : List Byte} (h : Later s0 s) : Later s0 (s.setBytes a bs) := by
  induction bs generalizing s a with
  | nil => exact h
  | cons b bs ih => exact ih (setByte_later h)

theorem zeroFill_later {s0 s : State} {a n : Nat} (h : Later s0 s) : Later s0 (s.zeroFill a n) := setMem_later h (wf_filter _)

theorem fresh_later {s0 s : State} (h : Later s0 s) : Later s0 s.fresh.2 := setFree_later h (Nat.le_succ _)

end State
end Sys2Proof.Machine
end

