-- ==== Sys2Proof/Laws/OpsLater.lean ====
section
/-! SUPPORT. Operations of Machine/Ops.lean lead to a later state (Safety.Later). -/

namespace Sys2Proof.Machine

theorem State.setRf_later {s0 : State} {s : State} {r : RegId} {hi : Nat} {lo : Nat} {v : Nat} (hs : Later s0 s) :
    Later s0 (State.setRf s r hi lo v) := by
  unfold State.setRf
  try dsimp only
  repeat' first
    | with_reducible assumption
    | with_reducible apply State.setReg_later
    | split
    | dsimp only
    | dsimp only at *

theorem State.satRf_later {s0 : State} {s : State} {r : RegId} {hi : Nat} {lo : Nat} {n : Nat} (hs : Later s0 s) :
    Later s0 (State.satRf s r hi lo n) := by
  unfold State.satRf
  try dsimp only
  repeat' first
    | with_reducible assumption
    | with_reducible apply State.setRf_later
    | split
    | dsimp only
    | dsimp only at *

theorem State.addRf_later {s0 : State} {s : State} {r : RegId} {hi : Nat} {lo : Nat} {n : Nat} (hs : Later s0 s) :
    Later s0 (State.addRf s r hi lo n) := by
  unfold State.addRf
  try dsimp only
  repeat' first
    | with_reducible assumption
    | with_reducible apply State.setRf_later
    | split
    | dsimp only
    | dsimp only at *

theorem State.clearPoison_later {s0 : State} {s : State} {a : Nat} {n : Nat} (hs : Later s0 s) :
    Later s0 (State.clearPoison s a n) := by
  unfold State.clearPoison
  try dsimp only
  repeat' first
    | with_reducible assumption
    | with_reducible apply State.setPoison_later
    | split
    | dsimp only
    | dsimp only at *

theorem State.launch_later {s0 : State} {s : State} {f : Frame} (hs : Later s0 s) :
    Later s0 (State.launch s f) := by
  unfold State.launch
  try dsimp only
  repeat' first
    | with_reducible assumption
    | with_reducible apply State.setHop_later
    | with_reducible apply State.setFrames_later
    | with_reducible refine Later.foldl ?_ fun _ _ _ => ?_
    | with_reducible refine Later.foldl_with (fun p : _ × State => p.2) ?_ fun _ _ _ => ?_
    | with_reducible refine Later.foldl_with (fun p : State × _ => p.1) ?_ fun _ _ _ => ?_
    | split
    | dsimp only
    | dsimp only at *

theorem State.send_later {s0 : State} {s : State} {f : Frame} (hs : Later s0 s) :
    Later s0 (State.send s f) := by
  unfold State.send
  try dsimp only
  repeat' first
    | with_reducible assumption
    | with_reducible apply State.launch_later
    | with_reducible apply State.setBacklog_later
    | split
    | dsimp only
    | dsimp only at *

theorem State.sendWaiting_later {s0 : State} {s : State} (hs : Later s0 s) :
    Later s0 (State.sendWaiting s) := by
  unfold State.sendWaiting
  try dsimp only
  repeat' first
    | with_reducible assumption
    | with_reducible apply State.send_later
    | with_reducible apply State.setBacklog_later
    | with_reducible refine Later.foldl ?_ fun _ _ _ => ?_
    | with_reducible refine Later.foldl_with (fun p : _ × State => p.2) ?_ fun _ _ _ => ?_
    | with_reducible refine Later.foldl_with (fun p : State × _ => p.1) ?_ fun _ _ _ => ?_
    | split
    | dsimp only
    | dsimp only at *

theorem State.accepts_later {s0 : State} {s : State} {h : Nat × Nat} {seq : Nat} (hs : Later s0 s) :
    Later s0 (State.accepts s h seq) := by
  unfold State.accepts
  try dsimp only
  repeat' first
    | with_reducible assumption
    | with_reducible apply State.setHop_later
    | split
    | dsimp only
    | dsimp only at *

theorem State.arrived_later {s0 : State} {s : State} {f : Frame} (hs : Later s0 s) :
    Later s0 (State.arrived s f) := by
  unfold State.arrived
  try dsimp only
  repeat' first
    | with_reducible assumption
    | with_reducible apply State.accepts_later
    | with_reducible apply State.setFrames_later
    | with_reducible apply State.sendWaiting_later
    | with_reducible refine Later.foldl ?_ fun _ _ _ => ?_
    | with_reducible refine Later.foldl_with (fun p : _ × State => p.2) ?_ fun _ _ _ => ?_
    | with_reducible refine Later.foldl_with (fun p : State × _ => p.1) ?_ fun _ _ _ => ?_
    | split
    | dsimp only
    | dsimp only at *

theorem State.setLog_later {s0 : State} {s : State} {shore : Nat} {l : ErrLog} (hs : Later s0 s) :
    Later s0 (State.setLog s shore l) := by
  unfold State.setLog
  try dsimp only
  repeat' first
    | with_reducible assumption
    | with_reducible refine State.setLh_later ?_ ⟨List.prefix_refl _, List.prefix_refl _⟩
    | with_reducible refine State.setLh_later ?_ ⟨List.prefix_append _ _, List.prefix_refl _⟩
    | with_reducible refine State.setLh_later ?_ ⟨List.prefix_refl _, List.prefix_append _ _⟩
    | split
    | dsimp only
    | dsimp only at *

theorem State.fireVector_later {s0 : State} {s : State} {p : Port} {v : Nat} (hs : Later s0 s) :
    Later s0 (State.fireVector s p v) := by
  unfold State.fireVector
  try dsimp only
  repeat' first
    | with_reducible assumption
    | with_reducible apply State.setReg_later
    | with_reducible apply State.emit_later
    | split
    | dsimp only
    | dsimp only at *

theorem State.setErrsum_later {s0 : State} {s : State} {shore : Nat} {e : ErrInfo} {dropped : Bool} (hs : Later s0 s) :
    Later s0 (State.setErrsum s shore e dropped) := by
  unfold State.setErrsum
  try dsimp only
  repeat' first
    | with_reducible assumption
    | with_reducible apply State.setReg_later
    | split
    | dsimp only
    | dsimp only at *

theorem State.logOne_later {s0 : State} {s : State} {shore : Nat} {both : Bool} {e : ErrInfo} (hs : Later s0 s) :
    Later s0 (State.logOne s shore both e) := by
  unfold State.logOne
  try dsimp only
  repeat' first
    | with_reducible assumption
    | with_reducible apply State.setLog_later
    | with_reducible apply State.setErrsum_later
    | split
    | dsimp only
    | dsimp only at *

theorem State.logErr_later {s0 : State} {s : State} {e : ErrInfo} (hs : Later s0 s) :
    Later s0 (State.logErr s e) := by
  unfold State.logErr
  try dsimp only
  repeat' first
    | with_reducible assumption
    | with_reducible apply State.logOne_later
    | with_reducible apply State.setPkg_later
    | with_reducible apply State.fireVector_later
    | split
    | dsimp only
    | dsimp only at *

end Sys2Proof.Machine
end

