-- ==== Sys2Proof/Laws/OperandsLater.lean ====
section
/-! SUPPORT. Operations of Machine/Operands.lean lead to a later state (Safety.Later). -/

namespace Sys2Proof.Machine

theorem State.sealUnits_later {s0 : State} {s : State} {key : Nat} {a : Nat} {a4 : Nat} (hs : Later s0 s) :
    Later s0 (State.sealUnits s key a a4) := by
  induction a4 generalizing s key a with
  | zero =>
    unfold State.sealUnits
    try dsimp only
    repeat' first
      | with_reducible assumption
      | with_reducible apply ih
      | with_reducible apply State.setSeals_later
      | split
      | dsimp only
      | dsimp only at *
  | succ n ih =>
    unfold State.sealUnits
    try dsimp only
    repeat' first
      | with_reducible assumption
      | with_reducible apply ih
      | with_reducible apply State.setSeals_later
      | split
      | dsimp only
      | dsimp only at *

theorem State.clearStruck_later {s0 : State} {s : State} {a : Nat} {n : Nat} (hs : Later s0 s) :
    Later s0 (State.clearStruck s a n) := by
  unfold State.clearStruck
  try dsimp only
  repeat' first
    | with_reducible assumption
    | with_reducible apply State.setStruck_later
    | split
    | dsimp only
    | dsimp only at *

theorem State.writeBytes_later {s0 : State} {s : State} {p : Nat} {epoch : Nat} {a : Nat} {bs : List Byte} (hs : Later s0 s) :
    Later s0 (State.writeBytes s p epoch a bs) := by
  unfold State.writeBytes
  try dsimp only
  repeat' first
    | with_reducible assumption
    | with_reducible apply State.clearPoison_later
    | with_reducible apply State.clearStruck_later
    | with_reducible apply State.setBytes_later
    | with_reducible apply State.sealUnits_later
    | split
    | dsimp only
    | dsimp only at *

end Sys2Proof.Machine
end

