-- ==== Sys2Proof/Laws/MediaLater.lean ====
section
/-! SUPPORT. Operations of Machine/Media.lean lead to a later state (Safety.Later). -/

namespace Sys2Proof.Machine

theorem State.noteEcc_later {s0 : State} {s : State} {a : Nat} {ue : Bool} (hs : Later s0 s) :
    Later s0 (State.noteEcc s a ue) := by
  unfold State.noteEcc
  try dsimp only
  repeat' first
    | with_reducible assumption
    | with_reducible apply State.setRf_later
    | with_reducible apply State.satRf_later
    | split
    | dsimp only
    | dsimp only at *

theorem State.mapRow_later {s0 : State} {s : State} {base : Nat} {bank : Nat} {row : Nat} (hs : Later s0 s) :
    Later s0 (State.mapRow s base bank row) := by
  unfold State.mapRow
  try dsimp only
  repeat' first
    | with_reducible assumption
    | with_reducible apply State.logErr_later
    | with_reducible refine State.setLh_later ?_ ⟨List.prefix_refl _, List.prefix_refl _⟩
    | with_reducible refine State.setLh_later ?_ ⟨List.prefix_append _ _, List.prefix_refl _⟩
    | with_reducible refine State.setLh_later ?_ ⟨List.prefix_refl _, List.prefix_append _ _⟩
    | split
    | dsimp only
    | dsimp only at *

theorem State.spoil_later {s0 : State} {s : State} {a : Nat} (hs : Later s0 s) :
    Later s0 (State.spoil s a) := by
  unfold State.spoil
  try dsimp only
  repeat' first
    | with_reducible assumption
    | with_reducible apply State.setPoison_later
    | with_reducible apply State.noteEcc_later
    | with_reducible apply State.mapRow_later
    | with_reducible refine State.setLh_later ?_ ⟨List.prefix_refl _, List.prefix_refl _⟩
    | with_reducible refine State.setLh_later ?_ ⟨List.prefix_append _ _, List.prefix_refl _⟩
    | with_reducible refine State.setLh_later ?_ ⟨List.prefix_refl _, List.prefix_append _ _⟩
    | with_reducible apply State.setRf_later
    | with_reducible apply State.satRf_later
    | split
    | dsimp only
    | dsimp only at *

theorem State.meet_later {s0 : State} {s : State} {a : Nat} {n : Nat} (hs : Later s0 s) :
    Later s0 (State.meet s a n) := by
  unfold State.meet
  try dsimp only
  repeat' first
    | with_reducible assumption
    | with_reducible apply State.spoil_later
    | with_reducible apply State.noteEcc_later
    | with_reducible apply State.setStruck_later
    | with_reducible refine Later.foldl ?_ fun _ _ _ => ?_
    | with_reducible refine Later.foldl_with (fun p : _ × State => p.2) ?_ fun _ _ _ => ?_
    | with_reducible refine Later.foldl_with (fun p : State × _ => p.1) ?_ fun _ _ _ => ?_
    | split
    | dsimp only
    | dsimp only at *

theorem State.meetRead_later {s0 : State} {s : State} {t : Task} {ws : List Window} {tenant : Bool} {global : Bool} {package : Nat} {a : Int} {n : Nat} (hs : Later s0 s) :
    Later s0 (State.meetRead s t ws tenant global package a n) := by
  unfold State.meetRead
  try dsimp only
  repeat' first
    | with_reducible assumption
    | with_reducible apply State.meet_later
    | split
    | dsimp only
    | with_reducible refine Post.ok ?_
    | with_reducible exact Post.error True.intro
    | dsimp only at *
    | with_reducible refine Later.of_ok (P := fun _ => True) (by assumption) ?_
    | with_reducible refine Later.of_ok2 (P := fun _ => True) (by assumption) ?_
    | with_reducible refine Later.of_ok1 (P := fun _ => True) (by assumption) ?_

theorem State.strikeOne_later {s0 : State} {s : State} {k : Strike} (hs : Later s0 s) :
    Later s0 (State.strikeOne s k) := by
  unfold State.strikeOne
  try dsimp only
  repeat' first
    | with_reducible assumption
    | with_reducible apply State.setStruck_later
    | with_reducible apply State.setRing_later
    | with_reducible apply State.setArray_later
    | split
    | dsimp only
    | dsimp only at *

theorem State.strike_later {s0 : State} {s : State} {ks : List Strike} (hs : Later s0 s) :
    Later s0 (State.strike s ks) := by
  unfold State.strike
  try dsimp only
  repeat' first
    | with_reducible assumption
    | with_reducible apply State.strikeOne_later
    | with_reducible refine Later.foldl ?_ fun _ _ _ => ?_
    | with_reducible refine Later.foldl_with (fun p : _ × State => p.2) ?_ fun _ _ _ => ?_
    | with_reducible refine Later.foldl_with (fun p : State × _ => p.1) ?_ fun _ _ _ => ?_
    | split
    | dsimp only
    | dsimp only at *

theorem State.meetFail_later {s0 : State} {s : State} {f : Fail} (hs : Later s0 s) :
    Later s0 (State.meetFail s f) := by
  unfold State.meetFail
  try dsimp only
  repeat' first
    | with_reducible assumption
    | with_reducible apply State.meet_later
    | split
    | dsimp only
    | dsimp only at *

end Sys2Proof.Machine
end

