-- ==== Sys2Proof/Laws/CreditsLater.lean ====
section
/-! SUPPORT. Operations of Machine/Credits.lean lead to a later state (Safety.Later). -/

namespace Sys2Proof.Machine

theorem State.grantPool_later {s0 : State} {s : State} {p : Nat} {t : Nat} {a : Nat} (hs : Later s0 s) :
    Later s0 (State.grantPool s p t a) := by
  induction a generalizing s p t with
  | zero =>
    unfold State.grantPool
    try dsimp only
    repeat' first
      | with_reducible assumption
      | with_reducible apply ih
      | with_reducible apply State.setPool_later
      | with_reducible apply State.send_later
      | split
      | dsimp only
      | dsimp only at *
  | succ n ih =>
    unfold State.grantPool
    try dsimp only
    repeat' first
      | with_reducible assumption
      | with_reducible apply ih
      | with_reducible apply State.setPool_later
      | with_reducible apply State.send_later
      | split
      | dsimp only
      | dsimp only at *

theorem State.serve_later {s0 : State} {s : State} {p : Nat} {t : Nat} (hs : Later s0 s) :
    Later s0 (State.serve s p t) := by
  unfold State.serve
  try dsimp only
  repeat' first
    | with_reducible assumption
    | with_reducible apply State.grantPool_later
    | split
    | dsimp only
    | dsimp only at *

theorem State.returnOne_later {s0 : State} {s : State} {p : Nat} {t : Nat} (hs : Later s0 s) :
    Later s0 (State.returnOne s p t) := by
  unfold State.returnOne
  try dsimp only
  repeat' first
    | with_reducible assumption
    | with_reducible apply State.setPool_later
    | split
    | dsimp only
    | dsimp only at *

theorem State.returnMany_later {s0 : State} {s : State} {p : Nat} {t : Nat} {a : Nat} (hs : Later s0 s) :
    Later s0 (State.returnMany s p t a) := by
  induction a generalizing s p t with
  | zero =>
    unfold State.returnMany
    try dsimp only
    repeat' first
      | with_reducible assumption
      | with_reducible apply ih
      | with_reducible apply State.returnOne_later
      | split
      | dsimp only
      | dsimp only at *
  | succ n ih =>
    unfold State.returnMany
    try dsimp only
    repeat' first
      | with_reducible assumption
      | with_reducible apply ih
      | with_reducible apply State.returnOne_later
      | split
      | dsimp only
      | dsimp only at *

theorem State.returnCredits_later {s0 : State} {s : State} {p : Nat} {t : Nat} {gen : Nat} {n : Nat} (hs : Later s0 s) :
    Later s0 (State.returnCredits s p t gen n) := by
  unfold State.returnCredits
  try dsimp only
  repeat' first
    | with_reducible assumption
    | with_reducible apply State.returnMany_later
    | with_reducible apply State.serve_later
    | split
    | dsimp only
    | dsimp only at *

theorem State.resetPool_later {s0 : State} {s : State} {p : Nat} {t : Nat} (hs : Later s0 s) :
    Later s0 (State.resetPool s p t) := by
  unfold State.resetPool
  try dsimp only
  repeat' first
    | with_reducible assumption
    | with_reducible apply State.setPool_later
    | with_reducible apply State.serve_later
    | split
    | dsimp only
    | dsimp only at *

end Sys2Proof.Machine
end

