-- ==== Sys2Proof/Laws/TasksLater.lean ====
section
/-! SUPPORT. Operations of Machine/Tasks.lean lead to a later state (Safety.Later). -/

namespace Sys2Proof.Machine

theorem State.countWait_later {s0 : State} {s : State} {x : EngRef} (hs : Later s0 s) :
    Later s0 (State.countWait s x) := by
  unfold State.countWait
  try dsimp only
  repeat' first
    | with_reducible assumption
    | with_reducible apply State.fresh_later
    | with_reducible apply State.addRf_later
    | with_reducible refine Later.of_snd (by assumption) ?_
    | with_reducible refine Later.of_fst (by assumption) ?_
    | split
    | dsimp only
    | dsimp only at *

theorem State.countUnits_later {s0 : State} {s : State} {x : EngRef} (hs : Later s0 s) :
    Later s0 (State.countUnits s x) := by
  unfold State.countUnits
  try dsimp only
  repeat' first
    | with_reducible assumption
    | with_reducible apply State.fresh_later
    | with_reducible apply State.addRf_later
    | with_reducible refine Later.of_snd (by assumption) ?_
    | with_reducible refine Later.of_fst (by assumption) ?_
    | split
    | dsimp only
    | dsimp only at *

theorem State.updTask_later {s0 : State} {s : State} {id : Nat} {f : Task → Task} (hs : Later s0 s) :
    Later s0 (State.updTask s id f) := by
  unfold State.updTask
  try dsimp only
  repeat' first
    | with_reducible assumption
    | with_reducible apply State.setTasks_later
    | split
    | dsimp only
    | dsimp only at *

theorem State.forAll_later {s0 s : State} {l : List Nat} {f : State → Nat → State} (h : Later s0 s) (k : ∀ t a, Later s0 t → Later s0 (f t a)) :
    Later s0 (s.forAll l f) := Later.foldl h k

theorem State.updEng_later {s0 : State} {s : State} {x : EngRef} {f : EngCtx → EngCtx} (hs : Later s0 s) :
    Later s0 (State.updEng s x f) := by
  unfold State.updEng
  try dsimp only
  repeat' first
    | with_reducible assumption
    | with_reducible apply State.setEng_later
    | split
    | dsimp only
    | dsimp only at *

theorem State.updEngines_later {s0 : State} {s : State} {t : Task} {f : EngCtx → EngCtx} (hs : Later s0 s) :
    Later s0 (State.updEngines s t f) := by
  unfold State.updEngines
  try dsimp only
  repeat' first
    | with_reducible assumption
    | with_reducible refine State.forAll_later ?_ fun _ _ _ => ?_
    | with_reducible apply State.updEng_later
    | split
    | dsimp only
    | dsimp only at *

theorem State.stopDispenser_later {s0 : State} {s : State} {d : Nat} (hs : Later s0 s) :
    Later s0 (State.stopDispenser s d) := by
  unfold State.stopDispenser
  try dsimp only
  repeat' first
    | with_reducible assumption
    | with_reducible refine State.forAll_later ?_ fun _ _ _ => ?_
    | with_reducible apply State.setChan_later
    | with_reducible apply State.setDisp_later
    | with_reducible apply State.setRf_later
    | split
    | dsimp only
    | dsimp only at *

theorem State.stopEngines_later {s0 : State} {s : State} {t : Task} (hs : Later s0 s) :
    Later s0 (State.stopEngines s t) := by
  unfold State.stopEngines
  try dsimp only
  repeat' first
    | with_reducible assumption
    | with_reducible refine State.forAll_later ?_ fun _ _ _ => ?_
    | with_reducible apply State.returnCredits_later
    | with_reducible apply State.setEng_later
    | with_reducible apply State.countWait_later
    | with_reducible refine Later.foldl ?_ fun _ _ _ => ?_
    | with_reducible refine Later.foldl_with (fun p : _ × State => p.2) ?_ fun _ _ _ => ?_
    | with_reducible refine Later.foldl_with (fun p : State × _ => p.1) ?_ fun _ _ _ => ?_
    | split
    | dsimp only
    | dsimp only at *

theorem State.stopLists_later {s0 : State} {s : State} {t : Task} (hs : Later s0 s) :
    Later s0 (State.stopLists s t) := by
  unfold State.stopLists
  try dsimp only
  repeat' first
    | with_reducible assumption
    | with_reducible refine State.forAll_later ?_ fun _ _ _ => ?_
    | with_reducible apply State.stopDispenser_later
    | split
    | dsimp only
    | dsimp only at *

theorem State.clearArrays_later {s0 : State} {s : State} {t : Task} (hs : Later s0 s) :
    Later s0 (State.clearArrays s t) := by
  unfold State.clearArrays
  try dsimp only
  repeat' first
    | with_reducible assumption
    | with_reducible refine State.forAll_later ?_ fun _ _ _ => ?_
    | with_reducible apply State.setArray_later
    | split
    | dsimp only
    | dsimp only at *

theorem State.fireCq_later {s0 : State} {s : State} {p : Port} {q : Nat} (hs : Later s0 s) :
    Later s0 (State.fireCq s p q) := by
  unfold State.fireCq
  try dsimp only
  repeat' first
    | with_reducible assumption
    | with_reducible apply State.setPort_later
    | with_reducible apply State.fireVector_later
    | split
    | dsimp only
    | dsimp only at *

theorem State.writeEntry_later {s0 : State} {s : State} {p : Port} {q : Nat} {e : List Byte} (hs : Later s0 s) :
    Later s0 (State.writeEntry s p q e) := by
  unfold State.writeEntry
  try dsimp only
  repeat' first
    | with_reducible assumption
    | with_reducible apply State.emit_later
    | with_reducible apply State.setPort_later
    | with_reducible apply State.setRf_later
    | split
    | dsimp only
    | dsimp only at *

theorem State.complete_later {s0 : State} {s : State} {p : Port} {q : Nat} {e : List Byte} (hs : Later s0 s) :
    Later s0 (State.complete s p q e) := by
  unfold State.complete
  try dsimp only
  repeat' first
    | with_reducible assumption
    | with_reducible apply State.writeEntry_later
    | with_reducible apply State.fireCq_later
    | with_reducible apply State.setPort_later
    | split
    | dsimp only
    | dsimp only at *

theorem State.endRing_later {s0 : State} {s : State} {t : Task} {g : Nat} {n : Nat} (hs : Later s0 s) :
    Later s0 (State.endRing s t g n) := by
  unfold State.endRing
  try dsimp only
  repeat' first
    | with_reducible assumption
    | with_reducible apply State.setRing_later
    | with_reducible apply State.logErr_later
    | split
    | dsimp only
    | dsimp only at *

theorem State.endWindow_later {s0 : State} {s : State} {t : Task} {g : Nat} (hs : Later s0 s) :
    Later s0 (State.endWindow s t g) := by
  unfold State.endWindow
  try dsimp only
  repeat' first
    | with_reducible assumption
    | with_reducible apply State.setRf_later
    | split
    | dsimp only
    | dsimp only at *

theorem State.returnLanded_later {s0 : State} {s : State} {g : Nat} {slot : Nat} (hs : Later s0 s) :
    Later s0 (State.returnLanded s g slot) := by
  unfold State.returnLanded
  try dsimp only
  repeat' first
    | with_reducible assumption
    | with_reducible apply State.setLanded_later
    | with_reducible apply State.returnCredits_later
    | with_reducible refine Later.foldl ?_ fun _ _ _ => ?_
    | with_reducible refine Later.foldl_with (fun p : _ × State => p.2) ?_ fun _ _ _ => ?_
    | with_reducible refine Later.foldl_with (fun p : State × _ => p.1) ?_ fun _ _ _ => ?_
    | split
    | dsimp only
    | dsimp only at *

theorem State.finish_later {s0 : State} {s : State} {t : Task} {state : Nat} (hs : Later s0 s) :
    Later s0 (State.finish s t state) := by
  unfold State.finish
  try dsimp only
  repeat' first
    | with_reducible assumption
    | with_reducible apply State.updTask_later
    | with_reducible refine State.forAll_later ?_ fun _ _ _ => ?_
    | with_reducible apply State.endRing_later
    | with_reducible apply State.endWindow_later
    | with_reducible apply State.returnLanded_later
    | with_reducible apply State.updEngines_later
    | with_reducible apply State.setPort_later
    | with_reducible apply State.fireCq_later
    | with_reducible apply State.complete_later
    | split
    | dsimp only
    | dsimp only at *

theorem State.tryDone_later {s0 : State} {s : State} {core : Nat} {slot : Nat} (hs : Later s0 s) :
    Later s0 (State.tryDone s core slot) := by
  unfold State.tryDone
  try dsimp only
  repeat' first
    | with_reducible assumption
    | with_reducible apply State.finish_later
    | split
    | dsimp only
    | dsimp only at *

theorem State.abortTask_later {s0 : State} {s : State} {id : Nat} (hs : Later s0 s) :
    Later s0 (State.abortTask s id) := by
  unfold State.abortTask
  try dsimp only
  repeat' first
    | with_reducible assumption
    | with_reducible apply State.updTask_later
    | with_reducible apply State.stopLists_later
    | with_reducible apply State.finish_later
    | with_reducible apply State.stopEngines_later
    | with_reducible apply State.clearArrays_later
    | split
    | dsimp only
    | dsimp only at *

theorem State.noteError_later {s0 : State} {s : State} {id : Nat} {code : Nat} {core : Nat} {seq : Nat} (hs : Later s0 s) :
    Later s0 (State.noteError s id code core seq) := by
  unfold State.noteError
  try dsimp only
  repeat' first
    | with_reducible assumption
    | with_reducible apply State.updTask_later
    | split
    | dsimp only
    | dsimp only at *

theorem State.noteFault_later {s0 : State} {s : State} {t : Task} {core : Nat} {eng : Nat} {f : Fail} (hs : Later s0 s) :
    Later s0 (State.noteFault s t core eng f) := by
  unfold State.noteFault
  try dsimp only
  repeat' first
    | with_reducible assumption
    | with_reducible apply State.setReg_later
    | with_reducible apply State.setRf_later
    | split
    | dsimp only
    | dsimp only at *

theorem State.failTask_later {s0 : State} {s : State} {t : Task} {core : Nat} {eng : Nat} {f : Fail} (hs : Later s0 s) :
    Later s0 (State.failTask s t core eng f) := by
  unfold State.failTask
  try dsimp only
  repeat' first
    | with_reducible assumption
    | with_reducible apply State.meetFail_later
    | with_reducible apply State.logErr_later
    | with_reducible apply State.noteFault_later
    | with_reducible apply State.noteError_later
    | with_reducible apply State.abortTask_later
    | split
    | dsimp only
    | dsimp only at *

theorem State.abortWith_later {s0 : State} {s : State} {t : Task} {e : ErrInfo} (hs : Later s0 s) :
    Later s0 (State.abortWith s t e) := by
  unfold State.abortWith
  try dsimp only
  repeat' first
    | with_reducible assumption
    | with_reducible apply State.logErr_later
    | with_reducible apply State.noteError_later
    | with_reducible apply State.abortTask_later
    | split
    | dsimp only
    | dsimp only at *

theorem State.fail_later {s0 : State} {s : State} {x : EngRef} {f : Fail} (hs : Later s0 s) :
    Later s0 (State.fail s x f) := by
  unfold State.fail
  try dsimp only
  repeat' first
    | with_reducible assumption
    | with_reducible apply State.failTask_later
    | split
    | dsimp only
    | dsimp only at *

end Sys2Proof.Machine
end

