-- ==== Sys2Proof/Laws/NativeLater.lean ====
section
/-! SUPPORT. Operations of Machine/Native.lean lead to a later state (Safety.Later). -/

namespace Sys2Proof.Machine

theorem State.discardWord_later {s0 : State} {s : State} {x : EngRef} {t : Task} {code : Nat} {pos : Nat} {w : Nat} (hs : Later s0 s) :
    Later s0 (State.discardWord s x t code pos w) := by
  unfold State.discardWord
  try dsimp only
  repeat' first
    | with_reducible assumption
    | with_reducible apply State.logErr_later
    | with_reducible apply State.updEng_later
    | split
    | dsimp only
    | dsimp only at *

theorem State.intakeWord_later {s0 : State} {s : State} {x : EngRef} {t : Task} {w : Nat} (hs : Later s0 s) :
    Later s0 (State.intakeWord s x t w) := by
  unfold State.intakeWord
  try dsimp only
  repeat' first
    | with_reducible assumption
    | with_reducible apply State.setEng_later
    | with_reducible apply State.discardWord_later
    | with_reducible apply State.failTask_later
    | split
    | dsimp only
    | dsimp only at *

theorem State.decodeWords_later {s0 : State} {s : State} {a2 : EngRef} {id : Nat} {a : List Nat} (hs : Later s0 s) :
    Later s0 (State.decodeWords s a2 id a) := by
  induction a generalizing s a2 id with
  | nil =>
    unfold State.decodeWords
    try dsimp only
    repeat' first
      | with_reducible assumption
      | with_reducible apply ih
      | with_reducible apply State.intakeWord_later
      | split
      | dsimp only
      | dsimp only at *
  | cons b l ih =>
    unfold State.decodeWords
    try dsimp only
    repeat' first
      | with_reducible assumption
      | with_reducible apply ih
      | with_reducible apply State.intakeWord_later
      | split
      | dsimp only
      | dsimp only at *

theorem State.intake_later {s0 : State} {s : State} {x : EngRef} {id : Nat} {ws : List Nat} (hs : Later s0 s) :
    Later s0 (State.intake s x id ws) := by
  unfold State.intake
  try dsimp only
  repeat' first
    | with_reducible assumption
    | with_reducible apply State.decodeWords_later
    | with_reducible apply State.updEng_later
    | with_reducible apply State.arrived_later
    | split
    | dsimp only
    | dsimp only at *

theorem State.decodeEarly_later {s0 : State} {s : State} {x : EngRef} {id : Nat} (hs : Later s0 s) :
    Later s0 (State.decodeEarly s x id) := by
  unfold State.decodeEarly
  try dsimp only
  repeat' first
    | with_reducible assumption
    | with_reducible apply State.updEng_later
    | with_reducible apply State.decodeWords_later
    | split
    | dsimp only
    | dsimp only at *

end Sys2Proof.Machine
end

