-- ==== Sys2Proof/Laws/SyncLater.lean ====
section
/-! SUPPORT. Operations of Machine/Sync.lean lead to a later state (Safety.Later). -/

namespace Sys2Proof.Machine

theorem State.begin'_later {s0 : State} {s : State} {x : EngRef} (hs : Later s0 s) :
    Later s0 (State.begin' s x) := by
  unfold State.begin'
  try dsimp only
  repeat' first
    | with_reducible assumption
    | with_reducible apply State.setTurn_later
    | with_reducible refine State.forAll_later ?_ fun _ _ _ => ?_
    | with_reducible apply State.setReg_later
    | split
    | dsimp only
    | dsimp only at *

theorem State.issue_later {s0 s : State} {engines : List Nat} {x : EngRef} {i : Instr} {f : State → Task → State} (h : Later s0 s)
    (k : ∀ t u, Later s0 t → Later s0 (f t u)) : Later s0 (s.issue engines x i f) := by
  unfold State.issue
  split
  · exact h
  · split
    · exact k _ _ (State.begin'_later h)
    · exact h

theorem State.countRetired_later {s0 : State} {s : State} {x : EngRef} (hs : Later s0 s) :
    Later s0 (State.countRetired s x) := by
  unfold State.countRetired
  try dsimp only
  repeat' first
    | with_reducible assumption
    | with_reducible apply State.addRf_later
    | with_reducible apply State.countUnits_later
    | split
    | dsimp only
    | dsimp only at *

theorem State.tookEnd_later {s0 : State} {s : State} {core : Nat} (hs : Later s0 s) :
    Later s0 (State.tookEnd s core) := by
  unfold State.tookEnd
  try dsimp only
  repeat' first
    | with_reducible assumption
    | with_reducible apply State.setDisp_later
    | split
    | dsimp only
    | dsimp only at *

theorem State.pushEnds_later {s0 : State} {s : State} {d : Nat} (hs : Later s0 s) :
    Later s0 (State.pushEnds s d) := by
  unfold State.pushEnds
  try dsimp only
  repeat' first
    | with_reducible assumption
    | with_reducible refine State.forAll_later ?_ fun _ _ _ => ?_
    | with_reducible apply State.setChan_later
    | with_reducible apply State.setDisp_later
    | split
    | dsimp only
    | dsimp only at *

theorem State.giveItem_later {s0 : State} {s : State} {x : EngRef} {w : Option WorkItem} (hs : Later s0 s) :
    Later s0 (State.giveItem s x w) := by
  unfold State.giveItem
  try dsimp only
  repeat' first
    | with_reducible assumption
    | with_reducible apply State.setEng_later
    | split
    | dsimp only
    | dsimp only at *

theorem State.giveEnd_later {s0 : State} {s : State} {core : Nat} {slot : Nat} {es : List Nat} (hs : Later s0 s) :
    Later s0 (State.giveEnd s core slot es) := by
  unfold State.giveEnd
  try dsimp only
  repeat' first
    | with_reducible assumption
    | with_reducible refine State.forAll_later ?_ fun _ _ _ => ?_
    | with_reducible apply State.giveItem_later
    | split
    | dsimp only
    | dsimp only at *

theorem State.giveZeros_later {s0 : State} {s : State} {core : Nat} {slot : Nat} (hs : Later s0 s) :
    Later s0 (State.giveZeros s core slot) := by
  unfold State.giveZeros
  try dsimp only
  repeat' first
    | with_reducible assumption
    | with_reducible apply State.updEng_later
    | with_reducible apply State.giveEnd_later
    | split
    | dsimp only
    | dsimp only at *

theorem State.pumpItems_later {s0 : State} {s : State} {core : Nat} {a : Nat} (hs : Later s0 s) :
    Later s0 (State.pumpItems s core a) := by
  induction a generalizing s core with
  | zero =>
    unfold State.pumpItems
    try dsimp only
    repeat' first
      | with_reducible assumption
      | with_reducible apply ih
      | with_reducible apply State.setChan_later
      | with_reducible apply State.giveEnd_later
      | with_reducible apply State.tookEnd_later
      | with_reducible refine State.forAll_later ?_ fun _ _ _ => ?_
      | with_reducible apply State.giveItem_later
      | with_reducible apply State.pushEnds_later
      | split
      | dsimp only
      | dsimp only at *
  | succ n ih =>
    unfold State.pumpItems
    try dsimp only
    repeat' first
      | with_reducible assumption
      | with_reducible apply ih
      | with_reducible apply State.setChan_later
      | with_reducible apply State.giveEnd_later
      | with_reducible apply State.tookEnd_later
      | with_reducible refine State.forAll_later ?_ fun _ _ _ => ?_
      | with_reducible apply State.giveItem_later
      | with_reducible apply State.pushEnds_later
      | split
      | dsimp only
      | dsimp only at *

theorem State.admitPort_later {s0 : State} {s : State} {p : Port} {a : Nat} (hs : Later s0 s) :
    Later s0 (State.admitPort s p a) := by
  induction a generalizing s p with
  | zero =>
    unfold State.admitPort
    try dsimp only
    repeat' first
      | with_reducible assumption
      | with_reducible apply ih
      | with_reducible apply State.setPort_later
      | with_reducible apply State.intake_later
      | split
      | dsimp only
      | dsimp only at *
  | succ n ih =>
    unfold State.admitPort
    try dsimp only
    repeat' first
      | with_reducible assumption
      | with_reducible apply ih
      | with_reducible apply State.setPort_later
      | with_reducible apply State.intake_later
      | split
      | dsimp only
      | dsimp only at *

theorem State.admitHeld_later {s0 : State} {s : State} (hs : Later s0 s) :
    Later s0 (State.admitHeld s) := by
  unfold State.admitHeld
  try dsimp only
  repeat' first
    | with_reducible assumption
    | with_reducible apply State.admitPort_later
    | split
    | dsimp only
    | dsimp only at *

theorem State.retireWord_later {s0 : State} {s : State} {x : EngRef} {t : Task} {i : Instr} {upd : optParam (EngCtx → EngCtx) id} (hs : Later s0 s) :
    Later s0 (State.retireWord s x t i upd) := by
  unfold State.retireWord
  try dsimp only
  repeat' first
    | with_reducible assumption
    | with_reducible apply State.setEng_later
    | with_reducible apply State.countRetired_later
    | with_reducible apply State.tryDone_later
    | with_reducible apply State.intake_later
    | split
    | dsimp only
    | dsimp only at *

theorem State.decodeFault_later {s0 : State} {s : State} {x : EngRef} {t : Task} (hs : Later s0 s) :
    Later s0 (State.decodeFault s x t) := by
  unfold State.decodeFault
  try dsimp only
  repeat' first
    | with_reducible assumption
    | with_reducible apply State.logErr_later
    | with_reducible apply State.failTask_later
    | split
    | dsimp only
    | dsimp only at *

theorem State.deliver_later {s0 : State} {s : State} {x : EngRef} {t : Task} {i : Instr} {lc : Nat} {tagen : Bool} {tlc : Nat} {w : Nat} {valid : Bool} {endMark : Bool} (hs : Later s0 s) :
    Later s0 (State.deliver s x t i lc tagen tlc w valid endMark) := by
  unfold State.deliver
  try dsimp only
  repeat' first
    | with_reducible assumption
    | with_reducible apply State.setReg_later
    | with_reducible apply State.retireWord_later
    | split
    | dsimp only
    | dsimp only at *

theorem State.popWord_later {s0 : State} {s : State} {core : Nat} {ch : Nat} (hs : Later s0 s) :
    Later s0 (State.popWord s core ch).2 := by
  unfold State.popWord
  try dsimp only
  repeat' first
    | with_reducible assumption
    | with_reducible apply State.setChan_later
    | with_reducible apply State.tookEnd_later
    | split
    | dsimp only
    | dsimp only at *

theorem State.serveRecv_later {s0 : State} {s : State} {core : Nat} {slot : Nat} {e : Nat} (hs : Later s0 s) :
    Later s0 (State.serveRecv s core slot e) := by
  unfold State.serveRecv
  try dsimp only
  repeat' first
    | with_reducible assumption
    | with_reducible apply State.popWord_later
    | with_reducible apply State.deliver_later
    | with_reducible refine Later.of_snd (by assumption) ?_
    | with_reducible refine Later.of_fst (by assumption) ?_
    | split
    | dsimp only
    | dsimp only at *

theorem State.serveRecvs_later {s0 : State} {s : State} {core : Nat} (hs : Later s0 s) :
    Later s0 (State.serveRecvs s core) := by
  unfold State.serveRecvs
  try dsimp only
  repeat' first
    | with_reducible assumption
    | with_reducible refine State.forAll_later ?_ fun _ _ _ => ?_
    | with_reducible apply State.serveRecv_later
    | split
    | dsimp only
    | dsimp only at *

theorem State.pumpEnds_later {s0 : State} {s : State} {d : Nat} {a : Nat} (hs : Later s0 s) :
    Later s0 (State.pumpEnds s d a) := by
  induction a generalizing s d with
  | zero =>
    unfold State.pumpEnds
    try dsimp only
    repeat' first
      | with_reducible assumption
      | with_reducible apply ih
      | with_reducible apply State.pushEnds_later
      | with_reducible refine State.forAll_later ?_ fun _ _ _ => ?_
      | with_reducible apply State.serveRecvs_later
      | with_reducible apply State.pumpItems_later
      | split
      | dsimp only
      | dsimp only at *
  | succ n ih =>
    unfold State.pumpEnds
    try dsimp only
    repeat' first
      | with_reducible assumption
      | with_reducible apply ih
      | with_reducible apply State.pushEnds_later
      | with_reducible refine State.forAll_later ?_ fun _ _ _ => ?_
      | with_reducible apply State.serveRecvs_later
      | with_reducible apply State.pumpItems_later
      | split
      | dsimp only
      | dsimp only at *

theorem State.pump_later {s0 : State} {s : State} {core : Nat} (hs : Later s0 s) :
    Later s0 (State.pump s core) := by
  unfold State.pump
  try dsimp only
  repeat' first
    | with_reducible assumption
    | with_reducible refine State.forAll_later ?_ fun _ _ _ => ?_
    | with_reducible apply State.giveZeros_later
    | with_reducible apply State.pumpItems_later
    | with_reducible apply State.pumpEnds_later
    | split
    | dsimp only
    | dsimp only at *

theorem State.retire_later {s0 : State} {s : State} {x : EngRef} {t : Task} {i : Instr} {upd : optParam (EngCtx → EngCtx) id} (hs : Later s0 s) :
    Later s0 (State.retire s x t i upd) := by
  unfold State.retire
  try dsimp only
  repeat' first
    | with_reducible assumption
    | with_reducible apply State.retireWord_later
    | with_reducible apply State.admitHeld_later
    | with_reducible apply State.pump_later
    | split
    | dsimp only
    | dsimp only at *

theorem State.stall_later {s0 : State} {s : State} {x : EngRef} {w : Stall} (hs : Later s0 s) :
    Later s0 (State.stall s x w) := by
  unfold State.stall
  try dsimp only
  repeat' first
    | with_reducible assumption
    | with_reducible apply State.updEng_later
    | with_reducible apply State.countWait_later
    | split
    | dsimp only
    | dsimp only at *

theorem State.takeLanded_later {s0 : State} {s : State} {core : Nat} {slot : Nat} {counter : Nat} {n : Nat} (hs : Later s0 s) :
    Later s0 (State.takeLanded s core slot counter n) := by
  unfold State.takeLanded
  try dsimp only
  repeat' first
    | with_reducible assumption
    | with_reducible apply State.setLanded_later
    | with_reducible apply State.returnCredits_later
    | with_reducible refine Later.foldl ?_ fun _ _ _ => ?_
    | with_reducible refine Later.foldl_with (fun p : _ × State => p.2) ?_ fun _ _ _ => ?_
    | with_reducible refine Later.foldl_with (fun p : State × _ => p.1) ?_ fun _ _ _ => ?_
    | split
    | dsimp only
    | dsimp only at *

theorem State.doTake_later {s0 : State} {s : State} {x : EngRef} {t : Task} {number : Nat} {value : Nat} (hs : Later s0 s) :
    Later s0 (State.doTake s x t number value) := by
  unfold State.doTake
  try dsimp only
  repeat' first
    | with_reducible assumption
    | with_reducible apply State.setRf_later
    | with_reducible apply State.takeLanded_later
    | with_reducible apply State.retire_later
    | split
    | dsimp only
    | dsimp only at *

theorem State.doAcq_later {s0 : State} {s : State} {x : EngRef} {t : Task} {number : Nat} {value : Nat} (hs : Later s0 s) :
    Later s0 (State.doAcq s x t number value) := by
  unfold State.doAcq
  try dsimp only
  repeat' first
    | with_reducible assumption
    | with_reducible apply State.setRf_later
    | with_reducible apply State.retire_later
    | split
    | dsimp only
    | dsimp only at *

theorem State.serveGe_later {s0 : State} {s : State} {core : Nat} {slot : Nat} {e : Nat} (hs : Later s0 s) :
    Later s0 (State.serveGe s core slot e) := by
  unfold State.serveGe
  try dsimp only
  repeat' first
    | with_reducible assumption
    | with_reducible apply State.retire_later
    | split
    | dsimp only
    | dsimp only at *

theorem State.serveTake_later {s0 : State} {s : State} {core : Nat} {slot : Nat} {e : Nat} (hs : Later s0 s) :
    Later s0 (State.serveTake s core slot e) := by
  unfold State.serveTake
  try dsimp only
  repeat' first
    | with_reducible assumption
    | with_reducible apply State.doTake_later
    | with_reducible apply State.setRotation_later
    | with_reducible apply State.doAcq_later
    | split
    | dsimp only
    | dsimp only at *

theorem State.serveWaits_later {s0 : State} {s : State} {core : Nat} {slot : Nat} (hs : Later s0 s) :
    Later s0 (State.serveWaits s core slot) := by
  unfold State.serveWaits
  try dsimp only
  repeat' first
    | with_reducible assumption
    | with_reducible refine State.forAll_later ?_ fun _ _ _ => ?_
    | with_reducible apply State.serveGe_later
    | with_reducible apply State.serveTake_later
    | split
    | dsimp only
    | dsimp only at *

theorem State.incr_later {s0 : State} {s : State} {target : Nat} {slot : Nat} {sem : Bool} {number : Nat} {amount : Nat} {core : Nat} {eng : Nat} (hs : Later s0 s) :
    Later s0 (State.incr s target slot sem number amount core eng) := by
  unfold State.incr
  try dsimp only
  repeat' first
    | with_reducible assumption
    | with_reducible apply State.failTask_later
    | with_reducible apply State.setRf_later
    | with_reducible apply State.serveWaits_later
    | split
    | dsimp only
    | dsimp only at *

theorem State.chanError_later {s0 : State} {s : State} {core : Nat} {code : Nat} {ch : Nat} (hs : Later s0 s) :
    Later s0 (State.chanError s core code ch) := by
  unfold State.chanError
  try dsimp only
  repeat' first
    | with_reducible assumption
    | with_reducible apply State.logErr_later
    | split
    | dsimp only
    | dsimp only at *

theorem State.pushWords_later {s0 : State} {s : State} {core : Nat} {ch : Nat} {ws : List (Nat × Bool)} {fromDisp : optParam Bool Bool.false} (hs : Later s0 s) :
    Later s0 (State.pushWords s core ch ws fromDisp) := by
  unfold State.pushWords
  try dsimp only
  repeat' first
    | with_reducible assumption
    | with_reducible apply State.chanError_later
    | with_reducible apply State.setChan_later
    | with_reducible apply State.serveRecvs_later
    | with_reducible apply State.pump_later
    | with_reducible apply State.send_later
    | split
    | dsimp only
    | dsimp only at *

theorem State.deliverSync_later {s0 : State} {s : State} {x : EngRef} {f : Frame} (hs : Later s0 s) :
    Later s0 (State.deliverSync s x f) := by
  unfold State.deliverSync
  try dsimp only
  repeat' first
    | with_reducible assumption
    | with_reducible apply State.send_later
    | with_reducible apply State.incr_later
    | with_reducible apply State.pushWords_later
    | with_reducible apply State.complete_later
    | split
    | dsimp only
    | dsimp only at *

theorem State.sendSync_later {s0 : State} {s : State} {x : EngRef} {t : Task} {i : Instr} {f : Frame} (hs : Later s0 s) :
    Later s0 (State.sendSync s x t i f) := by
  unfold State.sendSync
  try dsimp only
  repeat' first
    | with_reducible assumption
    | with_reducible apply State.retire_later
    | with_reducible apply State.deliverSync_later
    | with_reducible apply State.send_later
    | with_reducible apply State.stall_later
    | with_reducible apply State.complete_later
    | split
    | dsimp only
    | dsimp only at *

theorem State.startSync_later {s0 : State} {s : State} {x : EngRef} {t : Task} {i : Instr} {f : Frame} (hs : Later s0 s) :
    Later s0 (State.startSync s x t i f) := by
  unfold State.startSync
  try dsimp only
  repeat' first
    | with_reducible assumption
    | with_reducible apply State.sendSync_later
    | with_reducible apply State.stall_later
    | with_reducible apply State.send_later
    | with_reducible apply State.complete_later
    | split
    | dsimp only
    | dsimp only at *

theorem State.resumeSync_later {s0 : State} {s : State} {x : EngRef} (hs : Later s0 s) :
    Later s0 (State.resumeSync s x) := by
  unfold State.resumeSync
  try dsimp only
  repeat' first
    | with_reducible assumption
    | with_reducible apply State.send_later
    | with_reducible apply State.sendSync_later
    | split
    | dsimp only
    | dsimp only at *

theorem State.signalInstr_later {s0 : State} {s : State} {x : EngRef} {t : Task} {i : Instr} {post : Bool} {core : Nat} {number : Nat} {amount : Nat} (hs : Later s0 s) :
    Later s0 (State.signalInstr s x t i post core number amount) := by
  unfold State.signalInstr
  try dsimp only
  repeat' first
    | with_reducible assumption
    | with_reducible apply State.decodeFault_later
    | with_reducible apply State.failTask_later
    | with_reducible apply State.startSync_later
    | split
    | dsimp only
    | with_reducible refine Post.ok ?_
    | with_reducible exact Post.error True.intro
    | dsimp only at *
    | with_reducible refine Later.of_ok (P := fun _ => True) (by assumption) ?_
    | with_reducible refine Later.of_ok2 (P := fun _ => True) (by assumption) ?_
    | with_reducible refine Later.of_ok1 (P := fun _ => True) (by assumption) ?_

theorem State.enterBody_later {s0 : State} {s : State} {x : EngRef} {t : Task} {i : Instr} {f : LoopFrame} (hs : Later s0 s) :
    Later s0 (State.enterBody s x t i f) := by
  unfold State.enterBody
  try dsimp only
  repeat' first
    | with_reducible assumption
    | with_reducible apply State.retire_later
    | split
    | dsimp only
    | dsimp only at *

end Sys2Proof.Machine
end

