-- ==== Sys2Proof/Laws/RingsLater.lean ====
section
/-! SUPPORT. Operations of Machine/Rings.lean lead to a later state (Safety.Later). -/

namespace Sys2Proof.Machine

theorem State.freeBytes_later {s0 : State} {s : State} {n : Nat} (hs : Later s0 s) :
    Later s0 (State.freeBytes s n).2 := by
  unfold State.freeBytes
  try dsimp only
  repeat' first
    | with_reducible assumption
    | with_reducible refine State.setFree_later ?_ (Nat.le_add_right _ _)
    | split
    | dsimp only
    | dsimp only at *

theorem State.commitSlot_later {s0 : State} {s : State} {core : Nat} {n : Nat} {id : Nat} {ty : Nat} {bs : List Byte} (hs : Later s0 s) :
    Later s0 (State.commitSlot s core n id ty bs) := by
  unfold State.commitSlot
  try dsimp only
  repeat' first
    | with_reducible assumption
    | with_reducible apply State.setRing_later
    | with_reducible refine State.setFree_later ?_ (Nat.le_add_right _ _)
    | split
    | dsimp only
    | dsimp only at *

theorem State.releaseSlots_later {s0 : State} {s : State} {core : Nat} {n : Nat} {id : Nat} {k : Nat} (hs : Later s0 s) :
    Later s0 (State.releaseSlots s core n id k) := by
  unfold State.releaseSlots
  try dsimp only
  repeat' first
    | with_reducible assumption
    | with_reducible apply State.setRing_later
    | split
    | dsimp only
    | dsimp only at *

theorem State.parityFail_later {s0 : State} {s : State} {x : EngRef} {n : Nat} (hs : Later s0 s) :
    Later s0 (State.parityFail s x n) := by
  unfold State.parityFail
  try dsimp only
  repeat' first
    | with_reducible assumption
    | with_reducible apply State.fail_later
    | split
    | dsimp only
    | dsimp only at *

theorem State.takeSlots_later {s0 : State} {s : State} {x : EngRef} {id : Nat} {n : Nat} {k : Nat} (hs : Later s0 s) :
    Later s0 (State.takeSlots s x id n k).2 := by
  unfold State.takeSlots
  try dsimp only
  repeat' first
    | with_reducible assumption
    | with_reducible apply State.parityFail_later
    | with_reducible apply State.releaseSlots_later
    | split
    | dsimp only
    | dsimp only at *

theorem State.takeSlot_later {s0 : State} {s : State} {x : EngRef} {id : Nat} {n : Nat} (hs : Later s0 s) :
    Later s0 (State.takeSlot s x id n).2 := by
  unfold State.takeSlot
  try dsimp only
  repeat' first
    | with_reducible assumption
    | with_reducible apply State.takeSlots_later
    | with_reducible refine Later.of_snd (by assumption) ?_
    | with_reducible refine Later.of_fst (by assumption) ?_
    | split
    | dsimp only
    | dsimp only at *

theorem State.freeAcc_later {s0 : State} {s : State} {core : Nat} {a : Nat} {key : Nat} (hs : Later s0 s) :
    Later s0 (State.freeAcc s core a key) := by
  unfold State.freeAcc
  try dsimp only
  repeat' first
    | with_reducible assumption
    | with_reducible apply State.setArray_later
    | split
    | dsimp only
    | dsimp only at *

theorem State.flushSlots_later {s0 : State} {s : State} {a2 : EngRef} {id : Nat} {a : Nat} (hs : Later s0 s) :
    Later s0 (State.flushSlots s a2 id a) := by
  induction a generalizing s a2 id with
  | zero =>
    unfold State.flushSlots
    try dsimp only
    repeat' first
      | with_reducible assumption
      | with_reducible apply ih
      | with_reducible apply State.updEng_later
      | with_reducible apply State.commitSlot_later
      | with_reducible apply State.countUnits_later
      | with_reducible apply State.freeAcc_later
      | split
      | dsimp only
      | dsimp only at *
  | succ n ih =>
    unfold State.flushSlots
    try dsimp only
    repeat' first
      | with_reducible assumption
      | with_reducible apply ih
      | with_reducible apply State.updEng_later
      | with_reducible apply State.commitSlot_later
      | with_reducible apply State.countUnits_later
      | with_reducible apply State.freeAcc_later
      | split
      | dsimp only
      | dsimp only at *

theorem State.flush_later {s0 : State} {s : State} {x : EngRef} {id : Nat} (hs : Later s0 s) :
    Later s0 (State.flush s x id) := by
  unfold State.flush
  try dsimp only
  repeat' first
    | with_reducible assumption
    | with_reducible apply State.flushSlots_later
    | split
    | dsimp only
    | dsimp only at *

theorem State.setHeld_later {s0 : State} {s : State} {x : EngRef} {n : Nat} {h : Held} (hs : Later s0 s) :
    Later s0 (State.setHeld s x n h) := by
  unfold State.setHeld
  try dsimp only
  repeat' first
    | with_reducible assumption
    | with_reducible apply State.updEng_later
    | split
    | dsimp only
    | dsimp only at *

theorem State.load_later {s0 : State} {s : State} {x : EngRef} {id : Nat} {n : Nat} {unit : Nat} {len : Nat} (hs : Later s0 s) :
    Later s0 (State.load s x id n unit len) := by
  unfold State.load
  try dsimp only
  repeat' first
    | with_reducible assumption
    | with_reducible apply State.parityFail_later
    | with_reducible apply State.releaseSlots_later
    | with_reducible apply State.setHeld_later
    | split
    | dsimp only
    | dsimp only at *

theorem State.takeBytes_later {s0 : State} {s : State} {x : EngRef} {id : Nat} {n : Nat} {unit : Nat} {len : Nat} (hs : Later s0 s) :
    Later s0 (State.takeBytes s x id n unit len).2 := by
  unfold State.takeBytes
  try dsimp only
  repeat' first
    | with_reducible assumption
    | with_reducible apply State.load_later
    | with_reducible apply State.setHeld_later
    | split
    | dsimp only
    | dsimp only at *

theorem State.endStream_later {s0 : State} {s : State} {x : EngRef} {id : Nat} {n : Nat} (hs : Later s0 s) :
    Later s0 (State.endStream s x id n) := by
  unfold State.endStream
  try dsimp only
  repeat' first
    | with_reducible assumption
    | with_reducible apply State.releaseSlots_later
    | with_reducible apply State.setHeld_later
    | split
    | dsimp only
    | dsimp only at *

theorem State.countOob_later {s0 : State} {s : State} {core : Nat} {slot : Nat} {filled : Nat} {dropped : Nat} (hs : Later s0 s) :
    Later s0 (State.countOob s core slot filled dropped) := by
  unfold State.countOob
  try dsimp only
  repeat' first
    | with_reducible assumption
    | with_reducible apply State.satRf_later
    | split
    | dsimp only
    | dsimp only at *

theorem State.stallRing_later {s0 : State} {s : State} {x : EngRef} {t : Task} {i : Instr} (hs : Later s0 s) :
    Later s0 (State.stallRing s x t i) := by
  unfold State.stallRing
  try dsimp only
  repeat' first
    | with_reducible assumption
    | with_reducible apply State.stall_later
    | with_reducible apply State.updEng_later
    | split
    | dsimp only
    | dsimp only at *

end Sys2Proof.Machine
end

