-- ==== Sys2Proof/Laws/StreamLater.lean ====
section
/-! SUPPORT. Operations of Machine/Stream.lean lead to a later state (Safety.Later). -/

namespace Sys2Proof.Machine

/-- The state of the plan that a computation answers. -/
theorem Later.of_plan {α : Type} {s : State} {p : State.Plan} {a : α} {x : State.Plan × α} (e : x = (p, a)) (h : Later s x.1.s) : Later s p.s := by
  subst e; exact h

theorem State.updMove_later {s0 : State} {s : State} {x : EngRef} {id : Nat} {f : MoveSt → MoveSt} (hs : Later s0 s) :
    Later s0 (State.updMove s x id f) := by
  unfold State.updMove
  try dsimp only
  repeat' first
    | with_reducible assumption
    | with_reducible apply State.updEng_later
    | split
    | dsimp only
    | dsimp only at *

theorem State.landBytes_later {s0 : State} {s : State} {p : Nat} {epoch : Nat} {a : Nat} {add : Nat} {bs : List Byte} {mask : List Byte} (hs : Later s0 s) :
    Later s0 (State.landBytes s p epoch a add bs mask) := by
  unfold State.landBytes
  try dsimp only
  repeat' first
    | with_reducible assumption
    | with_reducible apply State.writeBytes_later
    | split
    | dsimp only
    | dsimp only at *

theorem State.failDst_later {s0 : State} {s : State} {x : EngRef} {m : MoveSt} {code : Nat} {visit : Nat} {addr : Nat} (hs : Later s0 s) :
    Later s0 (State.failDst s x m code visit addr) := by
  unfold State.failDst
  try dsimp only
  repeat' first
    | with_reducible assumption
    | with_reducible apply State.fail_later
    | with_reducible apply State.complete_later
    | split
    | dsimp only
    | dsimp only at *

theorem State.landHere_later {s0 : State} {s : State} {x : EngRef} {t : Task} {m : MoveSt} {v : Xact} (hs : Later s0 s) :
    Later s0 (State.landHere s x t m v) := by
  unfold State.landHere
  try dsimp only
  repeat' first
    | with_reducible assumption
    | with_reducible apply State.failDst_later
    | with_reducible apply State.landBytes_later
    | with_reducible apply State.countUnits_later
    | with_reducible apply State.incr_later
    | split
    | dsimp only
    | dsimp only at *

theorem State.issueXact_later {s0 : State} {s : State} {x : EngRef} {t : Task} {m : MoveSt} {v : Xact} (hs : Later s0 s) :
    Later s0 (State.issueXact s x t m v) := by
  unfold State.issueXact
  try dsimp only
  repeat' first
    | with_reducible assumption
    | with_reducible apply State.updMove_later
    | with_reducible apply State.landHere_later
    | with_reducible apply State.send_later
    | with_reducible apply State.countUnits_later
    | with_reducible apply State.failDst_later
    | split
    | dsimp only
    | dsimp only at *

theorem State.issueSlot_later {s0 : State} {s : State} {x : EngRef} (hs : Later s0 s) :
    Later s0 (State.issueSlot s x) := by
  unfold State.issueSlot
  try dsimp only
  repeat' first
    | with_reducible assumption
    | with_reducible apply State.issueXact_later
    | with_reducible refine Later.foldl ?_ fun _ _ _ => ?_
    | with_reducible refine Later.foldl_with (fun p : _ × State => p.2) ?_ fun _ _ _ => ?_
    | with_reducible refine Later.foldl_with (fun p : State × _ => p.1) ?_ fun _ _ _ => ?_
    | split
    | dsimp only
    | dsimp only at *

theorem State.issueXacts_later {s0 : State} {s : State} {core : Nat} {eng : Nat} (hs : Later s0 s) :
    Later s0 (State.issueXacts s core eng) := by
  unfold State.issueXacts
  try dsimp only
  repeat' first
    | with_reducible assumption
    | with_reducible refine State.forAll_later ?_ fun _ _ _ => ?_
    | with_reducible apply State.issueSlot_later
    | split
    | dsimp only
    | dsimp only at *

theorem State.Plan.piece_later {s0 : State} {p : State.Plan} {x : EngRef} {e : MoveEnv} {d : Desc} {handle : Nat} {va : Int} {pk : Nat} {gl : Bool} {n : Nat} {visit : Nat} (hs : Later s0 p.s) :
    Later s0 (State.Plan.piece p x e d handle va pk gl n visit).1.s := by
  unfold State.Plan.piece
  try dsimp only
  repeat' first
    | with_reducible assumption
    | with_reducible apply State.fail_later
    | with_reducible apply State.fresh_later
    | with_reducible refine Later.of_snd (by assumption) ?_
    | with_reducible refine Later.of_fst (by assumption) ?_
    | split
    | dsimp only
    | with_reducible refine Post.ok ?_
    | with_reducible exact Post.error True.intro
    | dsimp only at *
    | with_reducible refine Later.of_ok (P := fun _ => True) (by assumption) ?_
    | with_reducible refine Later.of_ok2 (P := fun _ => True) (by assumption) ?_
    | with_reducible refine Later.of_ok1 (P := fun _ => True) (by assumption) ?_

theorem State.Plan.read_later {s0 : State} {a1 : EngRef} {e : MoveEnv} {d : Desc} {handle : Nat} {pk : Nat} {gl : Bool} {visit : Nat} {a : Nat} {a9 : State.Plan} {a10 : Int} {a11 : Nat} (hs : Later s0 a9.s) :
    Later s0 (State.Plan.read a1 e d handle pk gl visit a a9 a10 a11).1.s := by
  induction a generalizing a1 e d handle pk gl visit a9 a10 a11 with
  | zero =>
    unfold State.Plan.read
    try dsimp only
    repeat' first
      | with_reducible assumption
      | with_reducible apply ih
      | with_reducible refine Later.of_plan (by assumption) (ih ?_)
      | with_reducible apply State.Plan.piece_later
      | with_reducible refine Later.of_plan (by assumption) (State.Plan.piece_later ?_)
      | split
      | dsimp only
      | dsimp only at *
  | succ n ih =>
    unfold State.Plan.read
    try dsimp only
    repeat' first
      | with_reducible assumption
      | with_reducible apply ih
      | with_reducible refine Later.of_plan (by assumption) (ih ?_)
      | with_reducible apply State.Plan.piece_later
      | with_reducible refine Later.of_plan (by assumption) (State.Plan.piece_later ?_)
      | split
      | dsimp only
      | dsimp only at *

theorem State.Plan.indexAt_later {s0 : State} {p : State.Plan} {x : EngRef} {e : MoveEnv} {t : Nat} (hs : Later s0 p.s) :
    Later s0 (State.Plan.indexAt p x e t).1.s := by
  unfold State.Plan.indexAt
  try dsimp only
  repeat' first
    | with_reducible assumption
    | with_reducible apply State.fail_later
    | with_reducible apply State.meet_later
    | with_reducible apply State.countOob_later
    | with_reducible apply State.Plan.piece_later
    | with_reducible refine Later.of_plan (by assumption) (State.Plan.piece_later ?_)
    | with_reducible apply State.Plan.read_later
    | with_reducible refine Later.of_plan (by assumption) (State.Plan.read_later ?_)
    | split
    | dsimp only
    | with_reducible refine Post.ok ?_
    | with_reducible exact Post.error True.intro
    | dsimp only at *
    | with_reducible refine Later.of_ok (P := fun _ => True) (by assumption) ?_
    | with_reducible refine Later.of_ok2 (P := fun _ => True) (by assumption) ?_
    | with_reducible refine Later.of_ok1 (P := fun _ => True) (by assumption) ?_

theorem State.Plan.entry_later {s0 : State} {p : State.Plan} {x : EngRef} {e : MoveEnv} (hs : Later s0 p.s) :
    Later s0 (State.Plan.entry p x e).s := by
  unfold State.Plan.entry
  try dsimp only
  repeat' first
    | with_reducible assumption
    | with_reducible apply State.addRf_later
    | with_reducible apply State.Plan.piece_later
    | with_reducible refine Later.of_plan (by assumption) (State.Plan.piece_later ?_)
    | with_reducible apply State.Plan.read_later
    | with_reducible refine Later.of_plan (by assumption) (State.Plan.read_later ?_)
    | with_reducible apply State.Plan.indexAt_later
    | with_reducible refine Later.of_plan (by assumption) (State.Plan.indexAt_later ?_)
    | split
    | dsimp only
    | dsimp only at *

theorem State.Plan.each_later {α : Type} {s0 : State} {f : Plan → Nat → Plan × α} {n i : Nat} {p : Plan} (hs : Later s0 p.s)
    (k : ∀ p n, Later s0 p.s → Later s0 (f p n).1.s) : Later s0 (Plan.each f n i p).1.s := by
  induction n generalizing i p with
  | zero => exact hs
  | succ n ih => exact ih (k p i hs)

theorem State.Plan.cells_later {α : Type} {s0 : State} {f : Plan → Nat → Plan × α} {p : Plan} (hs : Later s0 p.s)
    (k : ∀ p n, Later s0 p.s → Later s0 (f p n).1.s) : Later s0 (p.cells f).1.s := by
  unfold Plan.cells
  with_reducible exact State.Plan.each_later hs k

theorem State.Plan.element_later {s0 : State} {p : State.Plan} {x : EngRef} {e : MoveEnv} {d : Desc} {c : List Int} {visit : Nat} (hs : Later s0 p.s) :
    Later s0 (State.Plan.element p x e d c visit).1.s := by
  unfold State.Plan.element
  try dsimp only
  repeat' first
    | with_reducible assumption
    | with_reducible apply State.countOob_later
    | with_reducible apply State.fail_later
    | with_reducible apply State.Plan.piece_later
    | with_reducible refine Later.of_plan (by assumption) (State.Plan.piece_later ?_)
    | with_reducible apply State.Plan.read_later
    | with_reducible refine Later.of_plan (by assumption) (State.Plan.read_later ?_)
    | with_reducible apply State.Plan.indexAt_later
    | with_reducible refine Later.of_plan (by assumption) (State.Plan.indexAt_later ?_)
    | with_reducible apply State.Plan.entry_later
    | with_reducible apply State.Plan.each_later
    | with_reducible refine Later.of_plan (by assumption) (State.Plan.each_later ?_)
    | with_reducible refine State.Plan.cells_later ?_ fun _ _ _ => ?_
    | with_reducible refine Later.of_plan (by assumption) (State.Plan.cells_later ?_ fun _ _ _ => ?_)
    | split
    | dsimp only
    | with_reducible refine Post.ok ?_
    | with_reducible exact Post.error True.intro
    | dsimp only at *
    | with_reducible refine Later.of_ok (P := fun _ => True) (by assumption) ?_
    | with_reducible refine Later.of_ok2 (P := fun _ => True) (by assumption) ?_
    | with_reducible refine Later.of_ok1 (P := fun _ => True) (by assumption) ?_

theorem State.Plan.elements_later {s0 : State} {p : State.Plan} {x : EngRef} {e : MoveEnv} {d : Desc} {c : List Int} {visit : Nat} {whole : Bool} (hs : Later s0 p.s) :
    Later s0 (State.Plan.elements p x e d c visit whole).1.s := by
  unfold State.Plan.elements
  try dsimp only
  repeat' first
    | with_reducible assumption
    | with_reducible apply State.Plan.piece_later
    | with_reducible refine Later.of_plan (by assumption) (State.Plan.piece_later ?_)
    | with_reducible apply State.Plan.read_later
    | with_reducible refine Later.of_plan (by assumption) (State.Plan.read_later ?_)
    | with_reducible apply State.Plan.indexAt_later
    | with_reducible refine Later.of_plan (by assumption) (State.Plan.indexAt_later ?_)
    | with_reducible apply State.Plan.entry_later
    | with_reducible apply State.Plan.each_later
    | with_reducible refine Later.of_plan (by assumption) (State.Plan.each_later ?_)
    | with_reducible refine State.Plan.cells_later ?_ fun _ _ _ => ?_
    | with_reducible refine Later.of_plan (by assumption) (State.Plan.cells_later ?_ fun _ _ _ => ?_)
    | with_reducible apply State.Plan.element_later
    | with_reducible refine Later.of_plan (by assumption) (State.Plan.element_later ?_)
    | split
    | dsimp only
    | dsimp only at *

theorem State.Plan.source_later {s0 : State} {p : State.Plan} {x : EngRef} {e : MoveEnv} {d : Desc} {visit : Nat} {whole : Bool} (hs : Later s0 p.s) :
    Later s0 (State.Plan.source p x e d visit whole).1.s := by
  unfold State.Plan.source
  try dsimp only
  repeat' first
    | with_reducible assumption
    | with_reducible apply State.countOob_later
    | with_reducible apply State.Plan.piece_later
    | with_reducible refine Later.of_plan (by assumption) (State.Plan.piece_later ?_)
    | with_reducible apply State.Plan.read_later
    | with_reducible refine Later.of_plan (by assumption) (State.Plan.read_later ?_)
    | with_reducible apply State.Plan.indexAt_later
    | with_reducible refine Later.of_plan (by assumption) (State.Plan.indexAt_later ?_)
    | with_reducible apply State.Plan.entry_later
    | with_reducible apply State.Plan.each_later
    | with_reducible refine Later.of_plan (by assumption) (State.Plan.each_later ?_)
    | with_reducible refine State.Plan.cells_later ?_ fun _ _ _ => ?_
    | with_reducible refine Later.of_plan (by assumption) (State.Plan.cells_later ?_ fun _ _ _ => ?_)
    | with_reducible apply State.Plan.element_later
    | with_reducible refine Later.of_plan (by assumption) (State.Plan.element_later ?_)
    | with_reducible apply State.Plan.elements_later
    | with_reducible refine Later.of_plan (by assumption) (State.Plan.elements_later ?_)
    | split
    | dsimp only
    | dsimp only at *

theorem State.Plan.tile_later {s0 : State} {p : State.Plan} {x : EngRef} {e : MoveEnv} {d : Desc} {visit : Nat} (hs : Later s0 p.s) :
    Later s0 (State.Plan.tile p x e d visit).1.s := by
  unfold State.Plan.tile
  try dsimp only
  repeat' first
    | with_reducible assumption
    | with_reducible apply State.fail_later
    | with_reducible apply State.countOob_later
    | with_reducible apply State.meetRead_later
    | with_reducible apply State.Plan.piece_later
    | with_reducible refine Later.of_plan (by assumption) (State.Plan.piece_later ?_)
    | with_reducible apply State.Plan.read_later
    | with_reducible refine Later.of_plan (by assumption) (State.Plan.read_later ?_)
    | with_reducible apply State.Plan.indexAt_later
    | with_reducible refine Later.of_plan (by assumption) (State.Plan.indexAt_later ?_)
    | with_reducible apply State.Plan.entry_later
    | with_reducible apply State.Plan.each_later
    | with_reducible refine Later.of_plan (by assumption) (State.Plan.each_later ?_)
    | with_reducible refine State.Plan.cells_later ?_ fun _ _ _ => ?_
    | with_reducible refine Later.of_plan (by assumption) (State.Plan.cells_later ?_ fun _ _ _ => ?_)
    | with_reducible apply State.Plan.element_later
    | with_reducible refine Later.of_plan (by assumption) (State.Plan.element_later ?_)
    | with_reducible apply State.Plan.elements_later
    | with_reducible refine Later.of_plan (by assumption) (State.Plan.elements_later ?_)
    | with_reducible apply State.Plan.source_later
    | with_reducible refine Later.of_plan (by assumption) (State.Plan.source_later ?_)
    | split
    | dsimp only
    | with_reducible refine Post.ok ?_
    | with_reducible exact Post.error True.intro
    | dsimp only at *
    | with_reducible refine Later.of_ok (P := fun _ => True) (by assumption) ?_
    | with_reducible refine Later.of_ok2 (P := fun _ => True) (by assumption) ?_
    | with_reducible refine Later.of_ok1 (P := fun _ => True) (by assumption) ?_

theorem State.Plan.dest_later {s0 : State} {p : State.Plan} {x : EngRef} {e : MoveEnv} {d : Desc} {c : List Int} {visit : Nat} (hs : Later s0 p.s) :
    Later s0 (State.Plan.dest p x e d c visit).1.s := by
  unfold State.Plan.dest
  try dsimp only
  repeat' first
    | with_reducible assumption
    | with_reducible apply State.countOob_later
    | with_reducible apply State.fail_later
    | with_reducible apply State.Plan.piece_later
    | with_reducible refine Later.of_plan (by assumption) (State.Plan.piece_later ?_)
    | with_reducible apply State.Plan.read_later
    | with_reducible refine Later.of_plan (by assumption) (State.Plan.read_later ?_)
    | with_reducible apply State.Plan.indexAt_later
    | with_reducible refine Later.of_plan (by assumption) (State.Plan.indexAt_later ?_)
    | with_reducible apply State.Plan.entry_later
    | with_reducible apply State.Plan.each_later
    | with_reducible refine Later.of_plan (by assumption) (State.Plan.each_later ?_)
    | with_reducible refine State.Plan.cells_later ?_ fun _ _ _ => ?_
    | with_reducible refine Later.of_plan (by assumption) (State.Plan.cells_later ?_ fun _ _ _ => ?_)
    | with_reducible apply State.Plan.element_later
    | with_reducible refine Later.of_plan (by assumption) (State.Plan.element_later ?_)
    | with_reducible apply State.Plan.elements_later
    | with_reducible refine Later.of_plan (by assumption) (State.Plan.elements_later ?_)
    | with_reducible apply State.Plan.source_later
    | with_reducible refine Later.of_plan (by assumption) (State.Plan.source_later ?_)
    | with_reducible apply State.Plan.tile_later
    | with_reducible refine Later.of_plan (by assumption) (State.Plan.tile_later ?_)
    | split
    | dsimp only
    | with_reducible refine Post.ok ?_
    | with_reducible exact Post.error True.intro
    | dsimp only at *
    | with_reducible refine Later.of_ok (P := fun _ => True) (by assumption) ?_
    | with_reducible refine Later.of_ok2 (P := fun _ => True) (by assumption) ?_
    | with_reducible refine Later.of_ok1 (P := fun _ => True) (by assumption) ?_

theorem State.Plan.tileDest_later {s0 : State} {p : State.Plan} {x : EngRef} {e : MoveEnv} {d : Desc} {visit : Nat} (hs : Later s0 p.s) :
    Later s0 (State.Plan.tileDest p x e d visit).1.s := by
  unfold State.Plan.tileDest
  try dsimp only
  repeat' first
    | with_reducible assumption
    | with_reducible apply State.countOob_later
    | with_reducible apply State.fail_later
    | with_reducible apply State.meetRead_later
    | with_reducible apply State.Plan.piece_later
    | with_reducible refine Later.of_plan (by assumption) (State.Plan.piece_later ?_)
    | with_reducible apply State.Plan.read_later
    | with_reducible refine Later.of_plan (by assumption) (State.Plan.read_later ?_)
    | with_reducible apply State.Plan.indexAt_later
    | with_reducible refine Later.of_plan (by assumption) (State.Plan.indexAt_later ?_)
    | with_reducible apply State.Plan.entry_later
    | with_reducible apply State.Plan.each_later
    | with_reducible refine Later.of_plan (by assumption) (State.Plan.each_later ?_)
    | with_reducible refine State.Plan.cells_later ?_ fun _ _ _ => ?_
    | with_reducible refine Later.of_plan (by assumption) (State.Plan.cells_later ?_ fun _ _ _ => ?_)
    | with_reducible apply State.Plan.element_later
    | with_reducible refine Later.of_plan (by assumption) (State.Plan.element_later ?_)
    | with_reducible apply State.Plan.elements_later
    | with_reducible refine Later.of_plan (by assumption) (State.Plan.elements_later ?_)
    | with_reducible apply State.Plan.source_later
    | with_reducible refine Later.of_plan (by assumption) (State.Plan.source_later ?_)
    | with_reducible apply State.Plan.tile_later
    | with_reducible refine Later.of_plan (by assumption) (State.Plan.tile_later ?_)
    | with_reducible apply State.Plan.dest_later
    | with_reducible refine Later.of_plan (by assumption) (State.Plan.dest_later ?_)
    | split
    | dsimp only
    | with_reducible refine Post.ok ?_
    | with_reducible exact Post.error True.intro
    | dsimp only at *
    | with_reducible refine Later.of_ok (P := fun _ => True) (by assumption) ?_
    | with_reducible refine Later.of_ok2 (P := fun _ => True) (by assumption) ?_
    | with_reducible refine Later.of_ok1 (P := fun _ => True) (by assumption) ?_

theorem State.planThen_later {α β : Type} {s0 : State} {r : State.Plan × α} {f : State.Plan → α → State.Plan × β} (h : Later s0 r.1.s)
    (k : ∀ p a, Later s0 p.s → Later s0 (f p a).1.s) : Later s0 (State.planThen r f).1.s := k _ _ h

theorem State.Plan.disagree_later {s0 : State} {p : State.Plan} {e : MoveEnv} {visit : Nat} (hs : Later s0 p.s) :
    Later s0 (State.Plan.disagree p e visit).s := by
  unfold State.Plan.disagree
  try dsimp only
  repeat' first
    | with_reducible assumption
    | with_reducible apply State.fail_later
    | with_reducible apply State.Plan.piece_later
    | with_reducible refine Later.of_plan (by assumption) (State.Plan.piece_later ?_)
    | with_reducible apply State.Plan.read_later
    | with_reducible refine Later.of_plan (by assumption) (State.Plan.read_later ?_)
    | with_reducible apply State.Plan.indexAt_later
    | with_reducible refine Later.of_plan (by assumption) (State.Plan.indexAt_later ?_)
    | with_reducible apply State.Plan.entry_later
    | with_reducible apply State.Plan.each_later
    | with_reducible refine Later.of_plan (by assumption) (State.Plan.each_later ?_)
    | with_reducible refine State.Plan.cells_later ?_ fun _ _ _ => ?_
    | with_reducible refine Later.of_plan (by assumption) (State.Plan.cells_later ?_ fun _ _ _ => ?_)
    | with_reducible apply State.Plan.element_later
    | with_reducible refine Later.of_plan (by assumption) (State.Plan.element_later ?_)
    | with_reducible apply State.Plan.elements_later
    | with_reducible refine Later.of_plan (by assumption) (State.Plan.elements_later ?_)
    | with_reducible apply State.Plan.source_later
    | with_reducible refine Later.of_plan (by assumption) (State.Plan.source_later ?_)
    | with_reducible apply State.Plan.tile_later
    | with_reducible refine Later.of_plan (by assumption) (State.Plan.tile_later ?_)
    | with_reducible apply State.Plan.dest_later
    | with_reducible refine Later.of_plan (by assumption) (State.Plan.dest_later ?_)
    | with_reducible apply State.Plan.tileDest_later
    | with_reducible refine Later.of_plan (by assumption) (State.Plan.tileDest_later ?_)
    | split
    | dsimp only
    | dsimp only at *

theorem State.Plan.toTile_later {s0 : State} {p : State.Plan} {x : EngRef} {e : MoveEnv} {d : Desc} {visit : Nat} {em : Bool} {agree : Bool} {ps : List Piece} (hs : Later s0 p.s) :
    Later s0 (State.Plan.toTile p x e d visit em agree ps).1.s := by
  unfold State.Plan.toTile
  try dsimp only
  repeat' first
    | with_reducible assumption
    | with_reducible refine State.planThen_later ?_ fun _ _ _ => ?_
    | with_reducible apply State.Plan.piece_later
    | with_reducible refine Later.of_plan (by assumption) (State.Plan.piece_later ?_)
    | with_reducible apply State.Plan.read_later
    | with_reducible refine Later.of_plan (by assumption) (State.Plan.read_later ?_)
    | with_reducible apply State.Plan.indexAt_later
    | with_reducible refine Later.of_plan (by assumption) (State.Plan.indexAt_later ?_)
    | with_reducible apply State.Plan.entry_later
    | with_reducible apply State.Plan.each_later
    | with_reducible refine Later.of_plan (by assumption) (State.Plan.each_later ?_)
    | with_reducible refine State.Plan.cells_later ?_ fun _ _ _ => ?_
    | with_reducible refine Later.of_plan (by assumption) (State.Plan.cells_later ?_ fun _ _ _ => ?_)
    | with_reducible apply State.Plan.element_later
    | with_reducible refine Later.of_plan (by assumption) (State.Plan.element_later ?_)
    | with_reducible apply State.Plan.elements_later
    | with_reducible refine Later.of_plan (by assumption) (State.Plan.elements_later ?_)
    | with_reducible apply State.Plan.source_later
    | with_reducible refine Later.of_plan (by assumption) (State.Plan.source_later ?_)
    | with_reducible apply State.Plan.tile_later
    | with_reducible refine Later.of_plan (by assumption) (State.Plan.tile_later ?_)
    | with_reducible apply State.Plan.dest_later
    | with_reducible refine Later.of_plan (by assumption) (State.Plan.dest_later ?_)
    | with_reducible apply State.Plan.tileDest_later
    | with_reducible refine Later.of_plan (by assumption) (State.Plan.tileDest_later ?_)
    | with_reducible apply State.Plan.disagree_later
    | split
    | dsimp only
    | dsimp only at *

theorem State.Plan.toElements_later {s0 : State} {p : State.Plan} {x : EngRef} {e : MoveEnv} {d : Desc} {visit : Nat} {em : Bool} {ps : List Piece} (hs : Later s0 p.s) :
    Later s0 (State.Plan.toElements p x e d visit em ps).1.s := by
  unfold State.Plan.toElements
  try dsimp only
  repeat' first
    | with_reducible assumption
    | with_reducible refine State.planThen_later ?_ fun _ _ _ => ?_
    | with_reducible apply State.Plan.piece_later
    | with_reducible refine Later.of_plan (by assumption) (State.Plan.piece_later ?_)
    | with_reducible apply State.Plan.read_later
    | with_reducible refine Later.of_plan (by assumption) (State.Plan.read_later ?_)
    | with_reducible apply State.Plan.indexAt_later
    | with_reducible refine Later.of_plan (by assumption) (State.Plan.indexAt_later ?_)
    | with_reducible apply State.Plan.entry_later
    | with_reducible apply State.Plan.each_later
    | with_reducible refine Later.of_plan (by assumption) (State.Plan.each_later ?_)
    | with_reducible refine State.Plan.cells_later ?_ fun _ _ _ => ?_
    | with_reducible refine Later.of_plan (by assumption) (State.Plan.cells_later ?_ fun _ _ _ => ?_)
    | with_reducible apply State.Plan.element_later
    | with_reducible refine Later.of_plan (by assumption) (State.Plan.element_later ?_)
    | with_reducible apply State.Plan.elements_later
    | with_reducible refine Later.of_plan (by assumption) (State.Plan.elements_later ?_)
    | with_reducible apply State.Plan.source_later
    | with_reducible refine Later.of_plan (by assumption) (State.Plan.source_later ?_)
    | with_reducible apply State.Plan.tile_later
    | with_reducible refine Later.of_plan (by assumption) (State.Plan.tile_later ?_)
    | with_reducible apply State.Plan.dest_later
    | with_reducible refine Later.of_plan (by assumption) (State.Plan.dest_later ?_)
    | with_reducible apply State.Plan.tileDest_later
    | with_reducible refine Later.of_plan (by assumption) (State.Plan.tileDest_later ?_)
    | with_reducible apply State.Plan.disagree_later
    | with_reducible apply State.Plan.toTile_later
    | with_reducible refine Later.of_plan (by assumption) (State.Plan.toTile_later ?_)
    | split
    | dsimp only
    | dsimp only at *

theorem State.Plan.memVisit_later {s0 : State} {p : State.Plan} {x : EngRef} {e : MoveEnv} {sd : Desc} {visit : Nat} (hs : Later s0 p.s) :
    Later s0 (State.Plan.memVisit p x e sd visit).1.s := by
  unfold State.Plan.memVisit
  try dsimp only
  repeat' first
    | with_reducible assumption
    | with_reducible refine State.planThen_later ?_ fun _ _ _ => ?_
    | with_reducible apply State.Plan.piece_later
    | with_reducible refine Later.of_plan (by assumption) (State.Plan.piece_later ?_)
    | with_reducible apply State.Plan.read_later
    | with_reducible refine Later.of_plan (by assumption) (State.Plan.read_later ?_)
    | with_reducible apply State.Plan.indexAt_later
    | with_reducible refine Later.of_plan (by assumption) (State.Plan.indexAt_later ?_)
    | with_reducible apply State.Plan.entry_later
    | with_reducible apply State.Plan.each_later
    | with_reducible refine Later.of_plan (by assumption) (State.Plan.each_later ?_)
    | with_reducible refine State.Plan.cells_later ?_ fun _ _ _ => ?_
    | with_reducible refine Later.of_plan (by assumption) (State.Plan.cells_later ?_ fun _ _ _ => ?_)
    | with_reducible apply State.Plan.element_later
    | with_reducible refine Later.of_plan (by assumption) (State.Plan.element_later ?_)
    | with_reducible apply State.Plan.elements_later
    | with_reducible refine Later.of_plan (by assumption) (State.Plan.elements_later ?_)
    | with_reducible apply State.Plan.source_later
    | with_reducible refine Later.of_plan (by assumption) (State.Plan.source_later ?_)
    | with_reducible apply State.Plan.tile_later
    | with_reducible refine Later.of_plan (by assumption) (State.Plan.tile_later ?_)
    | with_reducible apply State.Plan.dest_later
    | with_reducible refine Later.of_plan (by assumption) (State.Plan.dest_later ?_)
    | with_reducible apply State.Plan.tileDest_later
    | with_reducible refine Later.of_plan (by assumption) (State.Plan.tileDest_later ?_)
    | with_reducible apply State.Plan.disagree_later
    | with_reducible apply State.Plan.toTile_later
    | with_reducible refine Later.of_plan (by assumption) (State.Plan.toTile_later ?_)
    | with_reducible apply State.Plan.toElements_later
    | with_reducible refine Later.of_plan (by assumption) (State.Plan.toElements_later ?_)
    | split
    | dsimp only
    | dsimp only at *

theorem State.Plan.ringElement_later {s0 : State} {p : State.Plan} {x : EngRef} {e : MoveEnv} {v : Nat} {visit : Nat} (hs : Later s0 p.s) :
    Later s0 (State.Plan.ringElement p x e v visit).1.s := by
  unfold State.Plan.ringElement
  try dsimp only
  repeat' first
    | with_reducible assumption
    | with_reducible refine State.planThen_later ?_ fun _ _ _ => ?_
    | with_reducible apply State.Plan.piece_later
    | with_reducible refine Later.of_plan (by assumption) (State.Plan.piece_later ?_)
    | with_reducible apply State.Plan.read_later
    | with_reducible refine Later.of_plan (by assumption) (State.Plan.read_later ?_)
    | with_reducible apply State.Plan.indexAt_later
    | with_reducible refine Later.of_plan (by assumption) (State.Plan.indexAt_later ?_)
    | with_reducible apply State.Plan.entry_later
    | with_reducible apply State.Plan.each_later
    | with_reducible refine Later.of_plan (by assumption) (State.Plan.each_later ?_)
    | with_reducible refine State.Plan.cells_later ?_ fun _ _ _ => ?_
    | with_reducible refine Later.of_plan (by assumption) (State.Plan.cells_later ?_ fun _ _ _ => ?_)
    | with_reducible apply State.Plan.element_later
    | with_reducible refine Later.of_plan (by assumption) (State.Plan.element_later ?_)
    | with_reducible apply State.Plan.elements_later
    | with_reducible refine Later.of_plan (by assumption) (State.Plan.elements_later ?_)
    | with_reducible apply State.Plan.source_later
    | with_reducible refine Later.of_plan (by assumption) (State.Plan.source_later ?_)
    | with_reducible apply State.Plan.tile_later
    | with_reducible refine Later.of_plan (by assumption) (State.Plan.tile_later ?_)
    | with_reducible apply State.Plan.dest_later
    | with_reducible refine Later.of_plan (by assumption) (State.Plan.dest_later ?_)
    | with_reducible apply State.Plan.tileDest_later
    | with_reducible refine Later.of_plan (by assumption) (State.Plan.tileDest_later ?_)
    | with_reducible apply State.Plan.disagree_later
    | with_reducible apply State.Plan.toTile_later
    | with_reducible refine Later.of_plan (by assumption) (State.Plan.toTile_later ?_)
    | with_reducible apply State.Plan.toElements_later
    | with_reducible refine Later.of_plan (by assumption) (State.Plan.toElements_later ?_)
    | with_reducible apply State.Plan.memVisit_later
    | with_reducible refine Later.of_plan (by assumption) (State.Plan.memVisit_later ?_)
    | split
    | dsimp only
    | dsimp only at *

theorem State.Plan.ringTile_later {s0 : State} {p : State.Plan} {x : EngRef} {e : MoveEnv} {bs : List Byte} {visit : Nat} (hs : Later s0 p.s) :
    Later s0 (State.Plan.ringTile p x e bs visit).1.s := by
  unfold State.Plan.ringTile
  try dsimp only
  repeat' first
    | with_reducible assumption
    | with_reducible apply State.fail_later
    | with_reducible apply State.Plan.piece_later
    | with_reducible refine Later.of_plan (by assumption) (State.Plan.piece_later ?_)
    | with_reducible apply State.Plan.read_later
    | with_reducible refine Later.of_plan (by assumption) (State.Plan.read_later ?_)
    | with_reducible apply State.Plan.indexAt_later
    | with_reducible refine Later.of_plan (by assumption) (State.Plan.indexAt_later ?_)
    | with_reducible apply State.Plan.entry_later
    | with_reducible apply State.Plan.each_later
    | with_reducible refine Later.of_plan (by assumption) (State.Plan.each_later ?_)
    | with_reducible refine State.Plan.cells_later ?_ fun _ _ _ => ?_
    | with_reducible refine Later.of_plan (by assumption) (State.Plan.cells_later ?_ fun _ _ _ => ?_)
    | with_reducible apply State.Plan.element_later
    | with_reducible refine Later.of_plan (by assumption) (State.Plan.element_later ?_)
    | with_reducible apply State.Plan.elements_later
    | with_reducible refine Later.of_plan (by assumption) (State.Plan.elements_later ?_)
    | with_reducible apply State.Plan.source_later
    | with_reducible refine Later.of_plan (by assumption) (State.Plan.source_later ?_)
    | with_reducible apply State.Plan.tile_later
    | with_reducible refine Later.of_plan (by assumption) (State.Plan.tile_later ?_)
    | with_reducible apply State.Plan.dest_later
    | with_reducible refine Later.of_plan (by assumption) (State.Plan.dest_later ?_)
    | with_reducible apply State.Plan.tileDest_later
    | with_reducible refine Later.of_plan (by assumption) (State.Plan.tileDest_later ?_)
    | with_reducible apply State.Plan.disagree_later
    | with_reducible apply State.Plan.toTile_later
    | with_reducible refine Later.of_plan (by assumption) (State.Plan.toTile_later ?_)
    | with_reducible apply State.Plan.toElements_later
    | with_reducible refine Later.of_plan (by assumption) (State.Plan.toElements_later ?_)
    | with_reducible apply State.Plan.memVisit_later
    | with_reducible refine Later.of_plan (by assumption) (State.Plan.memVisit_later ?_)
    | with_reducible apply State.Plan.ringElement_later
    | with_reducible refine Later.of_plan (by assumption) (State.Plan.ringElement_later ?_)
    | split
    | dsimp only
    | dsimp only at *

theorem State.Plan.visit_later {s0 : State} {p : Plan} {x : EngRef} {e : MoveEnv} {f : Plan → Nat → Plan × List MoveUnit} (hs : Later s0 p.s)
    (k : ∀ p n, Later s0 p.s → Later s0 (f p n).1.s) : Later s0 (p.visit x e f).s := by
  unfold Plan.visit
  split
  · exact hs
  · dsimp only
    have h0 := State.Plan.entry_later (x := x) (e := e) hs
    split
    · exact h0
    · have h := k _ (p.entry x e).m.next h0
      revert h
      generalize f (p.entry x e) (p.entry x e).m.next = r
      obtain ⟨q, us⟩ := r
      intro h
      dsimp only
      repeat' first | exact h | split

theorem State.closeTx_later {s0 : State} {s : State} {x : EngRef} {t : Task} {id : Nat} {final : optParam Bool Bool.false} (hs : Later s0 s) :
    Later s0 (State.closeTx s x t id final) := by
  unfold State.closeTx
  try dsimp only
  repeat' first
    | with_reducible assumption
    | with_reducible apply State.updMove_later
    | with_reducible apply State.landHere_later
    | with_reducible apply State.Plan.piece_later
    | with_reducible refine Later.of_plan (by assumption) (State.Plan.piece_later ?_)
    | with_reducible apply State.Plan.read_later
    | with_reducible refine Later.of_plan (by assumption) (State.Plan.read_later ?_)
    | with_reducible apply State.Plan.indexAt_later
    | with_reducible refine Later.of_plan (by assumption) (State.Plan.indexAt_later ?_)
    | with_reducible apply State.Plan.entry_later
    | with_reducible apply State.Plan.each_later
    | with_reducible refine Later.of_plan (by assumption) (State.Plan.each_later ?_)
    | with_reducible refine State.Plan.cells_later ?_ fun _ _ _ => ?_
    | with_reducible refine Later.of_plan (by assumption) (State.Plan.cells_later ?_ fun _ _ _ => ?_)
    | with_reducible apply State.Plan.element_later
    | with_reducible refine Later.of_plan (by assumption) (State.Plan.element_later ?_)
    | with_reducible apply State.Plan.elements_later
    | with_reducible refine Later.of_plan (by assumption) (State.Plan.elements_later ?_)
    | with_reducible apply State.Plan.source_later
    | with_reducible refine Later.of_plan (by assumption) (State.Plan.source_later ?_)
    | with_reducible apply State.Plan.tile_later
    | with_reducible refine Later.of_plan (by assumption) (State.Plan.tile_later ?_)
    | with_reducible apply State.Plan.dest_later
    | with_reducible refine Later.of_plan (by assumption) (State.Plan.dest_later ?_)
    | with_reducible apply State.Plan.tileDest_later
    | with_reducible refine Later.of_plan (by assumption) (State.Plan.tileDest_later ?_)
    | with_reducible apply State.Plan.disagree_later
    | with_reducible apply State.Plan.toTile_later
    | with_reducible refine Later.of_plan (by assumption) (State.Plan.toTile_later ?_)
    | with_reducible apply State.Plan.toElements_later
    | with_reducible refine Later.of_plan (by assumption) (State.Plan.toElements_later ?_)
    | with_reducible apply State.Plan.memVisit_later
    | with_reducible refine Later.of_plan (by assumption) (State.Plan.memVisit_later ?_)
    | with_reducible apply State.Plan.ringElement_later
    | with_reducible refine Later.of_plan (by assumption) (State.Plan.ringElement_later ?_)
    | with_reducible apply State.Plan.ringTile_later
    | with_reducible refine Later.of_plan (by assumption) (State.Plan.ringTile_later ?_)
    | with_reducible refine State.Plan.visit_later ?_ fun _ _ _ => ?_
    | split
    | dsimp only
    | dsimp only at *

theorem State.putChunk_later {s0 : State} {s : State} {x : EngRef} {t : Task} {ws : List Window} {id : Nat} {va : Int} {pk : Nat} {gl : Bool} {visit : Nat} {first : Nat} {last : Nat} {bs : List Byte} {mask : List Byte} (hs : Later s0 s) :
    Later s0 (State.putChunk s x t ws id va pk gl visit first last bs mask) := by
  unfold State.putChunk
  try dsimp only
  repeat' first
    | with_reducible assumption
    | with_reducible apply State.updMove_later
    | with_reducible apply State.closeTx_later
    | with_reducible apply State.fail_later
    | with_reducible apply State.failDst_later
    | with_reducible apply State.Plan.piece_later
    | with_reducible refine Later.of_plan (by assumption) (State.Plan.piece_later ?_)
    | with_reducible apply State.Plan.read_later
    | with_reducible refine Later.of_plan (by assumption) (State.Plan.read_later ?_)
    | with_reducible apply State.Plan.indexAt_later
    | with_reducible refine Later.of_plan (by assumption) (State.Plan.indexAt_later ?_)
    | with_reducible apply State.Plan.entry_later
    | with_reducible apply State.Plan.each_later
    | with_reducible refine Later.of_plan (by assumption) (State.Plan.each_later ?_)
    | with_reducible refine State.Plan.cells_later ?_ fun _ _ _ => ?_
    | with_reducible refine Later.of_plan (by assumption) (State.Plan.cells_later ?_ fun _ _ _ => ?_)
    | with_reducible apply State.Plan.element_later
    | with_reducible refine Later.of_plan (by assumption) (State.Plan.element_later ?_)
    | with_reducible apply State.Plan.elements_later
    | with_reducible refine Later.of_plan (by assumption) (State.Plan.elements_later ?_)
    | with_reducible apply State.Plan.source_later
    | with_reducible refine Later.of_plan (by assumption) (State.Plan.source_later ?_)
    | with_reducible apply State.Plan.tile_later
    | with_reducible refine Later.of_plan (by assumption) (State.Plan.tile_later ?_)
    | with_reducible apply State.Plan.dest_later
    | with_reducible refine Later.of_plan (by assumption) (State.Plan.dest_later ?_)
    | with_reducible apply State.Plan.tileDest_later
    | with_reducible refine Later.of_plan (by assumption) (State.Plan.tileDest_later ?_)
    | with_reducible apply State.Plan.disagree_later
    | with_reducible apply State.Plan.toTile_later
    | with_reducible refine Later.of_plan (by assumption) (State.Plan.toTile_later ?_)
    | with_reducible apply State.Plan.toElements_later
    | with_reducible refine Later.of_plan (by assumption) (State.Plan.toElements_later ?_)
    | with_reducible apply State.Plan.memVisit_later
    | with_reducible refine Later.of_plan (by assumption) (State.Plan.memVisit_later ?_)
    | with_reducible apply State.Plan.ringElement_later
    | with_reducible refine Later.of_plan (by assumption) (State.Plan.ringElement_later ?_)
    | with_reducible apply State.Plan.ringTile_later
    | with_reducible refine Later.of_plan (by assumption) (State.Plan.ringTile_later ?_)
    | with_reducible refine State.Plan.visit_later ?_ fun _ _ _ => ?_
    | split
    | dsimp only
    | with_reducible refine Post.ok ?_
    | with_reducible exact Post.error True.intro
    | dsimp only at *
    | with_reducible refine Later.of_ok (P := fun _ => True) (by assumption) ?_
    | with_reducible refine Later.of_ok2 (P := fun _ => True) (by assumption) ?_
    | with_reducible refine Later.of_ok1 (P := fun _ => True) (by assumption) ?_

theorem State.putBytes_later {s0 : State} {a1 : EngRef} {t : Task} {ws : List Window} {id : Nat} {pk : Nat} {gl : Bool} {visit : Nat} {first : Nat} {last : Nat} {a : Nat} {a11 : State} {a12 : Int} {a13 : List Byte} {a14 : List Byte} (hs : Later s0 a11) :
    Later s0 (State.putBytes a1 t ws id pk gl visit first last a a11 a12 a13 a14) := by
  induction a generalizing a1 t ws id pk gl visit first last a11 a12 a13 a14 with
  | zero =>
    unfold State.putBytes
    try dsimp only
    repeat' first
      | with_reducible assumption
      | with_reducible apply ih
      | with_reducible apply State.putChunk_later
      | with_reducible apply State.Plan.piece_later
      | with_reducible refine Later.of_plan (by assumption) (State.Plan.piece_later ?_)
      | with_reducible apply State.Plan.read_later
      | with_reducible refine Later.of_plan (by assumption) (State.Plan.read_later ?_)
      | with_reducible apply State.Plan.indexAt_later
      | with_reducible refine Later.of_plan (by assumption) (State.Plan.indexAt_later ?_)
      | with_reducible apply State.Plan.entry_later
      | with_reducible apply State.Plan.each_later
      | with_reducible refine Later.of_plan (by assumption) (State.Plan.each_later ?_)
      | with_reducible refine State.Plan.cells_later ?_ fun _ _ _ => ?_
      | with_reducible refine Later.of_plan (by assumption) (State.Plan.cells_later ?_ fun _ _ _ => ?_)
      | with_reducible apply State.Plan.element_later
      | with_reducible refine Later.of_plan (by assumption) (State.Plan.element_later ?_)
      | with_reducible apply State.Plan.elements_later
      | with_reducible refine Later.of_plan (by assumption) (State.Plan.elements_later ?_)
      | with_reducible apply State.Plan.source_later
      | with_reducible refine Later.of_plan (by assumption) (State.Plan.source_later ?_)
      | with_reducible apply State.Plan.tile_later
      | with_reducible refine Later.of_plan (by assumption) (State.Plan.tile_later ?_)
      | with_reducible apply State.Plan.dest_later
      | with_reducible refine Later.of_plan (by assumption) (State.Plan.dest_later ?_)
      | with_reducible apply State.Plan.tileDest_later
      | with_reducible refine Later.of_plan (by assumption) (State.Plan.tileDest_later ?_)
      | with_reducible apply State.Plan.disagree_later
      | with_reducible apply State.Plan.toTile_later
      | with_reducible refine Later.of_plan (by assumption) (State.Plan.toTile_later ?_)
      | with_reducible apply State.Plan.toElements_later
      | with_reducible refine Later.of_plan (by assumption) (State.Plan.toElements_later ?_)
      | with_reducible apply State.Plan.memVisit_later
      | with_reducible refine Later.of_plan (by assumption) (State.Plan.memVisit_later ?_)
      | with_reducible apply State.Plan.ringElement_later
      | with_reducible refine Later.of_plan (by assumption) (State.Plan.ringElement_later ?_)
      | with_reducible apply State.Plan.ringTile_later
      | with_reducible refine Later.of_plan (by assumption) (State.Plan.ringTile_later ?_)
      | with_reducible refine State.Plan.visit_later ?_ fun _ _ _ => ?_
      | split
      | dsimp only
      | dsimp only at *
  | succ n ih =>
    unfold State.putBytes
    try dsimp only
    repeat' first
      | with_reducible assumption
      | with_reducible apply ih
      | with_reducible apply State.putChunk_later
      | with_reducible apply State.Plan.piece_later
      | with_reducible refine Later.of_plan (by assumption) (State.Plan.piece_later ?_)
      | with_reducible apply State.Plan.read_later
      | with_reducible refine Later.of_plan (by assumption) (State.Plan.read_later ?_)
      | with_reducible apply State.Plan.indexAt_later
      | with_reducible refine Later.of_plan (by assumption) (State.Plan.indexAt_later ?_)
      | with_reducible apply State.Plan.entry_later
      | with_reducible apply State.Plan.each_later
      | with_reducible refine Later.of_plan (by assumption) (State.Plan.each_later ?_)
      | with_reducible refine State.Plan.cells_later ?_ fun _ _ _ => ?_
      | with_reducible refine Later.of_plan (by assumption) (State.Plan.cells_later ?_ fun _ _ _ => ?_)
      | with_reducible apply State.Plan.element_later
      | with_reducible refine Later.of_plan (by assumption) (State.Plan.element_later ?_)
      | with_reducible apply State.Plan.elements_later
      | with_reducible refine Later.of_plan (by assumption) (State.Plan.elements_later ?_)
      | with_reducible apply State.Plan.source_later
      | with_reducible refine Later.of_plan (by assumption) (State.Plan.source_later ?_)
      | with_reducible apply State.Plan.tile_later
      | with_reducible refine Later.of_plan (by assumption) (State.Plan.tile_later ?_)
      | with_reducible apply State.Plan.dest_later
      | with_reducible refine Later.of_plan (by assumption) (State.Plan.dest_later ?_)
      | with_reducible apply State.Plan.tileDest_later
      | with_reducible refine Later.of_plan (by assumption) (State.Plan.tileDest_later ?_)
      | with_reducible apply State.Plan.disagree_later
      | with_reducible apply State.Plan.toTile_later
      | with_reducible refine Later.of_plan (by assumption) (State.Plan.toTile_later ?_)
      | with_reducible apply State.Plan.toElements_later
      | with_reducible refine Later.of_plan (by assumption) (State.Plan.toElements_later ?_)
      | with_reducible apply State.Plan.memVisit_later
      | with_reducible refine Later.of_plan (by assumption) (State.Plan.memVisit_later ?_)
      | with_reducible apply State.Plan.ringElement_later
      | with_reducible refine Later.of_plan (by assumption) (State.Plan.ringElement_later ?_)
      | with_reducible apply State.Plan.ringTile_later
      | with_reducible refine Later.of_plan (by assumption) (State.Plan.ringTile_later ?_)
      | with_reducible refine State.Plan.visit_later ?_ fun _ _ _ => ?_
      | split
      | dsimp only
      | dsimp only at *

theorem State.put_later {s0 : State} {s : State} {x : EngRef} {t : Task} {ws : List Window} {id : Nat} {va : Int} {pk : Nat} {gl : Bool} {visit : Nat} {order : Nat} {bs : List Byte} (hs : Later s0 s) :
    Later s0 (State.put s x t ws id va pk gl visit order bs) := by
  unfold State.put
  try dsimp only
  repeat' first
    | with_reducible assumption
    | with_reducible apply State.putBytes_later
    | with_reducible apply State.Plan.piece_later
    | with_reducible refine Later.of_plan (by assumption) (State.Plan.piece_later ?_)
    | with_reducible apply State.Plan.read_later
    | with_reducible refine Later.of_plan (by assumption) (State.Plan.read_later ?_)
    | with_reducible apply State.Plan.indexAt_later
    | with_reducible refine Later.of_plan (by assumption) (State.Plan.indexAt_later ?_)
    | with_reducible apply State.Plan.entry_later
    | with_reducible apply State.Plan.each_later
    | with_reducible refine Later.of_plan (by assumption) (State.Plan.each_later ?_)
    | with_reducible refine State.Plan.cells_later ?_ fun _ _ _ => ?_
    | with_reducible refine Later.of_plan (by assumption) (State.Plan.cells_later ?_ fun _ _ _ => ?_)
    | with_reducible apply State.Plan.element_later
    | with_reducible refine Later.of_plan (by assumption) (State.Plan.element_later ?_)
    | with_reducible apply State.Plan.elements_later
    | with_reducible refine Later.of_plan (by assumption) (State.Plan.elements_later ?_)
    | with_reducible apply State.Plan.source_later
    | with_reducible refine Later.of_plan (by assumption) (State.Plan.source_later ?_)
    | with_reducible apply State.Plan.tile_later
    | with_reducible refine Later.of_plan (by assumption) (State.Plan.tile_later ?_)
    | with_reducible apply State.Plan.dest_later
    | with_reducible refine Later.of_plan (by assumption) (State.Plan.dest_later ?_)
    | with_reducible apply State.Plan.tileDest_later
    | with_reducible refine Later.of_plan (by assumption) (State.Plan.tileDest_later ?_)
    | with_reducible apply State.Plan.disagree_later
    | with_reducible apply State.Plan.toTile_later
    | with_reducible refine Later.of_plan (by assumption) (State.Plan.toTile_later ?_)
    | with_reducible apply State.Plan.toElements_later
    | with_reducible refine Later.of_plan (by assumption) (State.Plan.toElements_later ?_)
    | with_reducible apply State.Plan.memVisit_later
    | with_reducible refine Later.of_plan (by assumption) (State.Plan.memVisit_later ?_)
    | with_reducible apply State.Plan.ringElement_later
    | with_reducible refine Later.of_plan (by assumption) (State.Plan.ringElement_later ?_)
    | with_reducible apply State.Plan.ringTile_later
    | with_reducible refine Later.of_plan (by assumption) (State.Plan.ringTile_later ?_)
    | with_reducible refine State.Plan.visit_later ?_ fun _ _ _ => ?_
    | split
    | dsimp only
    | dsimp only at *

theorem State.closeGroup_later {s0 : State} {s : State} {x : EngRef} {t : Task} {ws : List Window} {id : Nat} (hs : Later s0 s) :
    Later s0 (State.closeGroup s x t ws id) := by
  unfold State.closeGroup
  try dsimp only
  repeat' first
    | with_reducible assumption
    | with_reducible apply State.putBytes_later
    | with_reducible apply State.updMove_later
    | with_reducible apply State.Plan.piece_later
    | with_reducible refine Later.of_plan (by assumption) (State.Plan.piece_later ?_)
    | with_reducible apply State.Plan.read_later
    | with_reducible refine Later.of_plan (by assumption) (State.Plan.read_later ?_)
    | with_reducible apply State.Plan.indexAt_later
    | with_reducible refine Later.of_plan (by assumption) (State.Plan.indexAt_later ?_)
    | with_reducible apply State.Plan.entry_later
    | with_reducible apply State.Plan.each_later
    | with_reducible refine Later.of_plan (by assumption) (State.Plan.each_later ?_)
    | with_reducible refine State.Plan.cells_later ?_ fun _ _ _ => ?_
    | with_reducible refine Later.of_plan (by assumption) (State.Plan.cells_later ?_ fun _ _ _ => ?_)
    | with_reducible apply State.Plan.element_later
    | with_reducible refine Later.of_plan (by assumption) (State.Plan.element_later ?_)
    | with_reducible apply State.Plan.elements_later
    | with_reducible refine Later.of_plan (by assumption) (State.Plan.elements_later ?_)
    | with_reducible apply State.Plan.source_later
    | with_reducible refine Later.of_plan (by assumption) (State.Plan.source_later ?_)
    | with_reducible apply State.Plan.tile_later
    | with_reducible refine Later.of_plan (by assumption) (State.Plan.tile_later ?_)
    | with_reducible apply State.Plan.dest_later
    | with_reducible refine Later.of_plan (by assumption) (State.Plan.dest_later ?_)
    | with_reducible apply State.Plan.tileDest_later
    | with_reducible refine Later.of_plan (by assumption) (State.Plan.tileDest_later ?_)
    | with_reducible apply State.Plan.disagree_later
    | with_reducible apply State.Plan.toTile_later
    | with_reducible refine Later.of_plan (by assumption) (State.Plan.toTile_later ?_)
    | with_reducible apply State.Plan.toElements_later
    | with_reducible refine Later.of_plan (by assumption) (State.Plan.toElements_later ?_)
    | with_reducible apply State.Plan.memVisit_later
    | with_reducible refine Later.of_plan (by assumption) (State.Plan.memVisit_later ?_)
    | with_reducible apply State.Plan.ringElement_later
    | with_reducible refine Later.of_plan (by assumption) (State.Plan.ringElement_later ?_)
    | with_reducible apply State.Plan.ringTile_later
    | with_reducible refine Later.of_plan (by assumption) (State.Plan.ringTile_later ?_)
    | with_reducible refine State.Plan.visit_later ?_ fun _ _ _ => ?_
    | split
    | dsimp only
    | dsimp only at *

theorem State.putElt_later {s0 : State} {s : State} {x : EngRef} {t : Task} {ws : List Window} {id : Nat} {va : Int} {pk : Nat} {gl : Bool} {bit : Nat} {visit : Nat} {order : Nat} {v : Nat} (hs : Later s0 s) :
    Later s0 (State.putElt s x t ws id va pk gl bit visit order v) := by
  unfold State.putElt
  try dsimp only
  repeat' first
    | with_reducible assumption
    | with_reducible apply State.updMove_later
    | with_reducible apply State.closeGroup_later
    | with_reducible apply State.closeTx_later
    | with_reducible apply State.failDst_later
    | with_reducible apply State.put_later
    | with_reducible apply State.Plan.piece_later
    | with_reducible refine Later.of_plan (by assumption) (State.Plan.piece_later ?_)
    | with_reducible apply State.Plan.read_later
    | with_reducible refine Later.of_plan (by assumption) (State.Plan.read_later ?_)
    | with_reducible apply State.Plan.indexAt_later
    | with_reducible refine Later.of_plan (by assumption) (State.Plan.indexAt_later ?_)
    | with_reducible apply State.Plan.entry_later
    | with_reducible apply State.Plan.each_later
    | with_reducible refine Later.of_plan (by assumption) (State.Plan.each_later ?_)
    | with_reducible refine State.Plan.cells_later ?_ fun _ _ _ => ?_
    | with_reducible refine Later.of_plan (by assumption) (State.Plan.cells_later ?_ fun _ _ _ => ?_)
    | with_reducible apply State.Plan.element_later
    | with_reducible refine Later.of_plan (by assumption) (State.Plan.element_later ?_)
    | with_reducible apply State.Plan.elements_later
    | with_reducible refine Later.of_plan (by assumption) (State.Plan.elements_later ?_)
    | with_reducible apply State.Plan.source_later
    | with_reducible refine Later.of_plan (by assumption) (State.Plan.source_later ?_)
    | with_reducible apply State.Plan.tile_later
    | with_reducible refine Later.of_plan (by assumption) (State.Plan.tile_later ?_)
    | with_reducible apply State.Plan.dest_later
    | with_reducible refine Later.of_plan (by assumption) (State.Plan.dest_later ?_)
    | with_reducible apply State.Plan.tileDest_later
    | with_reducible refine Later.of_plan (by assumption) (State.Plan.tileDest_later ?_)
    | with_reducible apply State.Plan.disagree_later
    | with_reducible apply State.Plan.toTile_later
    | with_reducible refine Later.of_plan (by assumption) (State.Plan.toTile_later ?_)
    | with_reducible apply State.Plan.toElements_later
    | with_reducible refine Later.of_plan (by assumption) (State.Plan.toElements_later ?_)
    | with_reducible apply State.Plan.memVisit_later
    | with_reducible refine Later.of_plan (by assumption) (State.Plan.memVisit_later ?_)
    | with_reducible apply State.Plan.ringElement_later
    | with_reducible refine Later.of_plan (by assumption) (State.Plan.ringElement_later ?_)
    | with_reducible apply State.Plan.ringTile_later
    | with_reducible refine Later.of_plan (by assumption) (State.Plan.ringTile_later ?_)
    | with_reducible refine State.Plan.visit_later ?_ fun _ _ _ => ?_
    | split
    | dsimp only
    | dsimp only at *

theorem State.feedElt_later {s0 : State} {s : State} {x : EngRef} {id : Nat} {v : Nat} (hs : Later s0 s) :
    Later s0 (State.feedElt s x id v) := by
  unfold State.feedElt
  try dsimp only
  repeat' first
    | with_reducible assumption
    | with_reducible apply State.updMove_later
    | with_reducible apply State.Plan.piece_later
    | with_reducible refine Later.of_plan (by assumption) (State.Plan.piece_later ?_)
    | with_reducible apply State.Plan.read_later
    | with_reducible refine Later.of_plan (by assumption) (State.Plan.read_later ?_)
    | with_reducible apply State.Plan.indexAt_later
    | with_reducible refine Later.of_plan (by assumption) (State.Plan.indexAt_later ?_)
    | with_reducible apply State.Plan.entry_later
    | with_reducible apply State.Plan.each_later
    | with_reducible refine Later.of_plan (by assumption) (State.Plan.each_later ?_)
    | with_reducible refine State.Plan.cells_later ?_ fun _ _ _ => ?_
    | with_reducible refine Later.of_plan (by assumption) (State.Plan.cells_later ?_ fun _ _ _ => ?_)
    | with_reducible apply State.Plan.element_later
    | with_reducible refine Later.of_plan (by assumption) (State.Plan.element_later ?_)
    | with_reducible apply State.Plan.elements_later
    | with_reducible refine Later.of_plan (by assumption) (State.Plan.elements_later ?_)
    | with_reducible apply State.Plan.source_later
    | with_reducible refine Later.of_plan (by assumption) (State.Plan.source_later ?_)
    | with_reducible apply State.Plan.tile_later
    | with_reducible refine Later.of_plan (by assumption) (State.Plan.tile_later ?_)
    | with_reducible apply State.Plan.dest_later
    | with_reducible refine Later.of_plan (by assumption) (State.Plan.dest_later ?_)
    | with_reducible apply State.Plan.tileDest_later
    | with_reducible refine Later.of_plan (by assumption) (State.Plan.tileDest_later ?_)
    | with_reducible apply State.Plan.disagree_later
    | with_reducible apply State.Plan.toTile_later
    | with_reducible refine Later.of_plan (by assumption) (State.Plan.toTile_later ?_)
    | with_reducible apply State.Plan.toElements_later
    | with_reducible refine Later.of_plan (by assumption) (State.Plan.toElements_later ?_)
    | with_reducible apply State.Plan.memVisit_later
    | with_reducible refine Later.of_plan (by assumption) (State.Plan.memVisit_later ?_)
    | with_reducible apply State.Plan.ringElement_later
    | with_reducible refine Later.of_plan (by assumption) (State.Plan.ringElement_later ?_)
    | with_reducible apply State.Plan.ringTile_later
    | with_reducible refine Later.of_plan (by assumption) (State.Plan.ringTile_later ?_)
    | with_reducible refine State.Plan.visit_later ?_ fun _ _ _ => ?_
    | split
    | dsimp only
    | dsimp only at *

theorem State.cutSlots_later {s0 : State} {s : State} {x : EngRef} {id : Nat} {whole : Bool} (hs : Later s0 s) :
    Later s0 (State.cutSlots s x id whole) := by
  unfold State.cutSlots
  try dsimp only
  repeat' first
    | with_reducible assumption
    | with_reducible apply State.updMove_later
    | with_reducible apply State.updEng_later
    | split
    | dsimp only
    | dsimp only at *

theorem State.meetUnit_later {s0 : State} {s : State} {u : MoveUnit} (hs : Later s0 s) :
    Later s0 (State.meetUnit s u) := by
  unfold State.meetUnit
  try dsimp only
  repeat' first
    | with_reducible assumption
    | with_reducible apply State.meet_later
    | with_reducible refine Later.foldl ?_ fun _ _ _ => ?_
    | with_reducible refine Later.foldl_with (fun p : _ × State => p.2) ?_ fun _ _ _ => ?_
    | with_reducible refine Later.foldl_with (fun p : State × _ => p.1) ?_ fun _ _ _ => ?_
    | split
    | dsimp only
    | dsimp only at *

theorem State.putTile_later {s0 : State} {s : State} {x : EngRef} {t : Task} {ws : List Window} {id : Nat} {visit : Nat} {d : TileDst} {bs : List Byte} {entry : Nat} (hs : Later s0 s) :
    Later s0 (State.putTile s x t ws id visit d bs entry) := by
  unfold State.putTile
  try dsimp only
  repeat' first
    | with_reducible assumption
    | with_reducible apply State.closeTx_later
    | with_reducible apply State.put_later
    | with_reducible apply State.Plan.piece_later
    | with_reducible refine Later.of_plan (by assumption) (State.Plan.piece_later ?_)
    | with_reducible apply State.Plan.read_later
    | with_reducible refine Later.of_plan (by assumption) (State.Plan.read_later ?_)
    | with_reducible apply State.Plan.indexAt_later
    | with_reducible refine Later.of_plan (by assumption) (State.Plan.indexAt_later ?_)
    | with_reducible apply State.Plan.entry_later
    | with_reducible apply State.Plan.each_later
    | with_reducible refine Later.of_plan (by assumption) (State.Plan.each_later ?_)
    | with_reducible refine State.Plan.cells_later ?_ fun _ _ _ => ?_
    | with_reducible refine Later.of_plan (by assumption) (State.Plan.cells_later ?_ fun _ _ _ => ?_)
    | with_reducible apply State.Plan.element_later
    | with_reducible refine Later.of_plan (by assumption) (State.Plan.element_later ?_)
    | with_reducible apply State.Plan.elements_later
    | with_reducible refine Later.of_plan (by assumption) (State.Plan.elements_later ?_)
    | with_reducible apply State.Plan.source_later
    | with_reducible refine Later.of_plan (by assumption) (State.Plan.source_later ?_)
    | with_reducible apply State.Plan.tile_later
    | with_reducible refine Later.of_plan (by assumption) (State.Plan.tile_later ?_)
    | with_reducible apply State.Plan.dest_later
    | with_reducible refine Later.of_plan (by assumption) (State.Plan.dest_later ?_)
    | with_reducible apply State.Plan.tileDest_later
    | with_reducible refine Later.of_plan (by assumption) (State.Plan.tileDest_later ?_)
    | with_reducible apply State.Plan.disagree_later
    | with_reducible apply State.Plan.toTile_later
    | with_reducible refine Later.of_plan (by assumption) (State.Plan.toTile_later ?_)
    | with_reducible apply State.Plan.toElements_later
    | with_reducible refine Later.of_plan (by assumption) (State.Plan.toElements_later ?_)
    | with_reducible apply State.Plan.memVisit_later
    | with_reducible refine Later.of_plan (by assumption) (State.Plan.memVisit_later ?_)
    | with_reducible apply State.Plan.ringElement_later
    | with_reducible refine Later.of_plan (by assumption) (State.Plan.ringElement_later ?_)
    | with_reducible apply State.Plan.ringTile_later
    | with_reducible refine Later.of_plan (by assumption) (State.Plan.ringTile_later ?_)
    | with_reducible refine State.Plan.visit_later ?_ fun _ _ _ => ?_
    | split
    | dsimp only
    | dsimp only at *

theorem State.doUnit_later {s0 : State} {s : State} {x : EngRef} {t : Task} {ws : List Window} {id : Nat} {m : MoveSt} {u : MoveUnit} (hs : Later s0 s) :
    Later s0 (State.doUnit s x t ws id m u) := by
  unfold State.doUnit
  try dsimp only
  repeat' first
    | with_reducible assumption
    | with_reducible apply State.fail_later
    | with_reducible apply State.updMove_later
    | with_reducible apply State.feedElt_later
    | with_reducible apply State.cutSlots_later
    | with_reducible apply State.putElt_later
    | with_reducible apply State.putTile_later
    | with_reducible apply State.updEng_later
    | with_reducible apply State.Plan.piece_later
    | with_reducible refine Later.of_plan (by assumption) (State.Plan.piece_later ?_)
    | with_reducible apply State.Plan.read_later
    | with_reducible refine Later.of_plan (by assumption) (State.Plan.read_later ?_)
    | with_reducible apply State.Plan.indexAt_later
    | with_reducible refine Later.of_plan (by assumption) (State.Plan.indexAt_later ?_)
    | with_reducible apply State.Plan.entry_later
    | with_reducible apply State.Plan.each_later
    | with_reducible refine Later.of_plan (by assumption) (State.Plan.each_later ?_)
    | with_reducible refine State.Plan.cells_later ?_ fun _ _ _ => ?_
    | with_reducible refine Later.of_plan (by assumption) (State.Plan.cells_later ?_ fun _ _ _ => ?_)
    | with_reducible apply State.Plan.element_later
    | with_reducible refine Later.of_plan (by assumption) (State.Plan.element_later ?_)
    | with_reducible apply State.Plan.elements_later
    | with_reducible refine Later.of_plan (by assumption) (State.Plan.elements_later ?_)
    | with_reducible apply State.Plan.source_later
    | with_reducible refine Later.of_plan (by assumption) (State.Plan.source_later ?_)
    | with_reducible apply State.Plan.tile_later
    | with_reducible refine Later.of_plan (by assumption) (State.Plan.tile_later ?_)
    | with_reducible apply State.Plan.dest_later
    | with_reducible refine Later.of_plan (by assumption) (State.Plan.dest_later ?_)
    | with_reducible apply State.Plan.tileDest_later
    | with_reducible refine Later.of_plan (by assumption) (State.Plan.tileDest_later ?_)
    | with_reducible apply State.Plan.disagree_later
    | with_reducible apply State.Plan.toTile_later
    | with_reducible refine Later.of_plan (by assumption) (State.Plan.toTile_later ?_)
    | with_reducible apply State.Plan.toElements_later
    | with_reducible refine Later.of_plan (by assumption) (State.Plan.toElements_later ?_)
    | with_reducible apply State.Plan.memVisit_later
    | with_reducible refine Later.of_plan (by assumption) (State.Plan.memVisit_later ?_)
    | with_reducible apply State.Plan.ringElement_later
    | with_reducible refine Later.of_plan (by assumption) (State.Plan.ringElement_later ?_)
    | with_reducible apply State.Plan.ringTile_later
    | with_reducible refine Later.of_plan (by assumption) (State.Plan.ringTile_later ?_)
    | with_reducible refine State.Plan.visit_later ?_ fun _ _ _ => ?_
    | with_reducible refine Later.foldl ?_ fun _ _ _ => ?_
    | with_reducible refine Later.foldl_with (fun p : Plan => p.s) ?_ fun _ _ _ => ?_
    | with_reducible refine Later.foldl_with (fun p : Plan × _ => p.1.s) ?_ fun _ _ _ => ?_
    | with_reducible refine Later.foldl_with (fun p : _ × State => p.2) ?_ fun _ _ _ => ?_
    | with_reducible refine Later.foldl_with (fun p : State × _ => p.1) ?_ fun _ _ _ => ?_
    | split
    | dsimp only
    | with_reducible refine Post.ok ?_
    | with_reducible exact Post.error True.intro
    | dsimp only at *
    | with_reducible refine Later.of_ok (P := fun _ => True) (by assumption) ?_
    | with_reducible refine Later.of_ok2 (P := fun _ => True) (by assumption) ?_
    | with_reducible refine Later.of_ok1 (P := fun _ => True) (by assumption) ?_

theorem State.runUnits_later {s0 : State} {s : State} {a2 : EngRef} {t : Task} {ws : List Window} {id : Nat} {a : Nat} (hs : Later s0 s) :
    Later s0 (State.runUnits s a2 t ws id a) := by
  induction a generalizing s a2 t ws id with
  | zero =>
    unfold State.runUnits
    try dsimp only
    repeat' first
      | with_reducible assumption
      | with_reducible apply ih
      | with_reducible apply State.meetUnit_later
      | with_reducible apply State.updMove_later
      | with_reducible apply State.doUnit_later
      | with_reducible apply State.flush_later
      | with_reducible apply State.Plan.piece_later
      | with_reducible refine Later.of_plan (by assumption) (State.Plan.piece_later ?_)
      | with_reducible apply State.Plan.read_later
      | with_reducible refine Later.of_plan (by assumption) (State.Plan.read_later ?_)
      | with_reducible apply State.Plan.indexAt_later
      | with_reducible refine Later.of_plan (by assumption) (State.Plan.indexAt_later ?_)
      | with_reducible apply State.Plan.entry_later
      | with_reducible apply State.Plan.each_later
      | with_reducible refine Later.of_plan (by assumption) (State.Plan.each_later ?_)
      | with_reducible refine State.Plan.cells_later ?_ fun _ _ _ => ?_
      | with_reducible refine Later.of_plan (by assumption) (State.Plan.cells_later ?_ fun _ _ _ => ?_)
      | with_reducible apply State.Plan.element_later
      | with_reducible refine Later.of_plan (by assumption) (State.Plan.element_later ?_)
      | with_reducible apply State.Plan.elements_later
      | with_reducible refine Later.of_plan (by assumption) (State.Plan.elements_later ?_)
      | with_reducible apply State.Plan.source_later
      | with_reducible refine Later.of_plan (by assumption) (State.Plan.source_later ?_)
      | with_reducible apply State.Plan.tile_later
      | with_reducible refine Later.of_plan (by assumption) (State.Plan.tile_later ?_)
      | with_reducible apply State.Plan.dest_later
      | with_reducible refine Later.of_plan (by assumption) (State.Plan.dest_later ?_)
      | with_reducible apply State.Plan.tileDest_later
      | with_reducible refine Later.of_plan (by assumption) (State.Plan.tileDest_later ?_)
      | with_reducible apply State.Plan.disagree_later
      | with_reducible apply State.Plan.toTile_later
      | with_reducible refine Later.of_plan (by assumption) (State.Plan.toTile_later ?_)
      | with_reducible apply State.Plan.toElements_later
      | with_reducible refine Later.of_plan (by assumption) (State.Plan.toElements_later ?_)
      | with_reducible apply State.Plan.memVisit_later
      | with_reducible refine Later.of_plan (by assumption) (State.Plan.memVisit_later ?_)
      | with_reducible apply State.Plan.ringElement_later
      | with_reducible refine Later.of_plan (by assumption) (State.Plan.ringElement_later ?_)
      | with_reducible apply State.Plan.ringTile_later
      | with_reducible refine Later.of_plan (by assumption) (State.Plan.ringTile_later ?_)
      | with_reducible refine State.Plan.visit_later ?_ fun _ _ _ => ?_
      | split
      | dsimp only
      | dsimp only at *
  | succ n ih =>
    unfold State.runUnits
    try dsimp only
    repeat' first
      | with_reducible assumption
      | with_reducible apply ih
      | with_reducible apply State.meetUnit_later
      | with_reducible apply State.updMove_later
      | with_reducible apply State.doUnit_later
      | with_reducible apply State.flush_later
      | with_reducible apply State.Plan.piece_later
      | with_reducible refine Later.of_plan (by assumption) (State.Plan.piece_later ?_)
      | with_reducible apply State.Plan.read_later
      | with_reducible refine Later.of_plan (by assumption) (State.Plan.read_later ?_)
      | with_reducible apply State.Plan.indexAt_later
      | with_reducible refine Later.of_plan (by assumption) (State.Plan.indexAt_later ?_)
      | with_reducible apply State.Plan.entry_later
      | with_reducible apply State.Plan.each_later
      | with_reducible refine Later.of_plan (by assumption) (State.Plan.each_later ?_)
      | with_reducible refine State.Plan.cells_later ?_ fun _ _ _ => ?_
      | with_reducible refine Later.of_plan (by assumption) (State.Plan.cells_later ?_ fun _ _ _ => ?_)
      | with_reducible apply State.Plan.element_later
      | with_reducible refine Later.of_plan (by assumption) (State.Plan.element_later ?_)
      | with_reducible apply State.Plan.elements_later
      | with_reducible refine Later.of_plan (by assumption) (State.Plan.elements_later ?_)
      | with_reducible apply State.Plan.source_later
      | with_reducible refine Later.of_plan (by assumption) (State.Plan.source_later ?_)
      | with_reducible apply State.Plan.tile_later
      | with_reducible refine Later.of_plan (by assumption) (State.Plan.tile_later ?_)
      | with_reducible apply State.Plan.dest_later
      | with_reducible refine Later.of_plan (by assumption) (State.Plan.dest_later ?_)
      | with_reducible apply State.Plan.tileDest_later
      | with_reducible refine Later.of_plan (by assumption) (State.Plan.tileDest_later ?_)
      | with_reducible apply State.Plan.disagree_later
      | with_reducible apply State.Plan.toTile_later
      | with_reducible refine Later.of_plan (by assumption) (State.Plan.toTile_later ?_)
      | with_reducible apply State.Plan.toElements_later
      | with_reducible refine Later.of_plan (by assumption) (State.Plan.toElements_later ?_)
      | with_reducible apply State.Plan.memVisit_later
      | with_reducible refine Later.of_plan (by assumption) (State.Plan.memVisit_later ?_)
      | with_reducible apply State.Plan.ringElement_later
      | with_reducible refine Later.of_plan (by assumption) (State.Plan.ringElement_later ?_)
      | with_reducible apply State.Plan.ringTile_later
      | with_reducible refine Later.of_plan (by assumption) (State.Plan.ringTile_later ?_)
      | with_reducible refine State.Plan.visit_later ?_ fun _ _ _ => ?_
      | split
      | dsimp only
      | dsimp only at *

theorem State.runMove_later {s0 : State} {s : State} {x : EngRef} {t : Task} {ws : List Window} {id : Nat} (hs : Later s0 s) :
    Later s0 (State.runMove s x t ws id) := by
  unfold State.runMove
  try dsimp only
  repeat' first
    | with_reducible assumption
    | with_reducible apply State.flush_later
    | with_reducible apply State.runUnits_later
    | with_reducible apply State.closeGroup_later
    | with_reducible apply State.closeTx_later
    | with_reducible apply State.cutSlots_later
    | with_reducible apply State.issueXacts_later
    | split
    | dsimp only
    | dsimp only at *

theorem State.carrySlot_later {s0 : State} {s : State} {x : EngRef} (hs : Later s0 s) :
    Later s0 (State.carrySlot s x) := by
  unfold State.carrySlot
  try dsimp only
  repeat' first
    | with_reducible assumption
    | with_reducible apply State.failTask_later
    | with_reducible apply State.runMove_later
    | with_reducible refine Later.foldl ?_ fun _ _ _ => ?_
    | with_reducible refine Later.foldl_with (fun p : _ × State => p.2) ?_ fun _ _ _ => ?_
    | with_reducible refine Later.foldl_with (fun p : State × _ => p.1) ?_ fun _ _ _ => ?_
    | split
    | dsimp only
    | with_reducible refine Post.ok ?_
    | with_reducible exact Post.error True.intro
    | dsimp only at *
    | with_reducible refine Later.of_ok (P := fun _ => True) (by assumption) ?_
    | with_reducible refine Later.of_ok2 (P := fun _ => True) (by assumption) ?_
    | with_reducible refine Later.of_ok1 (P := fun _ => True) (by assumption) ?_

theorem State.carryOn_later {s0 : State} {s : State} {core : Nat} {eng : Nat} (hs : Later s0 s) :
    Later s0 (State.carryOn s core eng) := by
  unfold State.carryOn
  try dsimp only
  repeat' first
    | with_reducible assumption
    | with_reducible apply State.issueXacts_later
    | with_reducible refine State.forAll_later ?_ fun _ _ _ => ?_
    | with_reducible apply State.carrySlot_later
    | split
    | dsimp only
    | dsimp only at *

theorem State.planVisits_later {s0 : State} {s : State} {x : EngRef} {e : MoveEnv} {m : MoveSt} (hs : Later s0 s) :
    Later s0 (State.planVisits s x e m).s := by
  unfold State.planVisits
  try dsimp only
  repeat' first
    | with_reducible assumption
    | with_reducible apply State.parityFail_later
    | with_reducible apply State.releaseSlots_later
    | with_reducible apply State.load_later
    | with_reducible apply State.setHeld_later
    | with_reducible apply State.Plan.piece_later
    | with_reducible refine Later.of_plan (by assumption) (State.Plan.piece_later ?_)
    | with_reducible apply State.Plan.read_later
    | with_reducible refine Later.of_plan (by assumption) (State.Plan.read_later ?_)
    | with_reducible apply State.Plan.indexAt_later
    | with_reducible refine Later.of_plan (by assumption) (State.Plan.indexAt_later ?_)
    | with_reducible apply State.Plan.entry_later
    | with_reducible apply State.Plan.each_later
    | with_reducible refine Later.of_plan (by assumption) (State.Plan.each_later ?_)
    | with_reducible refine State.Plan.cells_later ?_ fun _ _ _ => ?_
    | with_reducible refine Later.of_plan (by assumption) (State.Plan.cells_later ?_ fun _ _ _ => ?_)
    | with_reducible apply State.Plan.element_later
    | with_reducible refine Later.of_plan (by assumption) (State.Plan.element_later ?_)
    | with_reducible apply State.Plan.elements_later
    | with_reducible refine Later.of_plan (by assumption) (State.Plan.elements_later ?_)
    | with_reducible apply State.Plan.source_later
    | with_reducible refine Later.of_plan (by assumption) (State.Plan.source_later ?_)
    | with_reducible apply State.Plan.tile_later
    | with_reducible refine Later.of_plan (by assumption) (State.Plan.tile_later ?_)
    | with_reducible apply State.Plan.dest_later
    | with_reducible refine Later.of_plan (by assumption) (State.Plan.dest_later ?_)
    | with_reducible apply State.Plan.tileDest_later
    | with_reducible refine Later.of_plan (by assumption) (State.Plan.tileDest_later ?_)
    | with_reducible apply State.Plan.disagree_later
    | with_reducible apply State.Plan.toTile_later
    | with_reducible refine Later.of_plan (by assumption) (State.Plan.toTile_later ?_)
    | with_reducible apply State.Plan.toElements_later
    | with_reducible refine Later.of_plan (by assumption) (State.Plan.toElements_later ?_)
    | with_reducible apply State.Plan.memVisit_later
    | with_reducible refine Later.of_plan (by assumption) (State.Plan.memVisit_later ?_)
    | with_reducible apply State.Plan.ringElement_later
    | with_reducible refine Later.of_plan (by assumption) (State.Plan.ringElement_later ?_)
    | with_reducible apply State.Plan.ringTile_later
    | with_reducible refine Later.of_plan (by assumption) (State.Plan.ringTile_later ?_)
    | with_reducible refine State.Plan.visit_later ?_ fun _ _ _ => ?_
    | with_reducible refine Later.foldl ?_ fun _ _ _ => ?_
    | with_reducible refine Later.foldl_with (fun p : Plan => p.s) ?_ fun _ _ _ => ?_
    | with_reducible refine Later.foldl_with (fun p : Plan × _ => p.1.s) ?_ fun _ _ _ => ?_
    | with_reducible refine Later.foldl_with (fun p : _ × State => p.2) ?_ fun _ _ _ => ?_
    | with_reducible refine Later.foldl_with (fun p : State × _ => p.1) ?_ fun _ _ _ => ?_
    | split
    | dsimp only
    | dsimp only at *

theorem State.planRun_later {s0 : State} {s : State} {a2 : EngRef} {t : Task} {e : MoveEnv} {id : Nat} {a : Nat} (hs : Later s0 s) :
    Later s0 (State.planRun s a2 t e id a).1 := by
  induction a generalizing s a2 t e id with
  | zero =>
    unfold State.planRun
    try dsimp only
    repeat' first
      | with_reducible assumption
      | with_reducible apply ih
      | with_reducible refine Later.of_fst (by assumption) (ih ?_)
      | with_reducible apply State.planVisits_later
      | with_reducible apply State.updMove_later
      | with_reducible apply State.runMove_later
      | with_reducible apply State.fail_later
      | with_reducible apply State.closeGroup_later
      | with_reducible apply State.Plan.piece_later
      | with_reducible refine Later.of_plan (by assumption) (State.Plan.piece_later ?_)
      | with_reducible apply State.Plan.read_later
      | with_reducible refine Later.of_plan (by assumption) (State.Plan.read_later ?_)
      | with_reducible apply State.Plan.indexAt_later
      | with_reducible refine Later.of_plan (by assumption) (State.Plan.indexAt_later ?_)
      | with_reducible apply State.Plan.entry_later
      | with_reducible apply State.Plan.each_later
      | with_reducible refine Later.of_plan (by assumption) (State.Plan.each_later ?_)
      | with_reducible refine State.Plan.cells_later ?_ fun _ _ _ => ?_
      | with_reducible refine Later.of_plan (by assumption) (State.Plan.cells_later ?_ fun _ _ _ => ?_)
      | with_reducible apply State.Plan.element_later
      | with_reducible refine Later.of_plan (by assumption) (State.Plan.element_later ?_)
      | with_reducible apply State.Plan.elements_later
      | with_reducible refine Later.of_plan (by assumption) (State.Plan.elements_later ?_)
      | with_reducible apply State.Plan.source_later
      | with_reducible refine Later.of_plan (by assumption) (State.Plan.source_later ?_)
      | with_reducible apply State.Plan.tile_later
      | with_reducible refine Later.of_plan (by assumption) (State.Plan.tile_later ?_)
      | with_reducible apply State.Plan.dest_later
      | with_reducible refine Later.of_plan (by assumption) (State.Plan.dest_later ?_)
      | with_reducible apply State.Plan.tileDest_later
      | with_reducible refine Later.of_plan (by assumption) (State.Plan.tileDest_later ?_)
      | with_reducible apply State.Plan.disagree_later
      | with_reducible apply State.Plan.toTile_later
      | with_reducible refine Later.of_plan (by assumption) (State.Plan.toTile_later ?_)
      | with_reducible apply State.Plan.toElements_later
      | with_reducible refine Later.of_plan (by assumption) (State.Plan.toElements_later ?_)
      | with_reducible apply State.Plan.memVisit_later
      | with_reducible refine Later.of_plan (by assumption) (State.Plan.memVisit_later ?_)
      | with_reducible apply State.Plan.ringElement_later
      | with_reducible refine Later.of_plan (by assumption) (State.Plan.ringElement_later ?_)
      | with_reducible apply State.Plan.ringTile_later
      | with_reducible refine Later.of_plan (by assumption) (State.Plan.ringTile_later ?_)
      | with_reducible refine State.Plan.visit_later ?_ fun _ _ _ => ?_
      | split
      | dsimp only
      | dsimp only at *
  | succ n ih =>
    unfold State.planRun
    try dsimp only
    repeat' first
      | with_reducible assumption
      | with_reducible apply ih
      | with_reducible refine Later.of_fst (by assumption) (ih ?_)
      | with_reducible apply State.planVisits_later
      | with_reducible apply State.updMove_later
      | with_reducible apply State.runMove_later
      | with_reducible apply State.fail_later
      | with_reducible apply State.closeGroup_later
      | with_reducible apply State.Plan.piece_later
      | with_reducible refine Later.of_plan (by assumption) (State.Plan.piece_later ?_)
      | with_reducible apply State.Plan.read_later
      | with_reducible refine Later.of_plan (by assumption) (State.Plan.read_later ?_)
      | with_reducible apply State.Plan.indexAt_later
      | with_reducible refine Later.of_plan (by assumption) (State.Plan.indexAt_later ?_)
      | with_reducible apply State.Plan.entry_later
      | with_reducible apply State.Plan.each_later
      | with_reducible refine Later.of_plan (by assumption) (State.Plan.each_later ?_)
      | with_reducible refine State.Plan.cells_later ?_ fun _ _ _ => ?_
      | with_reducible refine Later.of_plan (by assumption) (State.Plan.cells_later ?_ fun _ _ _ => ?_)
      | with_reducible apply State.Plan.element_later
      | with_reducible refine Later.of_plan (by assumption) (State.Plan.element_later ?_)
      | with_reducible apply State.Plan.elements_later
      | with_reducible refine Later.of_plan (by assumption) (State.Plan.elements_later ?_)
      | with_reducible apply State.Plan.source_later
      | with_reducible refine Later.of_plan (by assumption) (State.Plan.source_later ?_)
      | with_reducible apply State.Plan.tile_later
      | with_reducible refine Later.of_plan (by assumption) (State.Plan.tile_later ?_)
      | with_reducible apply State.Plan.dest_later
      | with_reducible refine Later.of_plan (by assumption) (State.Plan.dest_later ?_)
      | with_reducible apply State.Plan.tileDest_later
      | with_reducible refine Later.of_plan (by assumption) (State.Plan.tileDest_later ?_)
      | with_reducible apply State.Plan.disagree_later
      | with_reducible apply State.Plan.toTile_later
      | with_reducible refine Later.of_plan (by assumption) (State.Plan.toTile_later ?_)
      | with_reducible apply State.Plan.toElements_later
      | with_reducible refine Later.of_plan (by assumption) (State.Plan.toElements_later ?_)
      | with_reducible apply State.Plan.memVisit_later
      | with_reducible refine Later.of_plan (by assumption) (State.Plan.memVisit_later ?_)
      | with_reducible apply State.Plan.ringElement_later
      | with_reducible refine Later.of_plan (by assumption) (State.Plan.ringElement_later ?_)
      | with_reducible apply State.Plan.ringTile_later
      | with_reducible refine Later.of_plan (by assumption) (State.Plan.ringTile_later ?_)
      | with_reducible refine State.Plan.visit_later ?_ fun _ _ _ => ?_
      | split
      | dsimp only
      | dsimp only at *

theorem State.goMove_later {s0 : State} {s : State} {x : EngRef} {t : Task} {i : Instr} {e : MoveEnv} {id : Nat} (hs : Later s0 s) :
    Later s0 (State.goMove s x t i e id) := by
  unfold State.goMove
  try dsimp only
  repeat' first
    | with_reducible assumption
    | with_reducible apply State.planRun_later
    | with_reducible apply State.closeGroup_later
    | with_reducible apply State.closeTx_later
    | with_reducible apply State.fail_later
    | with_reducible apply State.stallRing_later
    | with_reducible apply State.updMove_later
    | with_reducible apply State.retire_later
    | with_reducible apply State.Plan.piece_later
    | with_reducible refine Later.of_plan (by assumption) (State.Plan.piece_later ?_)
    | with_reducible apply State.Plan.read_later
    | with_reducible refine Later.of_plan (by assumption) (State.Plan.read_later ?_)
    | with_reducible apply State.Plan.indexAt_later
    | with_reducible refine Later.of_plan (by assumption) (State.Plan.indexAt_later ?_)
    | with_reducible apply State.Plan.entry_later
    | with_reducible apply State.Plan.each_later
    | with_reducible refine Later.of_plan (by assumption) (State.Plan.each_later ?_)
    | with_reducible refine State.Plan.cells_later ?_ fun _ _ _ => ?_
    | with_reducible refine Later.of_plan (by assumption) (State.Plan.cells_later ?_ fun _ _ _ => ?_)
    | with_reducible apply State.Plan.element_later
    | with_reducible refine Later.of_plan (by assumption) (State.Plan.element_later ?_)
    | with_reducible apply State.Plan.elements_later
    | with_reducible refine Later.of_plan (by assumption) (State.Plan.elements_later ?_)
    | with_reducible apply State.Plan.source_later
    | with_reducible refine Later.of_plan (by assumption) (State.Plan.source_later ?_)
    | with_reducible apply State.Plan.tile_later
    | with_reducible refine Later.of_plan (by assumption) (State.Plan.tile_later ?_)
    | with_reducible apply State.Plan.dest_later
    | with_reducible refine Later.of_plan (by assumption) (State.Plan.dest_later ?_)
    | with_reducible apply State.Plan.tileDest_later
    | with_reducible refine Later.of_plan (by assumption) (State.Plan.tileDest_later ?_)
    | with_reducible apply State.Plan.disagree_later
    | with_reducible apply State.Plan.toTile_later
    | with_reducible refine Later.of_plan (by assumption) (State.Plan.toTile_later ?_)
    | with_reducible apply State.Plan.toElements_later
    | with_reducible refine Later.of_plan (by assumption) (State.Plan.toElements_later ?_)
    | with_reducible apply State.Plan.memVisit_later
    | with_reducible refine Later.of_plan (by assumption) (State.Plan.memVisit_later ?_)
    | with_reducible apply State.Plan.ringElement_later
    | with_reducible refine Later.of_plan (by assumption) (State.Plan.ringElement_later ?_)
    | with_reducible apply State.Plan.ringTile_later
    | with_reducible refine Later.of_plan (by assumption) (State.Plan.ringTile_later ?_)
    | with_reducible refine State.Plan.visit_later ?_ fun _ _ _ => ?_
    | with_reducible refine Later.of_snd (by assumption) ?_
    | with_reducible refine Later.of_fst (by assumption) ?_
    | split
    | dsimp only
    | dsimp only at *

theorem State.moveInstr_later {s0 : State} {s : State} {x : EngRef} {t : Task} {ops : MoveOps} (hs : Later s0 s) :
    Later s0 (State.moveInstr s x t ops) := by
  unfold State.moveInstr
  try dsimp only
  repeat' first
    | with_reducible assumption
    | with_reducible apply State.failTask_later
    | with_reducible apply State.goMove_later
    | with_reducible apply State.stall_later
    | with_reducible apply State.updEng_later
    | split
    | dsimp only
    | with_reducible refine Post.ok ?_
    | with_reducible exact Post.error True.intro
    | dsimp only at *
    | with_reducible refine Later.of_ok (P := fun _ => True) (by assumption) ?_
    | with_reducible refine Later.of_ok2 (P := fun _ => True) (by assumption) ?_
    | with_reducible refine Later.of_ok1 (P := fun _ => True) (by assumption) ?_

theorem State.dropXact_later {s0 : State} {s : State} {x : EngRef} {id : Nat} {v : Xact} (hs : Later s0 s) :
    Later s0 (State.dropXact s x id v) := by
  unfold State.dropXact
  try dsimp only
  repeat' first
    | with_reducible assumption
    | with_reducible apply State.updMove_later
    | split
    | dsimp only
    | dsimp only at *

theorem State.readDone_later {s0 : State} {s : State} {x : EngRef} {tag : Nat} {bs : List Byte} (hs : Later s0 s) :
    Later s0 (State.readDone s x tag bs) := by
  unfold State.readDone
  try dsimp only
  repeat' first
    | with_reducible assumption
    | with_reducible apply State.dropXact_later
    | with_reducible apply State.updMove_later
    | with_reducible apply State.carryOn_later
    | split
    | dsimp only
    | dsimp only at *

theorem State.writeDone_later {s0 : State} {s : State} {x : EngRef} {tag : Nat} (hs : Later s0 s) :
    Later s0 (State.writeDone s x tag) := by
  unfold State.writeDone
  try dsimp only
  repeat' first
    | with_reducible assumption
    | with_reducible apply State.dropXact_later
    | with_reducible apply State.incr_later
    | with_reducible apply State.carryOn_later
    | split
    | dsimp only
    | dsimp only at *

theorem State.xactError_later {s0 : State} {s : State} {x : EngRef} {tag : Nat} {code : Nat} {request : optParam Bool Bool.false} (hs : Later s0 s) :
    Later s0 (State.xactError s x tag code request) := by
  unfold State.xactError
  try dsimp only
  repeat' first
    | with_reducible assumption
    | with_reducible apply State.dropXact_later
    | with_reducible apply State.fail_later
    | with_reducible apply State.carryOn_later
    | with_reducible apply State.Plan.piece_later
    | with_reducible refine Later.of_plan (by assumption) (State.Plan.piece_later ?_)
    | with_reducible apply State.Plan.read_later
    | with_reducible refine Later.of_plan (by assumption) (State.Plan.read_later ?_)
    | with_reducible apply State.Plan.indexAt_later
    | with_reducible refine Later.of_plan (by assumption) (State.Plan.indexAt_later ?_)
    | with_reducible apply State.Plan.entry_later
    | with_reducible apply State.Plan.each_later
    | with_reducible refine Later.of_plan (by assumption) (State.Plan.each_later ?_)
    | with_reducible refine State.Plan.cells_later ?_ fun _ _ _ => ?_
    | with_reducible refine Later.of_plan (by assumption) (State.Plan.cells_later ?_ fun _ _ _ => ?_)
    | with_reducible apply State.Plan.element_later
    | with_reducible refine Later.of_plan (by assumption) (State.Plan.element_later ?_)
    | with_reducible apply State.Plan.elements_later
    | with_reducible refine Later.of_plan (by assumption) (State.Plan.elements_later ?_)
    | with_reducible apply State.Plan.source_later
    | with_reducible refine Later.of_plan (by assumption) (State.Plan.source_later ?_)
    | with_reducible apply State.Plan.tile_later
    | with_reducible refine Later.of_plan (by assumption) (State.Plan.tile_later ?_)
    | with_reducible apply State.Plan.dest_later
    | with_reducible refine Later.of_plan (by assumption) (State.Plan.dest_later ?_)
    | with_reducible apply State.Plan.tileDest_later
    | with_reducible refine Later.of_plan (by assumption) (State.Plan.tileDest_later ?_)
    | with_reducible apply State.Plan.disagree_later
    | with_reducible apply State.Plan.toTile_later
    | with_reducible refine Later.of_plan (by assumption) (State.Plan.toTile_later ?_)
    | with_reducible apply State.Plan.toElements_later
    | with_reducible refine Later.of_plan (by assumption) (State.Plan.toElements_later ?_)
    | with_reducible apply State.Plan.memVisit_later
    | with_reducible refine Later.of_plan (by assumption) (State.Plan.memVisit_later ?_)
    | with_reducible apply State.Plan.ringElement_later
    | with_reducible refine Later.of_plan (by assumption) (State.Plan.ringElement_later ?_)
    | with_reducible apply State.Plan.ringTile_later
    | with_reducible refine Later.of_plan (by assumption) (State.Plan.ringTile_later ?_)
    | with_reducible refine State.Plan.visit_later ?_ fun _ _ _ => ?_
    | split
    | dsimp only
    | dsimp only at *

theorem State.grantXact_later {s0 : State} {s : State} {x : EngRef} {id : Nat} {v : Xact} {target : Nat} {gen : Nat} (hs : Later s0 s) :
    Later s0 (State.grantXact s x id v target gen) := by
  unfold State.grantXact
  try dsimp only
  repeat' first
    | with_reducible assumption
    | with_reducible apply State.updMove_later
    | with_reducible apply State.carryOn_later
    | with_reducible apply State.complete_later
    | split
    | dsimp only
    | dsimp only at *

theorem State.completeMove_later {s0 : State} {s : State} {x : EngRef} (hs : Later s0 s) :
    Later s0 (State.completeMove s x) := by
  unfold State.completeMove
  try dsimp only
  repeat' first
    | with_reducible assumption
    | with_reducible apply State.updEng_later
    | with_reducible apply State.resumeSync_later
    | with_reducible apply State.tryDone_later
    | split
    | dsimp only
    | dsimp only at *

end Sys2Proof.Machine
end

