-- ==== Sys2Proof/Laws/AccessLater.lean ====
section
/-! SUPPORT. Operations of Machine/Access.lean lead to a later state (Safety.Later). -/

namespace Sys2Proof.Machine

theorem State.refuse_later {s0 : State} {s : State} {e : Option ErrInfo} (hs : Later s0 s) :
    Later s0 (State.refuse s e) := by
  unfold State.refuse
  try dsimp only
  repeat' first
    | with_reducible assumption
    | with_reducible apply State.logErr_later
    | with_reducible apply State.satRf_later
    | split
    | dsimp only
    | dsimp only at *

theorem State.noteModified_later {s0 : State} {s : State} {r : RegId} {old : Word} (hs : Later s0 s) :
    Later s0 (State.noteModified s r old) := by
  unfold State.noteModified
  try dsimp only
  repeat' first
    | with_reducible assumption
    | with_reducible apply State.setRf_later
    | split
    | dsimp only
    | dsimp only at *

theorem State.store_later {s0 : State} {s : State} {by' : Agent} {r : RegId} {v : Word} (hs : Later s0 s) :
    Later s0 (State.store s by' r v) := by
  unfold State.store
  try dsimp only
  repeat' first
    | with_reducible assumption
    | with_reducible apply State.logErr_later
    | with_reducible apply State.setReg_later
    | with_reducible apply State.noteModified_later
    | split
    | dsimp only
    | dsimp only at *

theorem State.access_later {s0 s : State} {by' : Agent} {tbit : Bool} {r : RegId} {f : State → State} (h : Later s0 s) (k : ∀ t, Later s0 t → Later s0 (f t)) :
    Later s0 (s.access by' tbit r f) := by
  unfold State.access
  split
  · exact State.refuse_later h
  · exact k s h

theorem State.writeRing_later {s0 : State} {s : State} {by' : Agent} {core : Nat} {n : Nat} {v : Word} (hs : Later s0 s) :
    Later s0 (State.writeRing s by' core n v) := by
  unfold State.writeRing
  try dsimp only
  repeat' first
    | with_reducible assumption
    | with_reducible apply State.store_later
    | with_reducible apply State.setRing_later
    | with_reducible apply State.setRf_later
    | with_reducible apply State.logErr_later
    | split
    | dsimp only
    | dsimp only at *

theorem State.writeWindow_later {s0 : State} {s : State} {by' : Agent} {r : RegId} {v : Word} (hs : Later s0 s) :
    Later s0 (State.writeWindow s by' r v) := by
  unfold State.writeWindow
  try dsimp only
  repeat' first
    | with_reducible assumption
    | with_reducible apply State.logErr_later
    | with_reducible apply State.store_later
    | with_reducible apply State.setRf_later
    | with_reducible apply State.flush_later
    | split
    | dsimp only
    | dsimp only at *

theorem State.flushChan_later {s0 : State} {s : State} {core : Nat} {n : Nat} (hs : Later s0 s) :
    Later s0 (State.flushChan s core n) := by
  unfold State.flushChan
  try dsimp only
  repeat' first
    | with_reducible assumption
    | with_reducible apply State.setChan_later
    | split
    | dsimp only
    | dsimp only at *

theorem State.tagStalled_later {s0 : State} {s : State} {core : Nat} {n : Nat} (hs : Later s0 s) :
    Later s0 (State.tagStalled s core n) := by
  unfold State.tagStalled
  try dsimp only
  repeat' first
    | with_reducible assumption
    | with_reducible refine State.forAll_later ?_ fun _ _ _ => ?_
    | with_reducible apply State.deliver_later
    | with_reducible apply State.admitHeld_later
    | with_reducible apply State.pump_later
    | with_reducible apply State.flush_later
    | split
    | dsimp only
    | dsimp only at *

theorem State.writeChan_later {s0 : State} {s : State} {by' : Agent} {core : Nat} {n : Nat} {v : Word} (hs : Later s0 s) :
    Later s0 (State.writeChan s by' core n v) := by
  unfold State.writeChan
  try dsimp only
  repeat' first
    | with_reducible assumption
    | with_reducible apply State.flushChan_later
    | with_reducible apply State.pump_later
    | with_reducible apply State.store_later
    | with_reducible apply State.tagStalled_later
    | split
    | dsimp only
    | dsimp only at *

end Sys2Proof.Machine
end

