-- ==== Sys2Proof/Laws/DispLater.lean ====
section
/-! SUPPORT. Operations of Machine/Disp.lean lead to a later state (Safety.Later). -/

namespace Sys2Proof.Machine

theorem State.dispFail_later {s0 : State} {s : State} {d : Nat} {code : Nat} {item : Nat} (hs : Later s0 s) :
    Later s0 (State.dispFail s d code item) := by
  unfold State.dispFail
  try dsimp only
  repeat' first
    | with_reducible assumption
    | with_reducible apply State.setReg_later
    | with_reducible apply State.abortWith_later
    | with_reducible apply State.logErr_later
    | with_reducible apply State.stopDispenser_later
    | split
    | dsimp only
    | dsimp only at *

theorem State.startList_later {s0 : State} {s : State} {d : Nat} {by' : Option Nat} (hs : Later s0 s) :
    Later s0 (State.startList s d by') := by
  unfold State.startList
  try dsimp only
  repeat' first
    | with_reducible assumption
    | with_reducible apply State.abortWith_later
    | with_reducible apply State.logErr_later
    | with_reducible apply State.setDisp_later
    | with_reducible apply State.setReg_later
    | with_reducible apply State.setRf_later
    | with_reducible apply State.pumpEnds_later
    | split
    | dsimp only
    | dsimp only at *

theorem State.writeListctl_later {s0 : State} {s : State} {by' : Agent} {d : Nat} {v : Word} {starter : optParam (Option Nat) Option.none} (hs : Later s0 s) :
    Later s0 (State.writeListctl s by' d v starter) := by
  unfold State.writeListctl
  try dsimp only
  repeat' first
    | with_reducible assumption
    | with_reducible apply State.store_later
    | with_reducible apply State.setRf_later
    | with_reducible apply State.startList_later
    | split
    | dsimp only
    | dsimp only at *

theorem State.issueItem_later {s0 : State} {s : State} {d : Nat} (hs : Later s0 s) :
    Later s0 (State.issueItem s d) := by
  unfold State.issueItem
  try dsimp only
  repeat' first
    | with_reducible assumption
    | with_reducible apply State.dispFail_later
    | with_reducible apply State.setDisp_later
    | with_reducible apply State.satRf_later
    | with_reducible apply State.pushWords_later
    | with_reducible apply State.pumpEnds_later
    | with_reducible apply State.meet_later
    | with_reducible apply State.incr_later
    | split
    | dsimp only
    | with_reducible refine Post.ok ?_
    | with_reducible exact Post.error True.intro
    | dsimp only at *
    | with_reducible refine Later.of_ok (P := fun _ => True) (by assumption) ?_
    | with_reducible refine Later.of_ok2 (P := fun _ => True) (by assumption) ?_
    | with_reducible refine Later.of_ok1 (P := fun _ => True) (by assumption) ?_

theorem State.endItems_later {s0 : State} {s : State} {t : Task} {d : Nat} (hs : Later s0 s) :
    Later s0 (State.endItems s t d) := by
  unfold State.endItems
  try dsimp only
  repeat' first
    | with_reducible assumption
    | with_reducible refine State.forAll_later ?_ fun _ _ _ => ?_
    | with_reducible apply State.updEng_later
    | with_reducible apply State.giveZeros_later
    | split
    | dsimp only
    | dsimp only at *

end Sys2Proof.Machine
end

