-- ==== Sys2Proof/Laws/AccLater.lean ====
section
/-! SUPPORT. Operations of Machine/Acc.lean lead to a later state (Safety.Later). -/

namespace Sys2Proof.Machine

theorem State.imageBytes_later {s0 : State} {s : State} {a : ArraySt} {a3 : Nat} {a4 : Nat} (hs : Later s0 s) :
    Later s0 (State.imageBytes s a a3 a4).2 := by
  induction a4 generalizing s a a3 with
  | zero =>
    unfold State.imageBytes
    try dsimp only
    repeat' first
      | with_reducible assumption
      | with_reducible apply ih
      | with_reducible refine Later.of_snd (by assumption) (ih ?_)
      | with_reducible apply State.fresh_later
      | with_reducible refine Later.of_snd (by assumption) ?_
      | with_reducible refine Later.of_fst (by assumption) ?_
      | split
      | dsimp only
      | dsimp only at *
  | succ n ih =>
    unfold State.imageBytes
    try dsimp only
    repeat' first
      | with_reducible assumption
      | with_reducible apply ih
      | with_reducible refine Later.of_snd (by assumption) (ih ?_)
      | with_reducible apply State.fresh_later
      | with_reducible refine Later.of_snd (by assumption) ?_
      | with_reducible refine Later.of_fst (by assumption) ?_
      | split
      | dsimp only
      | dsimp only at *

end Sys2Proof.Machine
end

