-- ==== Sys2Proof/Laws/Access.lean ====
section
/-! SUPPORT. What a register write does once its checks are known: it reaches the register, or leaves the notice of its refusal. -/

namespace Sys2Proof.Machine

set_option Elab.async false
set_option linter.unusedTactic false
set_option linter.unreachableTactic false
namespace State

theorem access_open {s : State} {a : Agent} {t : Bool} {r : RegId} {f : State → State} (h : s.gate a t r = none) : s.access a t r f = f s := by
  simp only [access, h]

theorem access_shut {s : State} {a : Agent} {t : Bool} {r : RegId} {f : State → State} {e : Option ErrInfo} (h : s.gate a t r = some e) :
    s.access a t r f = s.refuse e := by
  simp only [access, h]

theorem keyAction_ready {s : State} {p : Port} {n b : Nat} {f : State → State} (h : s.gate (.host p) true (blReg .blKeyctl n) = none)
    (hb : s.busy (.host p) (blReg .blKeyctl n) (BitVec.ofNat 64 (2 ^ b)) = false) : s.keyAction p n b f = f s := by
  unfold keyAction
  rw [access_open h]
  exact if_neg (by rw [hb]; decide)

/-- A write of an action bit of BL_KEYCTLn is busy only while an exchange runs, or for an agreement on a link that has its keys (R380, R381). -/
theorem keyctl_ready {s : State} {a : Agent} {n : Nat} {w : Word} (h1 : (s.link n).stage = 0) (h2 : s.rb (blReg .blStatus n) 60 = false)
    (h3 : wbit w 63 = false ∨ s.rb (blReg .blStatus n) 62 = false) : s.busy a (blReg .blKeyctl n) w = false := by
  have hl : linkOf (blReg .blKeyctl n) = n := by simp only [linkOf, blReg]; omega
  unfold busy
  simp only [show (blReg .blKeyctl n).name = .blKeyctl from rfl, hl, h1, h2]
  rcases h3 with h3 | h3 <;> simp [h3]

end State
end Sys2Proof.Machine
end

