-- ==== Sys2Proof/Laws/Bits.lean ====
section
/-! SUPPORT. Bit fields: what a field reads after a field was put, bit by bit, for numbers and for registers of State. -/

namespace Sys2Proof.Machine

set_option Elab.async false
set_option linter.unusedTactic false
set_option linter.unreachableTactic false

theorem fld_testBit (v hi lo j : Nat) : (fld v hi lo).testBit j = (decide (j < hi + 1 - lo) && v.testBit (lo + j)) := by
  rw [fld, Nat.testBit_mod_two_pow, Nat.testBit_div_two_pow]
  rw [Nat.add_comm j lo]

theorem putFld_eq (v hi lo x : Nat) (h : lo ≤ hi + 1) :
    putFld v hi lo x = 2 ^ lo * (2 ^ (hi + 1 - lo) * (v / 2 ^ (hi + 1)) + x % 2 ^ (hi + 1 - lo)) + v % 2 ^ lo := by
  have e : 2 ^ (hi + 1) = 2 ^ lo * 2 ^ (hi + 1 - lo) := by rw [← Nat.pow_add]; congr 1; omega
  have h1 : v / 2 ^ (hi + 1) = v / 2 ^ lo / 2 ^ (hi + 1 - lo) := by rw [e, Nat.div_div_eq_div_mul]
  have h2 := Nat.div_add_mod (v / 2 ^ lo) (2 ^ (hi + 1 - lo))
  have h3 := Nat.div_add_mod v (2 ^ lo)
  rw [h1, putFld, fld]
  generalize v / 2 ^ lo / 2 ^ (hi + 1 - lo) = a at *
  generalize v / 2 ^ lo % 2 ^ (hi + 1 - lo) = f at *
  generalize x % 2 ^ (hi + 1 - lo) = y
  generalize v % 2 ^ lo = r at *
  rw [← h2, Nat.mul_add] at h3
  rw [Nat.mul_add, Nat.mul_comm f, Nat.mul_comm y]
  omega

theorem putFld_testBit (v hi lo x j : Nat) (h : lo ≤ hi + 1) :
    (putFld v hi lo x).testBit j = if lo ≤ j ∧ j ≤ hi then x.testBit (j - lo) else v.testBit j := by
  rw [putFld_eq v hi lo x h, Nat.testBit_two_pow_mul_add _ (Nat.mod_lt _ (Nat.two_pow_pos lo)), Nat.testBit_two_pow_mul_add _ (Nat.mod_lt _ (Nat.two_pow_pos _)),
    Nat.testBit_mod_two_pow, Nat.testBit_mod_two_pow, Nat.testBit_div_two_pow]
  by_cases h1 : j < lo
  · rw [if_pos h1, if_neg (by omega)]; simp [h1]
  · rw [if_neg h1]
    by_cases h2 : j ≤ hi
    · rw [if_pos (by omega), if_pos (by omega)]
      have : j - lo < hi + 1 - lo := by omega
      simp [this]
    · rw [if_neg (by omega), if_neg (by omega)]
      congr 1; omega

theorem putFld_lt {v hi lo x n : Nat} (h : lo ≤ hi + 1) (hn : hi < n) (hv : v < 2 ^ n) : putFld v hi lo x < 2 ^ n := by
  apply Nat.lt_pow_two_of_testBit
  intro i hi'
  rw [putFld_testBit _ _ _ _ _ h, if_neg (by omega)]
  exact Nat.testBit_lt_two_pow (Nat.lt_of_lt_of_le hv (Nat.pow_le_pow_right (by decide) hi'))

/-- A field that was put reads as what was put, at its width. -/
theorem wfld_wput_self (w : Word) {hi lo : Nat} (x : Nat) (h : lo ≤ hi + 1) (h' : hi < 64) : wfld (wput w hi lo x) hi lo = x % 2 ^ (hi + 1 - lo) := by
  rw [wfld, wput, BitVec.toNat_ofNat, Nat.mod_eq_of_lt (putFld_lt h h' w.isLt)]
  apply Nat.eq_of_testBit_eq
  intro j
  rw [fld_testBit, putFld_testBit _ _ _ _ _ h, Nat.testBit_mod_two_pow]
  by_cases hj : j < hi + 1 - lo
  · rw [if_pos (by omega), Nat.add_sub_cancel_left]
  · simp [hj]

/-- A field of other bits reads as before. -/
theorem wfld_wput_other (w : Word) {hi lo hi' lo' : Nat} (x : Nat) (h : lo ≤ hi + 1) (h' : hi < 64) (hd : hi' < lo ∨ hi < lo') :
    wfld (wput w hi lo x) hi' lo' = wfld w hi' lo' := by
  rw [wfld, wfld, wput, BitVec.toNat_ofNat, Nat.mod_eq_of_lt (putFld_lt h h' w.isLt)]
  apply Nat.eq_of_testBit_eq
  intro j
  rw [fld_testBit, fld_testBit, putFld_testBit _ _ _ _ _ h]
  by_cases hj : j < hi' + 1 - lo'
  · rw [if_neg (by omega)]
  · simp [hj]

/-- A bit outside the field reads as before. -/
theorem wbit_wput_other (w : Word) {hi lo i : Nat} (x : Nat) (h : lo ≤ hi + 1) (h' : hi < 64) (hd : i < lo ∨ hi < i) :
    wbit (wput w hi lo x) i = wbit w i := by
  rw [wbit, wbit, BitVec.getLsbD, BitVec.getLsbD, wput, BitVec.toNat_ofNat, Nat.mod_eq_of_lt (putFld_lt h h' w.isLt), putFld_testBit _ _ _ _ _ h, if_neg (by omega)]

/-- A bit inside the field reads as the bit that was put. -/
theorem wbit_wput_self (w : Word) {hi lo i : Nat} (x : Nat) (h : lo ≤ i) (hi' : i ≤ hi) (h' : hi < 64) :
    wbit (wput w hi lo x) i = x.testBit (i - lo) := by
  have hl : lo ≤ hi + 1 := by omega
  rw [wbit, BitVec.getLsbD, wput, BitVec.toNat_ofNat, Nat.mod_eq_of_lt (putFld_lt hl h' w.isLt), putFld_testBit _ _ _ _ _ hl, if_pos ⟨h, hi'⟩]

namespace State

theorem rf_setRf_self (s : State) (r : RegId) {hi lo : Nat} (x : Nat) (h : lo ≤ hi + 1) (h' : hi < 64) :
    (s.setRf r hi lo x).rf r hi lo = x % 2 ^ (hi + 1 - lo) := by
  rw [rf, setRf, reg_setReg_self, wfld_wput_self _ _ h h']

theorem rf_setRf_field (s : State) (r : RegId) {hi lo hi' lo' : Nat} (x : Nat) (h : lo ≤ hi + 1) (h' : hi < 64) (hd : hi' < lo ∨ hi < lo') :
    (s.setRf r hi lo x).rf r hi' lo' = s.rf r hi' lo' := by
  rw [rf, setRf, reg_setReg_self, wfld_wput_other _ _ h h' hd, rf]

theorem rf_setRf_other (s : State) {r r' : RegId} (hi lo x hi' lo' : Nat) (h : r' ≠ r) : (s.setRf r hi lo x).rf r' hi' lo' = s.rf r' hi' lo' := by
  rw [rf, setRf, reg_setReg_other _ _ h, rf]

theorem reg_setRf_other (s : State) {r r' : RegId} (hi lo x : Nat) (h : r' ≠ r) : (s.setRf r hi lo x).reg r' = s.reg r' := reg_setReg_other _ _ h

theorem rb_setRf_field (s : State) (r : RegId) {hi lo i : Nat} (x : Nat) (h : lo ≤ hi + 1) (h' : hi < 64) (hd : i < lo ∨ hi < i) :
    (s.setRf r hi lo x).rb r i = s.rb r i := by
  rw [rb, setRf, reg_setReg_self, wbit_wput_other _ _ h h' hd, rb]

theorem rb_setRf_self (s : State) (r : RegId) {hi lo i : Nat} (x : Nat) (h : lo ≤ i) (hi' : i ≤ hi) (h' : hi < 64) :
    (s.setRf r hi lo x).rb r i = x.testBit (i - lo) := by
  rw [rb, setRf, reg_setReg_self, wbit_wput_self _ _ h hi' h']

theorem rb_setRf_other (s : State) {r r' : RegId} (hi lo x i : Nat) (h : r' ≠ r) : (s.setRf r hi lo x).rb r' i = s.rb r' i := by
  rw [rb, setRf, reg_setReg_other _ _ h, rb]

end State
end Sys2Proof.Machine
end

