-- ==== Sys2Proof/Laws/LaunchLater.lean ====
section
/-! SUPPORT. Operations of Machine/Launch.lean lead to a later state (Safety.Later). -/

namespace Sys2Proof.Machine

theorem State.refuseEntry_later {s0 : State} {s : State} {p : Port} {q : Nat} {entry : List Byte} {number : Nat} {code : Nat} {detail : Nat} (hs : Later s0 s) :
    Later s0 (State.refuseEntry s p q entry number code detail) := by
  unfold State.refuseEntry
  try dsimp only
  repeat' first
    | with_reducible assumption
    | with_reducible apply State.logErr_later
    | with_reducible apply State.setRf_later
    | with_reducible apply State.complete_later
    | split
    | dsimp only
    | dsimp only at *

theorem State.takeEntry_later {s0 : State} {s : State} {p : Port} {q : Nat} {entry : List Byte} {map : List Byte} (hs : Later s0 s) :
    Later s0 (State.takeEntry s p q entry map) := by
  unfold State.takeEntry
  try dsimp only
  repeat' first
    | with_reducible assumption
    | with_reducible apply State.setRf_later
    | with_reducible apply State.refuseEntry_later
    | with_reducible apply State.launch_later
    | with_reducible apply State.setTasks_later
    | with_reducible refine State.setNextTask_later ?_ (Nat.le_add_right _ _)
    | with_reducible apply State.setPort_later
    | split
    | dsimp only
    | with_reducible refine Post.ok ?_
    | with_reducible exact Post.error True.intro
    | dsimp only at *
    | with_reducible refine Later.of_ok (P := fun _ => True) (by assumption) ?_
    | with_reducible refine Later.of_ok2 (P := fun _ => True) (by assumption) ?_
    | with_reducible refine Later.of_ok1 (P := fun _ => True) (by assumption) ?_

theorem State.queueFetchFault_later {s0 : State} {s : State} {p : Port} {q : Nat} (hs : Later s0 s) :
    Later s0 (State.queueFetchFault s p q) := by
  unfold State.queueFetchFault
  try dsimp only
  repeat' first
    | with_reducible assumption
    | with_reducible apply State.setRf_later
    | with_reducible apply State.logErr_later
    | split
    | dsimp only
    | dsimp only at *

theorem State.ringBell_later {s0 : State} {s : State} {p : Port} {q : Nat} {tail : Nat} (hs : Later s0 s) :
    Later s0 (State.ringBell s p q tail) := by
  unfold State.ringBell
  try dsimp only
  repeat' first
    | with_reducible assumption
    | with_reducible apply State.setRf_later
    | split
    | dsimp only
    | dsimp only at *

theorem State.doorbell_later {s0 : State} {s : State} {p : Port} {q : Nat} {tail : Nat} (hs : Later s0 s) :
    Later s0 (State.doorbell s p q tail) := by
  unfold State.doorbell
  try dsimp only
  repeat' first
    | with_reducible assumption
    | with_reducible apply State.logErr_later
    | with_reducible apply State.ringBell_later
    | with_reducible apply State.setPort_later
    | split
    | dsimp only
    | dsimp only at *

theorem State.deliverWords_later {s0 : State} {s : State} {t : Task} {e : Nat} {ws : List Nat} (hs : Later s0 s) :
    Later s0 (State.deliverWords s t e ws) := by
  unfold State.deliverWords
  try dsimp only
  repeat' first
    | with_reducible assumption
    | with_reducible refine State.forAll_later ?_ fun _ _ _ => ?_
    | with_reducible apply State.intake_later
    | with_reducible apply State.updEng_later
    | with_reducible apply State.tryDone_later
    | split
    | dsimp only
    | dsimp only at *

theorem State.fetchBlock_later {s0 : State} {s : State} {core : Nat} {slot : Nat} {e : Nat} {words : Option (List Nat)} (hs : Later s0 s) :
    Later s0 (State.fetchBlock s core slot e words) := by
  unfold State.fetchBlock
  try dsimp only
  repeat' first
    | with_reducible assumption
    | with_reducible apply State.deliverWords_later
    | with_reducible apply State.abortWith_later
    | split
    | dsimp only
    | dsimp only at *

theorem State.expressWord_later {s0 : State} {s : State} {p : Port} {x : EngRef} {w : Nat} (hs : Later s0 s) :
    Later s0 (State.expressWord s p x w) := by
  unfold State.expressWord
  try dsimp only
  repeat' first
    | with_reducible assumption
    | with_reducible apply State.intake_later
    | with_reducible apply State.setPort_later
    | split
    | dsimp only
    | dsimp only at *

theorem State.expressWrite_later {s0 : State} {s : State} {p : Port} {offset : Nat} {data : List Byte} (hs : Later s0 s) :
    Later s0 (State.expressWrite s p offset data) := by
  unfold State.expressWrite
  try dsimp only
  repeat' first
    | with_reducible assumption
    | with_reducible apply State.logErr_later
    | with_reducible apply State.expressWord_later
    | with_reducible refine Later.foldl ?_ fun _ _ _ => ?_
    | with_reducible refine Later.foldl_with (fun p : _ × State => p.2) ?_ fun _ _ _ => ?_
    | with_reducible refine Later.foldl_with (fun p : State × _ => p.1) ?_ fun _ _ _ => ?_
    | split
    | dsimp only
    | dsimp only at *

theorem State.setWindow_later {s0 : State} {s : State} {t : Task} {g : Nat} (hs : Later s0 s) :
    Later s0 (State.setWindow s t g) := by
  unfold State.setWindow
  try dsimp only
  repeat' first
    | with_reducible assumption
    | with_reducible apply State.setReg_later
    | with_reducible refine State.forAll_later ?_ fun _ _ _ => ?_
    | split
    | dsimp only
    | dsimp only at *

theorem State.openWindow_later {s0 : State} {s : State} {t : Task} {g : Nat} (hs : Later s0 s) :
    Later s0 (State.openWindow s t g).1 := by
  unfold State.openWindow
  try dsimp only
  repeat' first
    | with_reducible assumption
    | with_reducible apply State.setWindow_later
    | with_reducible apply State.setRf_later
    | split
    | dsimp only
    | dsimp only at *

theorem State.openOthers_later {s0 : State} {s : State} {t : Task} {g : Nat} (hs : Later s0 s) :
    Later s0 (State.openOthers s t g) := by
  unfold State.openOthers
  try dsimp only
  repeat' first
    | with_reducible assumption
    | with_reducible refine State.forAll_later ?_ fun _ _ _ => ?_
    | with_reducible apply State.openWindow_later
    | with_reducible apply State.logErr_later
    | with_reducible refine Later.of_snd (by assumption) ?_
    | with_reducible refine Later.of_fst (by assumption) ?_
    | split
    | dsimp only
    | dsimp only at *

theorem State.clearSlot_later {s0 : State} {s : State} {t : Task} {g : Nat} (hs : Later s0 s) :
    Later s0 (State.clearSlot s t g) := by
  unfold State.clearSlot
  try dsimp only
  repeat' first
    | with_reducible assumption
    | with_reducible refine State.forAll_later ?_ fun _ _ _ => ?_
    | with_reducible apply State.setReg_later
    | with_reducible apply State.updEng_later
    | split
    | dsimp only
    | dsimp only at *

theorem State.loadArrays_later {s0 : State} {s : State} {t : Task} {g : Nat} (hs : Later s0 s) :
    Later s0 (State.loadArrays s t g) := by
  unfold State.loadArrays
  try dsimp only
  repeat' first
    | with_reducible assumption
    | with_reducible refine State.forAll_later ?_ fun _ _ _ => ?_
    | with_reducible apply State.setArray_later
    | with_reducible apply State.updEng_later
    | split
    | dsimp only
    | dsimp only at *

theorem State.clearFaults_later {s0 : State} {s : State} {g : Nat} {e : Nat} (hs : Later s0 s) :
    Later s0 (State.clearFaults s g e) := by
  unfold State.clearFaults
  try dsimp only
  repeat' first
    | with_reducible assumption
    | with_reducible apply State.setRf_later
    | split
    | dsimp only
    | dsimp only at *

theorem State.release_later {s0 : State} {s : State} {t : Task} {g : Nat} (hs : Later s0 s) :
    Later s0 (State.release s t g) := by
  unfold State.release
  try dsimp only
  repeat' first
    | with_reducible assumption
    | with_reducible apply State.updTask_later
    | with_reducible refine State.forAll_later ?_ fun _ _ _ => ?_
    | with_reducible apply State.updEng_later
    | with_reducible apply State.clearFaults_later
    | with_reducible apply State.decodeEarly_later
    | with_reducible apply State.loadArrays_later
    | with_reducible apply State.tryDone_later
    | with_reducible apply State.launch_later
    | split
    | dsimp only
    | dsimp only at *

theorem State.launchFail_later {s0 : State} {s : State} {t : Task} {g : Nat} {f : Fail} (hs : Later s0 s) :
    Later s0 (State.launchFail s t g f) := by
  unfold State.launchFail
  try dsimp only
  repeat' first
    | with_reducible assumption
    | with_reducible apply State.failTask_later
    | split
    | dsimp only
    | dsimp only at *

theorem State.startTask_later {s0 : State} {s : State} {t : Task} {g : Nat} (hs : Later s0 s) :
    Later s0 (State.startTask s t g) := by
  unfold State.startTask
  try dsimp only
  repeat' first
    | with_reducible assumption
    | with_reducible apply State.launchFail_later
    | with_reducible apply State.launch_later
    | with_reducible apply State.updTask_later
    | with_reducible refine State.setTrust_later ?_ ⟨Nat.min_le_right _ _, Nat.min_le_right _ _, Nat.min_le_right _ _, rfl, id, TrustLater.boot _, Nat.le_refl _⟩
    | with_reducible refine State.setTrust_later ?_ ⟨TrustLater.fuses _ _, Nat.min_le_right _ _, Nat.min_le_right _ _, rfl, id, Nat.min_le_right _ _, Nat.le_refl _⟩
    | with_reducible refine State.setTrust_later ?_ ⟨Nat.min_le_right _ _, TrustLater.fuses _ _, Nat.min_le_right _ _, rfl, id, Nat.min_le_right _ _, Nat.le_refl _⟩
    | with_reducible refine State.setTrust_later ?_ ⟨Nat.min_le_right _ _, Nat.min_le_right _ _, TrustLater.fuses _ _, rfl, id, Nat.min_le_right _ _, Nat.le_refl _⟩
    | with_reducible refine State.setTrust_later ?_ ⟨Nat.min_le_right _ _, Nat.min_le_right _ _, Nat.min_le_right _ _, rfl, fun _ => rfl, Nat.min_le_right _ _, Nat.le_refl _⟩
    | with_reducible refine State.setTrust_later ?_ ⟨Nat.min_le_right _ _, Nat.min_le_right _ _, Nat.min_le_right _ _, rfl, id, Nat.min_le_right _ _, Nat.le_refl _⟩
    | with_reducible refine State.setTrust_later ?_ ⟨Nat.min_le_right _ _, Nat.min_le_right _ _, Nat.min_le_right _ _, rfl, id, Nat.min_le_right _ _, Nat.le_succ _⟩
    | with_reducible apply State.openWindow_later
    | with_reducible apply State.openOthers_later
    | with_reducible apply State.finish_later
    | with_reducible apply State.clearSlot_later
    | with_reducible apply State.release_later
    | with_reducible apply State.Plan.piece_later
    | with_reducible refine Later.of_plan (by assumption) (State.Plan.piece_later ?_)
    | with_reducible apply State.Plan.read_later
    | with_reducible refine Later.of_plan (by assumption) (State.Plan.read_later ?_)
    | with_reducible apply State.Plan.indexAt_later
    | with_reducible refine Later.of_plan (by assumption) (State.Plan.indexAt_later ?_)
    | with_reducible apply State.Plan.entry_later
    | with_reducible apply State.Plan.each_later
    | with_reducible refine Later.of_plan (by assumption) (State.Plan.each_later ?_)
    | with_reducible refine State.Plan.cells_later ?_ fun _ _ _ => ?_
    | with_reducible refine Later.of_plan (by assumption) (State.Plan.cells_later ?_ fun _ _ _ => ?_)
    | with_reducible apply State.Plan.element_later
    | with_reducible refine Later.of_plan (by assumption) (State.Plan.element_later ?_)
    | with_reducible apply State.Plan.elements_later
    | with_reducible refine Later.of_plan (by assumption) (State.Plan.elements_later ?_)
    | with_reducible apply State.Plan.source_later
    | with_reducible refine Later.of_plan (by assumption) (State.Plan.source_later ?_)
    | with_reducible apply State.Plan.tile_later
    | with_reducible refine Later.of_plan (by assumption) (State.Plan.tile_later ?_)
    | with_reducible apply State.Plan.dest_later
    | with_reducible refine Later.of_plan (by assumption) (State.Plan.dest_later ?_)
    | with_reducible apply State.Plan.tileDest_later
    | with_reducible refine Later.of_plan (by assumption) (State.Plan.tileDest_later ?_)
    | with_reducible apply State.Plan.disagree_later
    | with_reducible apply State.Plan.toTile_later
    | with_reducible refine Later.of_plan (by assumption) (State.Plan.toTile_later ?_)
    | with_reducible apply State.Plan.toElements_later
    | with_reducible refine Later.of_plan (by assumption) (State.Plan.toElements_later ?_)
    | with_reducible apply State.Plan.memVisit_later
    | with_reducible refine Later.of_plan (by assumption) (State.Plan.memVisit_later ?_)
    | with_reducible apply State.Plan.ringElement_later
    | with_reducible refine Later.of_plan (by assumption) (State.Plan.ringElement_later ?_)
    | with_reducible apply State.Plan.ringTile_later
    | with_reducible refine Later.of_plan (by assumption) (State.Plan.ringTile_later ?_)
    | with_reducible refine State.Plan.visit_later ?_ fun _ _ _ => ?_
    | with_reducible refine Later.of_snd (by assumption) ?_
    | with_reducible refine Later.of_fst (by assumption) ?_
    | split
    | dsimp only
    | with_reducible refine Post.ok ?_
    | with_reducible exact Post.error True.intro
    | dsimp only at *
    | with_reducible refine Later.of_ok (P := fun _ => True) (by assumption) ?_
    | with_reducible refine Later.of_ok2 (P := fun _ => True) (by assumption) ?_
    | with_reducible refine Later.of_ok1 (P := fun _ => True) (by assumption) ?_

theorem State.putPieces_later {s0 : State} {s : State} {p : Nat} {a : Nat} {a4 : Nat} {a5 : List Byte} (hs : Later s0 s) :
    Post (fun _ => True) (fun p => Later s0 p) (State.putPieces s p a a4 a5) := by
  induction a generalizing s p a4 a5 with
  | zero =>
    unfold State.putPieces
    try dsimp only
    repeat' first
      | with_reducible assumption
      | with_reducible apply ih
      | with_reducible refine Later.of_ok (by assumption) (ih ?_)
      | with_reducible refine Post.map (ih ?_) fun _ _ => ?_
      | with_reducible refine Post.ok ?_
      | with_reducible refine Post.pure ?_
      | with_reducible exact Post.error True.intro
      | with_reducible exact Post.throw True.intro
      | exact True.intro
      | with_reducible apply State.writeBytes_later
      | split
      | dsimp only
      | with_reducible refine Post.bind (Post.any _) fun _ _ => ?_
      | dsimp only at *
      | with_reducible refine Later.of_ok (P := fun _ => True) (by assumption) ?_
      | with_reducible refine Later.of_ok2 (P := fun _ => True) (by assumption) ?_
      | with_reducible refine Later.of_ok1 (P := fun _ => True) (by assumption) ?_
  | succ n ih =>
    unfold State.putPieces
    try dsimp only
    repeat' first
      | with_reducible assumption
      | with_reducible apply ih
      | with_reducible refine Later.of_ok (by assumption) (ih ?_)
      | with_reducible refine Post.map (ih ?_) fun _ _ => ?_
      | with_reducible refine Post.ok ?_
      | with_reducible refine Post.pure ?_
      | with_reducible exact Post.error True.intro
      | with_reducible exact Post.throw True.intro
      | exact True.intro
      | with_reducible apply State.writeBytes_later
      | split
      | dsimp only
      | with_reducible refine Post.bind (Post.any _) fun _ _ => ?_
      | dsimp only at *
      | with_reducible refine Later.of_ok (P := fun _ => True) (by assumption) ?_
      | with_reducible refine Later.of_ok2 (P := fun _ => True) (by assumption) ?_
      | with_reducible refine Later.of_ok1 (P := fun _ => True) (by assumption) ?_

theorem State.putTable_later {s0 : State} {s : State} {p : Nat} {a : Nat} {bs : List Byte} (hs : Later s0 s) :
    Post (fun _ => True) (fun p => Later s0 p) (State.putTable s p a bs) := by
  unfold State.putTable
  try dsimp only
  repeat' first
    | with_reducible assumption
    | with_reducible refine Post.ok ?_
    | with_reducible refine Post.pure ?_
    | with_reducible exact Post.error True.intro
    | with_reducible exact Post.throw True.intro
    | exact True.intro
    | with_reducible apply State.putPieces_later
    | with_reducible refine Later.of_ok (by assumption) (State.putPieces_later ?_)
    | with_reducible refine Post.bind (State.putPieces_later (s0 := s0) ?_) fun _ _ => ?_
    | with_reducible refine Post.map (State.putPieces_later (s0 := s0) ?_) fun _ _ => ?_
    | split
    | dsimp only
    | with_reducible refine Post.bind (Post.any _) fun _ _ => ?_
    | dsimp only at *

theorem State.writeReport_later {s0 : State} {s : State} {t : Task} {g : Nat} (hs : Later s0 s) :
    Post (fun _ => True) (fun p => Later s0 p) (State.writeReport s t g) := by
  unfold State.writeReport
  try dsimp only
  repeat' first
    | with_reducible assumption
    | with_reducible refine Post.ok ?_
    | with_reducible refine Post.pure ?_
    | with_reducible exact Post.error True.intro
    | with_reducible exact Post.throw True.intro
    | exact True.intro
    | with_reducible apply State.putTable_later
    | with_reducible refine Later.of_ok (by assumption) (State.putTable_later ?_)
    | with_reducible refine Post.bind (State.putTable_later (s0 := s0) ?_) fun _ _ => ?_
    | with_reducible refine Post.map (State.putTable_later (s0 := s0) ?_) fun _ _ => ?_
    | with_reducible apply State.imageBytes_later
    | with_reducible refine Later.of_snd (by assumption) ?_
    | with_reducible refine Later.of_fst (by assumption) ?_
    | split
    | dsimp only
    | with_reducible refine Post.bind (Post.any _) fun _ _ => ?_
    | dsimp only at *
    | with_reducible refine Later.of_ok (P := fun _ => True) (by assumption) ?_
    | with_reducible refine Later.of_ok2 (P := fun _ => True) (by assumption) ?_
    | with_reducible refine Later.of_ok1 (P := fun _ => True) (by assumption) ?_

theorem State.writeReports_later {s0 : State} {s : State} {t : Task} (hs : Later s0 s) :
    Later s0 (State.writeReports s t) := by
  unfold State.writeReports
  try dsimp only
  repeat' first
    | with_reducible assumption
    | with_reducible refine State.forAll_later ?_ fun _ _ _ => ?_
    | with_reducible apply State.writeReport_later
    | with_reducible refine Later.of_ok (by assumption) (State.writeReport_later ?_)
    | with_reducible refine Post.bind (State.writeReport_later (s0 := s0) ?_) fun _ _ => ?_
    | with_reducible refine Post.map (State.writeReport_later (s0 := s0) ?_) fun _ _ => ?_
    | with_reducible apply State.failTask_later
    | split
    | dsimp only
    | with_reducible refine Post.ok ?_
    | with_reducible exact Post.error True.intro
    | dsimp only at *
    | with_reducible refine Later.of_ok (P := fun _ => True) (by assumption) ?_
    | with_reducible refine Later.of_ok2 (P := fun _ => True) (by assumption) ?_
    | with_reducible refine Later.of_ok1 (P := fun _ => True) (by assumption) ?_

theorem State.endDrain_later {s0 : State} {s : State} {t : Task} (hs : Later s0 s) :
    Later s0 (State.endDrain s t) := by
  unfold State.endDrain
  try dsimp only
  repeat' first
    | with_reducible assumption
    | with_reducible apply State.writeReports_later
    | with_reducible apply State.finish_later
    | split
    | dsimp only
    | dsimp only at *

theorem State.truncateTask_later {s0 : State} {s : State} {t : Task} (hs : Later s0 s) :
    Later s0 (State.truncateTask s t) := by
  unfold State.truncateTask
  try dsimp only
  repeat' first
    | with_reducible assumption
    | with_reducible apply State.updTask_later
    | with_reducible apply State.updEngines_later
    | with_reducible apply State.stopLists_later
    | split
    | dsimp only
    | dsimp only at *

theorem State.writeCqcfg_later {s0 : State} {s : State} {by' : Agent} {h : Nat} {q : Nat} {v : Word} (hs : Later s0 s) :
    Later s0 (State.writeCqcfg s by' h q v) := by
  unfold State.writeCqcfg
  try dsimp only
  repeat' first
    | with_reducible assumption
    | with_reducible apply State.store_later
    | with_reducible apply State.setRf_later
    | split
    | dsimp only
    | dsimp only at *

end Sys2Proof.Machine
end

