-- ==== Sys2Proof/Laws/StrataLater.lean ====
section
/-! SUPPORT. Operations of Machine/Strata.lean lead to a later state (Safety.Later). -/

namespace Sys2Proof.Machine

theorem State.sessionEntry_later {s0 : State} {s : State} {p : Nat} {kind : Nat} {count : Nat} {identity : Nat} {digest : List Byte} (hs : Later s0 s) :
    Later s0 (State.sessionEntry s p kind count identity digest) := by
  unfold State.sessionEntry
  try dsimp only
  repeat' first
    | with_reducible assumption
    | with_reducible apply State.setSession_later
    | split
    | dsimp only
    | dsimp only at *

theorem State.newGeneration_later {s0 : State} {s : State} (hs : Later s0 s) :
    Later s0 (State.newGeneration s) := by
  unfold State.newGeneration
  try dsimp only
  repeat' first
    | with_reducible assumption
    | with_reducible refine State.setLh_later ?_ ⟨List.prefix_refl _, List.prefix_refl _⟩
    | with_reducible refine State.setLh_later ?_ ⟨List.prefix_append _ _, List.prefix_refl _⟩
    | with_reducible refine State.setLh_later ?_ ⟨List.prefix_refl _, List.prefix_append _ _⟩
    | split
    | dsimp only
    | dsimp only at *

theorem State.setCore_later {s0 : State} {s : State} {g : Nat} {payload : Option (List Byte)} (hs : Later s0 s) :
    Later s0 (State.setCore s g payload) := by
  unfold State.setCore
  try dsimp only
  repeat' first
    | with_reducible assumption
    | with_reducible apply State.setReg_later
    | with_reducible apply State.load_later
    | with_reducible refine Later.foldl ?_ fun _ _ _ => ?_
    | with_reducible refine Later.foldl_with (fun p : _ × State => p.2) ?_ fun _ _ _ => ?_
    | with_reducible refine Later.foldl_with (fun p : State × _ => p.1) ?_ fun _ _ _ => ?_
    | split
    | dsimp only
    | dsimp only at *

theorem State.flushCore_later {s0 : State} {s : State} {g : Nat} (hs : Later s0 s) :
    Later s0 (State.flushCore s g) := by
  unfold State.flushCore
  try dsimp only
  repeat' first
    | with_reducible assumption
    | with_reducible apply State.setRings_later
    | with_reducible refine State.forAll_later ?_ fun _ _ _ => ?_
    | with_reducible apply State.setArray_later
    | with_reducible apply State.setChan_later
    | split
    | dsimp only
    | dsimp only at *

theorem State.loadDie_later {s0 : State} {s : State} {p : Nat} {d : Nat} {payload : Option (List Byte)} (hs : Later s0 s) :
    Later s0 (State.loadDie s p d payload) := by
  unfold State.loadDie
  try dsimp only
  repeat' first
    | with_reducible assumption
    | with_reducible apply State.setReg_later
    | with_reducible apply State.setPhase_later
    | with_reducible apply State.put_later
    | split
    | dsimp only
    | dsimp only at *

theorem State.loadPools_later {s0 : State} {s : State} {p : Nat} {sizes : List Nat} (hs : Later s0 s) :
    Later s0 (State.loadPools s p sizes) := by
  unfold State.loadPools
  try dsimp only
  repeat' first
    | with_reducible assumption
    | with_reducible refine State.forAll_later ?_ fun _ _ _ => ?_
    | with_reducible apply State.setPool_later
    | with_reducible apply State.resetPool_later
    | split
    | dsimp only
    | dsimp only at *

theorem State.loadCore_later {s0 : State} {s : State} {g : Nat} {payload : Option (List Byte)} (hs : Later s0 s) :
    Later s0 (State.loadCore s g payload) := by
  unfold State.loadCore
  try dsimp only
  repeat' first
    | with_reducible assumption
    | with_reducible apply State.setCore_later
    | with_reducible apply State.flushCore_later
    | split
    | dsimp only
    | dsimp only at *

theorem State.writeTargets_later {s0 : State} {s : State} {p : Nat} {xs : List Section} (hs : Later s0 s) :
    Later s0 (State.writeTargets s p xs) := by
  unfold State.writeTargets
  try dsimp only
  repeat' first
    | with_reducible assumption
    | with_reducible apply State.setPhase_later
    | with_reducible apply State.loadPools_later
    | with_reducible refine State.forAll_later ?_ fun _ _ _ => ?_
    | with_reducible apply State.loadDie_later
    | with_reducible apply State.setCore_later
    | split
    | dsimp only
    | dsimp only at *

theorem State.setStrata_later {s0 : State} {s : State} {p : Nat} {v : Nat} (hs : Later s0 s) :
    Later s0 (State.setStrata s p v) := by
  unfold State.setStrata
  try dsimp only
  repeat' first
    | with_reducible assumption
    | with_reducible apply State.setRf_later
    | split
    | dsimp only
    | dsimp only at *

theorem State.trySlack_later {s0 : State} {s : State} {p : Nat} (hs : Later s0 s) :
    Later s0 (State.trySlack s p) := by
  unfold State.trySlack
  try dsimp only
  repeat' first
    | with_reducible assumption
    | with_reducible apply State.setStrata_later
    | split
    | dsimp only
    | dsimp only at *

theorem State.writeHold_later {s0 : State} {s : State} {p : Nat} {hold : Bool} (hs : Later s0 s) :
    Later s0 (State.writeHold s p hold) := by
  unfold State.writeHold
  try dsimp only
  repeat' first
    | with_reducible assumption
    | with_reducible apply State.setRf_later
    | with_reducible apply State.setPhase_later
    | with_reducible apply State.setStrata_later
    | with_reducible apply State.load_later
    | split
    | dsimp only
    | dsimp only at *

theorem State.loadResult_later {s0 : State} {s : State} {p : Nat} {code : Nat} {index : Nat} (hs : Later s0 s) :
    Later s0 (State.loadResult s p code index) := by
  unfold State.loadResult
  try dsimp only
  repeat' first
    | with_reducible assumption
    | with_reducible apply State.setRf_later
    | with_reducible apply State.logErr_later
    | with_reducible apply State.load_later
    | split
    | dsimp only
    | dsimp only at *

theorem State.startLoad_later {s0 : State} {s : State} {p : Nat} (hs : Later s0 s) :
    Later s0 (State.startLoad s p) := by
  unfold State.startLoad
  try dsimp only
  repeat' first
    | with_reducible assumption
    | with_reducible apply State.loadResult_later
    | with_reducible apply State.sessionEntry_later
    | with_reducible apply State.setStrata_later
    | with_reducible apply State.setPhase_later
    | with_reducible apply State.load_later
    | split
    | dsimp only
    | with_reducible refine Post.ok ?_
    | with_reducible exact Post.error True.intro
    | dsimp only at *
    | with_reducible refine Later.of_ok (P := fun _ => True) (by assumption) ?_
    | with_reducible refine Later.of_ok2 (P := fun _ => True) (by assumption) ?_
    | with_reducible refine Later.of_ok1 (P := fun _ => True) (by assumption) ?_

theorem State.endLoading_later {s0 : State} {s : State} {p : Nat} (hs : Later s0 s) :
    Later s0 (State.endLoading s p) := by
  unfold State.endLoading
  try dsimp only
  repeat' first
    | with_reducible assumption
    | with_reducible apply State.setStrata_later
    | with_reducible apply State.setPhase_later
    | with_reducible apply State.load_later
    | split
    | dsimp only
    | dsimp only at *

theorem State.finishLoad_later {s0 : State} {s : State} {p : Nat} (hs : Later s0 s) :
    Later s0 (State.finishLoad s p) := by
  unfold State.finishLoad
  try dsimp only
  repeat' first
    | with_reducible assumption
    | with_reducible apply State.writeTargets_later
    | with_reducible refine State.forAll_later ?_ fun _ _ _ => ?_
    | with_reducible apply State.flushCore_later
    | with_reducible apply State.setPhase_later
    | with_reducible apply State.setReg_later
    | with_reducible apply State.setRf_later
    | with_reducible apply State.addRf_later
    | with_reducible apply State.newGeneration_later
    | with_reducible apply State.endLoading_later
    | split
    | dsimp only
    | with_reducible refine Post.ok ?_
    | with_reducible exact Post.error True.intro
    | dsimp only at *
    | with_reducible refine Later.of_ok (P := fun _ => True) (by assumption) ?_
    | with_reducible refine Later.of_ok2 (P := fun _ => True) (by assumption) ?_
    | with_reducible refine Later.of_ok1 (P := fun _ => True) (by assumption) ?_

theorem State.unloadImage_later {s0 : State} {s : State} {p : Nat} (hs : Later s0 s) :
    Later s0 (State.unloadImage s p) := by
  unfold State.unloadImage
  try dsimp only
  repeat' first
    | with_reducible assumption
    | with_reducible apply State.writeTargets_later
    | with_reducible apply State.setPhase_later
    | with_reducible apply State.setReg_later
    | with_reducible apply State.setRf_later
    | with_reducible apply State.newGeneration_later
    | with_reducible apply State.load_later
    | split
    | dsimp only
    | dsimp only at *

theorem State.abandonLoad_later {s0 : State} {s : State} {p : Nat} {cause : Option Nat} (hs : Later s0 s) :
    Later s0 (State.abandonLoad s p cause) := by
  unfold State.abandonLoad
  try dsimp only
  repeat' first
    | with_reducible assumption
    | with_reducible apply State.unloadImage_later
    | with_reducible apply State.setRf_later
    | with_reducible apply State.logErr_later
    | with_reducible apply State.endLoading_later
    | split
    | dsimp only
    | dsimp only at *

theorem State.reloadFrom_later {s0 : State} {s : State} {p : Nat} {kind : Nat} {die : Nat} {core : Nat} {cause : Nat} (hs : Later s0 s) :
    Later s0 (State.reloadFrom s p kind die core cause).2 := by
  unfold State.reloadFrom
  try dsimp only
  repeat' first
    | with_reducible assumption
    | with_reducible apply State.logErr_later
    | with_reducible apply State.setRf_later
    | split
    | dsimp only
    | dsimp only at *

theorem State.reloadCore_later {s0 : State} {s : State} {g : Nat} {cause : Nat} (hs : Later s0 s) :
    Later s0 (State.reloadCore s g cause) := by
  unfold State.reloadCore
  try dsimp only
  repeat' first
    | with_reducible assumption
    | with_reducible apply State.loadCore_later
    | with_reducible apply State.reloadFrom_later
    | with_reducible refine Later.of_snd (by assumption) ?_
    | with_reducible refine Later.of_fst (by assumption) ?_
    | split
    | dsimp only
    | dsimp only at *

theorem State.reloadDie_later {s0 : State} {s : State} {d : Nat} {cause : Nat} (hs : Later s0 s) :
    Later s0 (State.reloadDie s d cause) := by
  unfold State.reloadDie
  try dsimp only
  repeat' first
    | with_reducible assumption
    | with_reducible apply State.reloadFrom_later
    | with_reducible apply State.loadDie_later
    | with_reducible refine State.forAll_later ?_ fun _ _ _ => ?_
    | with_reducible apply State.reloadCore_later
    | with_reducible refine Later.of_snd (by assumption) ?_
    | with_reducible refine Later.of_fst (by assumption) ?_
    | split
    | dsimp only
    | dsimp only at *

theorem State.reloadPackage_later {s0 : State} {s : State} {p : Nat} {targets : List Nat} {cause : Nat} (hs : Later s0 s) :
    Later s0 (State.reloadPackage s p targets cause) := by
  unfold State.reloadPackage
  try dsimp only
  repeat' first
    | with_reducible assumption
    | with_reducible apply State.reloadFrom_later
    | with_reducible apply State.setPhase_later
    | with_reducible refine State.forAll_later ?_ fun _ _ _ => ?_
    | with_reducible apply State.setPool_later
    | with_reducible apply State.resetPool_later
    | with_reducible apply State.load_later
    | with_reducible refine Later.of_snd (by assumption) ?_
    | with_reducible refine Later.of_fst (by assumption) ?_
    | split
    | dsimp only
    | dsimp only at *

end Sys2Proof.Machine
end

