-- ==== Sys2Proof/Laws/SessionLater.lean ====
section
/-! SUPPORT. Operations of Machine/Session.lean lead to a later state (Safety.Later). -/

namespace Sys2Proof.Machine

theorem State.abortFor_later {s0 : State} {s : State} {t : Task} {code : Nat} {core : Nat} {seq : Nat} (hs : Later s0 s) :
    Later s0 (State.abortFor s t code core seq) := by
  unfold State.abortFor
  try dsimp only
  repeat' first
    | with_reducible assumption
    | with_reducible apply State.noteError_later
    | with_reducible apply State.abortTask_later
    | split
    | dsimp only
    | dsimp only at *

theorem State.abortTasks_later {s0 : State} {s : State} {f : Task → Bool} {code : Nat} {core : Nat} {seq : Nat} (hs : Later s0 s) :
    Later s0 (State.abortTasks s f code core seq) := by
  unfold State.abortTasks
  try dsimp only
  repeat' first
    | with_reducible assumption
    | with_reducible apply State.abortFor_later
    | with_reducible apply State.admitHeld_later
    | with_reducible refine Later.foldl ?_ fun _ _ _ => ?_
    | with_reducible refine Later.foldl_with (fun p : _ × State => p.2) ?_ fun _ _ _ => ?_
    | with_reducible refine Later.foldl_with (fun p : State × _ => p.1) ?_ fun _ _ _ => ?_
    | split
    | dsimp only
    | dsimp only at *

theorem State.drawKey_later {s0 : State} {s : State} (hs : Later s0 s) :
    Later s0 (State.drawKey s).2 := by
  unfold State.drawKey
  try dsimp only
  repeat' first
    | with_reducible assumption
    | with_reducible refine State.setTrust_later ?_ ⟨Nat.min_le_right _ _, Nat.min_le_right _ _, Nat.min_le_right _ _, rfl, id, TrustLater.boot _, Nat.le_refl _⟩
    | with_reducible refine State.setTrust_later ?_ ⟨TrustLater.fuses _ _, Nat.min_le_right _ _, Nat.min_le_right _ _, rfl, id, Nat.min_le_right _ _, Nat.le_refl _⟩
    | with_reducible refine State.setTrust_later ?_ ⟨Nat.min_le_right _ _, TrustLater.fuses _ _, Nat.min_le_right _ _, rfl, id, Nat.min_le_right _ _, Nat.le_refl _⟩
    | with_reducible refine State.setTrust_later ?_ ⟨Nat.min_le_right _ _, Nat.min_le_right _ _, TrustLater.fuses _ _, rfl, id, Nat.min_le_right _ _, Nat.le_refl _⟩
    | with_reducible refine State.setTrust_later ?_ ⟨Nat.min_le_right _ _, Nat.min_le_right _ _, Nat.min_le_right _ _, rfl, fun _ => rfl, Nat.min_le_right _ _, Nat.le_refl _⟩
    | with_reducible refine State.setTrust_later ?_ ⟨Nat.min_le_right _ _, Nat.min_le_right _ _, Nat.min_le_right _ _, rfl, id, Nat.min_le_right _ _, Nat.le_refl _⟩
    | with_reducible refine State.setTrust_later ?_ ⟨Nat.min_le_right _ _, Nat.min_le_right _ _, Nat.min_le_right _ _, rfl, id, Nat.min_le_right _ _, Nat.le_succ _⟩
    | split
    | dsimp only
    | dsimp only at *

theorem State.destroyKeys_later {s0 : State} {s : State} {p : Nat} (hs : Later s0 s) :
    Later s0 (State.destroyKeys s p) := by
  unfold State.destroyKeys
  try dsimp only
  repeat' first
    | with_reducible assumption
    | with_reducible apply State.setSession_later
    | with_reducible apply State.setRf_later
    | split
    | dsimp only
    | dsimp only at *

theorem State.clearCore_later {s0 : State} {s : State} {g : Nat} (hs : Later s0 s) :
    Later s0 (State.clearCore s g) := by
  unfold State.clearCore
  try dsimp only
  repeat' first
    | with_reducible assumption
    | with_reducible apply State.setRings_later
    | with_reducible refine State.forAll_later ?_ fun _ _ _ => ?_
    | with_reducible apply State.setArray_later
    | with_reducible apply State.setChan_later
    | with_reducible apply State.setReg_later
    | split
    | dsimp only
    | dsimp only at *

theorem State.zeroRange_later {s0 : State} {s : State} {a : Nat} {n : Nat} (hs : Later s0 s) :
    Later s0 (State.zeroRange s a n) := by
  unfold State.zeroRange
  try dsimp only
  repeat' first
    | with_reducible assumption
    | with_reducible apply State.zeroFill_later
    | with_reducible apply State.clearPoison_later
    | split
    | dsimp only
    | dsimp only at *

theorem State.scrubRanges_later {s0 : State} {s : State} {rs : List (Nat × Nat)} {failed : List Nat} (hs : Later s0 s) :
    Later s0 (State.scrubRanges s rs failed) := by
  unfold State.scrubRanges
  try dsimp only
  repeat' first
    | with_reducible assumption
    | with_reducible refine State.setMem_later ?_ (State.wf_filter _)
    | with_reducible apply State.setPoison_later
    | split
    | dsimp only
    | dsimp only at *

theorem State.beginScrub_later {s0 : State} {s : State} {p : Nat} (hs : Later s0 s) :
    Later s0 (State.beginScrub s p) := by
  unfold State.beginScrub
  try dsimp only
  repeat' first
    | with_reducible assumption
    | with_reducible apply State.setSession_later
    | with_reducible apply State.destroyKeys_later
    | split
    | dsimp only
    | dsimp only at *

theorem State.sessionError_later {s0 : State} {s : State} {p : Nat} {code : Nat} {seq : Nat} (hs : Later s0 s) :
    Later s0 (State.sessionError s p code seq) := by
  unfold State.sessionError
  try dsimp only
  repeat' first
    | with_reducible assumption
    | with_reducible apply State.setSession_later
    | with_reducible apply State.abortTask_later
    | with_reducible apply State.admitHeld_later
    | with_reducible apply State.abortTasks_later
    | with_reducible apply State.beginScrub_later
    | with_reducible refine Later.foldl ?_ fun _ _ _ => ?_
    | with_reducible refine Later.foldl_with (fun p : _ × State => p.2) ?_ fun _ _ _ => ?_
    | with_reducible refine Later.foldl_with (fun p : State × _ => p.1) ?_ fun _ _ _ => ?_
    | split
    | dsimp only
    | dsimp only at *

theorem State.sessionErrors_later {s0 : State} {s : State} {code : Nat} {seq : Nat} (hs : Later s0 s) :
    Later s0 (State.sessionErrors s code seq) := by
  unfold State.sessionErrors
  try dsimp only
  repeat' first
    | with_reducible assumption
    | with_reducible refine State.forAll_later ?_ fun _ _ _ => ?_
    | with_reducible apply State.sessionError_later
    | split
    | dsimp only
    | dsimp only at *

theorem State.dropFrame_later {s0 : State} {s : State} {f : Frame} {code : Nat} {seq : Nat} (hs : Later s0 s) :
    Later s0 (State.dropFrame s f code seq) := by
  unfold State.dropFrame
  try dsimp only
  repeat' first
    | with_reducible assumption
    | with_reducible apply State.abortFor_later
    | with_reducible apply State.dropXact_later
    | with_reducible apply State.carryOn_later
    | split
    | dsimp only
    | dsimp only at *

theorem State.linkDown_later {s0 : State} {s : State} {n : Nat} {keep : Bool} {cause : Option Nat} (hs : Later s0 s) :
    Later s0 (State.linkDown s n keep cause) := by
  unfold State.linkDown
  try dsimp only
  repeat' first
    | with_reducible assumption
    | with_reducible apply State.logErr_later
    | with_reducible apply State.setReg_later
    | with_reducible apply State.setLink_later
    | with_reducible apply State.setPool_later
    | with_reducible apply State.dropFrame_later
    | with_reducible apply State.returnCredits_later
    | with_reducible refine Later.foldl ?_ fun _ _ _ => ?_
    | with_reducible refine Later.foldl_with (fun p : _ × State => p.2) ?_ fun _ _ _ => ?_
    | with_reducible refine Later.foldl_with (fun p : State × _ => p.1) ?_ fun _ _ _ => ?_
    | split
    | dsimp only
    | dsimp only at *

theorem State.cxlDown_later {s0 : State} {s : State} {p : Nat} {code : Nat} {cause : Option Nat} (hs : Later s0 s) :
    Later s0 (State.cxlDown s p code cause) := by
  unfold State.cxlDown
  try dsimp only
  repeat' first
    | with_reducible assumption
    | with_reducible apply State.logErr_later
    | with_reducible apply State.abortFor_later
    | with_reducible apply State.setReg_later
    | with_reducible apply State.setRf_later
    | with_reducible apply State.setCxl_later
    | with_reducible apply State.newGeneration_later
    | with_reducible refine Later.foldl ?_ fun _ _ _ => ?_
    | with_reducible refine Later.foldl_with (fun p : _ × State => p.2) ?_ fun _ _ _ => ?_
    | with_reducible refine Later.foldl_with (fun p : State × _ => p.1) ?_ fun _ _ _ => ?_
    | split
    | dsimp only
    | dsimp only at *

end Sys2Proof.Machine
end

