-- ==== Sys2Proof/Laws/RecoveryLater.lean ====
section
/-! SUPPORT. Operations of Machine/Recovery.lean lead to a later state (Safety.Later). -/

namespace Sys2Proof.Machine

theorem State.putRecovery_later {s0 : State} {s : State} {n : Nat} {r : Recovery} (hs : Later s0 s) :
    Later s0 (State.putRecovery s n r) := by
  unfold State.putRecovery
  try dsimp only
  repeat' first
    | with_reducible assumption
    | with_reducible refine State.setLh_later ?_ ⟨List.prefix_refl _, List.prefix_refl _⟩
    | with_reducible refine State.setLh_later ?_ ⟨List.prefix_append _ _, List.prefix_refl _⟩
    | with_reducible refine State.setLh_later ?_ ⟨List.prefix_refl _, List.prefix_append _ _⟩
    | with_reducible apply State.put_later
    | split
    | dsimp only
    | dsimp only at *

theorem State.dropRecovery_later {s0 : State} {s : State} {n : Nat} (hs : Later s0 s) :
    Later s0 (State.dropRecovery s n) := by
  unfold State.dropRecovery
  try dsimp only
  repeat' first
    | with_reducible assumption
    | with_reducible refine State.setLh_later ?_ ⟨List.prefix_refl _, List.prefix_refl _⟩
    | with_reducible refine State.setLh_later ?_ ⟨List.prefix_append _ _, List.prefix_refl _⟩
    | with_reducible refine State.setLh_later ?_ ⟨List.prefix_refl _, List.prefix_append _ _⟩
    | split
    | dsimp only
    | dsimp only at *

theorem State.enterRecovery_later {s0 : State} {s : State} {n : Nat} {r : Recovery} {code : Nat} {seq : Nat} (hs : Later s0 s) :
    Later s0 (State.enterRecovery s n r code seq) := by
  unfold State.enterRecovery
  try dsimp only
  repeat' first
    | with_reducible assumption
    | with_reducible apply State.putRecovery_later
    | with_reducible apply State.abortTasks_later
    | with_reducible refine State.forAll_later ?_ fun _ _ _ => ?_
    | with_reducible apply State.stopDispenser_later
    | with_reducible apply State.abandonLoad_later
    | with_reducible apply State.linkDown_later
    | with_reducible apply State.cxlDown_later
    | with_reducible apply State.sessionErrors_later
    | with_reducible apply State.newGeneration_later
    | split
    | dsimp only
    | dsimp only at *

theorem State.beginRecovery_later {s0 : State} {s : State} {r : Recovery} {code : Nat} {seq : Nat} (hs : Later s0 s) :
    Later s0 (State.beginRecovery s r code seq) := by
  unfold State.beginRecovery
  try dsimp only
  repeat' first
    | with_reducible assumption
    | with_reducible apply State.enterRecovery_later
    | with_reducible refine State.setLh_later ?_ ⟨List.prefix_refl _, List.prefix_refl _⟩
    | with_reducible refine State.setLh_later ?_ ⟨List.prefix_append _ _, List.prefix_refl _⟩
    | with_reducible refine State.setLh_later ?_ ⟨List.prefix_refl _, List.prefix_append _ _⟩
    | with_reducible apply State.abortTasks_later
    | split
    | dsimp only
    | dsimp only at *

theorem State.startWaiting_later {s0 : State} {s : State} {a : Nat} (hs : Later s0 s) :
    Later s0 (State.startWaiting s a) := by
  induction a generalizing s with
  | zero =>
    unfold State.startWaiting
    try dsimp only
    repeat' first
      | with_reducible assumption
      | with_reducible apply ih
      | with_reducible refine State.setLh_later ?_ ⟨List.prefix_refl _, List.prefix_refl _⟩
      | with_reducible refine State.setLh_later ?_ ⟨List.prefix_append _ _, List.prefix_refl _⟩
      | with_reducible refine State.setLh_later ?_ ⟨List.prefix_refl _, List.prefix_append _ _⟩
      | with_reducible apply State.enterRecovery_later
      | split
      | dsimp only
      | dsimp only at *
  | succ n ih =>
    unfold State.startWaiting
    try dsimp only
    repeat' first
      | with_reducible assumption
      | with_reducible apply ih
      | with_reducible refine State.setLh_later ?_ ⟨List.prefix_refl _, List.prefix_refl _⟩
      | with_reducible refine State.setLh_later ?_ ⟨List.prefix_append _ _, List.prefix_refl _⟩
      | with_reducible refine State.setLh_later ?_ ⟨List.prefix_refl _, List.prefix_append _ _⟩
      | with_reducible apply State.enterRecovery_later
      | split
      | dsimp only
      | dsimp only at *

theorem State.widenWaiting_later {s0 : State} {s : State} {f : Recovery} {code : Nat} {seq : Nat} (hs : Later s0 s) :
    Later s0 (State.widenWaiting s f code seq) := by
  unfold State.widenWaiting
  try dsimp only
  repeat' first
    | with_reducible assumption
    | with_reducible refine State.setLh_later ?_ ⟨List.prefix_refl _, List.prefix_refl _⟩
    | with_reducible refine State.setLh_later ?_ ⟨List.prefix_append _ _, List.prefix_refl _⟩
    | with_reducible refine State.setLh_later ?_ ⟨List.prefix_refl _, List.prefix_append _ _⟩
    | with_reducible apply State.logErr_later
    | with_reducible apply State.abortTasks_later
    | split
    | dsimp only
    | dsimp only at *

theorem State.escalate_later {s0 : State} {s : State} {f : Recovery} {starts : Bool} {code : Nat} {seq : Nat} (hs : Later s0 s) :
    Later s0 (State.escalate s f starts code seq) := by
  unfold State.escalate
  try dsimp only
  repeat' first
    | with_reducible assumption
    | with_reducible apply State.widenWaiting_later
    | with_reducible apply State.beginRecovery_later
    | with_reducible apply State.putRecovery_later
    | with_reducible apply State.setPkg_later
    | with_reducible apply State.logErr_later
    | with_reducible apply State.enterRecovery_later
    | with_reducible refine State.setLh_later ?_ ⟨List.prefix_refl _, List.prefix_refl _⟩
    | with_reducible refine State.setLh_later ?_ ⟨List.prefix_append _ _, List.prefix_refl _⟩
    | with_reducible refine State.setLh_later ?_ ⟨List.prefix_refl _, List.prefix_append _ _⟩
    | with_reducible apply State.startWaiting_later
    | split
    | dsimp only
    | dsimp only at *

theorem State.manage_later {s0 : State} {s : State} {e : ErrInfo} {level : Nat} {kind : Nat} {unit : Nat} {starts : Bool} (hs : Later s0 s) :
    Later s0 (State.manage s e level kind unit starts) := by
  unfold State.manage
  try dsimp only
  repeat' first
    | with_reducible assumption
    | with_reducible apply State.logErr_later
    | with_reducible apply State.escalate_later
    | split
    | dsimp only
    | dsimp only at *

theorem State.resetBlock_later {s0 : State} {s : State} {b : RegBlock} {unit : Nat} {keep : RegName → Bool} (hs : Later s0 s) :
    Later s0 (State.resetBlock s b unit keep) := by
  unfold State.resetBlock
  try dsimp only
  repeat' first
    | with_reducible assumption
    | with_reducible apply State.dropRegs_later
    | split
    | dsimp only
    | dsimp only at *

theorem State.resetCore_later {s0 : State} {s : State} {g : Nat} {slots : List Nat} (hs : Later s0 s) :
    Later s0 (State.resetCore s g slots) := by
  unfold State.resetCore
  try dsimp only
  repeat' first
    | with_reducible assumption
    | with_reducible apply State.zeroRange_later
    | with_reducible apply State.clearCore_later
    | with_reducible refine State.forAll_later ?_ fun _ _ _ => ?_
    | with_reducible apply State.setArray_later
    | with_reducible apply State.setEng_later
    | with_reducible apply State.setRotation_later
    | with_reducible apply State.resetBlock_later
    | with_reducible refine Later.foldl ?_ fun _ _ _ => ?_
    | with_reducible refine Later.foldl_with (fun p : _ × State => p.2) ?_ fun _ _ _ => ?_
    | with_reducible refine Later.foldl_with (fun p : State × _ => p.1) ?_ fun _ _ _ => ?_
    | split
    | dsimp only
    | dsimp only at *

theorem State.applyRepairs_later {s0 : State} {s : State} {d : Nat} (hs : Later s0 s) :
    Later s0 (State.applyRepairs s d) := by
  unfold State.applyRepairs
  try dsimp only
  repeat' first
    | with_reducible assumption
    | with_reducible refine State.forAll_later ?_ fun _ _ _ => ?_
    | with_reducible apply State.setRf_later
    | split
    | dsimp only
    | dsimp only at *

theorem State.resetDie_later {s0 : State} {s : State} {d : Nat} (hs : Later s0 s) :
    Later s0 (State.resetDie s d) := by
  unfold State.resetDie
  try dsimp only
  repeat' first
    | with_reducible assumption
    | with_reducible refine State.forAll_later ?_ fun _ _ _ => ?_
    | with_reducible apply State.resetCore_later
    | with_reducible apply State.zeroRange_later
    | with_reducible apply State.setDisp_later
    | with_reducible apply State.resetBlock_later
    | with_reducible apply State.applyRepairs_later
    | split
    | dsimp only
    | dsimp only at *

theorem State.rebuild_later {s0 : State} {s : State} {r : Recovery} (hs : Later s0 s) :
    Later s0 (State.rebuild s r) := by
  unfold State.rebuild
  try dsimp only
  repeat' first
    | with_reducible assumption
    | with_reducible apply State.resetCore_later
    | with_reducible apply State.reloadCore_later
    | with_reducible refine State.forAll_later ?_ fun _ _ _ => ?_
    | with_reducible apply State.resetDie_later
    | with_reducible apply State.resetBlock_later
    | with_reducible apply State.unloadImage_later
    | with_reducible apply State.reloadDie_later
    | with_reducible apply State.reloadPackage_later
    | split
    | dsimp only
    | dsimp only at *

theorem State.bringUpAgain_later {s0 : State} {s : State} {r : Recovery} (hs : Later s0 s) :
    Later s0 (State.bringUpAgain s r) := by
  unfold State.bringUpAgain
  try dsimp only
  repeat' first
    | with_reducible assumption
    | with_reducible refine State.forAll_later ?_ fun _ _ _ => ?_
    | with_reducible apply State.setCxl_later
    | with_reducible apply State.setRf_later
    | split
    | dsimp only
    | dsimp only at *

theorem State.retryScrubs_later {s0 : State} {s : State} (hs : Later s0 s) :
    Later s0 (State.retryScrubs s) := by
  unfold State.retryScrubs
  try dsimp only
  repeat' first
    | with_reducible assumption
    | with_reducible apply State.setSession_later
    | with_reducible refine Later.foldl ?_ fun _ _ _ => ?_
    | with_reducible refine Later.foldl_with (fun p : _ × State => p.2) ?_ fun _ _ _ => ?_
    | with_reducible refine Later.foldl_with (fun p : State × _ => p.1) ?_ fun _ _ _ => ?_
    | split
    | dsimp only
    | dsimp only at *

theorem State.endDrains_later {s0 : State} {s : State} {r : Recovery} (hs : Later s0 s) :
    Later s0 (State.endDrains s r) := by
  unfold State.endDrains
  try dsimp only
  repeat' first
    | with_reducible assumption
    | with_reducible apply State.endDrain_later
    | with_reducible refine Later.foldl ?_ fun _ _ _ => ?_
    | with_reducible refine Later.foldl_with (fun p : _ × State => p.2) ?_ fun _ _ _ => ?_
    | with_reducible refine Later.foldl_with (fun p : State × _ => p.1) ?_ fun _ _ _ => ?_
    | split
    | dsimp only
    | dsimp only at *

theorem State.layoutSplit_later {s0 : State} {s : State} (hs : Later s0 s) :
    Later s0 (State.layoutSplit s) := by
  unfold State.layoutSplit
  try dsimp only
  repeat' first
    | with_reducible assumption
    | with_reducible apply State.setPkg_later
    | split
    | dsimp only
    | dsimp only at *

theorem State.passUnits_later {s0 : State} {s : State} {old : Package} (hs : Later s0 s) :
    Later s0 (State.passUnits s old) := by
  unfold State.passUnits
  try dsimp only
  repeat' first
    | with_reducible assumption
    | with_reducible refine State.forAll_later ?_ fun _ _ _ => ?_
    | with_reducible apply State.setSession_later
    | split
    | dsimp only
    | dsimp only at *

theorem State.disableQueues_later {s0 : State} {s : State} (hs : Later s0 s) :
    Later s0 (State.disableQueues s) := by
  unfold State.disableQueues
  try dsimp only
  repeat' first
    | with_reducible assumption
    | with_reducible refine State.forAll_later ?_ fun _ _ _ => ?_
    | with_reducible apply State.setRf_later
    | with_reducible refine Later.foldl ?_ fun _ _ _ => ?_
    | with_reducible refine Later.foldl_with (fun p : _ × State => p.2) ?_ fun _ _ _ => ?_
    | with_reducible refine Later.foldl_with (fun p : State × _ => p.1) ?_ fun _ _ _ => ?_
    | split
    | dsimp only
    | dsimp only at *

theorem State.clearShares_later {s0 : State} {s : State} (hs : Later s0 s) :
    Later s0 (State.clearShares s) := by
  unfold State.clearShares
  try dsimp only
  repeat' first
    | with_reducible assumption
    | with_reducible apply State.dropRegs_later
    | split
    | dsimp only
    | dsimp only at *

theorem State.afterMode_later {s0 : State} {s : State} {old : Package} (hs : Later s0 s) :
    Later s0 (State.afterMode s old) := by
  unfold State.afterMode
  try dsimp only
  repeat' first
    | with_reducible assumption
    | with_reducible refine State.forAll_later ?_ fun _ _ _ => ?_
    | with_reducible apply State.unloadImage_later
    | with_reducible apply State.clearShares_later
    | with_reducible apply State.disableQueues_later
    | with_reducible apply State.passUnits_later
    | with_reducible apply State.newGeneration_later
    | split
    | dsimp only
    | dsimp only at *

theorem State.enterSplit_later {s0 : State} {s : State} (hs : Later s0 s) :
    Later s0 (State.enterSplit s) := by
  unfold State.enterSplit
  try dsimp only
  repeat' first
    | with_reducible assumption
    | with_reducible apply State.layoutSplit_later
    | with_reducible apply State.afterMode_later
    | split
    | dsimp only
    | dsimp only at *

theorem State.enterUnified_later {s0 : State} {s : State} {toE : Bool} (hs : Later s0 s) :
    Later s0 (State.enterUnified s toE) := by
  unfold State.enterUnified
  try dsimp only
  repeat' first
    | with_reducible assumption
    | with_reducible apply State.setPkg_later
    | with_reducible apply State.afterMode_later
    | split
    | dsimp only
    | dsimp only at *

end Sys2Proof.Machine
end

