-- ==== Sys2Proof/Laws/NetLater.lean ====
section
/-! SUPPORT. Operations of Machine/Net.lean lead to a later state (Safety.Later). -/

namespace Sys2Proof.Machine

theorem State.linkStamp_later {s0 : State} {s : State} {n : Nat} {f : LinkOut} (hs : Later s0 s) :
    Later s0 (State.linkStamp s n f) := by
  unfold State.linkStamp
  try dsimp only
  repeat' first
    | with_reducible assumption
    | with_reducible apply State.setLink_later
    | with_reducible apply State.addRf_later
    | with_reducible apply State.emit_later
    | split
    | dsimp only
    | dsimp only at *

theorem State.linkPut_later {s0 : State} {s : State} {n : Nat} {f : LinkOut} (hs : Later s0 s) :
    Later s0 (State.linkPut s n f) := by
  unfold State.linkPut
  try dsimp only
  repeat' first
    | with_reducible assumption
    | with_reducible apply State.setLink_later
    | with_reducible apply State.linkStamp_later
    | with_reducible apply State.returnCredits_later
    | split
    | dsimp only
    | dsimp only at *

theorem State.linkSend_later {s0 : State} {s : State} {n : Nat} {f : Frame} (hs : Later s0 s) :
    Later s0 (State.linkSend s n f) := by
  unfold State.linkSend
  try dsimp only
  repeat' first
    | with_reducible assumption
    | with_reducible apply State.linkPut_later
    | split
    | dsimp only
    | dsimp only at *

theorem State.linkFlush_later {s0 : State} {s : State} {n : Nat} (hs : Later s0 s) :
    Later s0 (State.linkFlush s n) := by
  unfold State.linkFlush
  try dsimp only
  repeat' first
    | with_reducible assumption
    | with_reducible apply State.linkPut_later
    | with_reducible apply State.setLink_later
    | with_reducible refine Later.foldl ?_ fun _ _ _ => ?_
    | with_reducible refine Later.foldl_with (fun p : _ × State => p.2) ?_ fun _ _ _ => ?_
    | with_reducible refine Later.foldl_with (fun p : State × _ => p.1) ?_ fun _ _ _ => ?_
    | split
    | dsimp only
    | dsimp only at *

theorem State.linkMessage_later {s0 : State} {s : State} {n : Nat} {subtype : Nat} {bytes : List Byte} (hs : Later s0 s) :
    Later s0 (State.linkMessage s n subtype bytes) := by
  unfold State.linkMessage
  try dsimp only
  repeat' first
    | with_reducible assumption
    | with_reducible apply State.linkPut_later
    | with_reducible apply State.emit_later
    | with_reducible refine Later.foldl ?_ fun _ _ _ => ?_
    | with_reducible refine Later.foldl_with (fun p : _ × State => p.2) ?_ fun _ _ _ => ?_
    | with_reducible refine Later.foldl_with (fun p : State × _ => p.1) ?_ fun _ _ _ => ?_
    | split
    | dsimp only
    | dsimp only at *

theorem State.returnFor_later {s0 : State} {s : State} {f : Frame} (hs : Later s0 s) :
    Later s0 (State.returnFor s f) := by
  unfold State.returnFor
  try dsimp only
  repeat' first
    | with_reducible assumption
    | with_reducible apply State.returnCredits_later
    | with_reducible refine State.access_later ?_ fun _ _ => ?_
    | split
    | dsimp only
    | dsimp only at *

theorem State.landFrame_later {s0 : State} {s : State} {f : Frame} (hs : Later s0 s) :
    Later s0 (State.landFrame s f) := by
  unfold State.landFrame
  try dsimp only
  repeat' first
    | with_reducible assumption
    | with_reducible apply State.landBytes_later
    | with_reducible apply State.setLanded_later
    | with_reducible apply State.returnFor_later
    | with_reducible apply State.incr_later
    | split
    | dsimp only
    | dsimp only at *

theorem State.serveWrite_later {s0 : State} {s : State} {f : Frame} (hs : Later s0 s) :
    Later s0 (State.serveWrite s f).2 := by
  unfold State.serveWrite
  try dsimp only
  repeat' first
    | with_reducible assumption
    | with_reducible apply State.returnFor_later
    | with_reducible apply State.landFrame_later
    | split
    | dsimp only
    | dsimp only at *

theorem State.serveRead_later {s0 : State} {s : State} {f : Frame} {media : Media} (hs : Later s0 s) :
    Later s0 (State.serveRead s f media).2 := by
  unfold State.serveRead
  try dsimp only
  repeat' first
    | with_reducible assumption
    | with_reducible apply State.strike_later
    | with_reducible apply State.meet_later
    | split
    | dsimp only
    | with_reducible refine Post.ok ?_
    | with_reducible exact Post.error True.intro
    | dsimp only at *
    | with_reducible refine Later.of_ok (P := fun _ => True) (by assumption) ?_
    | with_reducible refine Later.of_ok2 (P := fun _ => True) (by assumption) ?_
    | with_reducible refine Later.of_ok1 (P := fun _ => True) (by assumption) ?_

theorem State.ringBells_later {s0 : State} {s : State} {p : Port} (hs : Later s0 s) :
    Later s0 (State.ringBells s p) := by
  unfold State.ringBells
  try dsimp only
  repeat' first
    | with_reducible assumption
    | with_reducible apply State.ringBell_later
    | with_reducible apply State.setPort_later
    | with_reducible refine Later.foldl ?_ fun _ _ _ => ?_
    | with_reducible refine Later.foldl_with (fun p : _ × State => p.2) ?_ fun _ _ _ => ?_
    | with_reducible refine Later.foldl_with (fun p : State × _ => p.1) ?_ fun _ _ _ => ?_
    | split
    | dsimp only
    | dsimp only at *

theorem State.releaseWrite_later {s0 : State} {s : State} {p : Port} {tag : Nat} (hs : Later s0 s) :
    Later s0 (State.releaseWrite s p tag) := by
  unfold State.releaseWrite
  try dsimp only
  repeat' first
    | with_reducible assumption
    | with_reducible apply State.setPort_later
    | with_reducible apply State.ringBells_later
    | with_reducible apply State.send_later
    | split
    | dsimp only
    | dsimp only at *

theorem State.endRotation_later {s0 : State} {s : State} {p : Nat} (hs : Later s0 s) :
    Later s0 (State.endRotation s p) := by
  unfold State.endRotation
  try dsimp only
  repeat' first
    | with_reducible assumption
    | with_reducible apply State.setSession_later
    | with_reducible apply State.sessionEntry_later
    | split
    | dsimp only
    | dsimp only at *

theorem State.outboundWrite_later {s0 : State} {s : State} {f : Frame} (hs : Later s0 s) :
    Later s0 (State.outboundWrite s f) := by
  unfold State.outboundWrite
  try dsimp only
  repeat' first
    | with_reducible assumption
    | with_reducible apply State.send_later
    | with_reducible apply State.setLink_later
    | with_reducible apply State.linkSend_later
    | split
    | dsimp only
    | dsimp only at *

theorem State.writeLanded_later {s0 : State} {s : State} {f : Frame} (hs : Later s0 s) :
    Later s0 (State.writeLanded s f) := by
  unfold State.writeLanded
  try dsimp only
  repeat' first
    | with_reducible assumption
    | with_reducible apply State.writeDone_later
    | with_reducible apply State.releaseWrite_later
    | split
    | dsimp only
    | dsimp only at *

theorem State.takeWrite_later {s0 : State} {s : State} {f : Frame} (hs : Later s0 s) :
    Later s0 (State.takeWrite s f) := by
  unfold State.takeWrite
  try dsimp only
  repeat' first
    | with_reducible assumption
    | with_reducible apply State.arrived_later
    | with_reducible apply State.outboundWrite_later
    | with_reducible apply State.serveWrite_later
    | with_reducible apply State.send_later
    | with_reducible apply State.writeLanded_later
    | with_reducible apply State.endRotation_later
    | with_reducible refine Later.of_snd (by assumption) ?_
    | with_reducible refine Later.of_fst (by assumption) ?_
    | split
    | dsimp only
    | dsimp only at *

theorem State.takeRead_later {s0 : State} {s : State} {f : Frame} {media : Media} (hs : Later s0 s) :
    Later s0 (State.takeRead s f media) := by
  unfold State.takeRead
  try dsimp only
  repeat' first
    | with_reducible assumption
    | with_reducible apply State.arrived_later
    | with_reducible apply State.send_later
    | with_reducible apply State.setLink_later
    | with_reducible apply State.linkSend_later
    | with_reducible apply State.serveRead_later
    | with_reducible refine Later.of_snd (by assumption) ?_
    | with_reducible refine Later.of_fst (by assumption) ?_
    | split
    | dsimp only
    | with_reducible refine Post.ok ?_
    | with_reducible exact Post.error True.intro
    | dsimp only at *
    | with_reducible refine Later.of_ok (P := fun _ => True) (by assumption) ?_
    | with_reducible refine Later.of_ok2 (P := fun _ => True) (by assumption) ?_
    | with_reducible refine Later.of_ok1 (P := fun _ => True) (by assumption) ?_

theorem State.takeResponse_later {s0 : State} {s : State} {f : Frame} (hs : Later s0 s) :
    Later s0 (State.takeResponse s f) := by
  unfold State.takeResponse
  try dsimp only
  repeat' first
    | with_reducible assumption
    | with_reducible apply State.arrived_later
    | with_reducible apply State.readDone_later
    | with_reducible apply State.endRotation_later
    | with_reducible apply State.linkSend_later
    | split
    | dsimp only
    | dsimp only at *

theorem State.takeRequest_later {s0 : State} {s : State} {f : Frame} (hs : Later s0 s) :
    Later s0 (State.takeRequest s f) := by
  unfold State.takeRequest
  try dsimp only
  repeat' first
    | with_reducible assumption
    | with_reducible apply State.arrived_later
    | with_reducible apply State.send_later
    | with_reducible apply State.setPool_later
    | with_reducible apply State.serve_later
    | split
    | dsimp only
    | dsimp only at *

theorem State.grantEngine_later {s0 : State} {s : State} {f : Frame} (hs : Later s0 s) :
    Later s0 (State.grantEngine s f) := by
  unfold State.grantEngine
  try dsimp only
  repeat' first
    | with_reducible assumption
    | with_reducible apply State.send_later
    | with_reducible apply State.retire_later
    | with_reducible apply State.grantXact_later
    | split
    | dsimp only
    | dsimp only at *

theorem State.takeGrant_later {s0 : State} {s : State} {f : Frame} (hs : Later s0 s) :
    Later s0 (State.takeGrant s f) := by
  unfold State.takeGrant
  try dsimp only
  repeat' first
    | with_reducible assumption
    | with_reducible apply State.arrived_later
    | with_reducible apply State.grantEngine_later
    | with_reducible apply State.send_later
    | with_reducible apply State.linkSend_later
    | split
    | dsimp only
    | dsimp only at *

theorem State.takeSignal_later {s0 : State} {s : State} {f : Frame} (hs : Later s0 s) :
    Later s0 (State.takeSignal s f) := by
  unfold State.takeSignal
  try dsimp only
  repeat' first
    | with_reducible assumption
    | with_reducible apply State.arrived_later
    | with_reducible apply State.send_later
    | with_reducible apply State.returnFor_later
    | with_reducible apply State.incr_later
    | split
    | dsimp only
    | dsimp only at *

theorem State.takeWords_later {s0 : State} {s : State} {f : Frame} (hs : Later s0 s) :
    Later s0 (State.takeWords s f) := by
  unfold State.takeWords
  try dsimp only
  repeat' first
    | with_reducible assumption
    | with_reducible apply State.arrived_later
    | with_reducible apply State.send_later
    | with_reducible apply State.pushWords_later
    | with_reducible apply State.returnFor_later
    | split
    | dsimp only
    | dsimp only at *

theorem State.takeError_later {s0 : State} {s : State} {f : Frame} (hs : Later s0 s) :
    Later s0 (State.takeError s f) := by
  unfold State.takeError
  try dsimp only
  repeat' first
    | with_reducible assumption
    | with_reducible apply State.arrived_later
    | with_reducible apply State.linkSend_later
    | with_reducible apply State.releaseWrite_later
    | with_reducible apply State.logErr_later
    | with_reducible apply State.fail_later
    | with_reducible apply State.xactError_later
    | with_reducible apply State.complete_later
    | split
    | dsimp only
    | dsimp only at *

theorem State.trimKeys_later {s0 : State} {s : State} {n : Nat} (hs : Later s0 s) :
    Later s0 (State.trimKeys s n) := by
  unfold State.trimKeys
  try dsimp only
  repeat' first
    | with_reducible assumption
    | with_reducible apply State.setLink_later
    | with_reducible apply State.setRf_later
    | with_reducible apply State.linkFlush_later
    | with_reducible apply State.complete_later
    | split
    | dsimp only
    | dsimp only at *

theorem State.linkAcked_later {s0 : State} {s : State} {n : Nat} {k : Nat} (hs : Later s0 s) :
    Later s0 (State.linkAcked s n k) := by
  unfold State.linkAcked
  try dsimp only
  repeat' first
    | with_reducible assumption
    | with_reducible apply State.setLink_later
    | with_reducible apply State.returnCredits_later
    | with_reducible apply State.writeLanded_later
    | with_reducible apply State.trimKeys_later
    | with_reducible apply State.linkFlush_later
    | with_reducible refine Later.foldl ?_ fun _ _ _ => ?_
    | with_reducible refine Later.foldl_with (fun p : _ × State => p.2) ?_ fun _ _ _ => ?_
    | with_reducible refine Later.foldl_with (fun p : State × _ => p.1) ?_ fun _ _ _ => ?_
    | split
    | dsimp only
    | dsimp only at *

theorem State.acknowledge_later {s0 : State} {s : State} {hop : Nat} {dir : Nat} {seq : Nat} (hs : Later s0 s) :
    Later s0 (State.acknowledge s hop dir seq) := by
  unfold State.acknowledge
  try dsimp only
  repeat' first
    | with_reducible assumption
    | with_reducible apply State.linkAcked_later
    | with_reducible apply State.setHop_later
    | with_reducible apply State.accepts_later
    | with_reducible apply State.sendWaiting_later
    | split
    | dsimp only
    | dsimp only at *

theorem State.linkReplay_later {s0 : State} {s : State} {n : Nat} {counter : Nat} (hs : Later s0 s) :
    Later s0 (State.linkReplay s n counter) := by
  unfold State.linkReplay
  try dsimp only
  repeat' first
    | with_reducible assumption
    | with_reducible apply State.linkAcked_later
    | with_reducible apply State.emit_later
    | with_reducible apply State.satRf_later
    | with_reducible refine Later.foldl ?_ fun _ _ _ => ?_
    | with_reducible refine Later.foldl_with (fun p : _ × State => p.2) ?_ fun _ _ _ => ?_
    | with_reducible refine Later.foldl_with (fun p : State × _ => p.1) ?_ fun _ _ _ => ?_
    | split
    | dsimp only
    | dsimp only at *

theorem State.loseBacklog_later {s0 : State} {s : State} (hs : Later s0 s) :
    Later s0 (State.loseBacklog s) := by
  unfold State.loseBacklog
  try dsimp only
  repeat' first
    | with_reducible assumption
    | with_reducible apply State.setBacklog_later
    | split
    | dsimp only
    | dsimp only at *

theorem State.failCauseway_later {s0 : State} {s : State} (hs : Later s0 s) :
    Later s0 (State.failCauseway s) := by
  unfold State.failCauseway
  try dsimp only
  repeat' first
    | with_reducible assumption
    | with_reducible apply State.setPkg_later
    | with_reducible apply State.setRf_later
    | with_reducible refine State.forAll_later ?_ fun _ _ _ => ?_
    | with_reducible apply State.resetPool_later
    | with_reducible apply State.loseBacklog_later
    | with_reducible apply State.manage_later
    | split
    | dsimp only
    | dsimp only at *

theorem State.replay_later {s0 : State} {s : State} {hop : Nat} {dir : Nat} {seq : Nat} (hs : Later s0 s) :
    Later s0 (State.replay s hop dir seq) := by
  unfold State.replay
  try dsimp only
  repeat' first
    | with_reducible assumption
    | with_reducible apply State.linkReplay_later
    | with_reducible apply State.setHop_later
    | with_reducible apply State.sendWaiting_later
    | with_reducible apply State.fresh_later
    | with_reducible apply State.satRf_later
    | with_reducible apply State.failCauseway_later
    | with_reducible refine Later.of_snd (by assumption) ?_
    | with_reducible refine Later.of_fst (by assumption) ?_
    | split
    | dsimp only
    | dsimp only at *

theorem State.laneFails_later {s0 : State} {s : State} {dir : Nat} {lane : Nat} (hs : Later s0 s) :
    Later s0 (State.laneFails s dir lane) := by
  unfold State.laneFails
  try dsimp only
  repeat' first
    | with_reducible assumption
    | with_reducible apply State.failCauseway_later
    | with_reducible apply State.setPkg_later
    | with_reducible apply State.setRf_later
    | split
    | dsimp only
    | dsimp only at *

theorem State.laneSwapped_later {s0 : State} {s : State} {dir : Nat} {trained : Bool} (hs : Later s0 s) :
    Later s0 (State.laneSwapped s dir trained) := by
  unfold State.laneSwapped
  try dsimp only
  repeat' first
    | with_reducible assumption
    | with_reducible apply State.failCauseway_later
    | with_reducible apply State.setPkg_later
    | with_reducible apply State.setRf_later
    | with_reducible apply State.sendWaiting_later
    | with_reducible apply State.satRf_later
    | with_reducible apply State.manage_later
    | with_reducible apply State.logErr_later
    | split
    | dsimp only
    | dsimp only at *

end Sys2Proof.Machine
end

