-- ==== Sys2Proof/Laws/LinksLater.lean ====
section
/-! SUPPORT. Operations of Machine/Links.lean lead to a later state (Safety.Later). -/

namespace Sys2Proof.Machine

theorem State.downLink_later {s0 : State} {s : State} {n : Nat} {keep : Bool} (hs : Later s0 s) :
    Later s0 (State.downLink s n keep) := by
  unfold State.downLink
  try dsimp only
  repeat' first
    | with_reducible assumption
    | with_reducible apply State.linkDown_later
    | with_reducible apply State.escalate_later
    | split
    | dsimp only
    | dsimp only at *

theorem State.keyFail_later {s0 : State} {s : State} {n : Nat} {tell : Bool} (hs : Later s0 s) :
    Later s0 (State.keyFail s n tell) := by
  unfold State.keyFail
  try dsimp only
  repeat' first
    | with_reducible assumption
    | with_reducible apply State.linkMessage_later
    | with_reducible apply State.manage_later
    | with_reducible apply State.downLink_later
    | split
    | dsimp only
    | dsimp only at *

theorem State.sendOffer_later {s0 : State} {s : State} {n : Nat} (hs : Later s0 s) :
    Later s0 (State.sendOffer s n) := by
  unfold State.sendOffer
  try dsimp only
  repeat' first
    | with_reducible assumption
    | with_reducible apply State.drawKey_later
    | with_reducible apply State.setLink_later
    | with_reducible apply State.linkMessage_later
    | with_reducible refine Later.of_snd (by assumption) ?_
    | with_reducible refine Later.of_fst (by assumption) ?_
    | split
    | dsimp only
    | dsimp only at *

theorem State.startAgree_later {s0 : State} {s : State} {n : Nat} (hs : Later s0 s) :
    Later s0 (State.startAgree s n) := by
  unfold State.startAgree
  try dsimp only
  repeat' first
    | with_reducible assumption
    | with_reducible apply State.sendOffer_later
    | with_reducible apply State.setLink_later
    | with_reducible apply State.linkMessage_later
    | split
    | dsimp only
    | dsimp only at *

theorem State.askSignature_later {s0 : State} {s : State} {m : Medium} {kind : Nat} {digest : List Byte} {link : Nat} (hs : Later s0 s) :
    Later s0 (State.askSignature s m kind digest link) := by
  unfold State.askSignature
  try dsimp only
  repeat' first
    | with_reducible assumption
    | with_reducible refine State.setTrust_later ?_ ⟨Nat.min_le_right _ _, Nat.min_le_right _ _, Nat.min_le_right _ _, rfl, id, TrustLater.boot _, Nat.le_refl _⟩
    | with_reducible refine State.setTrust_later ?_ ⟨TrustLater.fuses _ _, Nat.min_le_right _ _, Nat.min_le_right _ _, rfl, id, Nat.min_le_right _ _, Nat.le_refl _⟩
    | with_reducible refine State.setTrust_later ?_ ⟨Nat.min_le_right _ _, TrustLater.fuses _ _, Nat.min_le_right _ _, rfl, id, Nat.min_le_right _ _, Nat.le_refl _⟩
    | with_reducible refine State.setTrust_later ?_ ⟨Nat.min_le_right _ _, Nat.min_le_right _ _, TrustLater.fuses _ _, rfl, id, Nat.min_le_right _ _, Nat.le_refl _⟩
    | with_reducible refine State.setTrust_later ?_ ⟨Nat.min_le_right _ _, Nat.min_le_right _ _, Nat.min_le_right _ _, rfl, fun _ => rfl, Nat.min_le_right _ _, Nat.le_refl _⟩
    | with_reducible refine State.setTrust_later ?_ ⟨Nat.min_le_right _ _, Nat.min_le_right _ _, Nat.min_le_right _ _, rfl, id, Nat.min_le_right _ _, Nat.le_refl _⟩
    | with_reducible refine State.setTrust_later ?_ ⟨Nat.min_le_right _ _, Nat.min_le_right _ _, Nat.min_le_right _ _, rfl, id, Nat.min_le_right _ _, Nat.le_succ _⟩
    | split
    | dsimp only
    | dsimp only at *

theorem State.takeOffer_later {s0 : State} {s : State} {n : Nat} {m : KeyMessage} (hs : Later s0 s) :
    Later s0 (State.takeOffer s n m) := by
  unfold State.takeOffer
  try dsimp only
  repeat' first
    | with_reducible assumption
    | with_reducible apply State.keyFail_later
    | with_reducible apply State.drawKey_later
    | with_reducible apply State.setLink_later
    | with_reducible apply State.askSignature_later
    | with_reducible refine Later.of_snd (by assumption) ?_
    | with_reducible refine Later.of_fst (by assumption) ?_
    | split
    | dsimp only
    | dsimp only at *

theorem State.takeAccept_later {s0 : State} {s : State} {n : Nat} {m : KeyMessage} (hs : Later s0 s) :
    Later s0 (State.takeAccept s n m) := by
  unfold State.takeAccept
  try dsimp only
  repeat' first
    | with_reducible assumption
    | with_reducible apply State.keyFail_later
    | with_reducible apply State.setLink_later
    | with_reducible apply State.askSignature_later
    | with_reducible apply State.replay_later
    | split
    | dsimp only
    | dsimp only at *

theorem State.installKeys_later {s0 : State} {s : State} {n : Nat} {transcript : List Byte} (hs : Later s0 s) :
    Later s0 (State.installKeys s n transcript) := by
  unfold State.installKeys
  try dsimp only
  repeat' first
    | with_reducible assumption
    | with_reducible apply State.setLink_later
    | with_reducible apply State.setRf_later
    | with_reducible apply State.newGeneration_later
    | split
    | dsimp only
    | dsimp only at *

theorem State.takeConfirm_later {s0 : State} {s : State} {n : Nat} {m : KeyMessage} (hs : Later s0 s) :
    Later s0 (State.takeConfirm s n m) := by
  unfold State.takeConfirm
  try dsimp only
  repeat' first
    | with_reducible assumption
    | with_reducible apply State.keyFail_later
    | with_reducible apply State.installKeys_later
    | split
    | dsimp only
    | dsimp only at *

theorem State.linkSigned_later {s0 : State} {s : State} {n : Nat} {sig : List Byte} (hs : Later s0 s) :
    Later s0 (State.linkSigned s n sig) := by
  unfold State.linkSigned
  try dsimp only
  repeat' first
    | with_reducible assumption
    | with_reducible apply State.setLink_later
    | with_reducible apply State.linkMessage_later
    | with_reducible apply State.installKeys_later
    | split
    | dsimp only
    | dsimp only at *

theorem State.startRotation_later {s0 : State} {s : State} {n : Nat} (hs : Later s0 s) :
    Later s0 (State.startRotation s n) := by
  unfold State.startRotation
  try dsimp only
  repeat' first
    | with_reducible assumption
    | with_reducible apply State.drawKey_later
    | with_reducible apply State.setRf_later
    | with_reducible apply State.setLink_later
    | with_reducible apply State.linkMessage_later
    | with_reducible refine Later.of_snd (by assumption) ?_
    | with_reducible refine Later.of_fst (by assumption) ?_
    | split
    | dsimp only
    | dsimp only at *

theorem State.installNext_later {s0 : State} {s : State} {n : Nat} {secret : Nat} (hs : Later s0 s) :
    Later s0 (State.installNext s n secret) := by
  unfold State.installNext
  try dsimp only
  repeat' first
    | with_reducible assumption
    | with_reducible apply State.setLink_later
    | with_reducible apply State.linkMessage_later
    | split
    | dsimp only
    | dsimp only at *

theorem State.trySwitch_later {s0 : State} {s : State} {n : Nat} (hs : Later s0 s) :
    Later s0 (State.trySwitch s n) := by
  unfold State.trySwitch
  try dsimp only
  repeat' first
    | with_reducible assumption
    | with_reducible apply State.setRf_later
    | with_reducible apply State.setLink_later
    | with_reducible apply State.trimKeys_later
    | with_reducible apply State.newGeneration_later
    | split
    | dsimp only
    | dsimp only at *

theorem State.takeRotateOffer_later {s0 : State} {s : State} {n : Nat} {m : KeyMessage} (hs : Later s0 s) :
    Later s0 (State.takeRotateOffer s n m) := by
  unfold State.takeRotateOffer
  try dsimp only
  repeat' first
    | with_reducible assumption
    | with_reducible apply State.keyFail_later
    | with_reducible apply State.drawKey_later
    | with_reducible apply State.setRf_later
    | with_reducible apply State.setLink_later
    | with_reducible apply State.linkMessage_later
    | with_reducible apply State.installNext_later
    | with_reducible refine Later.of_snd (by assumption) ?_
    | with_reducible refine Later.of_fst (by assumption) ?_
    | split
    | dsimp only
    | dsimp only at *

theorem State.takeRotateAccept_later {s0 : State} {s : State} {n : Nat} {m : KeyMessage} (hs : Later s0 s) :
    Later s0 (State.takeRotateAccept s n m) := by
  unfold State.takeRotateAccept
  try dsimp only
  repeat' first
    | with_reducible assumption
    | with_reducible apply State.keyFail_later
    | with_reducible apply State.installNext_later
    | with_reducible apply State.trySwitch_later
    | split
    | dsimp only
    | dsimp only at *

theorem State.takeReady_later {s0 : State} {s : State} {n : Nat} {epoch : Nat} (hs : Later s0 s) :
    Later s0 (State.takeReady s n epoch) := by
  unfold State.takeReady
  try dsimp only
  repeat' first
    | with_reducible assumption
    | with_reducible apply State.keyFail_later
    | with_reducible apply State.setLink_later
    | with_reducible apply State.trySwitch_later
    | split
    | dsimp only
    | dsimp only at *

theorem State.takeLinkRequest_later {s0 : State} {s : State} {n : Nat} {what : Nat} (hs : Later s0 s) :
    Later s0 (State.takeLinkRequest s n what) := by
  unfold State.takeLinkRequest
  try dsimp only
  repeat' first
    | with_reducible assumption
    | with_reducible apply State.keyFail_later
    | with_reducible apply State.startAgree_later
    | with_reducible apply State.startRotation_later
    | split
    | dsimp only
    | dsimp only at *

theorem State.takeAbort_later {s0 : State} {s : State} {n : Nat} (hs : Later s0 s) :
    Later s0 (State.takeAbort s n) := by
  unfold State.takeAbort
  try dsimp only
  repeat' first
    | with_reducible assumption
    | with_reducible apply State.keyFail_later
    | split
    | dsimp only
    | dsimp only at *

theorem State.linkNak_later {s0 : State} {s : State} {n : Nat} (hs : Later s0 s) :
    Later s0 (State.linkNak s n) := by
  unfold State.linkNak
  try dsimp only
  repeat' first
    | with_reducible assumption
    | with_reducible apply State.emit_later
    | split
    | dsimp only
    | dsimp only at *

theorem State.servePeer_later {s0 : State} {s : State} {n : Nat} {f : Frame} (hs : Later s0 s) :
    Later s0 (State.servePeer s n f) := by
  unfold State.servePeer
  try dsimp only
  repeat' first
    | with_reducible assumption
    | with_reducible apply State.refuse_later
    | with_reducible apply State.linkSend_later
    | with_reducible apply State.returnFor_later
    | with_reducible apply State.setLink_later
    | with_reducible apply State.serveWrite_later
    | with_reducible apply State.serveRead_later
    | with_reducible apply State.readDone_later
    | with_reducible apply State.takeRequest_later
    | with_reducible apply State.returnCredits_later
    | with_reducible apply State.takeSignal_later
    | with_reducible apply State.takeWords_later
    | with_reducible apply State.xactError_later
    | with_reducible refine Later.of_snd (by assumption) ?_
    | with_reducible refine Later.of_fst (by assumption) ?_
    | split
    | dsimp only
    | with_reducible refine Post.ok ?_
    | with_reducible exact Post.error True.intro
    | dsimp only at *
    | with_reducible refine Later.of_ok (P := fun _ => True) (by assumption) ?_
    | with_reducible refine Later.of_ok2 (P := fun _ => True) (by assumption) ?_
    | with_reducible refine Later.of_ok1 (P := fun _ => True) (by assumption) ?_

theorem State.takeFragment_later {s0 : State} {s : State} {n : Nat} {f : LinkFrame} (hs : Later s0 s) :
    Later s0 (State.takeFragment s n f) := by
  unfold State.takeFragment
  try dsimp only
  repeat' first
    | with_reducible assumption
    | with_reducible apply State.setLink_later
    | with_reducible apply State.keyFail_later
    | split
    | dsimp only
    | dsimp only at *

theorem State.acceptFrame_later {s0 : State} {s : State} {n : Nat} {f : LinkFrame} (hs : Later s0 s) :
    Later s0 (State.acceptFrame s n f) := by
  unfold State.acceptFrame
  try dsimp only
  repeat' first
    | with_reducible assumption
    | with_reducible apply State.setLink_later
    | with_reducible apply State.addRf_later
    | with_reducible apply State.emit_later
    | with_reducible apply State.trimKeys_later
    | with_reducible apply State.takeFragment_later
    | with_reducible apply State.servePeer_later
    | split
    | dsimp only
    | dsimp only at *

theorem State.takeLinkFrame_later {s0 : State} {s : State} {n : Nat} {f : LinkFrame} (hs : Later s0 s) :
    Later s0 (State.takeLinkFrame s n f) := by
  unfold State.takeLinkFrame
  try dsimp only
  repeat' first
    | with_reducible assumption
    | with_reducible apply State.satRf_later
    | with_reducible apply State.linkNak_later
    | with_reducible apply State.emit_later
    | with_reducible apply State.logErr_later
    | with_reducible apply State.setLink_later
    | with_reducible apply State.manage_later
    | with_reducible apply State.downLink_later
    | with_reducible apply State.acceptFrame_later
    | split
    | dsimp only
    | dsimp only at *

theorem State.keyAction_later {s0 s : State} {port : Port} {link bit : Nat} {f : State → State} (h : Later s0 s) (k : ∀ t, Later s0 t → Later s0 (f t)) :
    Later s0 (s.keyAction port link bit f) := by
  unfold State.keyAction
  refine State.access_later h fun t ht => ?_
  split
  · exact State.logErr_later ht
  · exact k t ht

end Sys2Proof.Machine
end

