-- ==== Sys2Proof/Laws/HostLater.lean ====
section
/-! SUPPORT. Operations of Machine/Host.lean lead to a later state (Safety.Later). -/

namespace Sys2Proof.Machine

theorem State.bar4Bytes_later {s0 : State} {p : Port} {a : State} {a3 : List (Nat × Nat)} (hs : Later s0 a) :
    Later s0 (State.bar4Bytes p a a3).2 := by
  induction a3 generalizing p a with
  | nil =>
    unfold State.bar4Bytes
    try dsimp only
    repeat' first
      | with_reducible assumption
      | with_reducible apply ih
      | with_reducible refine Later.of_snd (by assumption) (ih ?_)
      | with_reducible apply State.meet_later
      | split
      | dsimp only
      | dsimp only at *
  | cons b l ih =>
    unfold State.bar4Bytes
    try dsimp only
    repeat' first
      | with_reducible assumption
      | with_reducible apply ih
      | with_reducible refine Later.of_snd (by assumption) (ih ?_)
      | with_reducible apply State.meet_later
      | split
      | dsimp only
      | dsimp only at *

theorem State.bar4Read_later {s0 : State} {s : State} {p : Port} {tbit : Bool} {o : Nat} {n : Nat} (hs : Later s0 s) :
    Later s0 (State.bar4Read s p tbit o n) := by
  unfold State.bar4Read
  try dsimp only
  repeat' first
    | with_reducible assumption
    | with_reducible apply State.logErr_later
    | with_reducible apply State.emit_later
    | with_reducible apply State.bar4Bytes_later
    | with_reducible refine Later.of_snd (by assumption) ?_
    | with_reducible refine Later.of_fst (by assumption) ?_
    | split
    | dsimp only
    | dsimp only at *

theorem State.bar4Piece_later {s0 : State} {s : State} {p : Port} {o : Nat} {bs : List Byte} (hs : Later s0 s) :
    Later s0 (State.bar4Piece s p o bs) := by
  unfold State.bar4Piece
  try dsimp only
  repeat' first
    | with_reducible assumption
    | with_reducible apply State.logErr_later
    | with_reducible apply State.setPort_later
    | with_reducible apply State.send_later
    | with_reducible refine Later.foldl ?_ fun _ _ _ => ?_
    | with_reducible refine Later.foldl_with (fun p : _ × State => p.2) ?_ fun _ _ _ => ?_
    | with_reducible refine Later.foldl_with (fun p : State × _ => p.1) ?_ fun _ _ _ => ?_
    | split
    | dsimp only
    | dsimp only at *

theorem State.bar4Write_later {s0 : State} {s : State} {p : Port} {tbit : Bool} {o : Nat} {data : List Byte} (hs : Later s0 s) :
    Later s0 (State.bar4Write s p tbit o data) := by
  unfold State.bar4Write
  try dsimp only
  repeat' first
    | with_reducible assumption
    | with_reducible apply State.logErr_later
    | with_reducible apply State.bar4Piece_later
    | with_reducible refine Later.foldl ?_ fun _ _ _ => ?_
    | with_reducible refine Later.foldl_with (fun p : _ × State => p.2) ?_ fun _ _ _ => ?_
    | with_reducible refine Later.foldl_with (fun p : State × _ => p.1) ?_ fun _ _ _ => ?_
    | split
    | dsimp only
    | dsimp only at *

theorem State.portUp_later {s0 : State} {s : State} {p : Port} {rate : Nat} {width : Nat} {flit : Bool} (hs : Later s0 s) :
    Later s0 (State.portUp s p rate width flit) := by
  unfold State.portUp
  try dsimp only
  repeat' first
    | with_reducible assumption
    | with_reducible apply State.setPort_later
    | with_reducible apply State.setReg_later
    | split
    | dsimp only
    | dsimp only at *

theorem State.portDown_later {s0 : State} {s : State} {p : Port} (hs : Later s0 s) :
    Later s0 (State.portDown s p) := by
  unfold State.portDown
  try dsimp only
  repeat' first
    | with_reducible assumption
    | with_reducible apply State.setPort_later
    | with_reducible apply State.setReg_later
    | with_reducible refine State.forAll_later ?_ fun _ _ _ => ?_
    | with_reducible apply State.sessionError_later
    | split
    | dsimp only
    | dsimp only at *

theorem State.portReset_later {s0 : State} {s : State} {p : Port} {perst : Bool} (hs : Later s0 s) :
    Later s0 (State.portReset s p perst) := by
  unfold State.portReset
  try dsimp only
  repeat' first
    | with_reducible assumption
    | with_reducible apply State.portDown_later
    | with_reducible apply State.dropRegs_later
    | with_reducible apply State.setTasks_later
    | with_reducible apply State.setPort_later
    | split
    | dsimp only
    | dsimp only at *

theorem State.refuseMode_later {s0 : State} {s : State} (hs : Later s0 s) :
    Later s0 (State.refuseMode s) := by
  unfold State.refuseMode
  try dsimp only
  repeat' first
    | with_reducible assumption
    | with_reducible apply State.setPkg_later
    | with_reducible apply State.logErr_later
    | split
    | dsimp only
    | dsimp only at *

theorem State.requestMode_later {s0 : State} {s : State} {p : Port} {split : Bool} {toE : Bool} (hs : Later s0 s) :
    Later s0 (State.requestMode s p split toE) := by
  unfold State.requestMode
  try dsimp only
  repeat' first
    | with_reducible assumption
    | with_reducible apply State.refuseMode_later
    | with_reducible apply State.setPkg_later
    | split
    | dsimp only
    | dsimp only at *

theorem State.applyMode_later {s0 : State} {s : State} (hs : Later s0 s) :
    Later s0 (State.applyMode s) := by
  unfold State.applyMode
  try dsimp only
  repeat' first
    | with_reducible assumption
    | with_reducible apply State.setPkg_later
    | with_reducible apply State.refuseMode_later
    | with_reducible apply State.enterSplit_later
    | with_reducible apply State.enterUnified_later
    | split
    | dsimp only
    | dsimp only at *

theorem State.writeHostctl_later {s0 : State} {s : State} {p : Port} {v : Word} (hs : Later s0 s) :
    Later s0 (State.writeHostctl s p v) := by
  unfold State.writeHostctl
  try dsimp only
  repeat' first
    | with_reducible assumption
    | with_reducible apply State.setReg_later
    | with_reducible apply State.requestMode_later
    | split
    | dsimp only
    | dsimp only at *

theorem State.beat_later {s0 : State} {s : State} {v : Word} (hs : Later s0 s) :
    Later s0 (State.beat s v) := by
  unfold State.beat
  try dsimp only
  repeat' first
    | with_reducible assumption
    | with_reducible apply State.setReg_later
    | with_reducible apply State.setRf_later
    | with_reducible refine State.setLh_later ?_ ⟨List.prefix_refl _, List.prefix_refl _⟩
    | with_reducible refine State.setLh_later ?_ ⟨List.prefix_append _ _, List.prefix_refl _⟩
    | with_reducible refine State.setLh_later ?_ ⟨List.prefix_refl _, List.prefix_append _ _⟩
    | split
    | dsimp only
    | dsimp only at *

theorem State.setStale_later {s0 : State} {s : State} (hs : Later s0 s) :
    Later s0 (State.setStale s) := by
  unfold State.setStale
  try dsimp only
  repeat' first
    | with_reducible assumption
    | with_reducible apply State.setRf_later
    | split
    | dsimp only
    | dsimp only at *

theorem State.closePort_later {s0 : State} {s : State} {p : Port} (hs : Later s0 s) :
    Later s0 (State.closePort s p) := by
  unfold State.closePort
  try dsimp only
  repeat' first
    | with_reducible assumption
    | with_reducible apply State.setTasks_later
    | with_reducible apply State.setPort_later
    | with_reducible refine State.forAll_later ?_ fun _ _ _ => ?_
    | with_reducible apply State.setRf_later
    | split
    | dsimp only
    | dsimp only at *

theorem State.acceptClaim_later {s0 : State} {s : State} {p : Port} (hs : Later s0 s) :
    Later s0 (State.acceptClaim s p) := by
  unfold State.acceptClaim
  try dsimp only
  repeat' first
    | with_reducible assumption
    | with_reducible apply State.closePort_later
    | with_reducible apply State.abortTask_later
    | with_reducible apply State.admitHeld_later
    | with_reducible apply State.setPkg_later
    | with_reducible refine State.forAll_later ?_ fun _ _ _ => ?_
    | with_reducible apply State.abandonLoad_later
    | with_reducible apply State.sessionErrors_later
    | with_reducible apply State.setRf_later
    | with_reducible apply State.addRf_later
    | with_reducible refine State.setLh_later ?_ ⟨List.prefix_refl _, List.prefix_refl _⟩
    | with_reducible refine State.setLh_later ?_ ⟨List.prefix_append _ _, List.prefix_refl _⟩
    | with_reducible refine State.setLh_later ?_ ⟨List.prefix_refl _, List.prefix_append _ _⟩
    | with_reducible apply State.newGeneration_later
    | with_reducible refine Later.foldl ?_ fun _ _ _ => ?_
    | with_reducible refine Later.foldl_with (fun p : _ × State => p.2) ?_ fun _ _ _ => ?_
    | with_reducible refine Later.foldl_with (fun p : State × _ => p.1) ?_ fun _ _ _ => ?_
    | split
    | dsimp only
    | dsimp only at *

theorem State.examineClaim_later {s0 : State} {s : State} {p : Port} (hs : Later s0 s) :
    Later s0 (State.examineClaim s p) := by
  unfold State.examineClaim
  try dsimp only
  repeat' first
    | with_reducible assumption
    | with_reducible apply State.acceptClaim_later
    | with_reducible apply State.setRf_later
    | with_reducible apply State.logErr_later
    | split
    | dsimp only
    | dsimp only at *

theorem State.examineClaims_later {s0 : State} {s : State} (hs : Later s0 s) :
    Later s0 (State.examineClaims s) := by
  unfold State.examineClaims
  try dsimp only
  repeat' first
    | with_reducible assumption
    | with_reducible apply State.setPkg_later
    | with_reducible apply State.examineClaim_later
    | split
    | dsimp only
    | dsimp only at *

theorem State.addClaim_later {s0 : State} {s : State} {p : Port} (hs : Later s0 s) :
    Later s0 (State.addClaim s p) := by
  unfold State.addClaim
  try dsimp only
  repeat' first
    | with_reducible assumption
    | with_reducible apply State.setPkg_later
    | split
    | dsimp only
    | dsimp only at *

theorem State.writeErrhead_later {s0 : State} {s : State} {shore : Nat} {head : Nat} (hs : Later s0 s) :
    Later s0 (State.writeErrhead s shore head) := by
  unfold State.writeErrhead
  try dsimp only
  repeat' first
    | with_reducible assumption
    | with_reducible apply State.logErr_later
    | with_reducible apply State.setLog_later
    | split
    | dsimp only
    | dsimp only at *

theorem State.cxlBegin_later {s0 : State} {s : State} {p : Nat} (hs : Later s0 s) :
    Later s0 (State.cxlBegin s p) := by
  unfold State.cxlBegin
  try dsimp only
  repeat' first
    | with_reducible assumption
    | with_reducible apply State.setCxl_later
    | with_reducible apply State.setRf_later
    | split
    | dsimp only
    | dsimp only at *

theorem State.cxlStays_later {s0 : State} {s : State} {p : Nat} {code : Nat} (hs : Later s0 s) :
    Later s0 (State.cxlStays s p code) := by
  unfold State.cxlStays
  try dsimp only
  repeat' first
    | with_reducible assumption
    | with_reducible apply State.setCxl_later
    | with_reducible apply State.setReg_later
    | split
    | dsimp only
    | dsimp only at *

theorem State.cxlGoesDown_later {s0 : State} {s : State} {p : Nat} {code : Nat} (hs : Later s0 s) :
    Later s0 (State.cxlGoesDown s p code) := by
  unfold State.cxlGoesDown
  try dsimp only
  repeat' first
    | with_reducible assumption
    | with_reducible apply State.cxlDown_later
    | with_reducible apply State.escalate_later
    | with_reducible apply State.cxlStays_later
    | split
    | dsimp only
    | dsimp only at *

theorem State.writeCxcfg_later {s0 : State} {s : State} {by' : Agent} {p : Nat} {v : Word} (hs : Later s0 s) :
    Later s0 (State.writeCxcfg s by' p v) := by
  unfold State.writeCxcfg
  try dsimp only
  repeat' first
    | with_reducible assumption
    | with_reducible apply State.store_later
    | with_reducible apply State.cxlBegin_later
    | with_reducible apply State.cxlGoesDown_later
    | with_reducible apply State.cxlDown_later
    | with_reducible apply State.setCxl_later
    | split
    | dsimp only
    | dsimp only at *

theorem State.cxlPortUp_later {s0 : State} {s : State} {p : Nat} {dev : CxlDevice} (hs : Later s0 s) :
    Later s0 (State.cxlPortUp s p dev) := by
  unfold State.cxlPortUp
  try dsimp only
  repeat' first
    | with_reducible assumption
    | with_reducible apply State.cxlStays_later
    | with_reducible apply State.logErr_later
    | with_reducible apply State.drawKey_later
    | with_reducible apply State.setCxl_later
    | with_reducible apply State.setReg_later
    | with_reducible apply State.newGeneration_later
    | with_reducible refine Later.of_snd (by assumption) ?_
    | with_reducible refine Later.of_fst (by assumption) ?_
    | split
    | dsimp only
    | dsimp only at *

end Sys2Proof.Machine
end

