-- ==== Sys2Proof/Laws/TrustLater.lean ====
section
/-! SUPPORT. Operations of Machine/Trust.lean lead to a later state (Safety.Later). -/

namespace Sys2Proof.Machine

theorem State.lhManage_later {s0 : State} {s : State} {code : Nat} (hs : Later s0 s) :
    Later s0 (State.lhManage s code) := by
  unfold State.lhManage
  try dsimp only
  repeat' first
    | with_reducible assumption
    | with_reducible apply State.manage_later
    | split
    | dsimp only
    | dsimp only at *

theorem State.commit_later {s0 : State} {s : State} {kind : Nat} (hs : Later s0 s) :
    Later s0 (State.commit s kind) := by
  unfold State.commit
  try dsimp only
  repeat' first
    | with_reducible assumption
    | with_reducible refine State.setTrust_later ?_ ⟨Nat.min_le_right _ _, Nat.min_le_right _ _, Nat.min_le_right _ _, rfl, id, TrustLater.boot _, Nat.le_refl _⟩
    | with_reducible refine State.setTrust_later ?_ ⟨TrustLater.fuses _ _, Nat.min_le_right _ _, Nat.min_le_right _ _, rfl, id, Nat.min_le_right _ _, Nat.le_refl _⟩
    | with_reducible refine State.setTrust_later ?_ ⟨Nat.min_le_right _ _, TrustLater.fuses _ _, Nat.min_le_right _ _, rfl, id, Nat.min_le_right _ _, Nat.le_refl _⟩
    | with_reducible refine State.setTrust_later ?_ ⟨Nat.min_le_right _ _, Nat.min_le_right _ _, TrustLater.fuses _ _, rfl, id, Nat.min_le_right _ _, Nat.le_refl _⟩
    | with_reducible refine State.setTrust_later ?_ ⟨Nat.min_le_right _ _, Nat.min_le_right _ _, Nat.min_le_right _ _, rfl, fun _ => rfl, Nat.min_le_right _ _, Nat.le_refl _⟩
    | with_reducible refine State.setTrust_later ?_ ⟨Nat.min_le_right _ _, Nat.min_le_right _ _, Nat.min_le_right _ _, rfl, id, Nat.min_le_right _ _, Nat.le_refl _⟩
    | with_reducible refine State.setTrust_later ?_ ⟨Nat.min_le_right _ _, Nat.min_le_right _ _, Nat.min_le_right _ _, rfl, id, Nat.min_le_right _ _, Nat.le_succ _⟩
    | with_reducible refine Later.foldl ?_ fun _ _ _ => ?_
    | with_reducible refine Later.foldl_with (fun p : _ × State => p.2) ?_ fun _ _ _ => ?_
    | with_reducible refine Later.foldl_with (fun p : State × _ => p.1) ?_ fun _ _ _ => ?_
    | split
    | dsimp only
    | dsimp only at *

theorem State.refuseTdisp_later {s0 : State} {s : State} {port : Port} {p : Nat} (hs : Later s0 s) :
    Later s0 (State.refuseTdisp s port p) := by
  unfold State.refuseTdisp
  try dsimp only
  repeat' first
    | with_reducible assumption
    | with_reducible apply State.logErr_later
    | with_reducible apply State.emit_later
    | split
    | dsimp only
    | dsimp only at *

theorem State.rekeyPorts_later {s0 : State} {s : State} {p : Nat} (hs : Later s0 s) :
    Later s0 (State.rekeyPorts s p) := by
  unfold State.rekeyPorts
  try dsimp only
  repeat' first
    | with_reducible assumption
    | with_reducible refine State.forAll_later ?_ fun _ _ _ => ?_
    | with_reducible apply State.drawKey_later
    | with_reducible apply State.setCxl_later
    | with_reducible refine Later.of_snd (by assumption) ?_
    | with_reducible refine Later.of_fst (by assumption) ?_
    | split
    | dsimp only
    | dsimp only at *

theorem State.lockInterface_later {s0 : State} {s : State} {port : Port} {p : Nat} (hs : Later s0 s) :
    Later s0 (State.lockInterface s port p) := by
  unfold State.lockInterface
  try dsimp only
  repeat' first
    | with_reducible assumption
    | with_reducible apply State.drawKey_later
    | with_reducible apply State.refuseTdisp_later
    | with_reducible apply State.setSession_later
    | with_reducible apply State.setRf_later
    | with_reducible apply State.rekeyPorts_later
    | with_reducible apply State.sessionEntry_later
    | with_reducible apply State.newGeneration_later
    | with_reducible apply State.emit_later
    | with_reducible refine Later.of_snd (by assumption) ?_
    | with_reducible refine Later.of_fst (by assumption) ?_
    | split
    | dsimp only
    | dsimp only at *

theorem State.stopInterface_later {s0 : State} {s : State} {port : Port} {p : Nat} (hs : Later s0 s) :
    Later s0 (State.stopInterface s port p) := by
  unfold State.stopInterface
  try dsimp only
  repeat' first
    | with_reducible assumption
    | with_reducible apply State.refuseTdisp_later
    | with_reducible apply State.emit_later
    | with_reducible apply State.setSession_later
    | with_reducible apply State.abortTask_later
    | with_reducible apply State.beginScrub_later
    | with_reducible refine Later.foldl ?_ fun _ _ _ => ?_
    | with_reducible refine Later.foldl_with (fun p : _ × State => p.2) ?_ fun _ _ _ => ?_
    | with_reducible refine Later.foldl_with (fun p : State × _ => p.1) ?_ fun _ _ _ => ?_
    | split
    | dsimp only
    | dsimp only at *

theorem State.sealRotate_later {s0 : State} {s : State} {p : Nat} (hs : Later s0 s) :
    Later s0 (State.sealRotate s p) := by
  unfold State.sealRotate
  try dsimp only
  repeat' first
    | with_reducible assumption
    | with_reducible apply State.logErr_later
    | with_reducible apply State.drawKey_later
    | with_reducible apply State.setSession_later
    | with_reducible apply State.setRf_later
    | with_reducible apply State.newGeneration_later
    | with_reducible apply State.endRotation_later
    | with_reducible refine Later.of_snd (by assumption) ?_
    | with_reducible refine Later.of_fst (by assumption) ?_
    | split
    | dsimp only
    | dsimp only at *

theorem State.retranslate_later {s0 : State} {s : State} {p : Nat} {old : Nat} {new : Nat} {base : Nat} (hs : Later s0 s) :
    Later s0 (State.retranslate s p old new base) := by
  unfold State.retranslate
  try dsimp only
  repeat' first
    | with_reducible assumption
    | with_reducible apply State.setEngs_later
    | with_reducible apply State.setPort_later
    | with_reducible refine State.access_later ?_ fun _ _ => ?_
    | with_reducible refine Later.foldl ?_ fun _ _ _ => ?_
    | with_reducible refine Later.foldl_with (fun p : _ × State => p.2) ?_ fun _ _ _ => ?_
    | with_reducible refine Later.foldl_with (fun p : State × _ => p.1) ?_ fun _ _ _ => ?_
    | split
    | dsimp only
    | dsimp only at *

theorem State.resealPage_later {s0 : State} {s : State} {p : Nat} {page : Nat} (hs : Later s0 s) :
    Later s0 (State.resealPage s p page) := by
  unfold State.resealPage
  try dsimp only
  repeat' first
    | with_reducible assumption
    | with_reducible apply State.setSeals_later
    | with_reducible apply State.setBytes_later
    | with_reducible apply State.retranslate_later
    | with_reducible apply State.setRf_later
    | with_reducible apply State.endRotation_later
    | split
    | dsimp only
    | dsimp only at *

theorem State.unsealRanges_later {s0 : State} {s : State} {rs : List (Nat × Nat)} {failed : List Nat} (hs : Later s0 s) :
    Later s0 (State.unsealRanges s rs failed) := by
  unfold State.unsealRanges
  try dsimp only
  repeat' first
    | with_reducible assumption
    | with_reducible apply State.setSeals_later
    | split
    | dsimp only
    | dsimp only at *

theorem State.clearCores_later {s0 : State} {s : State} {p : Nat} {whole : Bool} {us : List (Nat × Nat × Nat)} (hs : Later s0 s) :
    Later s0 (State.clearCores s p whole us) := by
  unfold State.clearCores
  try dsimp only
  repeat' first
    | with_reducible assumption
    | with_reducible refine State.forAll_later ?_ fun _ _ _ => ?_
    | with_reducible apply State.clearCore_later
    | split
    | dsimp only
    | dsimp only at *

theorem State.scrubFailed_later {s0 : State} {s : State} {p : Nat} {u : Nat × Nat} (hs : Later s0 s) :
    Later s0 (State.scrubFailed s p u) := by
  unfold State.scrubFailed
  try dsimp only
  repeat' first
    | with_reducible assumption
    | with_reducible apply State.logErr_later
    | with_reducible apply State.manage_later
    | with_reducible refine State.setLh_later ?_ ⟨List.prefix_refl _, List.prefix_refl _⟩
    | with_reducible refine State.setLh_later ?_ ⟨List.prefix_append _ _, List.prefix_refl _⟩
    | with_reducible refine State.setLh_later ?_ ⟨List.prefix_refl _, List.prefix_append _ _⟩
    | split
    | dsimp only
    | dsimp only at *

theorem State.scrubDone_later {s0 : State} {s : State} {p : Nat} {failed : List (Nat × Nat)} (hs : Later s0 s) :
    Later s0 (State.scrubDone s p failed) := by
  unfold State.scrubDone
  try dsimp only
  repeat' first
    | with_reducible assumption
    | with_reducible apply State.scrubRanges_later
    | with_reducible apply State.unsealRanges_later
    | with_reducible apply State.clearCores_later
    | with_reducible refine State.setLh_later ?_ ⟨List.prefix_refl _, List.prefix_refl _⟩
    | with_reducible refine State.setLh_later ?_ ⟨List.prefix_append _ _, List.prefix_refl _⟩
    | with_reducible refine State.setLh_later ?_ ⟨List.prefix_refl _, List.prefix_append _ _⟩
    | with_reducible apply State.scrubFailed_later
    | with_reducible apply State.sessionEntry_later
    | with_reducible apply State.setSession_later
    | with_reducible refine Later.foldl ?_ fun _ _ _ => ?_
    | with_reducible refine Later.foldl_with (fun p : _ × State => p.2) ?_ fun _ _ _ => ?_
    | with_reducible refine Later.foldl_with (fun p : State × _ => p.1) ?_ fun _ _ _ => ?_
    | split
    | dsimp only
    | dsimp only at *

theorem State.askSigned_later {s0 : State} {s : State} {m : Medium} {kind : Nat} {response : List Byte} (hs : Later s0 s) :
    Later s0 (State.askSigned s m kind response) := by
  unfold State.askSigned
  try dsimp only
  repeat' first
    | with_reducible assumption
    | with_reducible apply State.emit_later
    | with_reducible refine State.setTrust_later ?_ ⟨Nat.min_le_right _ _, Nat.min_le_right _ _, Nat.min_le_right _ _, rfl, id, TrustLater.boot _, Nat.le_refl _⟩
    | with_reducible refine State.setTrust_later ?_ ⟨TrustLater.fuses _ _, Nat.min_le_right _ _, Nat.min_le_right _ _, rfl, id, Nat.min_le_right _ _, Nat.le_refl _⟩
    | with_reducible refine State.setTrust_later ?_ ⟨Nat.min_le_right _ _, TrustLater.fuses _ _, Nat.min_le_right _ _, rfl, id, Nat.min_le_right _ _, Nat.le_refl _⟩
    | with_reducible refine State.setTrust_later ?_ ⟨Nat.min_le_right _ _, Nat.min_le_right _ _, TrustLater.fuses _ _, rfl, id, Nat.min_le_right _ _, Nat.le_refl _⟩
    | with_reducible refine State.setTrust_later ?_ ⟨Nat.min_le_right _ _, Nat.min_le_right _ _, Nat.min_le_right _ _, rfl, fun _ => rfl, Nat.min_le_right _ _, Nat.le_refl _⟩
    | with_reducible refine State.setTrust_later ?_ ⟨Nat.min_le_right _ _, Nat.min_le_right _ _, Nat.min_le_right _ _, rfl, id, Nat.min_le_right _ _, Nat.le_refl _⟩
    | with_reducible refine State.setTrust_later ?_ ⟨Nat.min_le_right _ _, Nat.min_le_right _ _, Nat.min_le_right _ _, rfl, id, Nat.min_le_right _ _, Nat.le_succ _⟩
    | split
    | dsimp only
    | dsimp only at *

theorem State.signed_later {s0 : State} {s : State} (hs : Later s0 s) :
    Later s0 (State.signed s) := by
  unfold State.signed
  try dsimp only
  repeat' first
    | with_reducible assumption
    | with_reducible refine State.setTrust_later ?_ ⟨Nat.min_le_right _ _, Nat.min_le_right _ _, Nat.min_le_right _ _, rfl, id, TrustLater.boot _, Nat.le_refl _⟩
    | with_reducible refine State.setTrust_later ?_ ⟨TrustLater.fuses _ _, Nat.min_le_right _ _, Nat.min_le_right _ _, rfl, id, Nat.min_le_right _ _, Nat.le_refl _⟩
    | with_reducible refine State.setTrust_later ?_ ⟨Nat.min_le_right _ _, TrustLater.fuses _ _, Nat.min_le_right _ _, rfl, id, Nat.min_le_right _ _, Nat.le_refl _⟩
    | with_reducible refine State.setTrust_later ?_ ⟨Nat.min_le_right _ _, Nat.min_le_right _ _, TrustLater.fuses _ _, rfl, id, Nat.min_le_right _ _, Nat.le_refl _⟩
    | with_reducible refine State.setTrust_later ?_ ⟨Nat.min_le_right _ _, Nat.min_le_right _ _, Nat.min_le_right _ _, rfl, fun _ => rfl, Nat.min_le_right _ _, Nat.le_refl _⟩
    | with_reducible refine State.setTrust_later ?_ ⟨Nat.min_le_right _ _, Nat.min_le_right _ _, Nat.min_le_right _ _, rfl, id, Nat.min_le_right _ _, Nat.le_refl _⟩
    | with_reducible refine State.setTrust_later ?_ ⟨Nat.min_le_right _ _, Nat.min_le_right _ _, Nat.min_le_right _ _, rfl, id, Nat.min_le_right _ _, Nat.le_succ _⟩
    | with_reducible apply State.linkSigned_later
    | with_reducible apply State.emit_later
    | split
    | dsimp only
    | dsimp only at *

theorem State.pilotLoad_later {s0 : State} {s : State} {p : Nat} {base : Nat} (hs : Later s0 s) :
    Later s0 (State.pilotLoad s p base) := by
  unfold State.pilotLoad
  try dsimp only
  repeat' first
    | with_reducible assumption
    | with_reducible apply State.refuse_later
    | with_reducible apply State.logErr_later
    | with_reducible apply State.setReg_later
    | with_reducible apply State.setRf_later
    | with_reducible apply State.lhManage_later
    | with_reducible apply State.setSession_later
    | split
    | dsimp only
    | dsimp only at *

theorem State.writeFullres_later {s0 : State} {s : State} {on : Bool} (hs : Later s0 s) :
    Later s0 (State.writeFullres s on) := by
  unfold State.writeFullres
  try dsimp only
  repeat' first
    | with_reducible assumption
    | with_reducible apply State.logErr_later
    | with_reducible apply State.setRf_later
    | split
    | dsimp only
    | dsimp only at *

theorem State.blowLock_later {s0 : State} {s : State} (hs : Later s0 s) :
    Later s0 (State.blowLock s) := by
  unfold State.blowLock
  try dsimp only
  repeat' first
    | with_reducible assumption
    | with_reducible refine State.setTrust_later ?_ ⟨Nat.min_le_right _ _, Nat.min_le_right _ _, Nat.min_le_right _ _, rfl, id, TrustLater.boot _, Nat.le_refl _⟩
    | with_reducible refine State.setTrust_later ?_ ⟨TrustLater.fuses _ _, Nat.min_le_right _ _, Nat.min_le_right _ _, rfl, id, Nat.min_le_right _ _, Nat.le_refl _⟩
    | with_reducible refine State.setTrust_later ?_ ⟨Nat.min_le_right _ _, TrustLater.fuses _ _, Nat.min_le_right _ _, rfl, id, Nat.min_le_right _ _, Nat.le_refl _⟩
    | with_reducible refine State.setTrust_later ?_ ⟨Nat.min_le_right _ _, Nat.min_le_right _ _, TrustLater.fuses _ _, rfl, id, Nat.min_le_right _ _, Nat.le_refl _⟩
    | with_reducible refine State.setTrust_later ?_ ⟨Nat.min_le_right _ _, Nat.min_le_right _ _, Nat.min_le_right _ _, rfl, fun _ => rfl, Nat.min_le_right _ _, Nat.le_refl _⟩
    | with_reducible refine State.setTrust_later ?_ ⟨Nat.min_le_right _ _, Nat.min_le_right _ _, Nat.min_le_right _ _, rfl, id, Nat.min_le_right _ _, Nat.le_refl _⟩
    | with_reducible refine State.setTrust_later ?_ ⟨Nat.min_le_right _ _, Nat.min_le_right _ _, Nat.min_le_right _ _, rfl, id, Nat.min_le_right _ _, Nat.le_succ _⟩
    | split
    | dsimp only
    | dsimp only at *

end Sys2Proof.Machine
end

