-- ==== Sys2Proof/Laws/LocalLater.lean ====
section
/-! SUPPORT. Operations of Machine/Local.lean lead to a later state (Safety.Later). -/

namespace Sys2Proof.Machine

/-- The state that a run leaves. -/
def RunEnd.state : RunEnd → State
  | .done s => s
  | .wait s _ => s
  | .bad s _ => s

theorem RunEnd.later_of {s t : State} {x y : RunEnd} (e : x = y) (k : y.state = t) (h : Later s x.state) : Later s t := by
  subst e; subst k; exact h

theorem RunEnd.later_done {s0 s : State} (h : Later s0 s) : Later s0 (RunEnd.done s).state := h
theorem RunEnd.later_wait {s0 s : State} {r : Run} (h : Later s0 s) : Later s0 (RunEnd.wait s r).state := h
theorem RunEnd.later_bad {s0 s : State} {f : Fail} (h : Later s0 s) : Later s0 (RunEnd.bad s f).state := h

theorem State.storePiece_later {s0 : State} {s : State} {t : Task} {ws : List Window} {tenant : Bool} {global : Bool} {package : Nat} {a : Int} {bs : List Byte} (hs : Later s0 s) :
    Post (fun _ => True) (fun p => Later s0 p) (State.storePiece s t ws tenant global package a bs) := by
  unfold State.storePiece
  try dsimp only
  repeat' first
    | with_reducible assumption
    | with_reducible refine Post.ok ?_
    | with_reducible refine Post.pure ?_
    | with_reducible exact Post.error True.intro
    | with_reducible exact Post.throw True.intro
    | exact True.intro
    | with_reducible apply State.writeBytes_later
    | split
    | dsimp only
    | with_reducible refine Post.bind (Post.any _) fun _ _ => ?_
    | dsimp only at *
    | with_reducible refine Later.of_ok (P := fun _ => True) (by assumption) ?_
    | with_reducible refine Later.of_ok2 (P := fun _ => True) (by assumption) ?_
    | with_reducible refine Later.of_ok1 (P := fun _ => True) (by assumption) ?_

theorem State.storePieces_later {s0 : State} {t : Task} {ws : List Window} {tenant : Bool} {global : Bool} {package : Nat} {a : Nat} {a7 : State} {a8 : Int} {a9 : List Byte} (hs : Later s0 a7) :
    Post (fun _ => True) (fun p => Later s0 p) (State.storePieces t ws tenant global package a a7 a8 a9) := by
  induction a generalizing t ws tenant global package a7 a8 a9 with
  | zero =>
    unfold State.storePieces
    try dsimp only
    repeat' first
      | with_reducible assumption
      | with_reducible apply ih
      | with_reducible refine Later.of_ok (by assumption) (ih ?_)
      | with_reducible refine Post.map (ih ?_) fun _ _ => ?_
      | with_reducible refine Post.ok ?_
      | with_reducible refine Post.pure ?_
      | with_reducible exact Post.error True.intro
      | with_reducible exact Post.throw True.intro
      | exact True.intro
      | with_reducible apply State.storePiece_later
      | with_reducible refine Later.of_ok (by assumption) (State.storePiece_later ?_)
      | with_reducible refine Post.bind (State.storePiece_later (s0 := s0) ?_) fun _ _ => ?_
      | with_reducible refine Post.map (State.storePiece_later (s0 := s0) ?_) fun _ _ => ?_
      | split
      | dsimp only
      | with_reducible refine Post.bind (Post.any _) fun _ _ => ?_
      | dsimp only at *
      | with_reducible refine Later.of_ok (P := fun _ => True) (by assumption) ?_
      | with_reducible refine Later.of_ok2 (P := fun _ => True) (by assumption) ?_
      | with_reducible refine Later.of_ok1 (P := fun _ => True) (by assumption) ?_
  | succ n ih =>
    unfold State.storePieces
    try dsimp only
    repeat' first
      | with_reducible assumption
      | with_reducible apply ih
      | with_reducible refine Later.of_ok (by assumption) (ih ?_)
      | with_reducible refine Post.map (ih ?_) fun _ _ => ?_
      | with_reducible refine Post.ok ?_
      | with_reducible refine Post.pure ?_
      | with_reducible exact Post.error True.intro
      | with_reducible exact Post.throw True.intro
      | exact True.intro
      | with_reducible apply State.storePiece_later
      | with_reducible refine Later.of_ok (by assumption) (State.storePiece_later ?_)
      | with_reducible refine Post.bind (State.storePiece_later (s0 := s0) ?_) fun _ _ => ?_
      | with_reducible refine Post.map (State.storePiece_later (s0 := s0) ?_) fun _ _ => ?_
      | split
      | dsimp only
      | with_reducible refine Post.bind (Post.any _) fun _ _ => ?_
      | dsimp only at *
      | with_reducible refine Later.of_ok (P := fun _ => True) (by assumption) ?_
      | with_reducible refine Later.of_ok2 (P := fun _ => True) (by assumption) ?_
      | with_reducible refine Later.of_ok1 (P := fun _ => True) (by assumption) ?_

theorem State.storeAt_later {s0 : State} {s : State} {t : Task} {ws : List Window} {tenant : Bool} {global : Bool} {package : Nat} {a : Int} {bs : List Byte} (hs : Later s0 s) :
    Post (fun _ => True) (fun p => Later s0 p) (State.storeAt s t ws tenant global package a bs) := by
  unfold State.storeAt
  try dsimp only
  repeat' first
    | with_reducible assumption
    | with_reducible refine Post.ok ?_
    | with_reducible refine Post.pure ?_
    | with_reducible exact Post.error True.intro
    | with_reducible exact Post.throw True.intro
    | exact True.intro
    | with_reducible apply State.storePieces_later
    | with_reducible refine Later.of_ok (by assumption) (State.storePieces_later ?_)
    | with_reducible refine Post.bind (State.storePieces_later (s0 := s0) ?_) fun _ _ => ?_
    | with_reducible refine Post.map (State.storePieces_later (s0 := s0) ?_) fun _ _ => ?_
    | split
    | dsimp only
    | with_reducible refine Post.bind (Post.any _) fun _ _ => ?_
    | dsimp only at *

theorem State.readElem_later {s0 : State} {s : State} {x : EngRef} {t : Task} {ws : List Window} {handle : Nat} {d : Desc} {c : List Int} (hs : Later s0 s) :
    Post (fun _ => True) (fun p => Later s0 p.2) (State.readElem s x t ws handle d c) := by
  unfold State.readElem
  try dsimp only
  repeat' first
    | with_reducible assumption
    | with_reducible refine Post.ok ?_
    | with_reducible refine Post.pure ?_
    | with_reducible exact Post.error True.intro
    | with_reducible exact Post.throw True.intro
    | exact True.intro
    | with_reducible apply State.countOob_later
    | with_reducible apply State.meetRead_later
    | split
    | dsimp only
    | with_reducible refine Post.bind (Post.any _) fun _ _ => ?_
    | dsimp only at *
    | with_reducible refine Later.of_ok (P := fun _ => True) (by assumption) ?_
    | with_reducible refine Later.of_ok2 (P := fun _ => True) (by assumption) ?_
    | with_reducible refine Later.of_ok1 (P := fun _ => True) (by assumption) ?_

theorem State.readElems_later {s0 : State} {a1 : EngRef} {t : Task} {ws : List Window} {handle : Nat} {d : Desc} {a : Nat} {a7 : State} {a8 : Nat} (hs : Later s0 a7) :
    Post (fun _ => True) (fun p => Later s0 p.2) (State.readElems a1 t ws handle d a a7 a8) := by
  induction a generalizing a1 t ws handle d a7 a8 with
  | zero =>
    unfold State.readElems
    try dsimp only
    repeat' first
      | with_reducible assumption
      | with_reducible apply ih
      | with_reducible refine Later.of_ok2 (by assumption) (ih ?_)
      | with_reducible refine Post.map (ih ?_) fun _ _ => ?_
      | with_reducible refine Post.ok ?_
      | with_reducible refine Post.pure ?_
      | with_reducible exact Post.error True.intro
      | with_reducible exact Post.throw True.intro
      | exact True.intro
      | with_reducible apply State.readElem_later
      | with_reducible refine Later.of_ok2 (by assumption) (State.readElem_later ?_)
      | with_reducible refine Post.bind (State.readElem_later (s0 := s0) ?_) fun _ _ => ?_
      | with_reducible refine Post.map (State.readElem_later (s0 := s0) ?_) fun _ _ => ?_
      | split
      | dsimp only
      | with_reducible refine Post.bind (Post.any _) fun _ _ => ?_
      | dsimp only at *
      | with_reducible refine Later.of_ok (P := fun _ => True) (by assumption) ?_
      | with_reducible refine Later.of_ok2 (P := fun _ => True) (by assumption) ?_
      | with_reducible refine Later.of_ok1 (P := fun _ => True) (by assumption) ?_
  | succ n ih =>
    unfold State.readElems
    try dsimp only
    repeat' first
      | with_reducible assumption
      | with_reducible apply ih
      | with_reducible refine Later.of_ok2 (by assumption) (ih ?_)
      | with_reducible refine Post.map (ih ?_) fun _ _ => ?_
      | with_reducible refine Post.ok ?_
      | with_reducible refine Post.pure ?_
      | with_reducible exact Post.error True.intro
      | with_reducible exact Post.throw True.intro
      | exact True.intro
      | with_reducible apply State.readElem_later
      | with_reducible refine Later.of_ok2 (by assumption) (State.readElem_later ?_)
      | with_reducible refine Post.bind (State.readElem_later (s0 := s0) ?_) fun _ _ => ?_
      | with_reducible refine Post.map (State.readElem_later (s0 := s0) ?_) fun _ _ => ?_
      | split
      | dsimp only
      | with_reducible refine Post.bind (Post.any _) fun _ _ => ?_
      | dsimp only at *
      | with_reducible refine Later.of_ok (P := fun _ => True) (by assumption) ?_
      | with_reducible refine Later.of_ok2 (P := fun _ => True) (by assumption) ?_
      | with_reducible refine Later.of_ok1 (P := fun _ => True) (by assumption) ?_

theorem State.writeElem_later {s0 : State} {s : State} {x : EngRef} {t : Task} {ws : List Window} {handle : Nat} {d : Desc} {c : List Int} {v : Nat} (hs : Later s0 s) :
    Post (fun _ => True) (fun p => Later s0 p) (State.writeElem s x t ws handle d c v) := by
  unfold State.writeElem
  try dsimp only
  repeat' first
    | with_reducible assumption
    | with_reducible refine Post.ok ?_
    | with_reducible refine Post.pure ?_
    | with_reducible exact Post.error True.intro
    | with_reducible exact Post.throw True.intro
    | exact True.intro
    | with_reducible apply State.countOob_later
    | with_reducible apply State.storeAt_later
    | with_reducible refine Later.of_ok (by assumption) (State.storeAt_later ?_)
    | with_reducible refine Post.bind (State.storeAt_later (s0 := s0) ?_) fun _ _ => ?_
    | with_reducible refine Post.map (State.storeAt_later (s0 := s0) ?_) fun _ _ => ?_
    | split
    | dsimp only
    | with_reducible refine Post.bind (Post.any _) fun _ _ => ?_
    | dsimp only at *
    | with_reducible refine Later.of_ok (P := fun _ => True) (by assumption) ?_
    | with_reducible refine Later.of_ok2 (P := fun _ => True) (by assumption) ?_
    | with_reducible refine Later.of_ok1 (P := fun _ => True) (by assumption) ?_

theorem State.writeElems_later {s0 : State} {a1 : EngRef} {t : Task} {ws : List Window} {handle : Nat} {d : Desc} {a : State} {a7 : List (List Int × Nat)} (hs : Later s0 a) :
    Later s0 (State.writeElems a1 t ws handle d a a7).1 := by
  induction a7 generalizing a1 t ws handle d a with
  | nil =>
    unfold State.writeElems
    try dsimp only
    repeat' first
      | with_reducible assumption
      | with_reducible apply ih
      | with_reducible refine Later.of_fst (by assumption) (ih ?_)
      | with_reducible apply State.writeElem_later
      | with_reducible refine Later.of_ok (by assumption) (State.writeElem_later ?_)
      | with_reducible refine Post.bind (State.writeElem_later (s0 := s0) ?_) fun _ _ => ?_
      | with_reducible refine Post.map (State.writeElem_later (s0 := s0) ?_) fun _ _ => ?_
      | split
      | dsimp only
      | with_reducible refine Post.ok ?_
      | with_reducible exact Post.error True.intro
      | dsimp only at *
      | with_reducible refine Later.of_ok (P := fun _ => True) (by assumption) ?_
      | with_reducible refine Later.of_ok2 (P := fun _ => True) (by assumption) ?_
      | with_reducible refine Later.of_ok1 (P := fun _ => True) (by assumption) ?_
  | cons b l ih =>
    unfold State.writeElems
    try dsimp only
    repeat' first
      | with_reducible assumption
      | with_reducible apply ih
      | with_reducible refine Later.of_fst (by assumption) (ih ?_)
      | with_reducible apply State.writeElem_later
      | with_reducible refine Later.of_ok (by assumption) (State.writeElem_later ?_)
      | with_reducible refine Post.bind (State.writeElem_later (s0 := s0) ?_) fun _ _ => ?_
      | with_reducible refine Post.map (State.writeElem_later (s0 := s0) ?_) fun _ _ => ?_
      | split
      | dsimp only
      | with_reducible refine Post.ok ?_
      | with_reducible exact Post.error True.intro
      | dsimp only at *
      | with_reducible refine Later.of_ok (P := fun _ => True) (by assumption) ?_
      | with_reducible refine Later.of_ok2 (P := fun _ => True) (by assumption) ?_
      | with_reducible refine Later.of_ok1 (P := fun _ => True) (by assumption) ?_

theorem State.setRun_later {s0 : State} {s : State} {x : EngRef} {r : Run} (hs : Later s0 s) :
    Later s0 (State.setRun s x r) := by
  unfold State.setRun
  try dsimp only
  repeat' first
    | with_reducible assumption
    | with_reducible apply State.updEng_later
    | split
    | dsimp only
    | dsimp only at *

theorem State.keepRun_later {s0 : State} {s : State} {x : EngRef} {t : Task} {r : Run} {i : Instr} (hs : Later s0 s) :
    Later s0 (State.keepRun s x t r i) := by
  unfold State.keepRun
  try dsimp only
  repeat' first
    | with_reducible assumption
    | with_reducible apply State.setRun_later
    | with_reducible apply State.stallRing_later
    | split
    | dsimp only
    | dsimp only at *

theorem State.endRun_later {s0 : State} {x : EngRef} {t : Task} {i : Instr} {v : RunEnd} (h : Later s0 v.state) : Later s0 (State.endRun x t i v) := by
  match v, h with
  | .done _, h => exact State.retire_later h
  | .wait _ _, h => exact State.keepRun_later h
  | .bad _ _, h => exact State.failTask_later h

theorem State.putOut_later {s0 : State} {s : State} {x : EngRef} {n : Nat} {ty : Nat} {bs : List Byte} {frees : optParam (Option Nat) Option.none} (hs : Later s0 s) :
    Later s0 (State.putOut s x n ty bs frees) := by
  unfold State.putOut
  try dsimp only
  repeat' first
    | with_reducible assumption
    | with_reducible apply State.updEng_later
    | split
    | dsimp only
    | dsimp only at *

end Sys2Proof.Machine
end

