-- ==== Sys2Proof/Laws/EbbLater.lean ====
section
/-! SUPPORT. Operations of Machine/Ebb.lean lead to a later state (Safety.Later). -/

namespace Sys2Proof.Machine

theorem State.columnVectors_later {s0 : State} {e : DrainEnv} {a : State} {a3 : List (ChainOp × Option Desc)} (hs : Later s0 a) :
    Post (fun _ => True) (fun p => Later s0 p.2) (State.columnVectors e a a3) := by
  induction a3 generalizing e a with
  | nil =>
    unfold State.columnVectors
    try dsimp only
    repeat' first
      | with_reducible assumption
      | with_reducible apply ih
      | with_reducible refine Later.of_ok2 (by assumption) (ih ?_)
      | with_reducible refine Post.map (ih ?_) fun _ _ => ?_
      | with_reducible refine Post.ok ?_
      | with_reducible refine Post.pure ?_
      | with_reducible exact Post.error True.intro
      | with_reducible exact Post.throw True.intro
      | exact True.intro
      | with_reducible apply State.readElems_later
      | with_reducible refine Later.of_ok2 (by assumption) (State.readElems_later ?_)
      | with_reducible refine Post.bind (State.readElems_later (s0 := s0) ?_) fun _ _ => ?_
      | with_reducible refine Post.map (State.readElems_later (s0 := s0) ?_) fun _ _ => ?_
      | split
      | dsimp only
      | with_reducible refine Post.bind (Post.any _) fun _ _ => ?_
      | dsimp only at *
      | with_reducible refine Later.of_ok (P := fun _ => True) (by assumption) ?_
      | with_reducible refine Later.of_ok2 (P := fun _ => True) (by assumption) ?_
      | with_reducible refine Later.of_ok1 (P := fun _ => True) (by assumption) ?_
  | cons b l ih =>
    unfold State.columnVectors
    try dsimp only
    repeat' first
      | with_reducible assumption
      | with_reducible apply ih
      | with_reducible refine Later.of_ok2 (by assumption) (ih ?_)
      | with_reducible refine Post.map (ih ?_) fun _ _ => ?_
      | with_reducible refine Post.ok ?_
      | with_reducible refine Post.pure ?_
      | with_reducible exact Post.error True.intro
      | with_reducible exact Post.throw True.intro
      | exact True.intro
      | with_reducible apply State.readElems_later
      | with_reducible refine Later.of_ok2 (by assumption) (State.readElems_later ?_)
      | with_reducible refine Post.bind (State.readElems_later (s0 := s0) ?_) fun _ _ => ?_
      | with_reducible refine Post.map (State.readElems_later (s0 := s0) ?_) fun _ _ => ?_
      | split
      | dsimp only
      | with_reducible refine Post.bind (Post.any _) fun _ _ => ?_
      | dsimp only at *
      | with_reducible refine Later.of_ok (P := fun _ => True) (by assumption) ?_
      | with_reducible refine Later.of_ok2 (P := fun _ => True) (by assumption) ?_
      | with_reducible refine Later.of_ok1 (P := fun _ => True) (by assumption) ?_

theorem State.rowOps_later {s0 : State} {e : DrainEnv} {m : Nat} {a : State} {a4 : List (Nat × Nat × Nat)} {a5 : List ((ChainOp × Option Desc) × List Nat)} {a6 : List Nat} (hs : Later s0 a) :
    Later s0 (State.rowOps e m a a4 a5 a6).1 := by
  induction a5 generalizing e m a a4 a6 with
  | nil =>
    unfold State.rowOps
    try dsimp only
    repeat' first
      | with_reducible assumption
      | with_reducible apply ih
      | with_reducible refine Later.of_fst (by assumption) (ih ?_)
      | with_reducible apply State.readElem_later
      | with_reducible refine Later.of_ok2 (by assumption) (State.readElem_later ?_)
      | with_reducible refine Post.bind (State.readElem_later (s0 := s0) ?_) fun _ _ => ?_
      | with_reducible refine Post.map (State.readElem_later (s0 := s0) ?_) fun _ _ => ?_
      | with_reducible refine Later.foldl ?_ fun _ _ _ => ?_
      | with_reducible refine Later.foldl_with (fun p : _ × State => p.2) ?_ fun _ _ _ => ?_
      | with_reducible refine Later.foldl_with (fun p : State × _ => p.1) ?_ fun _ _ _ => ?_
      | split
      | dsimp only
      | with_reducible refine Post.ok ?_
      | with_reducible exact Post.error True.intro
      | dsimp only at *
      | with_reducible refine Later.of_ok (P := fun _ => True) (by assumption) ?_
      | with_reducible refine Later.of_ok2 (P := fun _ => True) (by assumption) ?_
      | with_reducible refine Later.of_ok1 (P := fun _ => True) (by assumption) ?_
  | cons b l ih =>
    unfold State.rowOps
    try dsimp only
    repeat' first
      | with_reducible assumption
      | with_reducible apply ih
      | with_reducible refine Later.of_fst (by assumption) (ih ?_)
      | with_reducible apply State.readElem_later
      | with_reducible refine Later.of_ok2 (by assumption) (State.readElem_later ?_)
      | with_reducible refine Post.bind (State.readElem_later (s0 := s0) ?_) fun _ _ => ?_
      | with_reducible refine Post.map (State.readElem_later (s0 := s0) ?_) fun _ _ => ?_
      | with_reducible refine Later.foldl ?_ fun _ _ _ => ?_
      | with_reducible refine Later.foldl_with (fun p : _ × State => p.2) ?_ fun _ _ _ => ?_
      | with_reducible refine Later.foldl_with (fun p : State × _ => p.1) ?_ fun _ _ _ => ?_
      | split
      | dsimp only
      | with_reducible refine Post.ok ?_
      | with_reducible exact Post.error True.intro
      | dsimp only at *
      | with_reducible refine Later.of_ok (P := fun _ => True) (by assumption) ?_
      | with_reducible refine Later.of_ok2 (P := fun _ => True) (by assumption) ?_
      | with_reducible refine Later.of_ok1 (P := fun _ => True) (by assumption) ?_

theorem State.flagRow_later {s0 : State} {s : State} {x : EngRef} {ty : Nat} {row : List Nat} (hs : Later s0 s) :
    Later s0 (State.flagRow s x ty row) := by
  unfold State.flagRow
  try dsimp only
  repeat' first
    | with_reducible assumption
    | with_reducible apply State.setRf_later
    | split
    | dsimp only
    | dsimp only at *

theorem State.countRow_later {s0 : State} {s : State} {x : EngRef} {v : RowCheck} (hs : Later s0 s) :
    Later s0 (State.countRow s x v) := by
  unfold State.countRow
  try dsimp only
  repeat' first
    | with_reducible assumption
    | with_reducible apply State.satRf_later
    | split
    | dsimp only
    | dsimp only at *

theorem State.drainRow_later {s0 : State} {e : DrainEnv} {cols : List (List Nat)} {d : Drain} {i : Nat} {row : List Nat} {c : Nat} {abar : Nat} (hs : Later s0 d.s) :
    Later s0 (State.drainRow e cols d i row c abar).s := by
  unfold State.drainRow
  try dsimp only
  repeat' first
    | with_reducible assumption
    | with_reducible apply State.countRow_later
    | with_reducible apply State.addRf_later
    | with_reducible apply State.flagRow_later
    | with_reducible apply State.rowOps_later
    | with_reducible refine Later.of_snd (by assumption) ?_
    | with_reducible refine Later.of_fst (by assumption) ?_
    | split
    | dsimp only
    | with_reducible refine Post.ok ?_
    | with_reducible exact Post.error True.intro
    | dsimp only at *
    | with_reducible refine Later.of_ok (P := fun _ => True) (by assumption) ?_
    | with_reducible refine Later.of_ok2 (P := fun _ => True) (by assumption) ?_
    | with_reducible refine Later.of_ok1 (P := fun _ => True) (by assumption) ?_

theorem State.drainRows_later {s0 : State} {e : DrainEnv} {cols : List (List Nat)} {c : List Nat} {abar : List Nat} {a : Drain} {a6 : Nat} {a7 : List (List Nat)} (hs : Later s0 a.s) :
    Later s0 (State.drainRows e cols c abar a a6 a7).s := by
  induction a7 generalizing e cols c abar a a6 with
  | nil =>
    unfold State.drainRows
    try dsimp only
    repeat' first
      | with_reducible assumption
      | with_reducible apply ih
      | with_reducible apply State.drainRow_later
      | with_reducible apply State.commit_later
      | split
      | dsimp only
      | dsimp only at *
  | cons b l ih =>
    unfold State.drainRows
    try dsimp only
    repeat' first
      | with_reducible assumption
      | with_reducible apply ih
      | with_reducible apply State.drainRow_later
      | with_reducible apply State.commit_later
      | split
      | dsimp only
      | dsimp only at *

theorem State.drainTile_later {s0 : State} {s : State} {e : DrainEnv} {stats : List (Nat × Nat × Nat)} {key : Nat} {vals : List Nat} {c : List Nat} {abar : List Nat} (hs : Later s0 s) :
    Later s0 (State.drainTile s e stats key vals c abar).s := by
  unfold State.drainTile
  try dsimp only
  repeat' first
    | with_reducible assumption
    | with_reducible apply State.columnVectors_later
    | with_reducible refine Later.of_ok2 (by assumption) (State.columnVectors_later ?_)
    | with_reducible refine Post.bind (State.columnVectors_later (s0 := s0) ?_) fun _ _ => ?_
    | with_reducible refine Post.map (State.columnVectors_later (s0 := s0) ?_) fun _ _ => ?_
    | with_reducible apply State.drainRows_later
    | with_reducible apply State.setArray_later
    | with_reducible apply State.satRf_later
    | with_reducible apply State.setRf_later
    | with_reducible apply State.putOut_later
    | split
    | dsimp only
    | with_reducible refine Post.ok ?_
    | with_reducible exact Post.error True.intro
    | dsimp only at *
    | with_reducible refine Later.of_ok (P := fun _ => True) (by assumption) ?_
    | with_reducible refine Later.of_ok2 (P := fun _ => True) (by assumption) ?_
    | with_reducible refine Later.of_ok1 (P := fun _ => True) (by assumption) ?_

theorem State.writeStats_later {s0 : State} {s : State} {e : DrainEnv} {stats : List (Nat × Nat × Nat)} (hs : Later s0 s) :
    Later s0 (State.writeStats s e stats).1 := by
  unfold State.writeStats
  try dsimp only
  repeat' first
    | with_reducible assumption
    | with_reducible apply State.writeElems_later
    | with_reducible refine Later.of_snd (by assumption) ?_
    | with_reducible refine Later.of_fst (by assumption) ?_
    | split
    | dsimp only
    | dsimp only at *

end Sys2Proof.Machine
end

