-- ==== Sys2Proof/Laws/MatrixLater.lean ====
section
/-! SUPPORT. Operations of Machine/Matrix.lean lead to a later state (Safety.Later). -/

namespace Sys2Proof.Machine

/-- The state that a step answers. -/
def ArrayStep.state : ArrayStep → State
  | .more s _ => s
  | .wait s _ => s
  | .done s _ => s
  | .bad s _ => s

theorem ArrayStep.later_of {s t : State} {x y : ArrayStep} (e : x = y) (k : y.state = t) (h : Later s x.state) : Later s t := by
  subst e; subst k; exact h

theorem ArrayStep.later_more {s0 s : State} {a : ArrayRun} (h : Later s0 s) : Later s0 (ArrayStep.more s a).state := h
theorem ArrayStep.later_wait {s0 s : State} {a : ArrayRun} (h : Later s0 s) : Later s0 (ArrayStep.wait s a).state := h
theorem ArrayStep.later_done {s0 s : State} {a : ArrayRun} (h : Later s0 s) : Later s0 (ArrayStep.done s a).state := h
theorem ArrayStep.later_bad {s0 s : State} {a : Fail} (h : Later s0 s) : Later s0 (ArrayStep.bad s a).state := h

theorem State.maskByte_later {s0 : State} {s : State} {e : ArrayEnv} {d : Desc} {col : Nat} {row : Nat} (hs : Later s0 s) :
    Post (fun _ => True) (fun p => Later s0 p.2) (State.maskByte s e d col row) := by
  unfold State.maskByte
  try dsimp only
  repeat' first
    | with_reducible assumption
    | with_reducible refine Post.ok ?_
    | with_reducible refine Post.pure ?_
    | with_reducible exact Post.error True.intro
    | with_reducible exact Post.throw True.intro
    | exact True.intro
    | with_reducible apply State.readElem_later
    | with_reducible refine Later.of_ok2 (by assumption) (State.readElem_later ?_)
    | with_reducible refine Post.bind (State.readElem_later (s0 := s0) ?_) fun _ _ => ?_
    | with_reducible refine Post.map (State.readElem_later (s0 := s0) ?_) fun _ _ => ?_
    | split
    | dsimp only
    | with_reducible refine Post.bind (Post.any _) fun _ _ => ?_
    | dsimp only at *

theorem State.rowMasks_later {s0 : State} {e : ArrayEnv} {d : Desc} {col : Nat} {a : Nat} {a5 : State} {a6 : Nat} (hs : Later s0 a5) :
    Post (fun _ => True) (fun p => Later s0 p.2) (State.rowMasks e d col a a5 a6) := by
  induction a generalizing e d col a5 a6 with
  | zero =>
    unfold State.rowMasks
    try dsimp only
    repeat' first
      | with_reducible assumption
      | with_reducible apply ih
      | with_reducible refine Later.of_ok2 (by assumption) (ih ?_)
      | with_reducible refine Post.map (ih ?_) fun _ _ => ?_
      | with_reducible refine Post.ok ?_
      | with_reducible refine Post.pure ?_
      | with_reducible exact Post.error True.intro
      | with_reducible exact Post.throw True.intro
      | exact True.intro
      | with_reducible apply State.maskByte_later
      | with_reducible refine Later.of_ok2 (by assumption) (State.maskByte_later ?_)
      | with_reducible refine Post.bind (State.maskByte_later (s0 := s0) ?_) fun _ _ => ?_
      | with_reducible refine Post.map (State.maskByte_later (s0 := s0) ?_) fun _ _ => ?_
      | split
      | dsimp only
      | with_reducible refine Post.bind (Post.any _) fun _ _ => ?_
      | dsimp only at *
      | with_reducible refine Later.of_ok (P := fun _ => True) (by assumption) ?_
      | with_reducible refine Later.of_ok2 (P := fun _ => True) (by assumption) ?_
      | with_reducible refine Later.of_ok1 (P := fun _ => True) (by assumption) ?_
  | succ n ih =>
    unfold State.rowMasks
    try dsimp only
    repeat' first
      | with_reducible assumption
      | with_reducible apply ih
      | with_reducible refine Later.of_ok2 (by assumption) (ih ?_)
      | with_reducible refine Post.map (ih ?_) fun _ _ => ?_
      | with_reducible refine Post.ok ?_
      | with_reducible refine Post.pure ?_
      | with_reducible exact Post.error True.intro
      | with_reducible exact Post.throw True.intro
      | exact True.intro
      | with_reducible apply State.maskByte_later
      | with_reducible refine Later.of_ok2 (by assumption) (State.maskByte_later ?_)
      | with_reducible refine Post.bind (State.maskByte_later (s0 := s0) ?_) fun _ _ => ?_
      | with_reducible refine Post.map (State.maskByte_later (s0 := s0) ?_) fun _ _ => ?_
      | split
      | dsimp only
      | with_reducible refine Post.bind (Post.any _) fun _ _ => ?_
      | dsimp only at *
      | with_reducible refine Later.of_ok (P := fun _ => True) (by assumption) ?_
      | with_reducible refine Later.of_ok2 (P := fun _ => True) (by assumption) ?_
      | with_reducible refine Later.of_ok1 (P := fun _ => True) (by assumption) ?_

theorem State.maskBlocks_later {s0 : State} {e : ArrayEnv} {d : Desc} {mb : Nat} {a : State} {a5 : List Nat} (hs : Later s0 a) :
    Post (fun _ => True) (fun p => Later s0 p.2) (State.maskBlocks e d mb a a5) := by
  induction a5 generalizing e d mb a with
  | nil =>
    unfold State.maskBlocks
    try dsimp only
    repeat' first
      | with_reducible assumption
      | with_reducible apply ih
      | with_reducible refine Later.of_ok2 (by assumption) (ih ?_)
      | with_reducible refine Post.map (ih ?_) fun _ _ => ?_
      | with_reducible refine Post.ok ?_
      | with_reducible refine Post.pure ?_
      | with_reducible exact Post.error True.intro
      | with_reducible exact Post.throw True.intro
      | exact True.intro
      | with_reducible apply State.rowMasks_later
      | with_reducible refine Later.of_ok2 (by assumption) (State.rowMasks_later ?_)
      | with_reducible refine Post.bind (State.rowMasks_later (s0 := s0) ?_) fun _ _ => ?_
      | with_reducible refine Post.map (State.rowMasks_later (s0 := s0) ?_) fun _ _ => ?_
      | with_reducible apply State.load_later
      | split
      | dsimp only
      | with_reducible refine Post.bind (Post.any _) fun _ _ => ?_
      | dsimp only at *
      | with_reducible refine Later.of_ok (P := fun _ => True) (by assumption) ?_
      | with_reducible refine Later.of_ok2 (P := fun _ => True) (by assumption) ?_
      | with_reducible refine Later.of_ok1 (P := fun _ => True) (by assumption) ?_
  | cons b l ih =>
    unfold State.maskBlocks
    try dsimp only
    repeat' first
      | with_reducible assumption
      | with_reducible apply ih
      | with_reducible refine Later.of_ok2 (by assumption) (ih ?_)
      | with_reducible refine Post.map (ih ?_) fun _ _ => ?_
      | with_reducible refine Post.ok ?_
      | with_reducible refine Post.pure ?_
      | with_reducible exact Post.error True.intro
      | with_reducible exact Post.throw True.intro
      | exact True.intro
      | with_reducible apply State.rowMasks_later
      | with_reducible refine Later.of_ok2 (by assumption) (State.rowMasks_later ?_)
      | with_reducible refine Post.bind (State.rowMasks_later (s0 := s0) ?_) fun _ _ => ?_
      | with_reducible refine Post.map (State.rowMasks_later (s0 := s0) ?_) fun _ _ => ?_
      | with_reducible apply State.load_later
      | split
      | dsimp only
      | with_reducible refine Post.bind (Post.any _) fun _ _ => ?_
      | dsimp only at *
      | with_reducible refine Later.of_ok (P := fun _ => True) (by assumption) ?_
      | with_reducible refine Later.of_ok2 (P := fun _ => True) (by assumption) ?_
      | with_reducible refine Later.of_ok1 (P := fun _ => True) (by assumption) ?_

theorem State.skippedRows_later {s0 : State} {s : State} {e : ArrayEnv} {ob : Nat} {l : ArrayLoad} {mb : Nat} (hs : Later s0 s) :
    Post (fun _ => True) (fun p => Later s0 p.2) (State.skippedRows s e ob l mb) := by
  unfold State.skippedRows
  try dsimp only
  repeat' first
    | with_reducible assumption
    | with_reducible refine Post.ok ?_
    | with_reducible refine Post.pure ?_
    | with_reducible exact Post.error True.intro
    | with_reducible exact Post.throw True.intro
    | exact True.intro
    | with_reducible apply State.maskBlocks_later
    | with_reducible refine Later.of_ok2 (by assumption) (State.maskBlocks_later ?_)
    | with_reducible refine Post.bind (State.maskBlocks_later (s0 := s0) ?_) fun _ _ => ?_
    | with_reducible refine Post.map (State.maskBlocks_later (s0 := s0) ?_) fun _ _ => ?_
    | split
    | dsimp only
    | with_reducible refine Post.bind (Post.any _) fun _ _ => ?_
    | dsimp only at *
    | with_reducible refine Later.of_ok (P := fun _ => True) (by assumption) ?_
    | with_reducible refine Later.of_ok2 (P := fun _ => True) (by assumption) ?_
    | with_reducible refine Later.of_ok1 (P := fun _ => True) (by assumption) ?_

theorem State.seeStationary_later {s0 : State} {s : State} {e : ArrayEnv} (hs : Later s0 s) :
    Later s0 (State.seeStationary s e).2 := by
  unfold State.seeStationary
  try dsimp only
  repeat' first
    | with_reducible assumption
    | with_reducible apply State.parityFail_later
    | with_reducible apply State.load_later
    | split
    | dsimp only
    | with_reducible refine Post.ok ?_
    | with_reducible exact Post.error True.intro
    | dsimp only at *
    | with_reducible refine Later.of_ok (P := fun _ => True) (by assumption) ?_
    | with_reducible refine Later.of_ok2 (P := fun _ => True) (by assumption) ?_
    | with_reducible refine Later.of_ok1 (P := fun _ => True) (by assumption) ?_

theorem State.passStationary_later {s0 : State} {s : State} {e : ArrayEnv} (hs : Later s0 s) :
    Later s0 (State.passStationary s e) := by
  unfold State.passStationary
  try dsimp only
  repeat' first
    | with_reducible assumption
    | with_reducible apply State.releaseSlots_later
    | with_reducible apply State.setHeld_later
    | split
    | dsimp only
    | dsimp only at *

theorem State.takeStreamed_later {s0 : State} {s : State} {e : ArrayEnv} {r : ArrayRun} (hs : Later s0 s) :
    Later s0 (State.takeStreamed s e r).2 := by
  unfold State.takeStreamed
  try dsimp only
  repeat' first
    | with_reducible assumption
    | with_reducible apply State.takeBytes_later
    | with_reducible apply State.takeSlot_later
    | with_reducible apply State.load_later
    | with_reducible apply State.complete_later
    | with_reducible refine Later.of_snd (by assumption) ?_
    | with_reducible refine Later.of_fst (by assumption) ?_
    | split
    | dsimp only
    | with_reducible refine Post.ok ?_
    | with_reducible exact Post.error True.intro
    | dsimp only at *
    | with_reducible refine Later.of_ok (P := fun _ => True) (by assumption) ?_
    | with_reducible refine Later.of_ok2 (P := fun _ => True) (by assumption) ?_
    | with_reducible refine Later.of_ok1 (P := fun _ => True) (by assumption) ?_

theorem State.swapSets_later {s0 : State} {s : State} {e : ArrayEnv} {r : ArrayRun} (hs : Later s0 s) :
    Later s0 (State.swapSets s e r).1 := by
  unfold State.swapSets
  try dsimp only
  repeat' first
    | with_reducible assumption
    | with_reducible apply State.setArray_later
    | with_reducible apply State.load_later
    | with_reducible apply State.complete_later
    | split
    | dsimp only
    | dsimp only at *

theorem State.pushLoad_later {s0 : State} {s : State} {e : ArrayEnv} {r : ArrayRun} {l : ArrayLoad} (hs : Later s0 s) :
    Later s0 (State.pushLoad s e r l).1 := by
  unfold State.pushLoad
  try dsimp only
  repeat' first
    | with_reducible assumption
    | with_reducible apply State.swapSets_later
    | with_reducible apply State.addRf_later
    | with_reducible apply State.setArray_later
    | with_reducible refine Later.of_snd (by assumption) ?_
    | with_reducible refine Later.of_fst (by assumption) ?_
    | split
    | dsimp only
    | dsimp only at *

theorem State.streamNext_later {s0 : State} {s : State} {e : ArrayEnv} {r : ArrayRun} {l : ArrayLoad} (hs : Later s0 s) :
    Later s0 (State.streamNext s e r l).state := by
  unfold State.streamNext
  try dsimp only
  repeat' first
    | with_reducible assumption
    | with_reducible apply State.takeStreamed_later
    | with_reducible apply State.addRf_later
    | with_reducible apply State.skippedRows_later
    | with_reducible refine Later.of_ok2 (by assumption) (State.skippedRows_later ?_)
    | with_reducible refine Post.bind (State.skippedRows_later (s0 := s0) ?_) fun _ _ => ?_
    | with_reducible refine Post.map (State.skippedRows_later (s0 := s0) ?_) fun _ _ => ?_
    | with_reducible apply State.swapSets_later
    | with_reducible refine Later.of_snd (by assumption) ?_
    | with_reducible refine Later.of_fst (by assumption) ?_
    | with_reducible refine Later.foldl ?_ fun _ _ _ => ?_
    | with_reducible refine Later.foldl_with (fun p : _ × State => p.2) ?_ fun _ _ _ => ?_
    | with_reducible refine Later.foldl_with (fun p : State × _ => p.1) ?_ fun _ _ _ => ?_
    | with_reducible refine ArrayStep.later_more ?_
    | with_reducible refine ArrayStep.later_wait ?_
    | with_reducible refine ArrayStep.later_done ?_
    | with_reducible refine ArrayStep.later_bad ?_
    | split
    | dsimp only
    | with_reducible refine Post.ok ?_
    | with_reducible exact Post.error True.intro
    | dsimp only at *
    | with_reducible refine Later.of_ok (P := fun _ => True) (by assumption) ?_
    | with_reducible refine Later.of_ok2 (P := fun _ => True) (by assumption) ?_
    | with_reducible refine Later.of_ok1 (P := fun _ => True) (by assumption) ?_

theorem State.loadDense_later {s0 : State} {s : State} {e : ArrayEnv} {r : ArrayRun} {t : Tile} (hs : Later s0 s) :
    Later s0 (State.loadDense s e r t).state := by
  unfold State.loadDense
  try dsimp only
  repeat' first
    | with_reducible assumption
    | with_reducible apply State.passStationary_later
    | with_reducible apply State.pushLoad_later
    | with_reducible apply State.load_later
    | with_reducible refine Later.of_snd (by assumption) ?_
    | with_reducible refine Later.of_fst (by assumption) ?_
    | with_reducible refine ArrayStep.later_more ?_
    | with_reducible refine ArrayStep.later_wait ?_
    | with_reducible refine ArrayStep.later_done ?_
    | with_reducible refine ArrayStep.later_bad ?_
    | split
    | dsimp only
    | dsimp only at *

theorem State.loadSparse_later {s0 : State} {s : State} {e : ArrayEnv} {r : ArrayRun} {t : Tile} (hs : Later s0 s) :
    Later s0 (State.loadSparse s e r t).state := by
  unfold State.loadSparse
  try dsimp only
  repeat' first
    | with_reducible assumption
    | with_reducible apply State.pushLoad_later
    | with_reducible apply State.passStationary_later
    | with_reducible apply State.load_later
    | with_reducible refine Later.of_snd (by assumption) ?_
    | with_reducible refine Later.of_fst (by assumption) ?_
    | with_reducible refine ArrayStep.later_more ?_
    | with_reducible refine ArrayStep.later_wait ?_
    | with_reducible refine ArrayStep.later_done ?_
    | with_reducible refine ArrayStep.later_bad ?_
    | split
    | dsimp only
    | dsimp only at *

theorem State.loadPlanes_later {s0 : State} {s : State} {e : ArrayEnv} {r : ArrayRun} {t : Tile} (hs : Later s0 s) :
    Later s0 (State.loadPlanes s e r t).state := by
  unfold State.loadPlanes
  try dsimp only
  repeat' first
    | with_reducible assumption
    | with_reducible apply State.emit_later
    | with_reducible apply State.pushLoad_later
    | with_reducible apply State.passStationary_later
    | with_reducible apply State.load_later
    | with_reducible apply State.Plan.piece_later
    | with_reducible refine Later.of_plan (by assumption) (State.Plan.piece_later ?_)
    | with_reducible apply State.Plan.read_later
    | with_reducible refine Later.of_plan (by assumption) (State.Plan.read_later ?_)
    | with_reducible apply State.Plan.indexAt_later
    | with_reducible refine Later.of_plan (by assumption) (State.Plan.indexAt_later ?_)
    | with_reducible apply State.Plan.entry_later
    | with_reducible apply State.Plan.each_later
    | with_reducible refine Later.of_plan (by assumption) (State.Plan.each_later ?_)
    | with_reducible refine State.Plan.cells_later ?_ fun _ _ _ => ?_
    | with_reducible refine Later.of_plan (by assumption) (State.Plan.cells_later ?_ fun _ _ _ => ?_)
    | with_reducible apply State.Plan.element_later
    | with_reducible refine Later.of_plan (by assumption) (State.Plan.element_later ?_)
    | with_reducible apply State.Plan.elements_later
    | with_reducible refine Later.of_plan (by assumption) (State.Plan.elements_later ?_)
    | with_reducible apply State.Plan.source_later
    | with_reducible refine Later.of_plan (by assumption) (State.Plan.source_later ?_)
    | with_reducible apply State.Plan.tile_later
    | with_reducible refine Later.of_plan (by assumption) (State.Plan.tile_later ?_)
    | with_reducible apply State.Plan.dest_later
    | with_reducible refine Later.of_plan (by assumption) (State.Plan.dest_later ?_)
    | with_reducible apply State.Plan.tileDest_later
    | with_reducible refine Later.of_plan (by assumption) (State.Plan.tileDest_later ?_)
    | with_reducible apply State.Plan.disagree_later
    | with_reducible apply State.Plan.toTile_later
    | with_reducible refine Later.of_plan (by assumption) (State.Plan.toTile_later ?_)
    | with_reducible apply State.Plan.toElements_later
    | with_reducible refine Later.of_plan (by assumption) (State.Plan.toElements_later ?_)
    | with_reducible apply State.Plan.memVisit_later
    | with_reducible refine Later.of_plan (by assumption) (State.Plan.memVisit_later ?_)
    | with_reducible apply State.Plan.ringElement_later
    | with_reducible refine Later.of_plan (by assumption) (State.Plan.ringElement_later ?_)
    | with_reducible apply State.Plan.ringTile_later
    | with_reducible refine Later.of_plan (by assumption) (State.Plan.ringTile_later ?_)
    | with_reducible refine State.Plan.visit_later ?_ fun _ _ _ => ?_
    | with_reducible refine Later.of_snd (by assumption) ?_
    | with_reducible refine Later.of_fst (by assumption) ?_
    | with_reducible refine ArrayStep.later_more ?_
    | with_reducible refine ArrayStep.later_wait ?_
    | with_reducible refine ArrayStep.later_done ?_
    | with_reducible refine ArrayStep.later_bad ?_
    | split
    | dsimp only
    | dsimp only at *

theorem State.loadNext_later {s0 : State} {s : State} {e : ArrayEnv} {r : ArrayRun} (hs : Later s0 s) :
    Later s0 (State.loadNext s e r).state := by
  unfold State.loadNext
  try dsimp only
  repeat' first
    | with_reducible assumption
    | with_reducible apply State.pushLoad_later
    | with_reducible apply State.seeStationary_later
    | with_reducible apply State.loadSparse_later
    | with_reducible refine ArrayStep.later_of (by assumption) rfl (State.loadSparse_later ?_)
    | with_reducible apply State.loadPlanes_later
    | with_reducible refine ArrayStep.later_of (by assumption) rfl (State.loadPlanes_later ?_)
    | with_reducible apply State.loadDense_later
    | with_reducible refine ArrayStep.later_of (by assumption) rfl (State.loadDense_later ?_)
    | with_reducible apply State.Plan.piece_later
    | with_reducible refine Later.of_plan (by assumption) (State.Plan.piece_later ?_)
    | with_reducible apply State.Plan.read_later
    | with_reducible refine Later.of_plan (by assumption) (State.Plan.read_later ?_)
    | with_reducible apply State.Plan.indexAt_later
    | with_reducible refine Later.of_plan (by assumption) (State.Plan.indexAt_later ?_)
    | with_reducible apply State.Plan.entry_later
    | with_reducible apply State.Plan.each_later
    | with_reducible refine Later.of_plan (by assumption) (State.Plan.each_later ?_)
    | with_reducible refine State.Plan.cells_later ?_ fun _ _ _ => ?_
    | with_reducible refine Later.of_plan (by assumption) (State.Plan.cells_later ?_ fun _ _ _ => ?_)
    | with_reducible apply State.Plan.element_later
    | with_reducible refine Later.of_plan (by assumption) (State.Plan.element_later ?_)
    | with_reducible apply State.Plan.elements_later
    | with_reducible refine Later.of_plan (by assumption) (State.Plan.elements_later ?_)
    | with_reducible apply State.Plan.source_later
    | with_reducible refine Later.of_plan (by assumption) (State.Plan.source_later ?_)
    | with_reducible apply State.Plan.tile_later
    | with_reducible refine Later.of_plan (by assumption) (State.Plan.tile_later ?_)
    | with_reducible apply State.Plan.dest_later
    | with_reducible refine Later.of_plan (by assumption) (State.Plan.dest_later ?_)
    | with_reducible apply State.Plan.tileDest_later
    | with_reducible refine Later.of_plan (by assumption) (State.Plan.tileDest_later ?_)
    | with_reducible apply State.Plan.disagree_later
    | with_reducible apply State.Plan.toTile_later
    | with_reducible refine Later.of_plan (by assumption) (State.Plan.toTile_later ?_)
    | with_reducible apply State.Plan.toElements_later
    | with_reducible refine Later.of_plan (by assumption) (State.Plan.toElements_later ?_)
    | with_reducible apply State.Plan.memVisit_later
    | with_reducible refine Later.of_plan (by assumption) (State.Plan.memVisit_later ?_)
    | with_reducible apply State.Plan.ringElement_later
    | with_reducible refine Later.of_plan (by assumption) (State.Plan.ringElement_later ?_)
    | with_reducible apply State.Plan.ringTile_later
    | with_reducible refine Later.of_plan (by assumption) (State.Plan.ringTile_later ?_)
    | with_reducible refine State.Plan.visit_later ?_ fun _ _ _ => ?_
    | with_reducible refine Later.of_snd (by assumption) ?_
    | with_reducible refine Later.of_fst (by assumption) ?_
    | with_reducible refine ArrayStep.later_more ?_
    | with_reducible refine ArrayStep.later_wait ?_
    | with_reducible refine ArrayStep.later_done ?_
    | with_reducible refine ArrayStep.later_bad ?_
    | split
    | dsimp only
    | with_reducible refine Post.ok ?_
    | with_reducible exact Post.error True.intro
    | dsimp only at *
    | with_reducible refine ArrayStep.later_of (by assumption) rfl ?_
    | with_reducible refine Later.of_ok (P := fun _ => True) (by assumption) ?_
    | with_reducible refine Later.of_ok2 (P := fun _ => True) (by assumption) ?_
    | with_reducible refine Later.of_ok1 (P := fun _ => True) (by assumption) ?_

theorem State.lookCheck_later {s0 : State} {s : State} {e : ArrayEnv} {v : AccTile} (hs : Later s0 s) :
    Later s0 (State.lookCheck s e v).2 := by
  unfold State.lookCheck
  try dsimp only
  repeat' first
    | with_reducible assumption
    | with_reducible apply State.countRow_later
    | with_reducible refine Later.foldl ?_ fun _ _ _ => ?_
    | with_reducible refine Later.foldl_with (fun p : _ × State => p.2) ?_ fun _ _ _ => ?_
    | with_reducible refine Later.foldl_with (fun p : State × _ => p.1) ?_ fun _ _ _ => ?_
    | split
    | dsimp only
    | dsimp only at *

theorem State.lookSpan_later {s0 : State} {s : State} {e : ArrayEnv} {r : ArrayRun} {tiles : List (Nat × AccTile)} (hs : Later s0 s) :
    Later s0 (State.lookSpan s e r tiles).state := by
  unfold State.lookSpan
  try dsimp only
  repeat' first
    | with_reducible assumption
    | with_reducible apply State.lookCheck_later
    | with_reducible apply State.addRf_later
    | with_reducible apply State.writeElems_later
    | with_reducible refine Later.of_snd (by assumption) ?_
    | with_reducible refine Later.of_fst (by assumption) ?_
    | with_reducible refine Later.foldl ?_ fun _ _ _ => ?_
    | with_reducible refine Later.foldl_with (fun p : _ × State => p.2) ?_ fun _ _ _ => ?_
    | with_reducible refine Later.foldl_with (fun p : State × _ => p.1) ?_ fun _ _ _ => ?_
    | with_reducible refine ArrayStep.later_more ?_
    | with_reducible refine ArrayStep.later_wait ?_
    | with_reducible refine ArrayStep.later_done ?_
    | with_reducible refine ArrayStep.later_bad ?_
    | split
    | dsimp only
    | dsimp only at *

theorem State.drainTiles_later {s0 : State} {e : ArrayEnv} {d : DrainEnv} {r : ArrayRun} {a : State} {a5 : List (Nat × AccTile)} (hs : Later s0 a) :
    Later s0 (State.drainTiles e d r a a5).state := by
  induction a5 generalizing e d r a with
  | nil =>
    unfold State.drainTiles
    try dsimp only
    repeat' first
      | with_reducible assumption
      | with_reducible apply ih
      | with_reducible refine ArrayStep.later_of (by assumption) rfl (ih ?_)
      | with_reducible apply State.rowMasks_later
      | with_reducible refine Later.of_ok2 (by assumption) (State.rowMasks_later ?_)
      | with_reducible refine Post.bind (State.rowMasks_later (s0 := s0) ?_) fun _ _ => ?_
      | with_reducible refine Post.map (State.rowMasks_later (s0 := s0) ?_) fun _ _ => ?_
      | with_reducible apply State.drainTile_later
      | with_reducible refine ArrayStep.later_more ?_
      | with_reducible refine ArrayStep.later_wait ?_
      | with_reducible refine ArrayStep.later_done ?_
      | with_reducible refine ArrayStep.later_bad ?_
      | split
      | dsimp only
      | with_reducible refine Post.ok ?_
      | with_reducible exact Post.error True.intro
      | dsimp only at *
      | with_reducible refine Later.of_ok (P := fun _ => True) (by assumption) ?_
      | with_reducible refine Later.of_ok2 (P := fun _ => True) (by assumption) ?_
      | with_reducible refine Later.of_ok1 (P := fun _ => True) (by assumption) ?_
  | cons b l ih =>
    unfold State.drainTiles
    try dsimp only
    repeat' first
      | with_reducible assumption
      | with_reducible apply ih
      | with_reducible refine ArrayStep.later_of (by assumption) rfl (ih ?_)
      | with_reducible apply State.rowMasks_later
      | with_reducible refine Later.of_ok2 (by assumption) (State.rowMasks_later ?_)
      | with_reducible refine Post.bind (State.rowMasks_later (s0 := s0) ?_) fun _ _ => ?_
      | with_reducible refine Post.map (State.rowMasks_later (s0 := s0) ?_) fun _ _ => ?_
      | with_reducible apply State.drainTile_later
      | with_reducible refine ArrayStep.later_more ?_
      | with_reducible refine ArrayStep.later_wait ?_
      | with_reducible refine ArrayStep.later_done ?_
      | with_reducible refine ArrayStep.later_bad ?_
      | split
      | dsimp only
      | with_reducible refine Post.ok ?_
      | with_reducible exact Post.error True.intro
      | dsimp only at *
      | with_reducible refine Later.of_ok (P := fun _ => True) (by assumption) ?_
      | with_reducible refine Later.of_ok2 (P := fun _ => True) (by assumption) ?_
      | with_reducible refine Later.of_ok1 (P := fun _ => True) (by assumption) ?_

theorem State.finishBlock_later {s0 : State} {s : State} {e : ArrayEnv} {r : ArrayRun} (hs : Later s0 s) :
    Later s0 (State.finishBlock s e r).state := by
  unfold State.finishBlock
  try dsimp only
  repeat' first
    | with_reducible assumption
    | with_reducible apply State.putTile_later
    | with_reducible apply State.setArray_later
    | with_reducible apply State.lookSpan_later
    | with_reducible refine ArrayStep.later_of (by assumption) rfl (State.lookSpan_later ?_)
    | with_reducible apply State.drainTiles_later
    | with_reducible refine ArrayStep.later_of (by assumption) rfl (State.drainTiles_later ?_)
    | with_reducible refine Later.foldl ?_ fun _ _ _ => ?_
    | with_reducible refine Later.foldl_with (fun p : _ × State => p.2) ?_ fun _ _ _ => ?_
    | with_reducible refine Later.foldl_with (fun p : State × _ => p.1) ?_ fun _ _ _ => ?_
    | with_reducible refine ArrayStep.later_more ?_
    | with_reducible refine ArrayStep.later_wait ?_
    | with_reducible refine ArrayStep.later_done ?_
    | with_reducible refine ArrayStep.later_bad ?_
    | split
    | dsimp only
    | with_reducible refine Post.ok ?_
    | with_reducible exact Post.error True.intro
    | dsimp only at *
    | with_reducible refine ArrayStep.later_of (by assumption) rfl ?_
    | with_reducible refine Later.of_ok (P := fun _ => True) (by assumption) ?_
    | with_reducible refine Later.of_ok2 (P := fun _ => True) (by assumption) ?_
    | with_reducible refine Later.of_ok1 (P := fun _ => True) (by assumption) ?_

theorem State.checkFailed_later {s0 : State} {s : State} {e : ArrayEnv} {v : Nat × Nat × Nat × Nat} (hs : Later s0 s) :
    Later s0 (State.checkFailed s e v).state := by
  unfold State.checkFailed
  try dsimp only
  repeat' first
    | with_reducible assumption
    | with_reducible apply State.setReg_later
    | with_reducible apply State.complete_later
    | with_reducible refine ArrayStep.later_more ?_
    | with_reducible refine ArrayStep.later_wait ?_
    | with_reducible refine ArrayStep.later_done ?_
    | with_reducible refine ArrayStep.later_bad ?_
    | split
    | dsimp only
    | dsimp only at *

theorem State.arrayFlow_later {s0 : State} {s : State} {e : ArrayEnv} {r : ArrayRun} {idle : Bool} (hs : Later s0 s) :
    Later s0 (State.arrayFlow s e r idle).state := by
  unfold State.arrayFlow
  try dsimp only
  repeat' first
    | with_reducible assumption
    | with_reducible apply State.writeStats_later
    | with_reducible apply State.finishBlock_later
    | with_reducible refine ArrayStep.later_of (by assumption) rfl (State.finishBlock_later ?_)
    | with_reducible apply State.streamNext_later
    | with_reducible refine ArrayStep.later_of (by assumption) rfl (State.streamNext_later ?_)
    | with_reducible apply State.commit_later
    | with_reducible apply State.load_later
    | with_reducible refine Later.of_snd (by assumption) ?_
    | with_reducible refine Later.of_fst (by assumption) ?_
    | with_reducible refine ArrayStep.later_more ?_
    | with_reducible refine ArrayStep.later_wait ?_
    | with_reducible refine ArrayStep.later_done ?_
    | with_reducible refine ArrayStep.later_bad ?_
    | split
    | dsimp only
    | with_reducible refine Post.ok ?_
    | with_reducible exact Post.error True.intro
    | dsimp only at *
    | with_reducible refine ArrayStep.later_of (by assumption) rfl ?_
    | with_reducible refine Later.of_ok (P := fun _ => True) (by assumption) ?_
    | with_reducible refine Later.of_ok2 (P := fun _ => True) (by assumption) ?_
    | with_reducible refine Later.of_ok1 (P := fun _ => True) (by assumption) ?_

theorem State.arrayStep_later {s0 : State} {s : State} {e : ArrayEnv} {r : ArrayRun} (hs : Later s0 s) :
    Later s0 (State.arrayStep s e r).state := by
  unfold State.arrayStep
  try dsimp only
  repeat' first
    | with_reducible assumption
    | with_reducible apply State.flush_later
    | with_reducible apply State.checkFailed_later
    | with_reducible refine ArrayStep.later_of (by assumption) rfl (State.checkFailed_later ?_)
    | with_reducible apply State.loadNext_later
    | with_reducible refine ArrayStep.later_of (by assumption) rfl (State.loadNext_later ?_)
    | with_reducible apply State.arrayFlow_later
    | with_reducible refine ArrayStep.later_of (by assumption) rfl (State.arrayFlow_later ?_)
    | with_reducible refine ArrayStep.later_more ?_
    | with_reducible refine ArrayStep.later_wait ?_
    | with_reducible refine ArrayStep.later_done ?_
    | with_reducible refine ArrayStep.later_bad ?_
    | split
    | dsimp only
    | dsimp only at *
    | with_reducible refine ArrayStep.later_of (by assumption) rfl ?_

theorem State.arrayBegin_later {s0 : State} {s : State} {e : ArrayEnv} (hs : Later s0 s) :
    Post (fun _ => True) (fun p => Later s0 p.1) (State.arrayBegin s e) := by
  unfold State.arrayBegin
  try dsimp only
  repeat' first
    | with_reducible assumption
    | with_reducible refine Post.ok ?_
    | with_reducible refine Post.pure ?_
    | with_reducible exact Post.error True.intro
    | with_reducible exact Post.throw True.intro
    | exact True.intro
    | with_reducible apply State.fresh_later
    | with_reducible apply State.setArray_later
    | with_reducible refine Later.of_snd (by assumption) ?_
    | with_reducible refine Later.of_fst (by assumption) ?_
    | with_reducible refine Later.foldl ?_ fun _ _ _ => ?_
    | with_reducible refine Later.foldl_with (fun p : _ × State => p.2) ?_ fun _ _ _ => ?_
    | with_reducible refine Later.foldl_with (fun p : State × _ => p.1) ?_ fun _ _ _ => ?_
    | split
    | dsimp only
    | with_reducible refine Post.bind (Post.any _) fun _ _ => ?_
    | dsimp only at *
    | with_reducible refine Later.of_ok (P := fun _ => True) (by assumption) ?_
    | with_reducible refine Later.of_ok2 (P := fun _ => True) (by assumption) ?_
    | with_reducible refine Later.of_ok1 (P := fun _ => True) (by assumption) ?_

theorem State.arrayEnd_later {s0 : State} {s : State} {e : ArrayEnv} {r : ArrayRun} (hs : Later s0 s) :
    Later s0 (State.arrayEnd s e r) := by
  unfold State.arrayEnd
  try dsimp only
  repeat' first
    | with_reducible assumption
    | with_reducible apply State.endStream_later
    | with_reducible apply State.setRun_later
    | with_reducible apply State.setArray_later
    | split
    | dsimp only
    | dsimp only at *

theorem State.arrayGo_later {s0 : State} {e : ArrayEnv} {a : Nat} {a3 : State} {a4 : ArrayRun} (hs : Later s0 a3) :
    Later s0 (State.arrayGo e a a3 a4).state := by
  induction a generalizing e a3 a4 with
  | zero =>
    unfold State.arrayGo
    try dsimp only
    repeat' first
      | with_reducible assumption
      | with_reducible apply ih
      | with_reducible refine ArrayStep.later_of (by assumption) rfl (ih ?_)
      | with_reducible apply State.arrayStep_later
      | with_reducible refine ArrayStep.later_of (by assumption) rfl (State.arrayStep_later ?_)
      | with_reducible refine ArrayStep.later_more ?_
      | with_reducible refine ArrayStep.later_wait ?_
      | with_reducible refine ArrayStep.later_done ?_
      | with_reducible refine ArrayStep.later_bad ?_
      | split
      | dsimp only
      | dsimp only at *
      | with_reducible refine ArrayStep.later_of (by assumption) rfl ?_
  | succ n ih =>
    unfold State.arrayGo
    try dsimp only
    repeat' first
      | with_reducible assumption
      | with_reducible apply ih
      | with_reducible refine ArrayStep.later_of (by assumption) rfl (ih ?_)
      | with_reducible apply State.arrayStep_later
      | with_reducible refine ArrayStep.later_of (by assumption) rfl (State.arrayStep_later ?_)
      | with_reducible refine ArrayStep.later_more ?_
      | with_reducible refine ArrayStep.later_wait ?_
      | with_reducible refine ArrayStep.later_done ?_
      | with_reducible refine ArrayStep.later_bad ?_
      | split
      | dsimp only
      | dsimp only at *
      | with_reducible refine ArrayStep.later_of (by assumption) rfl ?_

theorem State.arrayRun_later {s0 : State} {s : State} {x : EngRef} {e : ArrayEnv} (hs : Later s0 s) :
    Post (fun _ => True) (fun p => Later s0 p.1) (State.arrayRun s x e) := by
  unfold State.arrayRun
  try dsimp only
  repeat' first
    | with_reducible assumption
    | with_reducible refine Post.ok ?_
    | with_reducible refine Post.pure ?_
    | with_reducible exact Post.error True.intro
    | with_reducible exact Post.throw True.intro
    | exact True.intro
    | with_reducible apply State.arrayBegin_later
    | with_reducible refine Later.of_ok1 (by assumption) (State.arrayBegin_later ?_)
    | with_reducible refine Post.bind (State.arrayBegin_later (s0 := s0) ?_) fun _ _ => ?_
    | with_reducible refine Post.map (State.arrayBegin_later (s0 := s0) ?_) fun _ _ => ?_
    | split
    | dsimp only
    | with_reducible refine Post.bind (Post.any _) fun _ _ => ?_
    | dsimp only at *
    | with_reducible refine Later.of_ok (P := fun _ => True) (by assumption) ?_
    | with_reducible refine Later.of_ok2 (P := fun _ => True) (by assumption) ?_
    | with_reducible refine Later.of_ok1 (P := fun _ => True) (by assumption) ?_

theorem State.arrayInstr_later {s0 : State} {s : State} {x : EngRef} {t : Task} {self : Instr} {mode : ArrayMode} {o : MmaOps} {look : LookoutOps}
    (hs : Later s0 s) : Later s0 (State.arrayInstr s x t self mode o look) := by
  unfold State.arrayInstr
  cases s.arrayEnv x t mode o look with
  | error f => exact State.failTask_later hs
  | ok e =>
    have hb := State.arrayRun_later (s0 := s0) (s := s) (x := x) (e := e) hs
    dsimp only
    cases hr : s.arrayRun x e with
    | error f => exact State.failTask_later hs
    | ok p =>
      obtain ⟨u, r⟩ := p
      rw [hr] at hb
      have hg := State.arrayGo_later (e := e) (a := arrayFuel e) (a4 := r) hb
      dsimp only
      cases hq : State.arrayGo e (arrayFuel e) u r <;> rw [hq] at hg
      · exact State.keepRun_later hg
      · exact State.keepRun_later hg
      · exact State.retire_later (State.arrayEnd_later hg)
      · exact State.failTask_later hg

end Sys2Proof.Machine
end

