-- ==== Sys2Proof/Laws/PackerLater.lean ====
section
/-! SUPPORT. Operations of Machine/Packer.lean lead to a later state (Safety.Later). -/

namespace Sys2Proof.Machine

theorem State.packStore_later {s0 : State} {s : State} {e : PackEnv} {a : Nat} {bs : List Byte} (hs : Later s0 s) :
    Post (fun _ => True) (fun p => Later s0 p) (State.packStore s e a bs) := by
  unfold State.packStore
  try dsimp only
  repeat' first
    | with_reducible assumption
    | with_reducible refine Post.ok ?_
    | with_reducible refine Post.pure ?_
    | with_reducible exact Post.error True.intro
    | with_reducible exact Post.throw True.intro
    | exact True.intro
    | with_reducible apply State.storeAt_later
    | with_reducible refine Later.of_ok (by assumption) (State.storeAt_later ?_)
    | with_reducible refine Post.bind (State.storeAt_later (s0 := s0) ?_) fun _ _ => ?_
    | with_reducible refine Post.map (State.storeAt_later (s0 := s0) ?_) fun _ _ => ?_
    | split
    | dsimp only
    | with_reducible refine Post.bind (Post.any _) fun _ _ => ?_
    | dsimp only at *
    | with_reducible refine Later.of_ok (P := fun _ => True) (by assumption) ?_
    | with_reducible refine Later.of_ok2 (P := fun _ => True) (by assumption) ?_
    | with_reducible refine Later.of_ok1 (P := fun _ => True) (by assumption) ?_

theorem State.packCount_later {s0 : State} {s : State} {e : PackEnv} {empty : Bool} {fallback : Bool} (hs : Later s0 s) :
    Later s0 (State.packCount s e empty fallback) := by
  unfold State.packCount
  try dsimp only
  repeat' first
    | with_reducible assumption
    | with_reducible apply State.satRf_later
    | split
    | dsimp only
    | dsimp only at *

theorem State.packTileElems_later {s0 : State} {s : State} {e : PackEnv} {n : Nat} {bs : List Byte} (hs : Later s0 s) :
    Later s0 (State.packTileElems s e n bs).2 := by
  unfold State.packTileElems
  generalize List.range 4096 = big
  try dsimp only
  repeat' first
    | with_reducible assumption
    | with_reducible apply State.countOob_later
    | split
    | dsimp only
    | dsimp only at *

theorem State.packWrite_later {s0 : State} {s : State} {e : PackEnv} {entry : Nat} {b : Nat} {a : Nat} {tag : Nat} {nnz : Nat} {blob : List Byte} (hs : Later s0 s) :
    Post (fun _ => True) (fun p => Later s0 p) (State.packWrite s e entry b a tag nnz blob) := by
  unfold State.packWrite
  try dsimp only
  repeat' first
    | with_reducible assumption
    | with_reducible refine Post.ok ?_
    | with_reducible refine Post.pure ?_
    | with_reducible exact Post.error True.intro
    | with_reducible exact Post.throw True.intro
    | exact True.intro
    | with_reducible apply State.packStore_later
    | with_reducible refine Later.of_ok (by assumption) (State.packStore_later ?_)
    | with_reducible refine Post.bind (State.packStore_later (s0 := s0) ?_) fun _ _ => ?_
    | with_reducible refine Post.map (State.packStore_later (s0 := s0) ?_) fun _ _ => ?_
    | with_reducible apply State.countUnits_later
    | split
    | dsimp only
    | with_reducible refine Post.bind (Post.any _) fun _ _ => ?_
    | dsimp only at *
    | with_reducible refine Later.of_ok (P := fun _ => True) (by assumption) ?_
    | with_reducible refine Later.of_ok2 (P := fun _ => True) (by assumption) ?_
    | with_reducible refine Later.of_ok1 (P := fun _ => True) (by assumption) ?_

theorem State.packOne_later {s0 : State} {s : State} {e : PackEnv} {r : PackRun} {bs : List Byte} (hs : Later s0 s) :
    Post (fun e => Later s0 e.1) (fun p => Later s0 p.1) (State.packOne s e r bs) := by
  unfold State.packOne
  dsimp only
  split
  · show Later s0 (s.countOob e.x.core e.x.slot 0 1)
    exact State.countOob_later hs
  · split
    · rename_i h
      exact Later.of_snd h (State.packTileElems_later hs)
    · rename_i h
      have k := Later.of_snd h (State.packTileElems_later hs)
      split
      · exact k
      · split
        · exact k
        · split
          · split
            · exact k
            · rename_i h
              refine Post.ok ?_
              dsimp only
              exact State.packCount_later (Later.of_ok h (State.packStore_later k))
          · split
            · exact k
            · split
              · split
                · exact k
                · exact State.meetRead_later k
              · rename_i h
                refine Post.ok ?_
                dsimp only
                refine State.packCount_later (Later.of_ok h (State.packWrite_later ?_))
                split
                · exact k
                · exact State.meetRead_later k

theorem State.packFail_later {s0 : State} {s : State} {x : EngRef} {t : Task} {tile : Nat} {f : Fail} (hs : Later s0 s) :
    Later s0 (State.packFail s x t tile f) := by
  unfold State.packFail
  try dsimp only
  repeat' first
    | with_reducible assumption
    | with_reducible apply State.failTask_later
    | with_reducible apply State.Plan.piece_later
    | with_reducible refine Later.of_plan (by assumption) (State.Plan.piece_later ?_)
    | with_reducible apply State.Plan.read_later
    | with_reducible refine Later.of_plan (by assumption) (State.Plan.read_later ?_)
    | with_reducible apply State.Plan.indexAt_later
    | with_reducible refine Later.of_plan (by assumption) (State.Plan.indexAt_later ?_)
    | with_reducible apply State.Plan.entry_later
    | with_reducible apply State.Plan.each_later
    | with_reducible refine Later.of_plan (by assumption) (State.Plan.each_later ?_)
    | with_reducible refine State.Plan.cells_later ?_ fun _ _ _ => ?_
    | with_reducible refine Later.of_plan (by assumption) (State.Plan.cells_later ?_ fun _ _ _ => ?_)
    | with_reducible apply State.Plan.element_later
    | with_reducible refine Later.of_plan (by assumption) (State.Plan.element_later ?_)
    | with_reducible apply State.Plan.elements_later
    | with_reducible refine Later.of_plan (by assumption) (State.Plan.elements_later ?_)
    | with_reducible apply State.Plan.source_later
    | with_reducible refine Later.of_plan (by assumption) (State.Plan.source_later ?_)
    | with_reducible apply State.Plan.tile_later
    | with_reducible refine Later.of_plan (by assumption) (State.Plan.tile_later ?_)
    | with_reducible apply State.Plan.dest_later
    | with_reducible refine Later.of_plan (by assumption) (State.Plan.dest_later ?_)
    | with_reducible apply State.Plan.tileDest_later
    | with_reducible refine Later.of_plan (by assumption) (State.Plan.tileDest_later ?_)
    | with_reducible apply State.Plan.disagree_later
    | with_reducible apply State.Plan.toTile_later
    | with_reducible refine Later.of_plan (by assumption) (State.Plan.toTile_later ?_)
    | with_reducible apply State.Plan.toElements_later
    | with_reducible refine Later.of_plan (by assumption) (State.Plan.toElements_later ?_)
    | with_reducible apply State.Plan.memVisit_later
    | with_reducible refine Later.of_plan (by assumption) (State.Plan.memVisit_later ?_)
    | with_reducible apply State.Plan.ringElement_later
    | with_reducible refine Later.of_plan (by assumption) (State.Plan.ringElement_later ?_)
    | with_reducible apply State.Plan.ringTile_later
    | with_reducible refine Later.of_plan (by assumption) (State.Plan.ringTile_later ?_)
    | with_reducible refine State.Plan.visit_later ?_ fun _ _ _ => ?_
    | split
    | dsimp only
    | dsimp only at *

theorem State.packGo_later {s0 : State} {e : PackEnv} {a : Nat} {a3 : State} {a4 : PackRun} (hs : Later s0 a3) :
    Later s0 (State.packGo e a a3 a4).state := by
  induction a generalizing e a3 a4 with
  | zero =>
    unfold State.packGo
    try dsimp only
    repeat' first
      | with_reducible assumption
      | with_reducible apply ih
      | with_reducible refine RunEnd.later_of (by assumption) rfl (ih ?_)
      | with_reducible apply State.setRun_later
      | with_reducible apply State.takeBytes_later
      | with_reducible apply State.endStream_later
      | with_reducible apply State.packOne_later
      | with_reducible refine Later.of_ok1 (by assumption) (State.packOne_later ?_)
      | with_reducible refine Later.of_err1 (by assumption) (State.packOne_later ?_)
      | with_reducible refine Post.bind (State.packOne_later (s0 := s0) ?_) fun _ _ => ?_
      | with_reducible refine Post.map (State.packOne_later (s0 := s0) ?_) fun _ _ => ?_
      | with_reducible apply State.Plan.piece_later
      | with_reducible refine Later.of_plan (by assumption) (State.Plan.piece_later ?_)
      | with_reducible apply State.Plan.read_later
      | with_reducible refine Later.of_plan (by assumption) (State.Plan.read_later ?_)
      | with_reducible apply State.Plan.indexAt_later
      | with_reducible refine Later.of_plan (by assumption) (State.Plan.indexAt_later ?_)
      | with_reducible apply State.Plan.entry_later
      | with_reducible apply State.Plan.each_later
      | with_reducible refine Later.of_plan (by assumption) (State.Plan.each_later ?_)
      | with_reducible refine State.Plan.cells_later ?_ fun _ _ _ => ?_
      | with_reducible refine Later.of_plan (by assumption) (State.Plan.cells_later ?_ fun _ _ _ => ?_)
      | with_reducible apply State.Plan.element_later
      | with_reducible refine Later.of_plan (by assumption) (State.Plan.element_later ?_)
      | with_reducible apply State.Plan.elements_later
      | with_reducible refine Later.of_plan (by assumption) (State.Plan.elements_later ?_)
      | with_reducible apply State.Plan.source_later
      | with_reducible refine Later.of_plan (by assumption) (State.Plan.source_later ?_)
      | with_reducible apply State.Plan.tile_later
      | with_reducible refine Later.of_plan (by assumption) (State.Plan.tile_later ?_)
      | with_reducible apply State.Plan.dest_later
      | with_reducible refine Later.of_plan (by assumption) (State.Plan.dest_later ?_)
      | with_reducible apply State.Plan.tileDest_later
      | with_reducible refine Later.of_plan (by assumption) (State.Plan.tileDest_later ?_)
      | with_reducible apply State.Plan.disagree_later
      | with_reducible apply State.Plan.toTile_later
      | with_reducible refine Later.of_plan (by assumption) (State.Plan.toTile_later ?_)
      | with_reducible apply State.Plan.toElements_later
      | with_reducible refine Later.of_plan (by assumption) (State.Plan.toElements_later ?_)
      | with_reducible apply State.Plan.memVisit_later
      | with_reducible refine Later.of_plan (by assumption) (State.Plan.memVisit_later ?_)
      | with_reducible apply State.Plan.ringElement_later
      | with_reducible refine Later.of_plan (by assumption) (State.Plan.ringElement_later ?_)
      | with_reducible apply State.Plan.ringTile_later
      | with_reducible refine Later.of_plan (by assumption) (State.Plan.ringTile_later ?_)
      | with_reducible refine State.Plan.visit_later ?_ fun _ _ _ => ?_
      | with_reducible refine Later.of_snd (by assumption) ?_
      | with_reducible refine Later.of_fst (by assumption) ?_
      | with_reducible refine RunEnd.later_done ?_
      | with_reducible refine RunEnd.later_wait ?_
      | with_reducible refine RunEnd.later_bad ?_
      | split
      | dsimp only
      | with_reducible refine Post.ok ?_
      | with_reducible exact Post.error True.intro
      | dsimp only at *
      | with_reducible refine Later.of_ok (P := fun _ => True) (by assumption) ?_
      | with_reducible refine Later.of_ok2 (P := fun _ => True) (by assumption) ?_
      | with_reducible refine Later.of_ok1 (P := fun _ => True) (by assumption) ?_
  | succ n ih =>
    unfold State.packGo
    try dsimp only
    repeat' first
      | with_reducible assumption
      | with_reducible apply ih
      | with_reducible refine RunEnd.later_of (by assumption) rfl (ih ?_)
      | with_reducible apply State.setRun_later
      | with_reducible apply State.takeBytes_later
      | with_reducible apply State.endStream_later
      | with_reducible apply State.packOne_later
      | with_reducible refine Later.of_ok1 (by assumption) (State.packOne_later ?_)
      | with_reducible refine Later.of_err1 (by assumption) (State.packOne_later ?_)
      | with_reducible refine Post.bind (State.packOne_later (s0 := s0) ?_) fun _ _ => ?_
      | with_reducible refine Post.map (State.packOne_later (s0 := s0) ?_) fun _ _ => ?_
      | with_reducible apply State.Plan.piece_later
      | with_reducible refine Later.of_plan (by assumption) (State.Plan.piece_later ?_)
      | with_reducible apply State.Plan.read_later
      | with_reducible refine Later.of_plan (by assumption) (State.Plan.read_later ?_)
      | with_reducible apply State.Plan.indexAt_later
      | with_reducible refine Later.of_plan (by assumption) (State.Plan.indexAt_later ?_)
      | with_reducible apply State.Plan.entry_later
      | with_reducible apply State.Plan.each_later
      | with_reducible refine Later.of_plan (by assumption) (State.Plan.each_later ?_)
      | with_reducible refine State.Plan.cells_later ?_ fun _ _ _ => ?_
      | with_reducible refine Later.of_plan (by assumption) (State.Plan.cells_later ?_ fun _ _ _ => ?_)
      | with_reducible apply State.Plan.element_later
      | with_reducible refine Later.of_plan (by assumption) (State.Plan.element_later ?_)
      | with_reducible apply State.Plan.elements_later
      | with_reducible refine Later.of_plan (by assumption) (State.Plan.elements_later ?_)
      | with_reducible apply State.Plan.source_later
      | with_reducible refine Later.of_plan (by assumption) (State.Plan.source_later ?_)
      | with_reducible apply State.Plan.tile_later
      | with_reducible refine Later.of_plan (by assumption) (State.Plan.tile_later ?_)
      | with_reducible apply State.Plan.dest_later
      | with_reducible refine Later.of_plan (by assumption) (State.Plan.dest_later ?_)
      | with_reducible apply State.Plan.tileDest_later
      | with_reducible refine Later.of_plan (by assumption) (State.Plan.tileDest_later ?_)
      | with_reducible apply State.Plan.disagree_later
      | with_reducible apply State.Plan.toTile_later
      | with_reducible refine Later.of_plan (by assumption) (State.Plan.toTile_later ?_)
      | with_reducible apply State.Plan.toElements_later
      | with_reducible refine Later.of_plan (by assumption) (State.Plan.toElements_later ?_)
      | with_reducible apply State.Plan.memVisit_later
      | with_reducible refine Later.of_plan (by assumption) (State.Plan.memVisit_later ?_)
      | with_reducible apply State.Plan.ringElement_later
      | with_reducible refine Later.of_plan (by assumption) (State.Plan.ringElement_later ?_)
      | with_reducible apply State.Plan.ringTile_later
      | with_reducible refine Later.of_plan (by assumption) (State.Plan.ringTile_later ?_)
      | with_reducible refine State.Plan.visit_later ?_ fun _ _ _ => ?_
      | with_reducible refine Later.of_snd (by assumption) ?_
      | with_reducible refine Later.of_fst (by assumption) ?_
      | with_reducible refine RunEnd.later_done ?_
      | with_reducible refine RunEnd.later_wait ?_
      | with_reducible refine RunEnd.later_bad ?_
      | split
      | dsimp only
      | with_reducible refine Post.ok ?_
      | with_reducible exact Post.error True.intro
      | dsimp only at *
      | with_reducible refine Later.of_ok (P := fun _ => True) (by assumption) ?_
      | with_reducible refine Later.of_ok2 (P := fun _ => True) (by assumption) ?_
      | with_reducible refine Later.of_ok1 (P := fun _ => True) (by assumption) ?_

theorem State.packInstr_later {s0 : State} {s : State} {x : EngRef} {t : Task} {o : PackOps} (hs : Later s0 s) :
    Later s0 (State.packInstr s x t o) := by
  unfold State.packInstr
  try dsimp only
  repeat' first
    | with_reducible assumption
    | with_reducible apply State.decodeFault_later
    | with_reducible apply State.packFail_later
    | with_reducible apply State.endRun_later
    | with_reducible apply State.packGo_later
    | with_reducible refine RunEnd.later_of (by assumption) rfl (State.packGo_later ?_)
    | split
    | dsimp only
    | with_reducible refine Post.ok ?_
    | with_reducible exact Post.error True.intro
    | dsimp only at *
    | with_reducible refine RunEnd.later_of (by assumption) rfl ?_
    | with_reducible refine Later.of_ok (P := fun _ => True) (by assumption) ?_
    | with_reducible refine Later.of_ok2 (P := fun _ => True) (by assumption) ?_
    | with_reducible refine Later.of_ok1 (P := fun _ => True) (by assumption) ?_

end Sys2Proof.Machine
end

