-- ==== Sys2Proof/Laws/SluiceLater.lean ====
section
/-! SUPPORT. Operations of Machine/Sluice.lean lead to a later state (Safety.Later). -/

namespace Sys2Proof.Machine

/-- The state that a step answers. -/
def State.SlStep.state : State.SlStep → State
  | .more s _ => s
  | .wait s => s
  | .bad s _ _ => s

theorem State.SlStep.later_of {s t : State} {x y : State.SlStep} (e : x = y) (k : y.state = t) (h : Later s x.state) : Later s t := by
  subst e; subst k; exact h

theorem State.SlStep.later_more {s0 s : State} {a : IsectRun} (h : Later s0 s) : Later s0 (State.SlStep.more s a).state := h
theorem State.SlStep.later_wait {s0 s : State} (h : Later s0 s) : Later s0 (State.SlStep.wait s).state := h
theorem State.SlStep.later_bad {s0 s : State} {a : Nat} {b : Fail} (h : Later s0 s) : Later s0 (State.SlStep.bad s a b).state := h

theorem State.loadAll_later {s0 : State} {e : IsectEnv} {a : State} {a3 : List State.SlTake} (hs : Later s0 a) :
    Later s0 (State.loadAll e a a3).1 := by
  induction a3 generalizing e a with
  | nil =>
    unfold State.loadAll
    try dsimp only
    repeat' first
      | with_reducible assumption
      | with_reducible apply ih
      | with_reducible refine Later.of_fst (by assumption) (ih ?_)
      | with_reducible apply State.load_later
      | split
      | dsimp only
      | dsimp only at *
  | cons b l ih =>
    unfold State.loadAll
    try dsimp only
    repeat' first
      | with_reducible assumption
      | with_reducible apply ih
      | with_reducible refine Later.of_fst (by assumption) (ih ?_)
      | with_reducible apply State.load_later
      | split
      | dsimp only
      | dsimp only at *

theorem State.takeAll_later {s0 : State} {s : State} {e : IsectEnv} {l : List State.SlTake} (hs : Later s0 s) :
    Later s0 (State.takeAll s e l).2 := by
  unfold State.takeAll
  try dsimp only
  repeat' first
    | with_reducible assumption
    | with_reducible apply State.loadAll_later
    | with_reducible apply State.setHeld_later
    | with_reducible refine Later.of_snd (by assumption) ?_
    | with_reducible refine Later.of_fst (by assumption) ?_
    | with_reducible refine Later.foldl ?_ fun _ _ _ => ?_
    | with_reducible refine Later.foldl_with (fun p : _ × State => p.2) ?_ fun _ _ _ => ?_
    | with_reducible refine Later.foldl_with (fun p : State × _ => p.1) ?_ fun _ _ _ => ?_
    | split
    | dsimp only
    | dsimp only at *

theorem State.peekTile_later {s0 : State} {s : State} {e : IsectEnv} {n : Nat} {ty : Nat} (hs : Later s0 s) :
    Later s0 (State.peekTile s e n ty).2 := by
  unfold State.peekTile
  try dsimp only
  repeat' first
    | with_reducible assumption
    | with_reducible apply State.load_later
    | split
    | dsimp only
    | dsimp only at *

theorem State.isectFail_later {s0 : State} {s : State} {x : EngRef} {t : Task} {entry : Nat} {f : Fail} (hs : Later s0 s) :
    Later s0 (State.isectFail s x t entry f) := by
  unfold State.isectFail
  try dsimp only
  repeat' first
    | with_reducible assumption
    | with_reducible apply State.failTask_later
    | with_reducible apply State.Plan.piece_later
    | with_reducible refine Later.of_plan (by assumption) (State.Plan.piece_later ?_)
    | with_reducible apply State.Plan.read_later
    | with_reducible refine Later.of_plan (by assumption) (State.Plan.read_later ?_)
    | with_reducible apply State.Plan.indexAt_later
    | with_reducible refine Later.of_plan (by assumption) (State.Plan.indexAt_later ?_)
    | with_reducible apply State.Plan.entry_later
    | with_reducible apply State.Plan.each_later
    | with_reducible refine Later.of_plan (by assumption) (State.Plan.each_later ?_)
    | with_reducible refine State.Plan.cells_later ?_ fun _ _ _ => ?_
    | with_reducible refine Later.of_plan (by assumption) (State.Plan.cells_later ?_ fun _ _ _ => ?_)
    | with_reducible apply State.Plan.element_later
    | with_reducible refine Later.of_plan (by assumption) (State.Plan.element_later ?_)
    | with_reducible apply State.Plan.elements_later
    | with_reducible refine Later.of_plan (by assumption) (State.Plan.elements_later ?_)
    | with_reducible apply State.Plan.source_later
    | with_reducible refine Later.of_plan (by assumption) (State.Plan.source_later ?_)
    | with_reducible apply State.Plan.tile_later
    | with_reducible refine Later.of_plan (by assumption) (State.Plan.tile_later ?_)
    | with_reducible apply State.Plan.dest_later
    | with_reducible refine Later.of_plan (by assumption) (State.Plan.dest_later ?_)
    | with_reducible apply State.Plan.tileDest_later
    | with_reducible refine Later.of_plan (by assumption) (State.Plan.tileDest_later ?_)
    | with_reducible apply State.Plan.disagree_later
    | with_reducible apply State.Plan.toTile_later
    | with_reducible refine Later.of_plan (by assumption) (State.Plan.toTile_later ?_)
    | with_reducible apply State.Plan.toElements_later
    | with_reducible refine Later.of_plan (by assumption) (State.Plan.toElements_later ?_)
    | with_reducible apply State.Plan.memVisit_later
    | with_reducible refine Later.of_plan (by assumption) (State.Plan.memVisit_later ?_)
    | with_reducible apply State.Plan.ringElement_later
    | with_reducible refine Later.of_plan (by assumption) (State.Plan.ringElement_later ?_)
    | with_reducible apply State.Plan.ringTile_later
    | with_reducible refine Later.of_plan (by assumption) (State.Plan.ringTile_later ?_)
    | with_reducible refine State.Plan.visit_later ?_ fun _ _ _ => ?_
    | split
    | dsimp only
    | dsimp only at *

theorem State.isectEmit_later {s0 : State} {s : State} {e : IsectEnv} {r : IsectRun} {recs : List (List Byte)} (hs : Later s0 s) :
    Post (fun e => Later s0 e.1) (fun p => Later s0 p.1) (State.isectEmit s e r recs) := by
  unfold State.isectEmit
  try dsimp only
  repeat' first
    | with_reducible assumption
    | with_reducible refine Post.ok ?_
    | with_reducible refine Post.pure ?_
    | with_reducible refine Post.error ?_
    | with_reducible refine Post.throw ?_
    | with_reducible apply State.writeElems_later
    | with_reducible apply State.countUnits_later
    | with_reducible apply State.putOut_later
    | with_reducible refine Later.of_snd (by assumption) ?_
    | with_reducible refine Later.of_fst (by assumption) ?_
    | with_reducible refine Later.foldl ?_ fun _ _ _ => ?_
    | with_reducible refine Later.foldl_with (fun p : _ × State => p.2) ?_ fun _ _ _ => ?_
    | with_reducible refine Later.foldl_with (fun p : State × _ => p.1) ?_ fun _ _ _ => ?_
    | split
    | dsimp only
    | with_reducible refine Post.bind (Post.any _) fun _ _ => ?_
    | dsimp only at *
    | with_reducible refine Later.of_ok (P := fun _ => True) (by assumption) ?_
    | with_reducible refine Later.of_ok2 (P := fun _ => True) (by assumption) ?_
    | with_reducible refine Later.of_ok1 (P := fun _ => True) (by assumption) ?_

theorem State.isectRun_later {s0 : State} {s : State} {e : IsectEnv} {r : IsectRun} {ms : List (Nat × Nat × Nat × Nat × Nat)} {skipped : Nat} (hs : Later s0 s) :
    Post (fun e => Later s0 e.1) (fun p => Later s0 p.1) (State.isectRun s e r ms skipped) := by
  unfold State.isectRun
  try dsimp only
  repeat' first
    | with_reducible assumption
    | with_reducible refine Post.ok ?_
    | with_reducible refine Post.pure ?_
    | with_reducible refine Post.error ?_
    | with_reducible refine Post.throw ?_
    | with_reducible apply State.satRf_later
    | with_reducible apply State.fresh_later
    | with_reducible apply State.isectEmit_later
    | with_reducible refine Later.of_ok1 (by assumption) (State.isectEmit_later ?_)
    | with_reducible refine Later.of_err1 (by assumption) (State.isectEmit_later ?_)
    | with_reducible refine Post.bind (State.isectEmit_later (s0 := s0) ?_) fun _ _ => ?_
    | with_reducible refine Post.map (State.isectEmit_later (s0 := s0) ?_) fun _ _ => ?_
    | with_reducible refine Later.of_snd (by assumption) ?_
    | with_reducible refine Later.of_fst (by assumption) ?_
    | split
    | dsimp only
    | with_reducible refine Post.bind (Post.any _) fun _ _ => ?_
    | dsimp only at *

theorem State.slEmitted_later {s0 : State} {entry : Nat} {upd : IsectRun → IsectRun} {v : Except (State × Fail) (State × IsectRun)}
    (h : Post (fun e => Later s0 e.1) (fun p => Later s0 p.1) v) : Later s0 (State.slEmitted entry upd v).state := by
  match v, h with
  | .error (_, _), h => exact h
  | .ok (_, _), h => exact h

theorem State.slBitmap_later {s0 : State} {s : State} {e : IsectEnv} {r : IsectRun} (hs : Later s0 s) :
    Later s0 (State.slBitmap s e r).state := by
  unfold State.slBitmap
  split
  split
  rename_i h1 _ _ _ h2
  have k1 := Later.of_snd h1 (State.peekTile_later hs)
  have k2 := Later.of_snd h2 (State.peekTile_later k1)
  split
  · exact State.SlStep.later_bad k2
  · exact State.SlStep.later_bad k2
  · exact State.SlStep.later_wait k2
  · exact State.SlStep.later_wait k2
  · have k3 := State.endStream_later (x := e.x) (id := e.t.id) (n := e.bval) (State.endStream_later (x := e.x) (id := e.t.id) (n := e.aval) k2)
    dsimp only
    split
    · exact State.SlStep.later_bad k3
    · split
      · exact State.SlStep.later_bad k3
      · with_reducible refine State.slEmitted_later ?_
        with_reducible exact State.isectRun_later k3

theorem State.releaseB_later {s0 : State} {s : State} {e : IsectEnv} (hs : Later s0 s) :
    Later s0 (State.releaseB s e) := by
  unfold State.releaseB
  try dsimp only
  repeat' first
    | with_reducible assumption
    | with_reducible apply State.releaseSlots_later
    | with_reducible refine Later.foldl ?_ fun _ _ _ => ?_
    | with_reducible refine Later.foldl_with (fun p : _ × State => p.2) ?_ fun _ _ _ => ?_
    | with_reducible refine Later.foldl_with (fun p : State × _ => p.1) ?_ fun _ _ _ => ?_
    | split
    | dsimp only
    | dsimp only at *

theorem State.slCoord_later {s0 : State} {s : State} {e : IsectEnv} {r : IsectRun} (hs : Later s0 s) :
    Later s0 (State.slCoord s e r).state := by
  unfold State.slCoord
  try dsimp only
  repeat' first
    | with_reducible assumption
    | with_reducible apply State.takeAll_later
    | with_reducible refine State.slEmitted_later ?_
    | with_reducible apply State.isectRun_later
    | with_reducible refine Later.of_ok1 (by assumption) (State.isectRun_later ?_)
    | with_reducible refine Later.of_err1 (by assumption) (State.isectRun_later ?_)
    | with_reducible refine Post.bind (State.isectRun_later (s0 := s0) ?_) fun _ _ => ?_
    | with_reducible refine Post.map (State.isectRun_later (s0 := s0) ?_) fun _ _ => ?_
    | with_reducible refine Later.of_snd (by assumption) ?_
    | with_reducible refine Later.of_fst (by assumption) ?_
    | with_reducible refine State.SlStep.later_more ?_
    | with_reducible refine State.SlStep.later_wait ?_
    | with_reducible refine State.SlStep.later_bad ?_
    | split
    | dsimp only
    | dsimp only at *
    | with_reducible refine State.SlStep.later_of (by assumption) rfl ?_

theorem State.rowEntries_later {s0 : State} {s : State} {e : IsectEnv} {r : IsectRun} {p0 : Nat} {bi : List Byte} {bv : List Byte} (hs : Later s0 s) :
    Later s0 (State.rowEntries s e r p0 bi bv).state := by
  unfold State.rowEntries
  try dsimp only
  repeat' first
    | with_reducible assumption
    | with_reducible apply State.takeAll_later
    | with_reducible apply State.countOob_later
    | with_reducible refine State.slEmitted_later ?_
    | with_reducible apply State.isectRun_later
    | with_reducible refine Later.of_ok1 (by assumption) (State.isectRun_later ?_)
    | with_reducible refine Later.of_err1 (by assumption) (State.isectRun_later ?_)
    | with_reducible refine Post.bind (State.isectRun_later (s0 := s0) ?_) fun _ _ => ?_
    | with_reducible refine Post.map (State.isectRun_later (s0 := s0) ?_) fun _ _ => ?_
    | with_reducible refine Later.of_snd (by assumption) ?_
    | with_reducible refine Later.of_fst (by assumption) ?_
    | with_reducible refine State.SlStep.later_more ?_
    | with_reducible refine State.SlStep.later_wait ?_
    | with_reducible refine State.SlStep.later_bad ?_
    | split
    | dsimp only
    | dsimp only at *
    | with_reducible refine State.SlStep.later_of (by assumption) rfl ?_

theorem State.slRow_later {s0 : State} {s : State} {e : IsectEnv} {r : IsectRun} (hs : Later s0 s) :
    Later s0 (State.slRow s e r).state := by
  unfold State.slRow
  try dsimp only
  repeat' first
    | with_reducible assumption
    | with_reducible apply State.parityFail_later
    | with_reducible apply State.rowEntries_later
    | with_reducible refine State.SlStep.later_of (by assumption) rfl (State.rowEntries_later ?_)
    | with_reducible apply State.takeAll_later
    | with_reducible refine Later.of_snd (by assumption) ?_
    | with_reducible refine Later.of_fst (by assumption) ?_
    | with_reducible refine State.SlStep.later_more ?_
    | with_reducible refine State.SlStep.later_wait ?_
    | with_reducible refine State.SlStep.later_bad ?_
    | split
    | dsimp only
    | dsimp only at *
    | with_reducible refine State.SlStep.later_of (by assumption) rfl ?_

theorem State.slExpand_later {s0 : State} {s : State} {e : IsectEnv} {r : IsectRun} (hs : Later s0 s) :
    Later s0 (State.slExpand s e r).1 := by
  unfold State.slExpand
  try dsimp only
  repeat' first
    | with_reducible assumption
    | with_reducible apply State.putOut_later
    | split
    | dsimp only
    | dsimp only at *

theorem State.slGo_later {s0 : State} {e : IsectEnv} {a : Nat} {a3 : State} {a4 : IsectRun} (hs : Later s0 a3) :
    Later s0 (State.slGo e a a3 a4).state := by
  induction a generalizing e a3 a4 with
  | zero =>
    unfold State.slGo
    try dsimp only
    repeat' first
      | with_reducible assumption
      | with_reducible apply ih
      | with_reducible refine RunEnd.later_of (by assumption) rfl (ih ?_)
      | with_reducible apply State.setRun_later
      | with_reducible apply State.flush_later
      | with_reducible apply State.endStream_later
      | with_reducible apply State.releaseB_later
      | with_reducible apply State.slExpand_later
      | with_reducible apply State.putOut_later
      | with_reducible apply State.slBitmap_later
      | with_reducible refine State.SlStep.later_of (by assumption) rfl (State.slBitmap_later ?_)
      | with_reducible apply State.slCoord_later
      | with_reducible refine State.SlStep.later_of (by assumption) rfl (State.slCoord_later ?_)
      | with_reducible apply State.slRow_later
      | with_reducible refine State.SlStep.later_of (by assumption) rfl (State.slRow_later ?_)
      | with_reducible apply State.Plan.piece_later
      | with_reducible refine Later.of_plan (by assumption) (State.Plan.piece_later ?_)
      | with_reducible apply State.Plan.read_later
      | with_reducible refine Later.of_plan (by assumption) (State.Plan.read_later ?_)
      | with_reducible apply State.Plan.indexAt_later
      | with_reducible refine Later.of_plan (by assumption) (State.Plan.indexAt_later ?_)
      | with_reducible apply State.Plan.entry_later
      | with_reducible apply State.Plan.each_later
      | with_reducible refine Later.of_plan (by assumption) (State.Plan.each_later ?_)
      | with_reducible refine State.Plan.cells_later ?_ fun _ _ _ => ?_
      | with_reducible refine Later.of_plan (by assumption) (State.Plan.cells_later ?_ fun _ _ _ => ?_)
      | with_reducible apply State.Plan.element_later
      | with_reducible refine Later.of_plan (by assumption) (State.Plan.element_later ?_)
      | with_reducible apply State.Plan.elements_later
      | with_reducible refine Later.of_plan (by assumption) (State.Plan.elements_later ?_)
      | with_reducible apply State.Plan.source_later
      | with_reducible refine Later.of_plan (by assumption) (State.Plan.source_later ?_)
      | with_reducible apply State.Plan.tile_later
      | with_reducible refine Later.of_plan (by assumption) (State.Plan.tile_later ?_)
      | with_reducible apply State.Plan.dest_later
      | with_reducible refine Later.of_plan (by assumption) (State.Plan.dest_later ?_)
      | with_reducible apply State.Plan.tileDest_later
      | with_reducible refine Later.of_plan (by assumption) (State.Plan.tileDest_later ?_)
      | with_reducible apply State.Plan.disagree_later
      | with_reducible apply State.Plan.toTile_later
      | with_reducible refine Later.of_plan (by assumption) (State.Plan.toTile_later ?_)
      | with_reducible apply State.Plan.toElements_later
      | with_reducible refine Later.of_plan (by assumption) (State.Plan.toElements_later ?_)
      | with_reducible apply State.Plan.memVisit_later
      | with_reducible refine Later.of_plan (by assumption) (State.Plan.memVisit_later ?_)
      | with_reducible apply State.Plan.ringElement_later
      | with_reducible refine Later.of_plan (by assumption) (State.Plan.ringElement_later ?_)
      | with_reducible apply State.Plan.ringTile_later
      | with_reducible refine Later.of_plan (by assumption) (State.Plan.ringTile_later ?_)
      | with_reducible refine State.Plan.visit_later ?_ fun _ _ _ => ?_
      | with_reducible refine Later.of_snd (by assumption) ?_
      | with_reducible refine Later.of_fst (by assumption) ?_
      | with_reducible refine Later.foldl ?_ fun _ _ _ => ?_
      | with_reducible refine Later.foldl_with (fun p : Plan => p.s) ?_ fun _ _ _ => ?_
      | with_reducible refine Later.foldl_with (fun p : Plan × _ => p.1.s) ?_ fun _ _ _ => ?_
      | with_reducible refine Later.foldl_with (fun p : _ × State => p.2) ?_ fun _ _ _ => ?_
      | with_reducible refine Later.foldl_with (fun p : State × _ => p.1) ?_ fun _ _ _ => ?_
      | with_reducible refine RunEnd.later_done ?_
      | with_reducible refine RunEnd.later_wait ?_
      | with_reducible refine RunEnd.later_bad ?_
      | split
      | dsimp only
      | dsimp only at *
      | with_reducible refine State.SlStep.later_of (by assumption) rfl ?_
  | succ n ih =>
    unfold State.slGo
    try dsimp only
    repeat' first
      | with_reducible assumption
      | with_reducible apply ih
      | with_reducible refine RunEnd.later_of (by assumption) rfl (ih ?_)
      | with_reducible apply State.setRun_later
      | with_reducible apply State.flush_later
      | with_reducible apply State.endStream_later
      | with_reducible apply State.releaseB_later
      | with_reducible apply State.slExpand_later
      | with_reducible apply State.putOut_later
      | with_reducible apply State.slBitmap_later
      | with_reducible refine State.SlStep.later_of (by assumption) rfl (State.slBitmap_later ?_)
      | with_reducible apply State.slCoord_later
      | with_reducible refine State.SlStep.later_of (by assumption) rfl (State.slCoord_later ?_)
      | with_reducible apply State.slRow_later
      | with_reducible refine State.SlStep.later_of (by assumption) rfl (State.slRow_later ?_)
      | with_reducible apply State.Plan.piece_later
      | with_reducible refine Later.of_plan (by assumption) (State.Plan.piece_later ?_)
      | with_reducible apply State.Plan.read_later
      | with_reducible refine Later.of_plan (by assumption) (State.Plan.read_later ?_)
      | with_reducible apply State.Plan.indexAt_later
      | with_reducible refine Later.of_plan (by assumption) (State.Plan.indexAt_later ?_)
      | with_reducible apply State.Plan.entry_later
      | with_reducible apply State.Plan.each_later
      | with_reducible refine Later.of_plan (by assumption) (State.Plan.each_later ?_)
      | with_reducible refine State.Plan.cells_later ?_ fun _ _ _ => ?_
      | with_reducible refine Later.of_plan (by assumption) (State.Plan.cells_later ?_ fun _ _ _ => ?_)
      | with_reducible apply State.Plan.element_later
      | with_reducible refine Later.of_plan (by assumption) (State.Plan.element_later ?_)
      | with_reducible apply State.Plan.elements_later
      | with_reducible refine Later.of_plan (by assumption) (State.Plan.elements_later ?_)
      | with_reducible apply State.Plan.source_later
      | with_reducible refine Later.of_plan (by assumption) (State.Plan.source_later ?_)
      | with_reducible apply State.Plan.tile_later
      | with_reducible refine Later.of_plan (by assumption) (State.Plan.tile_later ?_)
      | with_reducible apply State.Plan.dest_later
      | with_reducible refine Later.of_plan (by assumption) (State.Plan.dest_later ?_)
      | with_reducible apply State.Plan.tileDest_later
      | with_reducible refine Later.of_plan (by assumption) (State.Plan.tileDest_later ?_)
      | with_reducible apply State.Plan.disagree_later
      | with_reducible apply State.Plan.toTile_later
      | with_reducible refine Later.of_plan (by assumption) (State.Plan.toTile_later ?_)
      | with_reducible apply State.Plan.toElements_later
      | with_reducible refine Later.of_plan (by assumption) (State.Plan.toElements_later ?_)
      | with_reducible apply State.Plan.memVisit_later
      | with_reducible refine Later.of_plan (by assumption) (State.Plan.memVisit_later ?_)
      | with_reducible apply State.Plan.ringElement_later
      | with_reducible refine Later.of_plan (by assumption) (State.Plan.ringElement_later ?_)
      | with_reducible apply State.Plan.ringTile_later
      | with_reducible refine Later.of_plan (by assumption) (State.Plan.ringTile_later ?_)
      | with_reducible refine State.Plan.visit_later ?_ fun _ _ _ => ?_
      | with_reducible refine Later.of_snd (by assumption) ?_
      | with_reducible refine Later.of_fst (by assumption) ?_
      | with_reducible refine Later.foldl ?_ fun _ _ _ => ?_
      | with_reducible refine Later.foldl_with (fun p : Plan => p.s) ?_ fun _ _ _ => ?_
      | with_reducible refine Later.foldl_with (fun p : Plan × _ => p.1.s) ?_ fun _ _ _ => ?_
      | with_reducible refine Later.foldl_with (fun p : _ × State => p.2) ?_ fun _ _ _ => ?_
      | with_reducible refine Later.foldl_with (fun p : State × _ => p.1) ?_ fun _ _ _ => ?_
      | with_reducible refine RunEnd.later_done ?_
      | with_reducible refine RunEnd.later_wait ?_
      | with_reducible refine RunEnd.later_bad ?_
      | split
      | dsimp only
      | dsimp only at *
      | with_reducible refine State.SlStep.later_of (by assumption) rfl ?_

theorem State.isectInstr_later {s0 : State} {s : State} {x : EngRef} {t : Task} {o : IsectOps} (hs : Later s0 s) :
    Later s0 (State.isectInstr s x t o) := by
  unfold State.isectInstr
  try dsimp only
  repeat' first
    | with_reducible assumption
    | with_reducible apply State.decodeFault_later
    | with_reducible apply State.isectFail_later
    | with_reducible apply State.endRun_later
    | with_reducible apply State.slGo_later
    | with_reducible refine RunEnd.later_of (by assumption) rfl (State.slGo_later ?_)
    | split
    | dsimp only
    | with_reducible refine Post.ok ?_
    | with_reducible exact Post.error True.intro
    | dsimp only at *
    | with_reducible refine RunEnd.later_of (by assumption) rfl ?_
    | with_reducible refine Later.of_ok (P := fun _ => True) (by assumption) ?_
    | with_reducible refine Later.of_ok2 (P := fun _ => True) (by assumption) ?_
    | with_reducible refine Later.of_ok1 (P := fun _ => True) (by assumption) ?_

end Sys2Proof.Machine
end

