-- ==== Sys2Proof/Laws/EstuaryLater.lean ====
section
/-! SUPPORT. Operations of Machine/Estuary.lean lead to a later state (Safety.Later). -/

namespace Sys2Proof.Machine

/-- The state that a step answers. -/
def State.PortStep.state : State.PortStep → State
  | .got s _ _ => s
  | .empty s => s
  | .bad s _ => s

theorem State.PortStep.later_of {s t : State} {x y : State.PortStep} (e : x = y) (k : y.state = t) (h : Later s x.state) : Later s t := by
  subst e; subst k; exact h

theorem State.PortStep.later_got {s0 s : State} {a : Nat} {b : Nat} (h : Later s0 s) : Later s0 (State.PortStep.got s a b).state := h
theorem State.PortStep.later_empty {s0 s : State} (h : Later s0 s) : Later s0 (State.PortStep.empty s).state := h
theorem State.PortStep.later_bad {s0 s : State} {a : Fail} (h : Later s0 s) : Later s0 (State.PortStep.bad s a).state := h

theorem State.ringRecord_later {s0 : State} {s : State} {e : MergeEnv} {n : Nat} {a : Nat} (hs : Later s0 s) :
    Later s0 (State.ringRecord s e n a).2 := by
  induction a generalizing s e n with
  | zero =>
    unfold State.ringRecord
    try dsimp only
    repeat' first
      | with_reducible assumption
      | with_reducible apply ih
      | with_reducible refine Later.of_snd (by assumption) (ih ?_)
      | with_reducible apply State.release_later
      | with_reducible apply State.releaseSlots_later
      | with_reducible apply State.setHeld_later
      | with_reducible apply State.parityFail_later
      | split
      | dsimp only
      | dsimp only at *
  | succ n ih =>
    unfold State.ringRecord
    try dsimp only
    repeat' first
      | with_reducible assumption
      | with_reducible apply ih
      | with_reducible refine Later.of_snd (by assumption) (ih ?_)
      | with_reducible apply State.release_later
      | with_reducible apply State.releaseSlots_later
      | with_reducible apply State.setHeld_later
      | with_reducible apply State.parityFail_later
      | split
      | dsimp only
      | dsimp only at *

theorem State.portRecord_later {s0 : State} {s : State} {e : MergeEnv} {p : Nat} {src : Option (Desc × Desc)} {m : MergePort} (hs : Later s0 s) :
    Later s0 (State.portRecord s e p src m).state := by
  unfold State.portRecord
  try dsimp only
  repeat' first
    | with_reducible assumption
    | with_reducible apply State.ringRecord_later
    | with_reducible apply State.readElem_later
    | with_reducible refine Later.of_ok2 (by assumption) (State.readElem_later ?_)
    | with_reducible refine Post.bind (State.readElem_later (s0 := s0) ?_) fun _ _ => ?_
    | with_reducible refine Post.map (State.readElem_later (s0 := s0) ?_) fun _ _ => ?_
    | with_reducible refine Later.of_snd (by assumption) ?_
    | with_reducible refine Later.of_fst (by assumption) ?_
    | with_reducible refine State.PortStep.later_got ?_
    | with_reducible refine State.PortStep.later_empty ?_
    | with_reducible refine State.PortStep.later_bad ?_
    | split
    | dsimp only
    | with_reducible refine Post.ok ?_
    | with_reducible exact Post.error True.intro
    | dsimp only at *
    | with_reducible refine Later.of_ok (P := fun _ => True) (by assumption) ?_
    | with_reducible refine Later.of_ok2 (P := fun _ => True) (by assumption) ?_
    | with_reducible refine Later.of_ok1 (P := fun _ => True) (by assumption) ?_

theorem State.fillPort_later {s0 : State} {e : MergeEnv} {p : Nat} {src : Option (Desc × Desc)} {a : Nat} {a5 : State} {a6 : MergePort} (hs : Later s0 a5) :
    Post (fun e => Later s0 e.1) (fun p => Later s0 p.1) (State.fillPort e p src a a5 a6) := by
  induction a generalizing e p src a5 a6 with
  | zero =>
    unfold State.fillPort
    try dsimp only
    repeat' first
      | with_reducible assumption
      | with_reducible apply ih
      | with_reducible refine Later.of_ok1 (by assumption) (ih ?_)
      | with_reducible refine Later.of_err1 (by assumption) (ih ?_)
      | with_reducible refine Post.map (ih ?_) fun _ _ => ?_
      | with_reducible refine Post.ok ?_
      | with_reducible refine Post.pure ?_
      | with_reducible refine Post.error ?_
      | with_reducible refine Post.throw ?_
      | with_reducible apply State.portRecord_later
      | with_reducible refine State.PortStep.later_of (by assumption) rfl (State.portRecord_later ?_)
      | with_reducible apply State.satRf_later
      | split
      | dsimp only
      | with_reducible refine Post.bind (Post.any _) fun _ _ => ?_
      | dsimp only at *
      | with_reducible refine State.PortStep.later_of (by assumption) rfl ?_
      | with_reducible refine Later.of_ok (P := fun _ => True) (by assumption) ?_
      | with_reducible refine Later.of_ok2 (P := fun _ => True) (by assumption) ?_
      | with_reducible refine Later.of_ok1 (P := fun _ => True) (by assumption) ?_
  | succ n ih =>
    unfold State.fillPort
    try dsimp only
    repeat' first
      | with_reducible assumption
      | with_reducible apply ih
      | with_reducible refine Later.of_ok1 (by assumption) (ih ?_)
      | with_reducible refine Later.of_err1 (by assumption) (ih ?_)
      | with_reducible refine Post.map (ih ?_) fun _ _ => ?_
      | with_reducible refine Post.ok ?_
      | with_reducible refine Post.pure ?_
      | with_reducible refine Post.error ?_
      | with_reducible refine Post.throw ?_
      | with_reducible apply State.portRecord_later
      | with_reducible refine State.PortStep.later_of (by assumption) rfl (State.portRecord_later ?_)
      | with_reducible apply State.satRf_later
      | split
      | dsimp only
      | with_reducible refine Post.bind (Post.any _) fun _ _ => ?_
      | dsimp only at *
      | with_reducible refine State.PortStep.later_of (by assumption) rfl ?_
      | with_reducible refine Later.of_ok (P := fun _ => True) (by assumption) ?_
      | with_reducible refine Later.of_ok2 (P := fun _ => True) (by assumption) ?_
      | with_reducible refine Later.of_ok1 (P := fun _ => True) (by assumption) ?_

theorem State.fillPorts_later {s0 : State} {e : MergeEnv} {s : State} {r : MergeRun} {a : List (Nat × Option (Desc × Desc))} (hs : Later s0 s) :
    Post (fun e => Later s0 e.1) (fun p => Later s0 p.1) (State.fillPorts e s r a) := by
  induction a generalizing e s r with
  | nil =>
    unfold State.fillPorts
    try dsimp only
    repeat' first
      | with_reducible assumption
      | with_reducible apply ih
      | with_reducible refine Later.of_ok1 (by assumption) (ih ?_)
      | with_reducible refine Later.of_err1 (by assumption) (ih ?_)
      | with_reducible refine Post.map (ih ?_) fun _ _ => ?_
      | with_reducible refine Post.ok ?_
      | with_reducible refine Post.pure ?_
      | with_reducible refine Post.error ?_
      | with_reducible refine Post.throw ?_
      | with_reducible apply State.fillPort_later
      | with_reducible refine Later.of_ok1 (by assumption) (State.fillPort_later ?_)
      | with_reducible refine Later.of_err1 (by assumption) (State.fillPort_later ?_)
      | with_reducible refine Post.bind (State.fillPort_later (s0 := s0) ?_) fun _ _ => ?_
      | with_reducible refine Post.map (State.fillPort_later (s0 := s0) ?_) fun _ _ => ?_
      | split
      | dsimp only
      | with_reducible refine Post.bind (Post.any _) fun _ _ => ?_
      | dsimp only at *
      | with_reducible refine Later.of_ok (P := fun _ => True) (by assumption) ?_
      | with_reducible refine Later.of_ok2 (P := fun _ => True) (by assumption) ?_
      | with_reducible refine Later.of_ok1 (P := fun _ => True) (by assumption) ?_
  | cons b l ih =>
    unfold State.fillPorts
    try dsimp only
    repeat' first
      | with_reducible assumption
      | with_reducible apply ih
      | with_reducible refine Later.of_ok1 (by assumption) (ih ?_)
      | with_reducible refine Later.of_err1 (by assumption) (ih ?_)
      | with_reducible refine Post.map (ih ?_) fun _ _ => ?_
      | with_reducible refine Post.ok ?_
      | with_reducible refine Post.pure ?_
      | with_reducible refine Post.error ?_
      | with_reducible refine Post.throw ?_
      | with_reducible apply State.fillPort_later
      | with_reducible refine Later.of_ok1 (by assumption) (State.fillPort_later ?_)
      | with_reducible refine Later.of_err1 (by assumption) (State.fillPort_later ?_)
      | with_reducible refine Post.bind (State.fillPort_later (s0 := s0) ?_) fun _ _ => ?_
      | with_reducible refine Post.map (State.fillPort_later (s0 := s0) ?_) fun _ _ => ?_
      | split
      | dsimp only
      | with_reducible refine Post.bind (Post.any _) fun _ _ => ?_
      | dsimp only at *
      | with_reducible refine Later.of_ok (P := fun _ => True) (by assumption) ?_
      | with_reducible refine Later.of_ok2 (P := fun _ => True) (by assumption) ?_
      | with_reducible refine Later.of_ok1 (P := fun _ => True) (by assumption) ?_

theorem State.mergeFail_later {s0 : State} {s : State} {x : EngRef} {t : Task} {group : Nat} {port : Nat} {f : Fail} (hs : Later s0 s) :
    Later s0 (State.mergeFail s x t group port f) := by
  unfold State.mergeFail
  try dsimp only
  repeat' first
    | with_reducible assumption
    | with_reducible apply State.failTask_later
    | with_reducible apply State.Plan.piece_later
    | with_reducible refine Later.of_plan (by assumption) (State.Plan.piece_later ?_)
    | with_reducible apply State.Plan.read_later
    | with_reducible refine Later.of_plan (by assumption) (State.Plan.read_later ?_)
    | with_reducible apply State.Plan.indexAt_later
    | with_reducible refine Later.of_plan (by assumption) (State.Plan.indexAt_later ?_)
    | with_reducible apply State.Plan.entry_later
    | with_reducible apply State.Plan.each_later
    | with_reducible refine Later.of_plan (by assumption) (State.Plan.each_later ?_)
    | with_reducible refine State.Plan.cells_later ?_ fun _ _ _ => ?_
    | with_reducible refine Later.of_plan (by assumption) (State.Plan.cells_later ?_ fun _ _ _ => ?_)
    | with_reducible apply State.Plan.element_later
    | with_reducible refine Later.of_plan (by assumption) (State.Plan.element_later ?_)
    | with_reducible apply State.Plan.elements_later
    | with_reducible refine Later.of_plan (by assumption) (State.Plan.elements_later ?_)
    | with_reducible apply State.Plan.source_later
    | with_reducible refine Later.of_plan (by assumption) (State.Plan.source_later ?_)
    | with_reducible apply State.Plan.tile_later
    | with_reducible refine Later.of_plan (by assumption) (State.Plan.tile_later ?_)
    | with_reducible apply State.Plan.dest_later
    | with_reducible refine Later.of_plan (by assumption) (State.Plan.dest_later ?_)
    | with_reducible apply State.Plan.tileDest_later
    | with_reducible refine Later.of_plan (by assumption) (State.Plan.tileDest_later ?_)
    | with_reducible apply State.Plan.disagree_later
    | with_reducible apply State.Plan.toTile_later
    | with_reducible refine Later.of_plan (by assumption) (State.Plan.toTile_later ?_)
    | with_reducible apply State.Plan.toElements_later
    | with_reducible refine Later.of_plan (by assumption) (State.Plan.toElements_later ?_)
    | with_reducible apply State.Plan.memVisit_later
    | with_reducible refine Later.of_plan (by assumption) (State.Plan.memVisit_later ?_)
    | with_reducible apply State.Plan.ringElement_later
    | with_reducible refine Later.of_plan (by assumption) (State.Plan.ringElement_later ?_)
    | with_reducible apply State.Plan.ringTile_later
    | with_reducible refine Later.of_plan (by assumption) (State.Plan.ringTile_later ?_)
    | with_reducible refine State.Plan.visit_later ?_ fun _ _ _ => ?_
    | split
    | dsimp only
    | dsimp only at *

theorem State.emitList_later {s0 : State} {e : MergeEnv} {kd : Desc} {vd : Desc} {a : State} {a5 : Nat} {a6 : List (Nat × Nat × Bool)} (hs : Later s0 a) :
    Later s0 (State.emitList e kd vd a a5 a6).1 := by
  induction a6 generalizing e kd vd a a5 with
  | nil =>
    unfold State.emitList
    try dsimp only
    repeat' first
      | with_reducible assumption
      | with_reducible apply ih
      | with_reducible refine Later.of_fst (by assumption) (ih ?_)
      | with_reducible apply State.writeElem_later
      | with_reducible refine Later.of_ok (by assumption) (State.writeElem_later ?_)
      | with_reducible refine Post.bind (State.writeElem_later (s0 := s0) ?_) fun _ _ => ?_
      | with_reducible refine Post.map (State.writeElem_later (s0 := s0) ?_) fun _ _ => ?_
      | with_reducible apply State.satRf_later
      | split
      | dsimp only
      | with_reducible refine Post.ok ?_
      | with_reducible exact Post.error True.intro
      | dsimp only at *
      | with_reducible refine Later.of_ok (P := fun _ => True) (by assumption) ?_
      | with_reducible refine Later.of_ok2 (P := fun _ => True) (by assumption) ?_
      | with_reducible refine Later.of_ok1 (P := fun _ => True) (by assumption) ?_
  | cons b l ih =>
    unfold State.emitList
    try dsimp only
    repeat' first
      | with_reducible assumption
      | with_reducible apply ih
      | with_reducible refine Later.of_fst (by assumption) (ih ?_)
      | with_reducible apply State.writeElem_later
      | with_reducible refine Later.of_ok (by assumption) (State.writeElem_later ?_)
      | with_reducible refine Post.bind (State.writeElem_later (s0 := s0) ?_) fun _ _ => ?_
      | with_reducible refine Post.map (State.writeElem_later (s0 := s0) ?_) fun _ _ => ?_
      | with_reducible apply State.satRf_later
      | split
      | dsimp only
      | with_reducible refine Post.ok ?_
      | with_reducible exact Post.error True.intro
      | dsimp only at *
      | with_reducible refine Later.of_ok (P := fun _ => True) (by assumption) ?_
      | with_reducible refine Later.of_ok2 (P := fun _ => True) (by assumption) ?_
      | with_reducible refine Later.of_ok1 (P := fun _ => True) (by assumption) ?_

theorem State.emitGroup_later {s0 : State} {s : State} {e : MergeEnv} {r : MergeRun} {es : List (Nat × Nat)} (hs : Later s0 s) :
    Post (fun e => Later s0 e.1) (fun p => Later s0 p.1) (State.emitGroup s e r es) := by
  unfold State.emitGroup
  try dsimp only
  repeat' first
    | with_reducible assumption
    | with_reducible refine Post.ok ?_
    | with_reducible refine Post.pure ?_
    | with_reducible refine Post.error ?_
    | with_reducible refine Post.throw ?_
    | with_reducible apply State.writeElems_later
    | with_reducible apply State.fresh_later
    | with_reducible apply State.emitList_later
    | with_reducible apply State.countUnits_later
    | with_reducible apply State.putOut_later
    | with_reducible apply State.satRf_later
    | with_reducible refine Later.of_snd (by assumption) ?_
    | with_reducible refine Later.of_fst (by assumption) ?_
    | with_reducible refine Later.foldl ?_ fun _ _ _ => ?_
    | with_reducible refine Later.foldl_with (fun p : _ × State => p.2) ?_ fun _ _ _ => ?_
    | with_reducible refine Later.foldl_with (fun p : State × _ => p.1) ?_ fun _ _ _ => ?_
    | split
    | dsimp only
    | with_reducible refine Post.bind (Post.any _) fun _ _ => ?_
    | dsimp only at *
    | with_reducible refine Later.of_ok (P := fun _ => True) (by assumption) ?_
    | with_reducible refine Later.of_ok2 (P := fun _ => True) (by assumption) ?_
    | with_reducible refine Later.of_ok1 (P := fun _ => True) (by assumption) ?_

theorem State.emitTile_later {s0 : State} {s : State} {e : MergeEnv} {r : MergeRun} (hs : Later s0 s) :
    Later s0 (State.emitTile s e r).1 := by
  unfold State.emitTile
  try dsimp only
  repeat' first
    | with_reducible assumption
    | with_reducible apply State.putOut_later
    | split
    | dsimp only
    | dsimp only at *

theorem State.mergeGo_later {s0 : State} {e : MergeEnv} {a : Nat} {a3 : State} {a4 : MergeRun} (hs : Later s0 a3) :
    Later s0 (State.mergeGo e a a3 a4).state := by
  induction a generalizing e a3 a4 with
  | zero =>
    unfold State.mergeGo
    try dsimp only
    repeat' first
      | with_reducible assumption
      | with_reducible apply ih
      | with_reducible refine RunEnd.later_of (by assumption) rfl (ih ?_)
      | with_reducible apply State.setRun_later
      | with_reducible apply State.flush_later
      | with_reducible apply State.emitTile_later
      | with_reducible apply State.putOut_later
      | with_reducible apply State.fillPorts_later
      | with_reducible refine Later.of_ok1 (by assumption) (State.fillPorts_later ?_)
      | with_reducible refine Later.of_err1 (by assumption) (State.fillPorts_later ?_)
      | with_reducible refine Post.bind (State.fillPorts_later (s0 := s0) ?_) fun _ _ => ?_
      | with_reducible refine Post.map (State.fillPorts_later (s0 := s0) ?_) fun _ _ => ?_
      | with_reducible apply State.emitGroup_later
      | with_reducible refine Later.of_ok1 (by assumption) (State.emitGroup_later ?_)
      | with_reducible refine Later.of_err1 (by assumption) (State.emitGroup_later ?_)
      | with_reducible refine Post.bind (State.emitGroup_later (s0 := s0) ?_) fun _ _ => ?_
      | with_reducible refine Post.map (State.emitGroup_later (s0 := s0) ?_) fun _ _ => ?_
      | with_reducible apply State.Plan.piece_later
      | with_reducible refine Later.of_plan (by assumption) (State.Plan.piece_later ?_)
      | with_reducible apply State.Plan.read_later
      | with_reducible refine Later.of_plan (by assumption) (State.Plan.read_later ?_)
      | with_reducible apply State.Plan.indexAt_later
      | with_reducible refine Later.of_plan (by assumption) (State.Plan.indexAt_later ?_)
      | with_reducible apply State.Plan.entry_later
      | with_reducible apply State.Plan.each_later
      | with_reducible refine Later.of_plan (by assumption) (State.Plan.each_later ?_)
      | with_reducible refine State.Plan.cells_later ?_ fun _ _ _ => ?_
      | with_reducible refine Later.of_plan (by assumption) (State.Plan.cells_later ?_ fun _ _ _ => ?_)
      | with_reducible apply State.Plan.element_later
      | with_reducible refine Later.of_plan (by assumption) (State.Plan.element_later ?_)
      | with_reducible apply State.Plan.elements_later
      | with_reducible refine Later.of_plan (by assumption) (State.Plan.elements_later ?_)
      | with_reducible apply State.Plan.source_later
      | with_reducible refine Later.of_plan (by assumption) (State.Plan.source_later ?_)
      | with_reducible apply State.Plan.tile_later
      | with_reducible refine Later.of_plan (by assumption) (State.Plan.tile_later ?_)
      | with_reducible apply State.Plan.dest_later
      | with_reducible refine Later.of_plan (by assumption) (State.Plan.dest_later ?_)
      | with_reducible apply State.Plan.tileDest_later
      | with_reducible refine Later.of_plan (by assumption) (State.Plan.tileDest_later ?_)
      | with_reducible apply State.Plan.disagree_later
      | with_reducible apply State.Plan.toTile_later
      | with_reducible refine Later.of_plan (by assumption) (State.Plan.toTile_later ?_)
      | with_reducible apply State.Plan.toElements_later
      | with_reducible refine Later.of_plan (by assumption) (State.Plan.toElements_later ?_)
      | with_reducible apply State.Plan.memVisit_later
      | with_reducible refine Later.of_plan (by assumption) (State.Plan.memVisit_later ?_)
      | with_reducible apply State.Plan.ringElement_later
      | with_reducible refine Later.of_plan (by assumption) (State.Plan.ringElement_later ?_)
      | with_reducible apply State.Plan.ringTile_later
      | with_reducible refine Later.of_plan (by assumption) (State.Plan.ringTile_later ?_)
      | with_reducible refine State.Plan.visit_later ?_ fun _ _ _ => ?_
      | with_reducible refine Later.of_snd (by assumption) ?_
      | with_reducible refine Later.of_fst (by assumption) ?_
      | with_reducible refine RunEnd.later_done ?_
      | with_reducible refine RunEnd.later_wait ?_
      | with_reducible refine RunEnd.later_bad ?_
      | split
      | dsimp only
      | with_reducible refine Post.ok ?_
      | with_reducible exact Post.error True.intro
      | dsimp only at *
      | with_reducible refine Later.of_ok (P := fun _ => True) (by assumption) ?_
      | with_reducible refine Later.of_ok2 (P := fun _ => True) (by assumption) ?_
      | with_reducible refine Later.of_ok1 (P := fun _ => True) (by assumption) ?_
  | succ n ih =>
    unfold State.mergeGo
    try dsimp only
    repeat' first
      | with_reducible assumption
      | with_reducible apply ih
      | with_reducible refine RunEnd.later_of (by assumption) rfl (ih ?_)
      | with_reducible apply State.setRun_later
      | with_reducible apply State.flush_later
      | with_reducible apply State.emitTile_later
      | with_reducible apply State.putOut_later
      | with_reducible apply State.fillPorts_later
      | with_reducible refine Later.of_ok1 (by assumption) (State.fillPorts_later ?_)
      | with_reducible refine Later.of_err1 (by assumption) (State.fillPorts_later ?_)
      | with_reducible refine Post.bind (State.fillPorts_later (s0 := s0) ?_) fun _ _ => ?_
      | with_reducible refine Post.map (State.fillPorts_later (s0 := s0) ?_) fun _ _ => ?_
      | with_reducible apply State.emitGroup_later
      | with_reducible refine Later.of_ok1 (by assumption) (State.emitGroup_later ?_)
      | with_reducible refine Later.of_err1 (by assumption) (State.emitGroup_later ?_)
      | with_reducible refine Post.bind (State.emitGroup_later (s0 := s0) ?_) fun _ _ => ?_
      | with_reducible refine Post.map (State.emitGroup_later (s0 := s0) ?_) fun _ _ => ?_
      | with_reducible apply State.Plan.piece_later
      | with_reducible refine Later.of_plan (by assumption) (State.Plan.piece_later ?_)
      | with_reducible apply State.Plan.read_later
      | with_reducible refine Later.of_plan (by assumption) (State.Plan.read_later ?_)
      | with_reducible apply State.Plan.indexAt_later
      | with_reducible refine Later.of_plan (by assumption) (State.Plan.indexAt_later ?_)
      | with_reducible apply State.Plan.entry_later
      | with_reducible apply State.Plan.each_later
      | with_reducible refine Later.of_plan (by assumption) (State.Plan.each_later ?_)
      | with_reducible refine State.Plan.cells_later ?_ fun _ _ _ => ?_
      | with_reducible refine Later.of_plan (by assumption) (State.Plan.cells_later ?_ fun _ _ _ => ?_)
      | with_reducible apply State.Plan.element_later
      | with_reducible refine Later.of_plan (by assumption) (State.Plan.element_later ?_)
      | with_reducible apply State.Plan.elements_later
      | with_reducible refine Later.of_plan (by assumption) (State.Plan.elements_later ?_)
      | with_reducible apply State.Plan.source_later
      | with_reducible refine Later.of_plan (by assumption) (State.Plan.source_later ?_)
      | with_reducible apply State.Plan.tile_later
      | with_reducible refine Later.of_plan (by assumption) (State.Plan.tile_later ?_)
      | with_reducible apply State.Plan.dest_later
      | with_reducible refine Later.of_plan (by assumption) (State.Plan.dest_later ?_)
      | with_reducible apply State.Plan.tileDest_later
      | with_reducible refine Later.of_plan (by assumption) (State.Plan.tileDest_later ?_)
      | with_reducible apply State.Plan.disagree_later
      | with_reducible apply State.Plan.toTile_later
      | with_reducible refine Later.of_plan (by assumption) (State.Plan.toTile_later ?_)
      | with_reducible apply State.Plan.toElements_later
      | with_reducible refine Later.of_plan (by assumption) (State.Plan.toElements_later ?_)
      | with_reducible apply State.Plan.memVisit_later
      | with_reducible refine Later.of_plan (by assumption) (State.Plan.memVisit_later ?_)
      | with_reducible apply State.Plan.ringElement_later
      | with_reducible refine Later.of_plan (by assumption) (State.Plan.ringElement_later ?_)
      | with_reducible apply State.Plan.ringTile_later
      | with_reducible refine Later.of_plan (by assumption) (State.Plan.ringTile_later ?_)
      | with_reducible refine State.Plan.visit_later ?_ fun _ _ _ => ?_
      | with_reducible refine Later.of_snd (by assumption) ?_
      | with_reducible refine Later.of_fst (by assumption) ?_
      | with_reducible refine RunEnd.later_done ?_
      | with_reducible refine RunEnd.later_wait ?_
      | with_reducible refine RunEnd.later_bad ?_
      | split
      | dsimp only
      | with_reducible refine Post.ok ?_
      | with_reducible exact Post.error True.intro
      | dsimp only at *
      | with_reducible refine Later.of_ok (P := fun _ => True) (by assumption) ?_
      | with_reducible refine Later.of_ok2 (P := fun _ => True) (by assumption) ?_
      | with_reducible refine Later.of_ok1 (P := fun _ => True) (by assumption) ?_

theorem State.mergeInstr_later {s0 : State} {s : State} {x : EngRef} {t : Task} {table : Nat} (hs : Later s0 s) :
    Later s0 (State.mergeInstr s x t table) := by
  unfold State.mergeInstr
  try dsimp only
  repeat' first
    | with_reducible assumption
    | with_reducible apply State.mergeFail_later
    | with_reducible apply State.endRun_later
    | with_reducible apply State.mergeGo_later
    | with_reducible refine RunEnd.later_of (by assumption) rfl (State.mergeGo_later ?_)
    | split
    | dsimp only
    | with_reducible refine Post.ok ?_
    | with_reducible exact Post.error True.intro
    | dsimp only at *
    | with_reducible refine RunEnd.later_of (by assumption) rfl ?_
    | with_reducible refine Later.of_ok (P := fun _ => True) (by assumption) ?_
    | with_reducible refine Later.of_ok2 (P := fun _ => True) (by assumption) ?_
    | with_reducible refine Later.of_ok1 (P := fun _ => True) (by assumption) ?_

end Sys2Proof.Machine
end

