-- ==== Sys2Proof/Laws/LighthouseLater.lean ====
section
/-! SUPPORT. Operations of Machine/Lighthouse.lean lead to a later state (Safety.Later). -/

namespace Sys2Proof.Machine

theorem State.noteReadings_later {s0 : State} {s : State} {env : Sensors} (hs : Later s0 s) :
    Later s0 (State.noteReadings s env) := by
  unfold State.noteReadings
  try dsimp only
  repeat' first
    | with_reducible assumption
    | with_reducible refine State.setLh_later ?_ ⟨List.prefix_refl _, List.prefix_refl _⟩
    | with_reducible refine State.setLh_later ?_ ⟨List.prefix_append _ _, List.prefix_refl _⟩
    | with_reducible refine State.setLh_later ?_ ⟨List.prefix_refl _, List.prefix_append _ _⟩
    | split
    | dsimp only
    | dsimp only at *

theorem State.setVolts_later {s0 : State} {s : State} {t : Nat} {v : Nat} (hs : Later s0 s) :
    Later s0 (State.setVolts s t v) := by
  unfold State.setVolts
  try dsimp only
  repeat' first
    | with_reducible assumption
    | with_reducible refine State.setLh_later ?_ ⟨List.prefix_refl _, List.prefix_refl _⟩
    | with_reducible refine State.setLh_later ?_ ⟨List.prefix_append _ _, List.prefix_refl _⟩
    | with_reducible refine State.setLh_later ?_ ⟨List.prefix_refl _, List.prefix_append _ _⟩
    | split
    | dsimp only
    | dsimp only at *

theorem State.setGate_later {s0 : State} {s : State} {d : Nat} {g : Nat} (hs : Later s0 s) :
    Later s0 (State.setGate s d g) := by
  unfold State.setGate
  try dsimp only
  repeat' first
    | with_reducible assumption
    | with_reducible refine State.setLh_later ?_ ⟨List.prefix_refl _, List.prefix_refl _⟩
    | with_reducible refine State.setLh_later ?_ ⟨List.prefix_append _ _, List.prefix_refl _⟩
    | with_reducible refine State.setLh_later ?_ ⟨List.prefix_refl _, List.prefix_append _ _⟩
    | with_reducible apply State.put_later
    | split
    | dsimp only
    | dsimp only at *

theorem State.thermalStep_later {s0 : State} {s : State} {t : Nat} (hs : Later s0 s) :
    Later s0 (State.thermalStep s t) := by
  unfold State.thermalStep
  try dsimp only
  repeat' first
    | with_reducible assumption
    | with_reducible refine State.setLh_later ?_ ⟨List.prefix_refl _, List.prefix_refl _⟩
    | with_reducible refine State.setLh_later ?_ ⟨List.prefix_append _ _, List.prefix_refl _⟩
    | with_reducible refine State.setLh_later ?_ ⟨List.prefix_refl _, List.prefix_append _ _⟩
    | with_reducible apply State.logErr_later
    | with_reducible apply State.manage_later
    | split
    | dsimp only
    | dsimp only at *

theorem State.voltageStep_later {s0 : State} {s : State} {env : Sensors} {t : Nat} (hs : Later s0 s) :
    Later s0 (State.voltageStep s env t) := by
  unfold State.voltageStep
  try dsimp only
  repeat' first
    | with_reducible assumption
    | with_reducible apply State.manage_later
    | with_reducible apply State.setVolts_later
    | with_reducible apply State.logErr_later
    | split
    | dsimp only
    | dsimp only at *

theorem State.gateStep_later {s0 : State} {s : State} {d : Nat} (hs : Later s0 s) :
    Later s0 (State.gateStep s d) := by
  unfold State.gateStep
  try dsimp only
  repeat' first
    | with_reducible assumption
    | with_reducible apply State.setGate_later
    | with_reducible refine State.setLh_later ?_ ⟨List.prefix_refl _, List.prefix_refl _⟩
    | with_reducible refine State.setLh_later ?_ ⟨List.prefix_append _ _, List.prefix_refl _⟩
    | with_reducible refine State.setLh_later ?_ ⟨List.prefix_refl _, List.prefix_append _ _⟩
    | with_reducible apply State.put_later
    | with_reducible apply State.logErr_later
    | split
    | dsimp only
    | dsimp only at *

theorem State.notePower_later {s0 : State} {s : State} (hs : Later s0 s) :
    Later s0 (State.notePower s) := by
  unfold State.notePower
  try dsimp only
  repeat' first
    | with_reducible assumption
    | with_reducible apply State.setReg_later
    | split
    | dsimp only
    | dsimp only at *

theorem State.thermalTrip_later {s0 : State} {s : State} (hs : Later s0 s) :
    Later s0 (State.thermalTrip s) := by
  unfold State.thermalTrip
  try dsimp only
  repeat' first
    | with_reducible assumption
    | with_reducible apply State.abortTask_later
    | with_reducible apply State.setPkg_later
    | with_reducible refine Later.foldl ?_ fun _ _ _ => ?_
    | with_reducible refine Later.foldl_with (fun p : _ × State => p.2) ?_ fun _ _ _ => ?_
    | with_reducible refine Later.foldl_with (fun p : State × _ => p.1) ?_ fun _ _ _ => ?_
    | split
    | dsimp only
    | dsimp only at *

theorem State.regulatorFault_later {s0 : State} {s : State} {t : Nat} (hs : Later s0 s) :
    Later s0 (State.regulatorFault s t) := by
  unfold State.regulatorFault
  try dsimp only
  repeat' first
    | with_reducible assumption
    | with_reducible apply State.manage_later
    | split
    | dsimp only
    | dsimp only at *

theorem State.inputStep_later {s0 : State} {s : State} {mv : Nat} (hs : Later s0 s) :
    Later s0 (State.inputStep s mv) := by
  unfold State.inputStep
  try dsimp only
  repeat' first
    | with_reducible assumption
    | with_reducible refine State.setLh_later ?_ ⟨List.prefix_refl _, List.prefix_refl _⟩
    | with_reducible refine State.setLh_later ?_ ⟨List.prefix_append _ _, List.prefix_refl _⟩
    | with_reducible refine State.setLh_later ?_ ⟨List.prefix_refl _, List.prefix_append _ _⟩
    | with_reducible apply State.logErr_later
    | with_reducible apply State.stall_later
    | split
    | dsimp only
    | dsimp only at *

theorem State.rowReport_later {s0 : State} {s : State} {base : Nat} {bank : Nat} {row : Nat} (hs : Later s0 s) :
    Later s0 (State.rowReport s base bank row) := by
  unfold State.rowReport
  try dsimp only
  repeat' first
    | with_reducible assumption
    | with_reducible refine State.setLh_later ?_ ⟨List.prefix_refl _, List.prefix_refl _⟩
    | with_reducible refine State.setLh_later ?_ ⟨List.prefix_append _ _, List.prefix_refl _⟩
    | with_reducible refine State.setLh_later ?_ ⟨List.prefix_refl _, List.prefix_append _ _⟩
    | with_reducible apply State.mapRow_later
    | split
    | dsimp only
    | dsimp only at *

theorem State.eccStep_later {s0 : State} {s : State} (hs : Later s0 s) :
    Later s0 (State.eccStep s) := by
  unfold State.eccStep
  try dsimp only
  repeat' first
    | with_reducible assumption
    | with_reducible refine State.forAll_later ?_ fun _ _ _ => ?_
    | with_reducible apply State.setRf_later
    | with_reducible apply State.rowReport_later
    | with_reducible apply State.stall_later
    | split
    | dsimp only
    | dsimp only at *

theorem State.stallStep_later {s0 : State} {s : State} (hs : Later s0 s) :
    Later s0 (State.stallStep s) := by
  unfold State.stallStep
  try dsimp only
  repeat' first
    | with_reducible assumption
    | with_reducible refine State.setLh_later ?_ ⟨List.prefix_refl _, List.prefix_refl _⟩
    | with_reducible refine State.setLh_later ?_ ⟨List.prefix_append _ _, List.prefix_refl _⟩
    | with_reducible refine State.setLh_later ?_ ⟨List.prefix_refl _, List.prefix_append _ _⟩
    | split
    | dsimp only
    | dsimp only at *

theorem State.declareHung_later {s0 : State} {s : State} {core : Nat} {eng : Nat} (hs : Later s0 s) :
    Later s0 (State.declareHung s core eng) := by
  unfold State.declareHung
  try dsimp only
  repeat' first
    | with_reducible assumption
    | with_reducible refine State.setLh_later ?_ ⟨List.prefix_refl _, List.prefix_refl _⟩
    | with_reducible refine State.setLh_later ?_ ⟨List.prefix_append _ _, List.prefix_refl _⟩
    | with_reducible refine State.setLh_later ?_ ⟨List.prefix_refl _, List.prefix_append _ _⟩
    | with_reducible apply State.manage_later
    | split
    | dsimp only
    | dsimp only at *

theorem State.silenceStep_later {s0 : State} {s : State} (hs : Later s0 s) :
    Later s0 (State.silenceStep s) := by
  unfold State.silenceStep
  try dsimp only
  repeat' first
    | with_reducible assumption
    | with_reducible refine State.setLh_later ?_ ⟨List.prefix_refl _, List.prefix_refl _⟩
    | with_reducible refine State.setLh_later ?_ ⟨List.prefix_append _ _, List.prefix_refl _⟩
    | with_reducible refine State.setLh_later ?_ ⟨List.prefix_refl _, List.prefix_append _ _⟩
    | with_reducible apply State.setStale_later
    | split
    | dsimp only
    | dsimp only at *

theorem State.unconfirmedStep_later {s0 : State} {s : State} {n : Nat} (hs : Later s0 s) :
    Later s0 (State.unconfirmedStep s n) := by
  unfold State.unconfirmedStep
  try dsimp only
  repeat' first
    | with_reducible assumption
    | with_reducible apply State.manage_later
    | split
    | dsimp only
    | dsimp only at *

theorem State.takeSample_later {s0 : State} {s : State} {env : Sensors} (hs : Later s0 s) :
    Later s0 (State.takeSample s env) := by
  unfold State.takeSample
  try dsimp only
  repeat' first
    | with_reducible assumption
    | with_reducible refine State.setLh_later ?_ ⟨List.prefix_refl _, List.prefix_refl _⟩
    | with_reducible refine State.setLh_later ?_ ⟨List.prefix_append _ _, List.prefix_refl _⟩
    | with_reducible refine State.setLh_later ?_ ⟨List.prefix_refl _, List.prefix_append _ _⟩
    | with_reducible apply State.noteReadings_later
    | with_reducible refine State.forAll_later ?_ fun _ _ _ => ?_
    | with_reducible apply State.thermalStep_later
    | with_reducible apply State.voltageStep_later
    | with_reducible apply State.gateStep_later
    | with_reducible apply State.notePower_later
    | with_reducible apply State.thermalTrip_later
    | with_reducible apply State.regulatorFault_later
    | with_reducible apply State.inputStep_later
    | with_reducible apply State.eccStep_later
    | with_reducible apply State.stallStep_later
    | with_reducible apply State.silenceStep_later
    | with_reducible apply State.unconfirmedStep_later
    | with_reducible apply State.examineClaims_later
    | with_reducible apply State.trySlack_later
    | with_reducible apply State.endRotation_later
    | split
    | dsimp only
    | dsimp only at *

theorem State.spanStep_later {s0 : State} {s : State} {d : Nat} (hs : Later s0 s) :
    Later s0 (State.spanStep s d) := by
  unfold State.spanStep
  try dsimp only
  repeat' first
    | with_reducible assumption
    | with_reducible refine State.setLh_later ?_ ⟨List.prefix_refl _, List.prefix_refl _⟩
    | with_reducible refine State.setLh_later ?_ ⟨List.prefix_append _ _, List.prefix_refl _⟩
    | with_reducible refine State.setLh_later ?_ ⟨List.prefix_refl _, List.prefix_append _ _⟩
    | with_reducible apply State.put_later
    | split
    | dsimp only
    | dsimp only at *

theorem State.endRecovery_later {s0 : State} {s : State} {n : Nat} (hs : Later s0 s) :
    Later s0 (State.endRecovery s n) := by
  unfold State.endRecovery
  try dsimp only
  repeat' first
    | with_reducible assumption
    | with_reducible apply State.endDrains_later
    | with_reducible apply State.rebuild_later
    | with_reducible apply State.dropRecovery_later
    | with_reducible refine State.setLh_later ?_ ⟨List.prefix_refl _, List.prefix_refl _⟩
    | with_reducible refine State.setLh_later ?_ ⟨List.prefix_append _ _, List.prefix_refl _⟩
    | with_reducible refine State.setLh_later ?_ ⟨List.prefix_refl _, List.prefix_append _ _⟩
    | with_reducible apply State.bringUpAgain_later
    | with_reducible apply State.logErr_later
    | with_reducible apply State.newGeneration_later
    | with_reducible apply State.retryScrubs_later
    | with_reducible apply State.enterSplit_later
    | with_reducible apply State.startWaiting_later
    | with_reducible apply State.sendWaiting_later
    | with_reducible apply State.admitHeld_later
    | with_reducible apply State.examineClaims_later
    | split
    | dsimp only
    | dsimp only at *

theorem State.startSound_later {s0 : State} {s : State} {p : Port} {vector : Nat} (hs : Later s0 s) :
    Later s0 (State.startSound s p vector) := by
  unfold State.startSound
  try dsimp only
  repeat' first
    | with_reducible assumption
    | with_reducible apply State.setRf_later
    | with_reducible refine State.setLh_later ?_ ⟨List.prefix_refl _, List.prefix_refl _⟩
    | with_reducible refine State.setLh_later ?_ ⟨List.prefix_append _ _, List.prefix_refl _⟩
    | with_reducible refine State.setLh_later ?_ ⟨List.prefix_refl _, List.prefix_append _ _⟩
    | with_reducible apply State.put_later
    | split
    | dsimp only
    | dsimp only at *

theorem State.endSound_later {s0 : State} {s : State} {p : Port} {ok : Bool} (hs : Later s0 s) :
    Later s0 (State.endSound s p ok) := by
  unfold State.endSound
  try dsimp only
  repeat' first
    | with_reducible assumption
    | with_reducible refine State.setLh_later ?_ ⟨List.prefix_refl _, List.prefix_refl _⟩
    | with_reducible refine State.setLh_later ?_ ⟨List.prefix_append _ _, List.prefix_refl _⟩
    | with_reducible refine State.setLh_later ?_ ⟨List.prefix_refl _, List.prefix_append _ _⟩
    | with_reducible apply State.put_later
    | with_reducible apply State.setRf_later
    | with_reducible apply State.emit_later
    | with_reducible apply State.addRf_later
    | with_reducible apply State.fireVector_later
    | with_reducible apply State.logErr_later
    | split
    | dsimp only
    | dsimp only at *

theorem State.refuseLayout_later {s0 : State} {s : State} {code : Nat} (hs : Later s0 s) :
    Later s0 (State.refuseLayout s code) := by
  unfold State.refuseLayout
  try dsimp only
  repeat' first
    | with_reducible assumption
    | with_reducible apply State.setRf_later
    | with_reducible apply State.logErr_later
    | split
    | dsimp only
    | dsimp only at *

theorem State.applyLayout_later {s0 : State} {s : State} {p : Port} (hs : Later s0 s) :
    Later s0 (State.applyLayout s p) := by
  unfold State.applyLayout
  try dsimp only
  repeat' first
    | with_reducible assumption
    | with_reducible apply State.refuseLayout_later
    | with_reducible apply State.setPkg_later
    | with_reducible apply State.setRf_later
    | with_reducible apply State.passUnits_later
    | with_reducible apply State.newGeneration_later
    | split
    | dsimp only
    | dsimp only at *

theorem State.writeCap_later {s0 : State} {s : State} {hi : Nat} {lo : Nat} {v : Nat} (hs : Later s0 s) :
    Later s0 (State.writeCap s hi lo v) := by
  unfold State.writeCap
  try dsimp only
  repeat' first
    | with_reducible assumption
    | with_reducible apply State.setRf_later
    | with_reducible apply State.logErr_later
    | split
    | dsimp only
    | dsimp only at *

end Sys2Proof.Machine
end

