-- ==== Sys2Proof/Laws/BootLater.lean ====
section
/-! SUPPORT. Operations of Machine/Boot.lean lead to a later state (Safety.Later). -/

namespace Sys2Proof.Machine

theorem State.wipe_later {s0 s : State} (hs : Later s0 s) : Later s0 s.wipe :=
  hs.trans ⟨rfl, State.wf_filter _, List.prefix_refl _, Nat.le_refl _, Nat.le_refl _,
    ⟨Nat.min_le_right _ _, Nat.min_le_right _ _, Nat.min_le_right _ _, rfl, id, Nat.min_le_right _ _, Nat.le_refl _⟩,
    ⟨List.prefix_refl _, List.prefix_refl _⟩⟩

theorem State.verifyLighthouse_later {s0 : State} {s : State} {env : BootEnv} {powerOn : Bool} (hs : Later s0 s) :
    Later s0 (State.verifyLighthouse s env powerOn).2 := by
  unfold State.verifyLighthouse
  try dsimp only
  repeat' first
    | with_reducible assumption
    | with_reducible refine State.setTrust_later ?_ ⟨Nat.min_le_right _ _, Nat.min_le_right _ _, Nat.min_le_right _ _, rfl, id, TrustLater.boot _, Nat.le_refl _⟩
    | with_reducible refine State.setTrust_later ?_ ⟨TrustLater.fuses _ _, Nat.min_le_right _ _, Nat.min_le_right _ _, rfl, id, Nat.min_le_right _ _, Nat.le_refl _⟩
    | with_reducible refine State.setTrust_later ?_ ⟨Nat.min_le_right _ _, TrustLater.fuses _ _, Nat.min_le_right _ _, rfl, id, Nat.min_le_right _ _, Nat.le_refl _⟩
    | with_reducible refine State.setTrust_later ?_ ⟨Nat.min_le_right _ _, Nat.min_le_right _ _, TrustLater.fuses _ _, rfl, id, Nat.min_le_right _ _, Nat.le_refl _⟩
    | with_reducible refine State.setTrust_later ?_ ⟨Nat.min_le_right _ _, Nat.min_le_right _ _, Nat.min_le_right _ _, rfl, fun _ => rfl, Nat.min_le_right _ _, Nat.le_refl _⟩
    | with_reducible refine State.setTrust_later ?_ ⟨Nat.min_le_right _ _, Nat.min_le_right _ _, Nat.min_le_right _ _, rfl, id, Nat.min_le_right _ _, Nat.le_refl _⟩
    | with_reducible refine State.setTrust_later ?_ ⟨Nat.min_le_right _ _, Nat.min_le_right _ _, Nat.min_le_right _ _, rfl, id, Nat.min_le_right _ _, Nat.le_succ _⟩
    | split
    | dsimp only
    | dsimp only at *

theorem State.verifyDies_later {s0 : State} {s : State} {env : BootEnv} (hs : Later s0 s) :
    Later s0 (State.verifyDies s env) := by
  unfold State.verifyDies
  try dsimp only
  repeat' first
    | with_reducible assumption
    | with_reducible refine State.setTrust_later ?_ ⟨Nat.min_le_right _ _, Nat.min_le_right _ _, Nat.min_le_right _ _, rfl, id, TrustLater.boot _, Nat.le_refl _⟩
    | with_reducible refine State.setTrust_later ?_ ⟨TrustLater.fuses _ _, Nat.min_le_right _ _, Nat.min_le_right _ _, rfl, id, Nat.min_le_right _ _, Nat.le_refl _⟩
    | with_reducible refine State.setTrust_later ?_ ⟨Nat.min_le_right _ _, TrustLater.fuses _ _, Nat.min_le_right _ _, rfl, id, Nat.min_le_right _ _, Nat.le_refl _⟩
    | with_reducible refine State.setTrust_later ?_ ⟨Nat.min_le_right _ _, Nat.min_le_right _ _, TrustLater.fuses _ _, rfl, id, Nat.min_le_right _ _, Nat.le_refl _⟩
    | with_reducible refine State.setTrust_later ?_ ⟨Nat.min_le_right _ _, Nat.min_le_right _ _, Nat.min_le_right _ _, rfl, fun _ => rfl, Nat.min_le_right _ _, Nat.le_refl _⟩
    | with_reducible refine State.setTrust_later ?_ ⟨Nat.min_le_right _ _, Nat.min_le_right _ _, Nat.min_le_right _ _, rfl, id, Nat.min_le_right _ _, Nat.le_refl _⟩
    | with_reducible refine State.setTrust_later ?_ ⟨Nat.min_le_right _ _, Nat.min_le_right _ _, Nat.min_le_right _ _, rfl, id, Nat.min_le_right _ _, Nat.le_succ _⟩
    | with_reducible apply State.lhManage_later
    | with_reducible refine State.forAll_later ?_ fun _ _ _ => ?_
    | with_reducible apply State.setSession_later
    | with_reducible refine Later.foldl ?_ fun _ _ _ => ?_
    | with_reducible refine Later.foldl_with (fun p : _ × State => p.2) ?_ fun _ _ _ => ?_
    | with_reducible refine Later.foldl_with (fun p : State × _ => p.1) ?_ fun _ _ _ => ?_
    | split
    | dsimp only
    | dsimp only at *

theorem State.selfTestFail_later {s0 : State} {s : State} {kind : Nat} {unit : Nat} (hs : Later s0 s) :
    Later s0 (State.selfTestFail s kind unit) := by
  unfold State.selfTestFail
  try dsimp only
  repeat' first
    | with_reducible assumption
    | with_reducible apply State.logErr_later
    | with_reducible apply State.fail_later
    | split
    | dsimp only
    | dsimp only at *

theorem State.mapRows_later {s0 : State} {s : State} {rows : List (Nat × Nat × Nat)} (hs : Later s0 s) :
    Later s0 (State.mapRows s rows) := by
  unfold State.mapRows
  try dsimp only
  repeat' first
    | with_reducible assumption
    | with_reducible apply State.mapRow_later
    | with_reducible refine Later.foldl ?_ fun _ _ _ => ?_
    | with_reducible refine Later.foldl_with (fun p : _ × State => p.2) ?_ fun _ _ _ => ?_
    | with_reducible refine Later.foldl_with (fun p : State × _ => p.1) ?_ fun _ _ _ => ?_
    | split
    | dsimp only
    | dsimp only at *

theorem State.testRows_later {s0 : State} {s : State} {env : BootEnv} (hs : Later s0 s) :
    Later s0 (State.testRows s env).2 := by
  unfold State.testRows
  try dsimp only
  repeat' first
    | with_reducible assumption
    | with_reducible apply State.mapRows_later
    | with_reducible refine State.forAll_later ?_ fun _ _ _ => ?_
    | with_reducible apply State.applyRepairs_later
    | split
    | dsimp only
    | dsimp only at *

theorem State.testCores_later {s0 : State} {s : State} {env : BootEnv} (hs : Later s0 s) :
    Later s0 (State.testCores s env) := by
  unfold State.testCores
  try dsimp only
  repeat' first
    | with_reducible assumption
    | with_reducible apply State.setPkg_later
    | with_reducible refine State.forAll_later ?_ fun _ _ _ => ?_
    | with_reducible apply State.selfTestFail_later
    | split
    | dsimp only
    | dsimp only at *

theorem State.testTowers_later {s0 : State} {s : State} {env : BootEnv} (hs : Later s0 s) :
    Later s0 (State.testTowers s env) := by
  unfold State.testTowers
  try dsimp only
  repeat' first
    | with_reducible assumption
    | with_reducible apply State.setPkg_later
    | with_reducible refine State.forAll_later ?_ fun _ _ _ => ?_
    | with_reducible apply State.setRf_later
    | with_reducible apply State.logErr_later
    | with_reducible apply State.fail_later
    | split
    | dsimp only
    | dsimp only at *

theorem State.testHops_later {s0 : State} {s : State} {env : BootEnv} (hs : Later s0 s) :
    Later s0 (State.testHops s env) := by
  unfold State.testHops
  try dsimp only
  repeat' first
    | with_reducible assumption
    | with_reducible apply State.setPkg_later
    | with_reducible refine State.forAll_later ?_ fun _ _ _ => ?_
    | with_reducible apply State.selfTestFail_later
    | split
    | dsimp only
    | dsimp only at *

theorem State.testCauseway_later {s0 : State} {s : State} {env : BootEnv} (hs : Later s0 s) :
    Later s0 (State.testCauseway s env) := by
  unfold State.testCauseway
  try dsimp only
  repeat' first
    | with_reducible assumption
    | with_reducible apply State.setPkg_later
    | with_reducible apply State.setRf_later
    | with_reducible apply State.selfTestFail_later
    | with_reducible apply State.layoutSplit_later
    | with_reducible apply State.laneFails_later
    | with_reducible apply State.laneSwapped_later
    | with_reducible refine Later.foldl ?_ fun _ _ _ => ?_
    | with_reducible refine Later.foldl_with (fun p : _ × State => p.2) ?_ fun _ _ _ => ?_
    | with_reducible refine Later.foldl_with (fun p : State × _ => p.1) ?_ fun _ _ _ => ?_
    | split
    | dsimp only
    | dsimp only at *

theorem State.beginPorts_later {s0 : State} {s : State} (hs : Later s0 s) :
    Later s0 (State.beginPorts s) := by
  unfold State.beginPorts
  try dsimp only
  repeat' first
    | with_reducible assumption
    | with_reducible refine State.forAll_later ?_ fun _ _ _ => ?_
    | with_reducible apply State.setCxl_later
    | with_reducible apply State.setRf_later
    | split
    | dsimp only
    | dsimp only at *

theorem State.startUp_later {s0 : State} {s : State} {env : BootEnv} {cause : Nat} {powerOn : Bool} (hs : Later s0 s) :
    Later s0 (State.startUp s env cause powerOn) := by
  unfold State.startUp
  try dsimp only
  repeat' first
    | with_reducible assumption
    | with_reducible refine State.setTrust_later ?_ ⟨Nat.min_le_right _ _, Nat.min_le_right _ _, Nat.min_le_right _ _, rfl, id, TrustLater.boot _, Nat.le_refl _⟩
    | with_reducible refine State.setTrust_later ?_ ⟨TrustLater.fuses _ _, Nat.min_le_right _ _, Nat.min_le_right _ _, rfl, id, Nat.min_le_right _ _, Nat.le_refl _⟩
    | with_reducible refine State.setTrust_later ?_ ⟨Nat.min_le_right _ _, TrustLater.fuses _ _, Nat.min_le_right _ _, rfl, id, Nat.min_le_right _ _, Nat.le_refl _⟩
    | with_reducible refine State.setTrust_later ?_ ⟨Nat.min_le_right _ _, Nat.min_le_right _ _, TrustLater.fuses _ _, rfl, id, Nat.min_le_right _ _, Nat.le_refl _⟩
    | with_reducible refine State.setTrust_later ?_ ⟨Nat.min_le_right _ _, Nat.min_le_right _ _, Nat.min_le_right _ _, rfl, fun _ => rfl, Nat.min_le_right _ _, Nat.le_refl _⟩
    | with_reducible refine State.setTrust_later ?_ ⟨Nat.min_le_right _ _, Nat.min_le_right _ _, Nat.min_le_right _ _, rfl, id, Nat.min_le_right _ _, Nat.le_refl _⟩
    | with_reducible refine State.setTrust_later ?_ ⟨Nat.min_le_right _ _, Nat.min_le_right _ _, Nat.min_le_right _ _, rfl, id, Nat.min_le_right _ _, Nat.le_succ _⟩
    | with_reducible apply State.verifyLighthouse_later
    | with_reducible apply State.setReg_later
    | with_reducible apply State.setPkg_later
    | with_reducible apply State.lhManage_later
    | with_reducible apply State.verifyDies_later
    | with_reducible refine State.forAll_later ?_ fun _ _ _ => ?_
    | with_reducible apply State.applyRepairs_later
    | with_reducible apply State.testRows_later
    | with_reducible apply State.testCores_later
    | with_reducible apply State.testTowers_later
    | with_reducible apply State.testHops_later
    | with_reducible apply State.testCauseway_later
    | with_reducible apply State.beginPorts_later
    | with_reducible refine Later.of_snd (by assumption) ?_
    | with_reducible refine Later.of_fst (by assumption) ?_
    | with_reducible refine Later.foldl ?_ fun _ _ _ => ?_
    | with_reducible refine Later.foldl_with (fun p : _ × State => p.2) ?_ fun _ _ _ => ?_
    | with_reducible refine Later.foldl_with (fun p : State × _ => p.1) ?_ fun _ _ _ => ?_
    | split
    | dsimp only
    | dsimp only at *

theorem State.packageReset_later {s0 : State} {s : State} {env : BootEnv} {cause : Nat} (hs : Later s0 s) :
    Later s0 (State.packageReset s env cause) := by
  unfold State.packageReset
  try dsimp only
  repeat' first
    | with_reducible assumption
    | with_reducible apply State.wipe_later
    | with_reducible apply State.startUp_later
    | split
    | dsimp only
    | dsimp only at *

theorem State.writeResetctl_later {s0 : State} {s : State} {env : BootEnv} {key : Nat} (hs : Later s0 s) :
    Later s0 (State.writeResetctl s env key) := by
  unfold State.writeResetctl
  try dsimp only
  repeat' first
    | with_reducible assumption
    | with_reducible apply State.logErr_later
    | with_reducible apply State.packageReset_later
    | split
    | dsimp only
    | dsimp only at *

theorem State.powerDown_later {s0 : State} {s : State} (hs : Later s0 s) :
    Later s0 (State.powerDown s) := by
  unfold State.powerDown
  try dsimp only
  repeat' first
    | with_reducible assumption
    | with_reducible apply State.wipe_later
    | with_reducible apply State.setPkg_later
    | split
    | dsimp only
    | dsimp only at *

end Sys2Proof.Machine
end

