-- ==== Sys2Proof/Laws/RegsLater.lean ====
section
/-! SUPPORT. Operations of Machine/Regs.lean lead to a later state (Safety.Later). -/

namespace Sys2Proof.Machine

theorem State.writeMemwin_later {s0 : State} {s : State} {by' : Agent} {r : RegId} {v : Word} (hs : Later s0 s) :
    Later s0 (State.writeMemwin s by' r v) := by
  unfold State.writeMemwin
  try dsimp only
  repeat' first
    | with_reducible assumption
    | with_reducible apply State.logErr_later
    | with_reducible apply State.store_later
    | split
    | dsimp only
    | dsimp only at *

theorem State.writeCqhead_later {s0 : State} {s : State} {by' : Agent} {r : RegId} {v : Word} (hs : Later s0 s) :
    Later s0 (State.writeCqhead s by' r v) := by
  unfold State.writeCqhead
  try dsimp only
  repeat' first
    | with_reducible assumption
    | with_reducible apply State.logErr_later
    | with_reducible apply State.store_later
    | split
    | dsimp only
    | dsimp only at *

theorem State.writeMsix_later {s0 : State} {s : State} {r : RegId} {v : Word} (hs : Later s0 s) :
    Later s0 (State.writeMsix s r v) := by
  unfold State.writeMsix
  try dsimp only
  repeat' first
    | with_reducible assumption
    | with_reducible apply State.setReg_later
    | with_reducible apply State.setRf_later
    | with_reducible apply State.fireVector_later
    | split
    | dsimp only
    | dsimp only at *

theorem State.writeChstatus_later {s0 : State} {s : State} {r : RegId} {v : Word} (hs : Later s0 s) :
    Later s0 (State.writeChstatus s r v) := by
  unfold State.writeChstatus
  try dsimp only
  repeat' first
    | with_reducible assumption
    | with_reducible apply State.setChan_later
    | split
    | dsimp only
    | dsimp only at *

theorem State.writeKeyctl_later {s0 : State} {s : State} {by' : Agent} {r : RegId} {v : Word} (hs : Later s0 s) :
    Later s0 (State.writeKeyctl s by' r v) := by
  unfold State.writeKeyctl
  try dsimp only
  repeat' first
    | with_reducible assumption
    | with_reducible apply State.logErr_later
    | with_reducible apply State.startAgree_later
    | with_reducible apply State.startRotation_later
    | with_reducible apply State.downLink_later
    | with_reducible apply State.load_later
    | split
    | dsimp only
    | dsimp only at *

theorem State.writeStrataCtl_later {s0 : State} {s : State} {p : Nat} {v : Word} (hs : Later s0 s) :
    Later s0 (State.writeStrataCtl s p v) := by
  unfold State.writeStrataCtl
  try dsimp only
  repeat' first
    | with_reducible assumption
    | with_reducible apply State.startLoad_later
    | with_reducible apply State.writeHold_later
    | split
    | dsimp only
    | dsimp only at *

theorem State.writeIntake_later {s0 : State} {s : State} {by' : Agent} {r : RegId} {v : Word} (hs : Later s0 s) :
    Later s0 (State.writeIntake s by' r v) := by
  unfold State.writeIntake
  try dsimp only
  repeat' first
    | with_reducible assumption
    | with_reducible apply State.logErr_later
    | with_reducible apply State.store_later
    | split
    | dsimp only
    | dsimp only at *

theorem State.writeSecctl_later {s0 : State} {s : State} {by' : Agent} {v : Word} (hs : Later s0 s) :
    Later s0 (State.writeSecctl s by' v) := by
  unfold State.writeSecctl
  try dsimp only
  repeat' first
    | with_reducible assumption
    | with_reducible apply State.commit_later
    | with_reducible apply State.blowLock_later
    | with_reducible apply State.writeFullres_later
    | split
    | dsimp only
    | dsimp only at *

theorem State.writePowercap_later {s0 : State} {s : State} {by' : Agent} {v : Word} (hs : Later s0 s) :
    Later s0 (State.writePowercap s by' v) := by
  unfold State.writePowercap
  try dsimp only
  repeat' first
    | with_reducible assumption
    | with_reducible apply State.writeCap_later
    | split
    | dsimp only
    | dsimp only at *

theorem State.writePilotfw_later {s0 : State} {s : State} {by' : Agent} {r : RegId} {v : Word} (hs : Later s0 s) :
    Later s0 (State.writePilotfw s by' r v) := by
  unfold State.writePilotfw
  try dsimp only
  repeat' first
    | with_reducible assumption
    | with_reducible apply State.pilotLoad_later
    | with_reducible apply State.store_later
    | split
    | dsimp only
    | dsimp only at *

theorem State.writeReg_later {s0 : State} {s : State} {by' : Agent} {r : RegId} {v : Word} (hs : Later s0 s) :
    Later s0 (State.writeReg s by' r v) := by
  unfold State.writeReg
  try dsimp only
  repeat' first
    | with_reducible assumption
    | with_reducible apply State.writeRing_later
    | with_reducible apply State.writeWindow_later
    | with_reducible apply State.writeChan_later
    | with_reducible apply State.writeChstatus_later
    | with_reducible apply State.pushWords_later
    | with_reducible apply State.writeListctl_later
    | with_reducible apply State.writeMemwin_later
    | with_reducible apply State.doorbell_later
    | with_reducible apply State.writeCqcfg_later
    | with_reducible apply State.writeCqhead_later
    | with_reducible apply State.writeErrhead_later
    | with_reducible apply State.writeMsix_later
    | with_reducible apply State.writeKeyctl_later
    | with_reducible apply State.writeCxcfg_later
    | with_reducible apply State.store_later
    | with_reducible apply State.startSound_later
    | with_reducible apply State.applyLayout_later
    | with_reducible apply State.writeIntake_later
    | with_reducible apply State.writeStrataCtl_later
    | with_reducible apply State.writeHostctl_later
    | with_reducible apply State.beat_later
    | with_reducible apply State.addClaim_later
    | with_reducible apply State.writeSecctl_later
    | with_reducible apply State.sealRotate_later
    | with_reducible apply State.writePilotfw_later
    | with_reducible apply State.writePowercap_later
    | with_reducible apply State.writeResetctl_later
    | split
    | dsimp only
    | dsimp only at *

theorem State.writeNowhere_later {s0 : State} {s : State} {by' : Agent} (hs : Later s0 s) :
    Later s0 (State.writeNowhere s by') := by
  unfold State.writeNowhere
  try dsimp only
  repeat' first
    | with_reducible assumption
    | with_reducible apply State.logErr_later
    | split
    | dsimp only
    | dsimp only at *

theorem State.registerWrite_later {s0 : State} {s : State} {by' : Agent} {tbit : Bool} {offset : Nat} {width : Nat} {value : Nat} (hs : Later s0 s) :
    Later s0 (State.registerWrite s by' tbit offset width value) := by
  unfold State.registerWrite
  try dsimp only
  repeat' first
    | with_reducible assumption
    | with_reducible apply State.writeNowhere_later
    | with_reducible refine State.access_later ?_ fun _ _ => ?_
    | with_reducible apply State.writeReg_later
    | split
    | dsimp only
    | dsimp only at *

end Sys2Proof.Machine
end

