-- ==== Sys2Proof/Laws/ExecLater.lean ====
section
/-! SUPPORT. The meaning of every command answers a next state, and a later one (Safety.Later). -/

namespace Sys2Proof.Machine

theorem execNop_later {s0 s : State} {x : EngRef} (hs : Later s0 s) :
    ∃ t, execNop x s = .next t ∧ Later s0 t := by
  refine ⟨_, rfl, ?_⟩
  try dsimp only
  repeat' first
    | with_reducible assumption
    | with_reducible refine State.issue_later ?_ fun _ _ _ => ?_
    | with_reducible apply State.retire_later
    | split
    | dsimp only

theorem execEndSeq_later {s0 s : State} {x : EngRef} (hs : Later s0 s) :
    ∃ t, execEndSeq x s = .next t ∧ Later s0 t := by
  refine ⟨_, rfl, ?_⟩
  try dsimp only
  repeat' first
    | with_reducible assumption
    | with_reducible refine State.issue_later ?_ fun _ _ _ => ?_
    | with_reducible apply State.retire_later
    | split
    | dsimp only

theorem execSetlc_later {s0 s : State} {x : EngRef} {lc : Nat} {fromShape : Bool} {i imm : Nat} (hs : Later s0 s) :
    ∃ t, execSetlc x lc fromShape i imm s = .next t ∧ Later s0 t := by
  refine ⟨_, rfl, ?_⟩
  try dsimp only
  repeat' first
    | with_reducible assumption
    | with_reducible refine State.issue_later ?_ fun _ _ _ => ?_
    | with_reducible apply State.setReg_later
    | with_reducible apply State.retire_later
    | split
    | dsimp only

theorem execList_later {s0 s : State} {x : EngRef} {starter dir : Nat} (hs : Later s0 s) :
    ∃ t, execList x starter dir s = .next t ∧ Later s0 t := by
  refine ⟨_, rfl, ?_⟩
  try dsimp only
  repeat' first
    | with_reducible assumption
    | with_reducible refine State.issue_later ?_ fun _ _ _ => ?_
    | with_reducible apply State.retire_later
    | with_reducible apply State.failTask_later
    | with_reducible apply State.endItems_later
    | with_reducible apply State.store_later
    | with_reducible apply State.writeListctl_later
    | split
    | dsimp only

theorem execRelease_later {s0 s : State} {x : EngRef} (hs : Later s0 s) :
    ∃ t, execRelease x s = .next t ∧ Later s0 t := by
  refine ⟨_, rfl, ?_⟩
  try dsimp only
  repeat' first
    | with_reducible assumption
    | with_reducible refine State.issue_later ?_ fun _ _ _ => ?_
    | with_reducible apply State.release_later
    | with_reducible apply State.updTask_later
    | with_reducible apply State.retire_later
    | split
    | dsimp only

theorem execChsend_later {s0 s : State} {x : EngRef} {channel : Nat} {endMark : Bool} {core data : Nat} (hs : Later s0 s) :
    ∃ t, execChsend x channel endMark core data s = .next t ∧ Later s0 t := by
  refine ⟨_, rfl, ?_⟩
  try dsimp only
  repeat' first
    | with_reducible assumption
    | with_reducible refine State.issue_later ?_ fun _ _ _ => ?_
    | with_reducible apply State.decodeFault_later
    | with_reducible apply State.failTask_later
    | with_reducible apply State.startSync_later
    | split
    | dsimp only

theorem execChrecv_later {s0 s : State} {x : EngRef} {channel lc : Nat} {tagen : Bool} {tlc : Nat} (hs : Later s0 s) :
    ∃ t, execChrecv x channel lc tagen tlc s = .next t ∧ Later s0 t := by
  refine ⟨_, rfl, ?_⟩
  try dsimp only
  repeat' first
    | with_reducible assumption
    | with_reducible refine State.issue_later ?_ fun _ _ _ => ?_
    | with_reducible apply State.popWord_later
    | with_reducible apply State.deliver_later
    | with_reducible apply State.admitHeld_later
    | with_reducible apply State.pump_later
    | with_reducible apply State.stall_later
    | with_reducible refine Later.of_snd (by assumption) ?_
    | with_reducible refine Later.of_fst (by assumption) ?_
    | split
    | dsimp only

theorem execParam_later {s0 s : State} {x : EngRef} {p value : Nat} (hs : Later s0 s) :
    ∃ t, execParam x p value s = .next t ∧ Later s0 t := by
  refine ⟨_, rfl, ?_⟩
  try dsimp only
  repeat' first
    | with_reducible assumption
    | with_reducible refine State.issue_later ?_ fun _ _ _ => ?_
    | with_reducible apply State.retire_later
    | split
    | dsimp only

theorem execMove_later {s0 s : State} {x : EngRef} {ops : MoveOps} (hs : Later s0 s) :
    ∃ t, execMove x ops s = .next t ∧ Later s0 t := by
  refine ⟨_, rfl, ?_⟩
  try dsimp only
  repeat' first
    | with_reducible assumption
    | with_reducible refine State.issue_later ?_ fun _ _ _ => ?_
    | with_reducible apply State.moveInstr_later
    | split
    | dsimp only

theorem execMoveComplete_later {s0 s : State} {x : EngRef} (hs : Later s0 s) :
    ∃ t, execMoveComplete x s = .next t ∧ Later s0 t := by
  refine ⟨_, rfl, ?_⟩
  try dsimp only
  repeat' first
    | with_reducible assumption
    | with_reducible apply State.completeMove_later
    | with_reducible apply State.admitHeld_later
    | split
    | dsimp only

theorem execMmaDense_later {s0 s : State} {x : EngRef} {ops : MmaOps} (hs : Later s0 s) :
    ∃ t, execMmaDense x ops s = .next t ∧ Later s0 t := by
  refine ⟨_, rfl, ?_⟩
  try dsimp only
  repeat' first
    | with_reducible assumption
    | with_reducible refine State.issue_later ?_ fun _ _ _ => ?_
    | with_reducible apply State.arrayInstr_later
    | split
    | dsimp only

theorem execMmaSliding_later {s0 s : State} {x : EngRef} {ops : MmaOps} (hs : Later s0 s) :
    ∃ t, execMmaSliding x ops s = .next t ∧ Later s0 t := by
  refine ⟨_, rfl, ?_⟩
  try dsimp only
  repeat' first
    | with_reducible assumption
    | with_reducible refine State.issue_later ?_ fun _ _ _ => ?_
    | with_reducible apply State.arrayInstr_later
    | split
    | dsimp only

theorem execMmaTransposed_later {s0 s : State} {x : EngRef} {ops : MmaOps} (hs : Later s0 s) :
    ∃ t, execMmaTransposed x ops s = .next t ∧ Later s0 t := by
  refine ⟨_, rfl, ?_⟩
  try dsimp only
  repeat' first
    | with_reducible assumption
    | with_reducible refine State.issue_later ?_ fun _ _ _ => ?_
    | with_reducible apply State.arrayInstr_later
    | split
    | dsimp only

theorem execMmaPlane_later {s0 s : State} {x : EngRef} {ops : MmaOps} (hs : Later s0 s) :
    ∃ t, execMmaPlane x ops s = .next t ∧ Later s0 t := by
  refine ⟨_, rfl, ?_⟩
  try dsimp only
  repeat' first
    | with_reducible assumption
    | with_reducible refine State.issue_later ?_ fun _ _ _ => ?_
    | with_reducible apply State.arrayInstr_later
    | split
    | dsimp only

theorem execSpmm_later {s0 s : State} {x : EngRef} {ops : MmaOps} (hs : Later s0 s) :
    ∃ t, execSpmm x ops s = .next t ∧ Later s0 t := by
  refine ⟨_, rfl, ?_⟩
  try dsimp only
  repeat' first
    | with_reducible assumption
    | with_reducible refine State.issue_later ?_ fun _ _ _ => ?_
    | with_reducible apply State.arrayInstr_later
    | split
    | dsimp only

theorem execLookout_later {s0 s : State} {x : EngRef} {ops : LookoutOps} (hs : Later s0 s) :
    ∃ t, execLookout x ops s = .next t ∧ Later s0 t := by
  refine ⟨_, rfl, ?_⟩
  try dsimp only
  repeat' first
    | with_reducible assumption
    | with_reducible refine State.issue_later ?_ fun _ _ _ => ?_
    | with_reducible apply State.arrayInstr_later
    | split
    | dsimp only

theorem execEbbSetimm_later {s0 s : State} {x : EngRef} {chainSlot imm0 imm1 : Nat} (hs : Later s0 s) :
    ∃ t, execEbbSetimm x chainSlot imm0 imm1 s = .next t ∧ Later s0 t := by
  refine ⟨_, rfl, ?_⟩
  try dsimp only
  repeat' first
    | with_reducible assumption
    | with_reducible refine State.issue_later ?_ fun _ _ _ => ?_
    | with_reducible apply State.setReg_later
    | with_reducible apply State.retire_later
    | split
    | dsimp only

theorem execEbbSetvec_later {s0 s : State} {x : EngRef} {chainSlot handle : Nat} (hs : Later s0 s) :
    ∃ t, execEbbSetvec x chainSlot handle s = .next t ∧ Later s0 t := by
  refine ⟨_, rfl, ?_⟩
  try dsimp only
  repeat' first
    | with_reducible assumption
    | with_reducible refine State.issue_later ?_ fun _ _ _ => ?_
    | with_reducible apply State.setRf_later
    | with_reducible apply State.retire_later
    | split
    | dsimp only

theorem execIsect_later {s0 s : State} {x : EngRef} {ops : IsectOps} (hs : Later s0 s) :
    ∃ t, execIsect x ops s = .next t ∧ Later s0 t := by
  refine ⟨_, rfl, ?_⟩
  try dsimp only
  repeat' first
    | with_reducible assumption
    | with_reducible refine State.issue_later ?_ fun _ _ _ => ?_
    | with_reducible apply State.isectInstr_later
    | split
    | dsimp only

theorem execMerge_later {s0 s : State} {x : EngRef} {table : Nat} (hs : Later s0 s) :
    ∃ t, execMerge x table s = .next t ∧ Later s0 t := by
  refine ⟨_, rfl, ?_⟩
  try dsimp only
  repeat' first
    | with_reducible assumption
    | with_reducible refine State.issue_later ?_ fun _ _ _ => ?_
    | with_reducible apply State.mergeInstr_later
    | split
    | dsimp only

theorem execPack_later {s0 s : State} {x : EngRef} {ops : PackOps} (hs : Later s0 s) :
    ∃ t, execPack x ops s = .next t ∧ Later s0 t := by
  refine ⟨_, rfl, ?_⟩
  try dsimp only
  repeat' first
    | with_reducible assumption
    | with_reducible refine State.issue_later ?_ fun _ _ _ => ?_
    | with_reducible apply State.packInstr_later
    | split
    | dsimp only

theorem execSignalAdd_later {s0 s : State} {x : EngRef} {core number amount : Nat} (hs : Later s0 s) :
    ∃ t, execSignalAdd x core number amount s = .next t ∧ Later s0 t := by
  refine ⟨_, rfl, ?_⟩
  try dsimp only
  repeat' first
    | with_reducible assumption
    | with_reducible refine State.issue_later ?_ fun _ _ _ => ?_
    | with_reducible apply State.signalInstr_later
    | split
    | dsimp only

theorem execSignalPost_later {s0 s : State} {x : EngRef} {core number amount : Nat} (hs : Later s0 s) :
    ∃ t, execSignalPost x core number amount s = .next t ∧ Later s0 t := by
  refine ⟨_, rfl, ?_⟩
  try dsimp only
  repeat' first
    | with_reducible assumption
    | with_reducible refine State.issue_later ?_ fun _ _ _ => ?_
    | with_reducible apply State.signalInstr_later
    | split
    | dsimp only

theorem execWaitGe_later {s0 s : State} {x : EngRef} {number value : Nat} (hs : Later s0 s) :
    ∃ t, execWaitGe x number value s = .next t ∧ Later s0 t := by
  refine ⟨_, rfl, ?_⟩
  try dsimp only
  repeat' first
    | with_reducible assumption
    | with_reducible refine State.issue_later ?_ fun _ _ _ => ?_
    | with_reducible apply State.failTask_later
    | with_reducible apply State.stall_later
    | with_reducible apply State.serveGe_later
    | split
    | dsimp only

theorem execWaitTake_later {s0 s : State} {x : EngRef} {number value : Nat} (hs : Later s0 s) :
    ∃ t, execWaitTake x number value s = .next t ∧ Later s0 t := by
  refine ⟨_, rfl, ?_⟩
  try dsimp only
  repeat' first
    | with_reducible assumption
    | with_reducible refine State.issue_later ?_ fun _ _ _ => ?_
    | with_reducible apply State.failTask_later
    | with_reducible apply State.stall_later
    | with_reducible apply State.serveTake_later
    | split
    | dsimp only

theorem execWaitAcq_later {s0 s : State} {x : EngRef} {number value : Nat} (hs : Later s0 s) :
    ∃ t, execWaitAcq x number value s = .next t ∧ Later s0 t := by
  refine ⟨_, rfl, ?_⟩
  try dsimp only
  repeat' first
    | with_reducible assumption
    | with_reducible refine State.issue_later ?_ fun _ _ _ => ?_
    | with_reducible apply State.failTask_later
    | with_reducible apply State.stall_later
    | with_reducible apply State.serveTake_later
    | split
    | dsimp only

theorem execLoop_later {s0 s : State} {x : EngRef} {lc body : Nat} (hs : Later s0 s) :
    ∃ t, execLoop x lc body s = .next t ∧ Later s0 t := by
  refine ⟨_, rfl, ?_⟩
  try dsimp only
  repeat' first
    | with_reducible assumption
    | with_reducible refine State.issue_later ?_ fun _ _ _ => ?_
    | with_reducible apply State.failTask_later
    | with_reducible apply State.retire_later
    | with_reducible apply State.enterBody_later
    | split
    | dsimp only

theorem execNest_later {s0 s : State} {x : EngRef} {n body : Nat} (hs : Later s0 s) :
    ∃ t, execNest x n body s = .next t ∧ Later s0 t := by
  refine ⟨_, rfl, ?_⟩
  try dsimp only
  repeat' first
    | with_reducible assumption
    | with_reducible refine State.issue_later ?_ fun _ _ _ => ?_
    | with_reducible apply State.decodeFault_later
    | with_reducible apply State.failTask_later
    | with_reducible apply State.enterBody_later
    | split
    | dsimp only

theorem execTaskQueueDoorbell_later {s0 s : State} {port : Port} {q tail : Nat} (hs : Later s0 s) :
    ∃ t, execTaskQueueDoorbell port q tail s = .next t ∧ Later s0 t := by
  refine ⟨_, rfl, ?_⟩
  try dsimp only
  repeat' first
    | with_reducible assumption
    | with_reducible refine State.access_later ?_ fun _ _ => ?_
    | with_reducible apply State.doorbell_later
    | split
    | dsimp only

theorem execTaskQueueEntry_later {s0 s : State} {port : Port} {q : Nat} {fetch : Option QueueFetch} (hs : Later s0 s) :
    ∃ t, execTaskQueueEntry port q fetch s = .next t ∧ Later s0 t := by
  refine ⟨_, rfl, ?_⟩
  try dsimp only
  repeat' first
    | with_reducible assumption
    | with_reducible apply State.queueFetchFault_later
    | with_reducible apply State.takeEntry_later
    | split
    | dsimp only

theorem execStreamBlockFetch_later {s0 s : State} {core slot eng : Nat} {words : Option (List Nat)} (hs : Later s0 s) :
    ∃ t, execStreamBlockFetch core slot eng words s = .next t ∧ Later s0 t := by
  refine ⟨_, rfl, ?_⟩
  try dsimp only
  repeat' first
    | with_reducible assumption
    | with_reducible apply State.fetchBlock_later
    | split
    | dsimp only

theorem execExpressWrite_later {s0 s : State} {port : Port} {offset : Nat} {data : List Byte} (hs : Later s0 s) :
    ∃ t, execExpressWrite port offset data s = .next t ∧ Later s0 t := by
  refine ⟨_, rfl, ?_⟩
  try dsimp only
  repeat' first
    | with_reducible assumption
    | with_reducible apply State.expressWrite_later
    | split
    | dsimp only

theorem execTaskStart_later {s0 s : State} {core slot : Nat} (hs : Later s0 s) :
    ∃ t, execTaskStart core slot s = .next t ∧ Later s0 t := by
  refine ⟨_, rfl, ?_⟩
  try dsimp only
  repeat' first
    | with_reducible assumption
    | with_reducible apply State.startTask_later
    | with_reducible apply State.admitHeld_later
    | split
    | dsimp only

theorem execDrainEnd_later {s0 s : State} {core slot : Nat} (hs : Later s0 s) :
    ∃ t, execDrainEnd core slot s = .next t ∧ Later s0 t := by
  refine ⟨_, rfl, ?_⟩
  try dsimp only
  repeat' first
    | with_reducible assumption
    | with_reducible apply State.endDrain_later
    | with_reducible apply State.admitHeld_later
    | split
    | dsimp only

theorem execTruncationPoint_later {s0 s : State} {core slot : Nat} (hs : Later s0 s) :
    ∃ t, execTruncationPoint core slot s = .next t ∧ Later s0 t := by
  refine ⟨_, rfl, ?_⟩
  try dsimp only
  repeat' first
    | with_reducible assumption
    | with_reducible apply State.truncateTask_later
    | split
    | dsimp only

theorem execHeldCompletionWrite_later {s0 s : State} {port : Port} {q : Nat} (hs : Later s0 s) :
    ∃ t, execHeldCompletionWrite port q s = .next t ∧ Later s0 t := by
  refine ⟨_, rfl, ?_⟩
  try dsimp only
  repeat' first
    | with_reducible assumption
    | with_reducible apply State.setPort_later
    | with_reducible apply State.writeEntry_later
    | with_reducible apply State.fireCq_later
    | split
    | dsimp only

theorem execWorkItem_later {s0 s : State} {die : Nat} (hs : Later s0 s) :
    ∃ t, execWorkItem die s = .next t ∧ Later s0 t := by
  refine ⟨_, rfl, ?_⟩
  try dsimp only
  repeat' first
    | with_reducible assumption
    | with_reducible apply State.issueItem_later
    | split
    | dsimp only

theorem execDspListctlStart_later {s0 s : State} {by' : Agent} {die value : Nat} (hs : Later s0 s) :
    ∃ t, execDspListctlStart by' die value s = .next t ∧ Later s0 t := by
  refine ⟨_, rfl, ?_⟩
  try dsimp only
  repeat' first
    | with_reducible assumption
    | with_reducible refine State.access_later ?_ fun _ _ => ?_
    | with_reducible apply State.writeListctl_later
    | split
    | dsimp only

theorem execWrite_later {s0 s : State} {f : Frame} (hs : Later s0 s) :
    ∃ t, execWrite f s = .next t ∧ Later s0 t := by
  refine ⟨_, rfl, ?_⟩
  try dsimp only
  repeat' first
    | with_reducible assumption
    | with_reducible apply State.takeWrite_later
    | split
    | dsimp only

theorem execReadRequest_later {s0 s : State} {f : Frame} {media : Media} (hs : Later s0 s) :
    ∃ t, execReadRequest f media s = .next t ∧ Later s0 t := by
  refine ⟨_, rfl, ?_⟩
  try dsimp only
  repeat' first
    | with_reducible assumption
    | with_reducible apply State.takeRead_later
    | split
    | dsimp only

theorem execReadResponse_later {s0 s : State} {f : Frame} (hs : Later s0 s) :
    ∃ t, execReadResponse f s = .next t ∧ Later s0 t := by
  refine ⟨_, rfl, ?_⟩
  try dsimp only
  repeat' first
    | with_reducible assumption
    | with_reducible apply State.takeResponse_later
    | split
    | dsimp only

theorem execCreditRequest_later {s0 s : State} {f : Frame} (hs : Later s0 s) :
    ∃ t, execCreditRequest f s = .next t ∧ Later s0 t := by
  refine ⟨_, rfl, ?_⟩
  try dsimp only
  repeat' first
    | with_reducible assumption
    | with_reducible apply State.takeRequest_later
    | split
    | dsimp only

theorem execCreditGrant_later {s0 s : State} {f : Frame} (hs : Later s0 s) :
    ∃ t, execCreditGrant f s = .next t ∧ Later s0 t := by
  refine ⟨_, rfl, ?_⟩
  try dsimp only
  repeat' first
    | with_reducible assumption
    | with_reducible apply State.takeGrant_later
    | split
    | dsimp only

theorem execCreditReturn_later {s0 s : State} {f : Frame} (hs : Later s0 s) :
    ∃ t, execCreditReturn f s = .next t ∧ Later s0 t := by
  refine ⟨_, rfl, ?_⟩
  try dsimp only
  repeat' first
    | with_reducible assumption
    | with_reducible apply State.arrived_later
    | with_reducible apply State.returnCredits_later
    | split
    | dsimp only

theorem execSignal_later {s0 s : State} {f : Frame} (hs : Later s0 s) :
    ∃ t, execSignal f s = .next t ∧ Later s0 t := by
  refine ⟨_, rfl, ?_⟩
  try dsimp only
  repeat' first
    | with_reducible assumption
    | with_reducible apply State.takeSignal_later
    | split
    | dsimp only

theorem execChannelWrite_later {s0 s : State} {f : Frame} (hs : Later s0 s) :
    ∃ t, execChannelWrite f s = .next t ∧ Later s0 t := by
  refine ⟨_, rfl, ?_⟩
  try dsimp only
  repeat' first
    | with_reducible assumption
    | with_reducible apply State.takeWords_later
    | split
    | dsimp only

theorem execCommand_later {s0 s : State} {f : Frame} (hs : Later s0 s) :
    ∃ t, execCommand f s = .next t ∧ Later s0 t := by
  refine ⟨_, rfl, ?_⟩
  try dsimp only
  repeat' first
    | with_reducible assumption
    | with_reducible apply State.arrived_later
    | split
    | dsimp only

theorem execCompletion_later {s0 s : State} {f : Frame} (hs : Later s0 s) :
    ∃ t, execCompletion f s = .next t ∧ Later s0 t := by
  refine ⟨_, rfl, ?_⟩
  try dsimp only
  repeat' first
    | with_reducible assumption
    | with_reducible apply State.arrived_later
    | split
    | dsimp only

theorem execErrorResponse_later {s0 s : State} {f : Frame} (hs : Later s0 s) :
    ∃ t, execErrorResponse f s = .next t ∧ Later s0 t := by
  refine ⟨_, rfl, ?_⟩
  try dsimp only
  repeat' first
    | with_reducible assumption
    | with_reducible apply State.takeError_later
    | split
    | dsimp only

theorem execIdle_later {s0 s : State} {f : Frame} (hs : Later s0 s) :
    ∃ t, execIdle f s = .next t ∧ Later s0 t := by
  refine ⟨_, rfl, ?_⟩
  try dsimp only
  repeat' first
    | with_reducible assumption
    | with_reducible apply State.arrived_later
    | split
    | dsimp only

theorem execAcknowledgement_later {s0 s : State} {hop dir seq : Nat} (hs : Later s0 s) :
    ∃ t, execAcknowledgement hop dir seq s = .next t ∧ Later s0 t := by
  refine ⟨_, rfl, ?_⟩
  try dsimp only
  repeat' first
    | with_reducible assumption
    | with_reducible apply State.acknowledge_later
    | split
    | dsimp only

theorem execNegativeAcknowledgement_later {s0 s : State} {hop dir seq : Nat} (hs : Later s0 s) :
    ∃ t, execNegativeAcknowledgement hop dir seq s = .next t ∧ Later s0 t := by
  refine ⟨_, rfl, ?_⟩
  try dsimp only
  repeat' first
    | with_reducible assumption
    | with_reducible apply State.replay_later
    | split
    | dsimp only

theorem execLinkFrame_later {s0 s : State} {link : Nat} {f : LinkFrame} (hs : Later s0 s) :
    ∃ t, execLinkFrame link f s = .next t ∧ Later s0 t := by
  refine ⟨_, rfl, ?_⟩
  try dsimp only
  repeat' first
    | with_reducible assumption
    | with_reducible apply State.takeLinkFrame_later
    | split
    | dsimp only

theorem execOffer_later {s0 s : State} {link : Nat} {m : KeyMessage} (hs : Later s0 s) :
    ∃ t, execOffer link m s = .next t ∧ Later s0 t := by
  refine ⟨_, rfl, ?_⟩
  try dsimp only
  repeat' first
    | with_reducible assumption
    | with_reducible apply State.takeOffer_later
    | split
    | dsimp only

theorem execAccept_later {s0 s : State} {link : Nat} {m : KeyMessage} (hs : Later s0 s) :
    ∃ t, execAccept link m s = .next t ∧ Later s0 t := by
  refine ⟨_, rfl, ?_⟩
  try dsimp only
  repeat' first
    | with_reducible assumption
    | with_reducible apply State.takeAccept_later
    | split
    | dsimp only

theorem execConfirm_later {s0 s : State} {link : Nat} {m : KeyMessage} (hs : Later s0 s) :
    ∃ t, execConfirm link m s = .next t ∧ Later s0 t := by
  refine ⟨_, rfl, ?_⟩
  try dsimp only
  repeat' first
    | with_reducible assumption
    | with_reducible apply State.takeConfirm_later
    | split
    | dsimp only

theorem execRotateOffer_later {s0 s : State} {link : Nat} {m : KeyMessage} (hs : Later s0 s) :
    ∃ t, execRotateOffer link m s = .next t ∧ Later s0 t := by
  refine ⟨_, rfl, ?_⟩
  try dsimp only
  repeat' first
    | with_reducible assumption
    | with_reducible apply State.takeRotateOffer_later
    | split
    | dsimp only

theorem execRotateAccept_later {s0 s : State} {link : Nat} {m : KeyMessage} (hs : Later s0 s) :
    ∃ t, execRotateAccept link m s = .next t ∧ Later s0 t := by
  refine ⟨_, rfl, ?_⟩
  try dsimp only
  repeat' first
    | with_reducible assumption
    | with_reducible apply State.takeRotateAccept_later
    | split
    | dsimp only

theorem execReady_later {s0 s : State} {link epoch : Nat} (hs : Later s0 s) :
    ∃ t, execReady link epoch s = .next t ∧ Later s0 t := by
  refine ⟨_, rfl, ?_⟩
  try dsimp only
  repeat' first
    | with_reducible assumption
    | with_reducible apply State.takeReady_later
    | split
    | dsimp only

theorem execRequest_later {s0 s : State} {link what : Nat} (hs : Later s0 s) :
    ∃ t, execRequest link what s = .next t ∧ Later s0 t := by
  refine ⟨_, rfl, ?_⟩
  try dsimp only
  repeat' first
    | with_reducible assumption
    | with_reducible apply State.takeLinkRequest_later
    | split
    | dsimp only

theorem execAbort_later {s0 s : State} {link _code : Nat} (hs : Later s0 s) :
    ∃ t, execAbort link _code s = .next t ∧ Later s0 t := by
  refine ⟨_, rfl, ?_⟩
  try dsimp only
  repeat' first
    | with_reducible assumption
    | with_reducible apply State.takeAbort_later
    | split
    | dsimp only

theorem execBlLinkUp_later {s0 s : State} {link peerPackage peerLink : Nat} (hs : Later s0 s) :
    ∃ t, execBlLinkUp link peerPackage peerLink s = .next t ∧ Later s0 t := by
  refine ⟨_, rfl, ?_⟩
  try dsimp only
  repeat' first
    | with_reducible assumption
    | with_reducible apply State.logErr_later
    | with_reducible apply State.setReg_later
    | with_reducible apply State.setLink_later
    | with_reducible apply State.startAgree_later
    | split
    | dsimp only

theorem execBlDown_later {s0 s : State} {link : Nat} {cause : BlDownCause} (hs : Later s0 s) :
    ∃ t, execBlDown link cause s = .next t ∧ Later s0 t := by
  refine ⟨_, rfl, ?_⟩
  try dsimp only
  repeat' first
    | with_reducible assumption
    | with_reducible apply State.downLink_later
    | with_reducible apply State.keyFail_later
    | split
    | dsimp only

theorem execKeyRotationFrameLimit_later {s0 s : State} {link : Nat} (hs : Later s0 s) :
    ∃ t, execKeyRotationFrameLimit link s = .next t ∧ Later s0 t := by
  refine ⟨_, rfl, ?_⟩
  try dsimp only
  repeat' first
    | with_reducible assumption
    | with_reducible apply State.startRotation_later
    | split
    | dsimp only

theorem execDataFrameHold_later {s0 s : State} {link : Nat} (hs : Later s0 s) :
    ∃ t, execDataFrameHold link s = .next t ∧ Later s0 t := by
  refine ⟨_, rfl, ?_⟩
  try dsimp only
  repeat' first
    | with_reducible assumption
    | with_reducible apply State.setRf_later
    | split
    | dsimp only

theorem execKeyAgree_later {s0 s : State} {port : Port} {link : Nat} (hs : Later s0 s) :
    ∃ t, execKeyAgree port link s = .next t ∧ Later s0 t := by
  refine ⟨_, rfl, ?_⟩
  try dsimp only
  repeat' first
    | with_reducible assumption
    | with_reducible refine State.keyAction_later ?_ fun _ _ => ?_
    | with_reducible apply State.startAgree_later
    | split
    | dsimp only

theorem execKeyRotate_later {s0 s : State} {port : Port} {link : Nat} (hs : Later s0 s) :
    ∃ t, execKeyRotate port link s = .next t ∧ Later s0 t := by
  refine ⟨_, rfl, ?_⟩
  try dsimp only
  repeat' first
    | with_reducible assumption
    | with_reducible refine State.keyAction_later ?_ fun _ _ => ?_
    | with_reducible apply State.startRotation_later
    | split
    | dsimp only

theorem execKeyDrop_later {s0 s : State} {port : Port} {link : Nat} (hs : Later s0 s) :
    ∃ t, execKeyDrop port link s = .next t ∧ Later s0 t := by
  refine ⟨_, rfl, ?_⟩
  try dsimp only
  repeat' first
    | with_reducible assumption
    | with_reducible refine State.access_later ?_ fun _ _ => ?_
    | with_reducible apply State.downLink_later
    | split
    | dsimp only

theorem execLaneFailing_later {s0 s : State} {dir lane : Nat} (hs : Later s0 s) :
    ∃ t, execLaneFailing dir lane s = .next t ∧ Later s0 t := by
  refine ⟨_, rfl, ?_⟩
  try dsimp only
  repeat' first
    | with_reducible assumption
    | with_reducible apply State.laneFails_later
    | split
    | dsimp only

theorem execLaneSwapDone_later {s0 s : State} {dir : Nat} {trained : Bool} (hs : Later s0 s) :
    ∃ t, execLaneSwapDone dir trained s = .next t ∧ Later s0 t := by
  refine ⟨_, rfl, ?_⟩
  try dsimp only
  repeat' first
    | with_reducible assumption
    | with_reducible apply State.laneSwapped_later
    | split
    | dsimp only

theorem execCausewayFailed_later {s0 s : State}  (hs : Later s0 s) :
    ∃ t, execCausewayFailed  s = .next t ∧ Later s0 t := by
  refine ⟨_, rfl, ?_⟩
  try dsimp only
  repeat' first
    | with_reducible assumption
    | with_reducible apply State.failCauseway_later
    | split
    | dsimp only

theorem execHopReplayLimit_later {s0 s : State} {shore hop : Nat} {retrained : Bool} (hs : Later s0 s) :
    ∃ t, execHopReplayLimit shore hop retrained s = .next t ∧ Later s0 t := by
  refine ⟨_, rfl, ?_⟩
  try dsimp only
  repeat' first
    | with_reducible assumption
    | with_reducible refine State.forAll_later ?_ fun _ _ _ => ?_
    | with_reducible apply State.setHop_later
    | with_reducible apply State.sendWaiting_later
    | with_reducible apply State.setPkg_later
    | with_reducible apply State.manage_later
    | split
    | dsimp only

theorem execTowerRetryLimit_later {s0 s : State} {tower : Nat} {retrained : Bool} (hs : Later s0 s) :
    ∃ t, execTowerRetryLimit tower retrained s = .next t ∧ Later s0 t := by
  refine ⟨_, rfl, ?_⟩
  try dsimp only
  repeat' first
    | with_reducible assumption
    | with_reducible apply State.manage_later
    | split
    | dsimp only

theorem execSample_later {s0 s : State} {env : Sensors} (hs : Later s0 s) :
    ∃ t, execSample env s = .next t ∧ Later s0 t := by
  refine ⟨_, rfl, ?_⟩
  try dsimp only
  repeat' first
    | with_reducible assumption
    | with_reducible apply State.strike_later
    | with_reducible apply State.takeSample_later
    | split
    | dsimp only

theorem execEngineHung_later {s0 s : State} {core eng : Nat} (hs : Later s0 s) :
    ∃ t, execEngineHung core eng s = .next t ∧ Later s0 t := by
  refine ⟨_, rfl, ?_⟩
  try dsimp only
  repeat' first
    | with_reducible assumption
    | with_reducible apply State.declareHung_later
    | split
    | dsimp only

theorem execHeartbeatStale_later {s0 s : State}  (hs : Later s0 s) :
    ∃ t, execHeartbeatStale  s = .next t ∧ Later s0 t := by
  refine ⟨_, rfl, ?_⟩
  try dsimp only
  repeat' first
    | with_reducible assumption
    | with_reducible apply State.setStale_later
    | split
    | dsimp only

theorem execGatingSpan_later {s0 s : State} {die : Nat} (hs : Later s0 s) :
    ∃ t, execGatingSpan die s = .next t ∧ Later s0 t := by
  refine ⟨_, rfl, ?_⟩
  try dsimp only
  repeat' first
    | with_reducible assumption
    | with_reducible apply State.spanStep_later
    | split
    | dsimp only

theorem execRecoveryDone_later {s0 s : State} {record : Nat} (hs : Later s0 s) :
    ∃ t, execRecoveryDone record s = .next t ∧ Later s0 t := by
  refine ⟨_, rfl, ?_⟩
  try dsimp only
  repeat' first
    | with_reducible assumption
    | with_reducible apply State.endRecovery_later
    | split
    | dsimp only

theorem execScrubDone_later {s0 s : State} {p : Nat} {failed : List (Nat × Nat)} (hs : Later s0 s) :
    ∃ t, execScrubDone p failed s = .next t ∧ Later s0 t := by
  refine ⟨_, rfl, ?_⟩
  try dsimp only
  repeat' first
    | with_reducible assumption
    | with_reducible apply State.scrubDone_later
    | split
    | dsimp only

theorem execStrataLoad_later {s0 s : State} {port : Port} {p : Nat} (hs : Later s0 s) :
    ∃ t, execStrataLoad port p s = .next t ∧ Later s0 t := by
  refine ⟨_, rfl, ?_⟩
  try dsimp only
  repeat' first
    | with_reducible assumption
    | with_reducible refine State.access_later ?_ fun _ _ => ?_
    | with_reducible apply State.startLoad_later
    | split
    | dsimp only

theorem execStrataLoadDone_later {s0 s : State} {p : Nat} (hs : Later s0 s) :
    ∃ t, execStrataLoadDone p s = .next t ∧ Later s0 t := by
  refine ⟨_, rfl, ?_⟩
  try dsimp only
  repeat' first
    | with_reducible assumption
    | with_reducible apply State.finishLoad_later
    | split
    | dsimp only

theorem execStrataHold_later {s0 s : State} {port : Port} {p : Nat} {hold : Bool} (hs : Later s0 s) :
    ∃ t, execStrataHold port p hold s = .next t ∧ Later s0 t := by
  refine ⟨_, rfl, ?_⟩
  try dsimp only
  repeat' first
    | with_reducible assumption
    | with_reducible refine State.access_later ?_ fun _ _ => ?_
    | with_reducible apply State.writeHold_later
    | split
    | dsimp only

theorem execSound_later {s0 s : State} {port by' : Port} {vector : Nat} (hs : Later s0 s) :
    ∃ t, execSound port by' vector s = .next t ∧ Later s0 t := by
  refine ⟨_, rfl, ?_⟩
  try dsimp only
  repeat' first
    | with_reducible assumption
    | with_reducible refine State.access_later ?_ fun _ _ => ?_
    | with_reducible apply State.startSound_later
    | split
    | dsimp only

theorem execSummaryWritten_later {s0 s : State} {port : Port} {ok : Bool} (hs : Later s0 s) :
    ∃ t, execSummaryWritten port ok s = .next t ∧ Later s0 t := by
  refine ⟨_, rfl, ?_⟩
  try dsimp only
  repeat' first
    | with_reducible assumption
    | with_reducible apply State.endSound_later
    | split
    | dsimp only

theorem execClaim_later {s0 s : State} {port : Port} (hs : Later s0 s) :
    ∃ t, execClaim port s = .next t ∧ Later s0 t := by
  refine ⟨_, rfl, ?_⟩
  try dsimp only
  repeat' first
    | with_reducible assumption
    | with_reducible refine State.access_later ?_ fun _ _ => ?_
    | with_reducible apply State.addClaim_later
    | split
    | dsimp only

theorem execHeartbeat_later {s0 s : State} {port : Port} {value : Nat} (hs : Later s0 s) :
    ∃ t, execHeartbeat port value s = .next t ∧ Later s0 t := by
  refine ⟨_, rfl, ?_⟩
  try dsimp only
  repeat' first
    | with_reducible assumption
    | with_reducible refine State.access_later ?_ fun _ _ => ?_
    | with_reducible apply State.beat_later
    | split
    | dsimp only

theorem execModeRequest_later {s0 s : State} {port : Port} {split toE : Bool} (hs : Later s0 s) :
    ∃ t, execModeRequest port split toE s = .next t ∧ Later s0 t := by
  refine ⟨_, rfl, ?_⟩
  try dsimp only
  repeat' first
    | with_reducible assumption
    | with_reducible refine State.access_later ?_ fun _ _ => ?_
    | with_reducible apply State.writeHostctl_later
    | split
    | dsimp only

theorem execLayoutApply_later {s0 s : State} {port : Port} (hs : Later s0 s) :
    ∃ t, execLayoutApply port s = .next t ∧ Later s0 t := by
  refine ⟨_, rfl, ?_⟩
  try dsimp only
  repeat' first
    | with_reducible assumption
    | with_reducible refine State.access_later ?_ fun _ _ => ?_
    | with_reducible apply State.applyLayout_later
    | split
    | dsimp only

theorem execSealRotate_later {s0 s : State} {port : Port} {p : Nat} (hs : Later s0 s) :
    ∃ t, execSealRotate port p s = .next t ∧ Later s0 t := by
  refine ⟨_, rfl, ?_⟩
  try dsimp only
  repeat' first
    | with_reducible assumption
    | with_reducible refine State.access_later ?_ fun _ _ => ?_
    | with_reducible apply State.sealRotate_later
    | split
    | dsimp only

theorem execPageResealed_later {s0 s : State} {p page : Nat} (hs : Later s0 s) :
    ∃ t, execPageResealed p page s = .next t ∧ Later s0 t := by
  refine ⟨_, rfl, ?_⟩
  try dsimp only
  repeat' first
    | with_reducible assumption
    | with_reducible apply State.resealPage_later
    | split
    | dsimp only

theorem execCommitLh_later {s0 s : State} {port : Port} (hs : Later s0 s) :
    ∃ t, execCommitLh port s = .next t ∧ Later s0 t := by
  refine ⟨_, rfl, ?_⟩
  try dsimp only
  repeat' first
    | with_reducible assumption
    | with_reducible refine State.access_later ?_ fun _ _ => ?_
    | with_reducible apply State.commit_later
    | split
    | dsimp only

theorem execCommitHb_later {s0 s : State} {port : Port} (hs : Later s0 s) :
    ∃ t, execCommitHb port s = .next t ∧ Later s0 t := by
  refine ⟨_, rfl, ?_⟩
  try dsimp only
  repeat' first
    | with_reducible assumption
    | with_reducible refine State.access_later ?_ fun _ _ => ?_
    | with_reducible apply State.commit_later
    | split
    | dsimp only

theorem execCommitPil_later {s0 s : State} {port : Port} (hs : Later s0 s) :
    ∃ t, execCommitPil port s = .next t ∧ Later s0 t := by
  refine ⟨_, rfl, ?_⟩
  try dsimp only
  repeat' first
    | with_reducible assumption
    | with_reducible refine State.access_later ?_ fun _ _ => ?_
    | with_reducible apply State.commit_later
    | split
    | dsimp only

theorem execLockfuse_later {s0 s : State} {port : Port} (hs : Later s0 s) :
    ∃ t, execLockfuse port s = .next t ∧ Later s0 t := by
  refine ⟨_, rfl, ?_⟩
  try dsimp only
  repeat' first
    | with_reducible assumption
    | with_reducible refine State.access_later ?_ fun _ _ => ?_
    | with_reducible apply State.blowLock_later
    | split
    | dsimp only

theorem execFullres_later {s0 s : State} {by' : Agent} {on : Bool} (hs : Later s0 s) :
    ∃ t, execFullres by' on s = .next t ∧ Later s0 t := by
  refine ⟨_, rfl, ?_⟩
  try dsimp only
  repeat' first
    | with_reducible assumption
    | with_reducible refine State.access_later ?_ fun _ _ => ?_
    | with_reducible apply State.writeFullres_later
    | split
    | dsimp only

theorem execPilotFwLoad_later {s0 s : State} {port : Port} {p base : Nat} (hs : Later s0 s) :
    ∃ t, execPilotFwLoad port p base s = .next t ∧ Later s0 t := by
  refine ⟨_, rfl, ?_⟩
  try dsimp only
  repeat' first
    | with_reducible assumption
    | with_reducible refine State.access_later ?_ fun _ _ => ?_
    | with_reducible apply State.pilotLoad_later
    | split
    | dsimp only

theorem execPackageReset_later {s0 s : State} {port : Port} {key : Nat} {env : BootEnv} (hs : Later s0 s) :
    ∃ t, execPackageReset port key env s = .next t ∧ Later s0 t := by
  refine ⟨_, rfl, ?_⟩
  try dsimp only
  repeat' first
    | with_reducible assumption
    | with_reducible refine State.access_later ?_ fun _ _ => ?_
    | with_reducible apply State.writeResetctl_later
    | split
    | dsimp only

theorem execCxlEnable_later {s0 s : State} {port : Port} {p : Nat} (hs : Later s0 s) :
    ∃ t, execCxlEnable port p s = .next t ∧ Later s0 t := by
  refine ⟨_, rfl, ?_⟩
  try dsimp only
  repeat' first
    | with_reducible assumption
    | with_reducible refine State.access_later ?_ fun _ _ => ?_
    | with_reducible apply State.writeCxcfg_later
    | split
    | dsimp only

theorem execCxlDisable_later {s0 s : State} {port : Port} {p : Nat} (hs : Later s0 s) :
    ∃ t, execCxlDisable port p s = .next t ∧ Later s0 t := by
  refine ⟨_, rfl, ?_⟩
  try dsimp only
  repeat' first
    | with_reducible assumption
    | with_reducible refine State.access_later ?_ fun _ _ => ?_
    | with_reducible apply State.writeCxcfg_later
    | split
    | dsimp only

theorem execCxlPortUp_later {s0 s : State} {p : Nat} {dev : CxlDevice} (hs : Later s0 s) :
    ∃ t, execCxlPortUp p dev s = .next t ∧ Later s0 t := by
  refine ⟨_, rfl, ?_⟩
  try dsimp only
  repeat' first
    | with_reducible assumption
    | with_reducible apply State.cxlPortUp_later
    | split
    | dsimp only

theorem execCxlDown_later {s0 s : State} {p : Nat} {cause : CxlDownCause} (hs : Later s0 s) :
    ∃ t, execCxlDown p cause s = .next t ∧ Later s0 t := by
  refine ⟨_, rfl, ?_⟩
  try dsimp only
  repeat' first
    | with_reducible assumption
    | with_reducible apply State.manage_later
    | with_reducible apply State.cxlGoesDown_later
    | with_reducible apply State.cxlDown_later
    | split
    | dsimp only

theorem execRingEnable_later {s0 s : State} {by' : Agent} {core n value : Nat} (hs : Later s0 s) :
    ∃ t, execRingEnable by' core n value s = .next t ∧ Later s0 t := by
  refine ⟨_, rfl, ?_⟩
  try dsimp only
  repeat' first
    | with_reducible assumption
    | with_reducible refine State.access_later ?_ fun _ _ => ?_
    | with_reducible apply State.writeRing_later
    | split
    | dsimp only

theorem execWindowValid_later {s0 s : State} {by' : Agent} {core n value : Nat} (hs : Later s0 s) :
    ∃ t, execWindowValid by' core n value s = .next t ∧ Later s0 t := by
  refine ⟨_, rfl, ?_⟩
  try dsimp only
  repeat' first
    | with_reducible assumption
    | with_reducible refine State.access_later ?_ fun _ _ => ?_
    | with_reducible apply State.writeWindow_later
    | split
    | dsimp only

theorem execChannelFlush_later {s0 s : State} {by' : Agent} {core n : Nat} (hs : Later s0 s) :
    ∃ t, execChannelFlush by' core n s = .next t ∧ Later s0 t := by
  refine ⟨_, rfl, ?_⟩
  try dsimp only
  repeat' first
    | with_reducible assumption
    | with_reducible refine State.access_later ?_ fun _ _ => ?_
    | with_reducible apply State.writeChan_later
    | split
    | dsimp only

theorem execChannelModeChange_later {s0 s : State} {by' : Agent} {core n : Nat} {tagged : Bool} (hs : Later s0 s) :
    ∃ t, execChannelModeChange by' core n tagged s = .next t ∧ Later s0 t := by
  refine ⟨_, rfl, ?_⟩
  try dsimp only
  repeat' first
    | with_reducible assumption
    | with_reducible refine State.access_later ?_ fun _ _ => ?_
    | with_reducible apply State.writeChan_later
    | split
    | dsimp only

theorem execHostChannelRead_later {s0 s : State} {port : Port} {core : Nat} {n : RegPart} (hs : Later s0 s) :
    ∃ t, execHostChannelRead port core n s = .next t ∧ Later s0 t := by
  refine ⟨_, rfl, ?_⟩
  try dsimp only
  repeat' first
    | with_reducible assumption
    | with_reducible apply State.emit_later
    | with_reducible apply State.popWord_later
    | with_reducible apply State.setChan_later
    | with_reducible apply State.pump_later
    | with_reducible refine Later.of_snd (by assumption) ?_
    | with_reducible refine Later.of_fst (by assumption) ?_
    | split
    | dsimp only

theorem execHostChannelPush_later {s0 s : State} {port : Port} {core n data : Nat} (hs : Later s0 s) :
    ∃ t, execHostChannelPush port core n data s = .next t ∧ Later s0 t := by
  refine ⟨_, rfl, ?_⟩
  try dsimp only
  repeat' first
    | with_reducible assumption
    | with_reducible refine State.access_later ?_ fun _ _ => ?_
    | with_reducible apply State.pushWords_later
    | split
    | dsimp only

theorem execHostChannelPushEnd_later {s0 s : State} {port : Port} {core n data : Nat} (hs : Later s0 s) :
    ∃ t, execHostChannelPushEnd port core n data s = .next t ∧ Later s0 t := by
  refine ⟨_, rfl, ?_⟩
  try dsimp only
  repeat' first
    | with_reducible assumption
    | with_reducible refine State.access_later ?_ fun _ _ => ?_
    | with_reducible apply State.pushWords_later
    | split
    | dsimp only

theorem execAccDataRead_later {s0 s : State} {port : Port} {core : Nat} {a : RegPart} (hs : Later s0 s) :
    ∃ t, execAccDataRead port core a s = .next t ∧ Later s0 t := by
  refine ⟨_, rfl, ?_⟩
  try dsimp only
  repeat' first
    | with_reducible assumption
    | with_reducible apply State.emit_later
    | with_reducible apply State.setRf_later
    | with_reducible apply State.imageBytes_later
    | with_reducible refine Later.of_snd (by assumption) ?_
    | with_reducible refine Later.of_fst (by assumption) ?_
    | split
    | dsimp only

theorem execErrlogHeadWrite_later {s0 s : State} {port : Port} {shore head : Nat} (hs : Later s0 s) :
    ∃ t, execErrlogHeadWrite port shore head s = .next t ∧ Later s0 t := by
  refine ⟨_, rfl, ?_⟩
  try dsimp only
  repeat' first
    | with_reducible assumption
    | with_reducible refine State.access_later ?_ fun _ _ => ?_
    | with_reducible apply State.writeErrhead_later
    | split
    | dsimp only

theorem execCqEnable_later {s0 s : State} {port : Port} {q value : Nat} (hs : Later s0 s) :
    ∃ t, execCqEnable port q value s = .next t ∧ Later s0 t := by
  refine ⟨_, rfl, ?_⟩
  try dsimp only
  repeat' first
    | with_reducible assumption
    | with_reducible refine State.access_later ?_ fun _ _ => ?_
    | with_reducible apply State.writeCqcfg_later
    | split
    | dsimp only

theorem execRegisterWrite_later {s0 s : State} {by' : Agent} {tbit : Bool} {offset width value : Nat} (hs : Later s0 s) :
    ∃ t, execRegisterWrite by' tbit offset width value s = .next t ∧ Later s0 t := by
  refine ⟨_, rfl, ?_⟩
  try dsimp only
  repeat' first
    | with_reducible assumption
    | with_reducible apply State.registerWrite_later
    | split
    | dsimp only

theorem execBar4Read_later {s0 s : State} {port : Port} {tbit : Bool} {offset len : Nat} (hs : Later s0 s) :
    ∃ t, execBar4Read port tbit offset len s = .next t ∧ Later s0 t := by
  refine ⟨_, rfl, ?_⟩
  try dsimp only
  repeat' first
    | with_reducible assumption
    | with_reducible apply State.bar4Read_later
    | split
    | dsimp only

theorem execBar4Write_later {s0 s : State} {port : Port} {tbit : Bool} {offset : Nat} {data : List Byte} (hs : Later s0 s) :
    ∃ t, execBar4Write port tbit offset data s = .next t ∧ Later s0 t := by
  refine ⟨_, rfl, ?_⟩
  try dsimp only
  repeat' first
    | with_reducible assumption
    | with_reducible apply State.bar4Write_later
    | split
    | dsimp only

theorem execConfigRequest_later {s0 s : State} {port : Port} {resize : Option Nat} (hs : Later s0 s) :
    ∃ t, execConfigRequest port resize s = .next t ∧ Later s0 t := by
  refine ⟨_, rfl, ?_⟩
  try dsimp only
  repeat' first
    | with_reducible assumption
    | with_reducible apply State.emit_later
    | with_reducible apply State.setPort_later
    | split
    | dsimp only

theorem execLockInterface_later {s0 s : State} {port : Port} {p : Nat} (hs : Later s0 s) :
    ∃ t, execLockInterface port p s = .next t ∧ Later s0 t := by
  refine ⟨_, rfl, ?_⟩
  try dsimp only
  repeat' first
    | with_reducible assumption
    | with_reducible apply State.lockInterface_later
    | with_reducible apply State.refuseTdisp_later
    | split
    | dsimp only

theorem execStartInterface_later {s0 s : State} {port : Port} {p : Nat} (hs : Later s0 s) :
    ∃ t, execStartInterface port p s = .next t ∧ Later s0 t := by
  refine ⟨_, rfl, ?_⟩
  try dsimp only
  repeat' first
    | with_reducible assumption
    | with_reducible apply State.setSession_later
    | with_reducible apply State.emit_later
    | with_reducible apply State.refuseTdisp_later
    | split
    | dsimp only

theorem execStopInterface_later {s0 s : State} {port : Port} {p : Nat} (hs : Later s0 s) :
    ∃ t, execStopInterface port p s = .next t ∧ Later s0 t := by
  refine ⟨_, rfl, ?_⟩
  try dsimp only
  repeat' first
    | with_reducible assumption
    | with_reducible apply State.stopInterface_later
    | split
    | dsimp only

theorem execGetDeviceInterfaceReport_later {s0 s : State} {port : Port} {p : Nat} (hs : Later s0 s) :
    ∃ t, execGetDeviceInterfaceReport port p s = .next t ∧ Later s0 t := by
  refine ⟨_, rfl, ?_⟩
  try dsimp only
  repeat' first
    | with_reducible assumption
    | with_reducible apply State.emit_later
    | with_reducible apply State.refuseTdisp_later
    | split
    | dsimp only

theorem execCertificate_later {s0 s : State} {m : Medium} (hs : Later s0 s) :
    ∃ t, execCertificate m s = .next t ∧ Later s0 t := by
  refine ⟨_, rfl, ?_⟩
  try dsimp only
  repeat' first
    | with_reducible assumption
    | with_reducible apply State.emit_later
    | split
    | dsimp only

theorem execChallenge_later {s0 s : State} {m : Medium} {nonce : List Byte} (hs : Later s0 s) :
    ∃ t, execChallenge m nonce s = .next t ∧ Later s0 t := by
  refine ⟨_, rfl, ?_⟩
  try dsimp only
  repeat' first
    | with_reducible assumption
    | with_reducible apply State.askSigned_later
    | split
    | dsimp only

theorem execMeasurements_later {s0 s : State} {m : Medium} {indices : List Nat} (hs : Later s0 s) :
    ∃ t, execMeasurements m indices s = .next t ∧ Later s0 t := by
  refine ⟨_, rfl, ?_⟩
  try dsimp only
  repeat' first
    | with_reducible assumption
    | with_reducible apply State.askSigned_later
    | split
    | dsimp only

theorem execKeyExchange_later {s0 s : State} {m : Medium} {key : List Byte} (hs : Later s0 s) :
    ∃ t, execKeyExchange m key s = .next t ∧ Later s0 t := by
  refine ⟨_, rfl, ?_⟩
  try dsimp only
  repeat' first
    | with_reducible assumption
    | with_reducible apply State.drawKey_later
    | with_reducible apply State.askSigned_later
    | with_reducible apply State.emit_later
    | with_reducible refine Later.of_snd (by assumption) ?_
    | with_reducible refine Later.of_fst (by assumption) ?_
    | split
    | dsimp only

theorem execSignatureReady_later {s0 s : State}  (hs : Later s0 s) :
    ∃ t, execSignatureReady  s = .next t ∧ Later s0 t := by
  refine ⟨_, rfl, ?_⟩
  try dsimp only
  repeat' first
    | with_reducible assumption
    | with_reducible apply State.signed_later
    | split
    | dsimp only

theorem execPldmFirmwareUpdate_later {s0 s : State} {img : FwImage} (hs : Later s0 s) :
    ∃ t, execPldmFirmwareUpdate img s = .next t ∧ Later s0 t := by
  refine ⟨_, rfl, ?_⟩
  try dsimp only
  repeat' first
    | with_reducible assumption
    | with_reducible apply State.lhManage_later
    | with_reducible apply State.emit_later
    | with_reducible refine State.setTrust_later ?_ ⟨Nat.min_le_right _ _, Nat.min_le_right _ _, Nat.min_le_right _ _, rfl, id, TrustLater.boot _, Nat.le_refl _⟩
    | with_reducible refine State.setTrust_later ?_ ⟨TrustLater.fuses _ _, Nat.min_le_right _ _, Nat.min_le_right _ _, rfl, id, Nat.min_le_right _ _, Nat.le_refl _⟩
    | with_reducible refine State.setTrust_later ?_ ⟨Nat.min_le_right _ _, TrustLater.fuses _ _, Nat.min_le_right _ _, rfl, id, Nat.min_le_right _ _, Nat.le_refl _⟩
    | with_reducible refine State.setTrust_later ?_ ⟨Nat.min_le_right _ _, Nat.min_le_right _ _, TrustLater.fuses _ _, rfl, id, Nat.min_le_right _ _, Nat.le_refl _⟩
    | with_reducible refine State.setTrust_later ?_ ⟨Nat.min_le_right _ _, Nat.min_le_right _ _, Nat.min_le_right _ _, rfl, fun _ => rfl, Nat.min_le_right _ _, Nat.le_refl _⟩
    | with_reducible refine State.setTrust_later ?_ ⟨Nat.min_le_right _ _, Nat.min_le_right _ _, Nat.min_le_right _ _, rfl, id, Nat.min_le_right _ _, Nat.le_refl _⟩
    | with_reducible refine State.setTrust_later ?_ ⟨Nat.min_le_right _ _, Nat.min_le_right _ _, Nat.min_le_right _ _, rfl, id, Nat.min_le_right _ _, Nat.le_succ _⟩
    | split
    | dsimp only

theorem execPldmPowerCap_later {s0 s : State} {watts : Nat} (hs : Later s0 s) :
    ∃ t, execPldmPowerCap watts s = .next t ∧ Later s0 t := by
  refine ⟨_, rfl, ?_⟩
  try dsimp only
  repeat' first
    | with_reducible assumption
    | with_reducible apply State.writeCap_later
    | split
    | dsimp only

theorem execPldmSensorRead_later {s0 s : State} {domain : Nat} (hs : Later s0 s) :
    ∃ t, execPldmSensorRead domain s = .next t ∧ Later s0 t := by
  refine ⟨_, rfl, ?_⟩
  try dsimp only
  repeat' first
    | with_reducible assumption
    | with_reducible apply State.emit_later
    | split
    | dsimp only

theorem execPldmQuotaWrite_later {s0 s : State} {p k limit : Nat} (hs : Later s0 s) :
    ∃ t, execPldmQuotaWrite p k limit s = .next t ∧ Later s0 t := by
  refine ⟨_, rfl, ?_⟩
  try dsimp only
  repeat' first
    | with_reducible assumption
    | with_reducible apply State.setRf_later
    | split
    | dsimp only

theorem execPldmReset_later {s0 s : State} {env : BootEnv} (hs : Later s0 s) :
    ∃ t, execPldmReset env s = .next t ∧ Later s0 t := by
  refine ⟨_, rfl, ?_⟩
  try dsimp only
  repeat' first
    | with_reducible assumption
    | with_reducible apply State.packageReset_later
    | split
    | dsimp only

theorem execPldmCommit_later {s0 s : State} {kind : Nat} (hs : Later s0 s) :
    ∃ t, execPldmCommit kind s = .next t ∧ Later s0 t := by
  refine ⟨_, rfl, ?_⟩
  try dsimp only
  repeat' first
    | with_reducible assumption
    | with_reducible apply State.commit_later
    | split
    | dsimp only

theorem execTestPortInstruction_later {s0 s : State} {code : Nat} (hs : Later s0 s) :
    ∃ t, execTestPortInstruction code s = .next t ∧ Later s0 t := by
  refine ⟨_, rfl, ?_⟩
  try dsimp only
  repeat' first
    | with_reducible assumption
    | with_reducible apply State.setPkg_later
    | with_reducible apply State.emit_later
    | split
    | dsimp only

theorem execPowerOn_later {s0 s : State} {env : BootEnv} (hs : Later s0 s) :
    ∃ t, execPowerOn env s = .next t ∧ Later s0 t := by
  refine ⟨_, rfl, ?_⟩
  try dsimp only
  repeat' first
    | with_reducible assumption
    | with_reducible apply State.powerDown_later
    | with_reducible apply State.setPkg_later
    | with_reducible apply State.setPort_later
    | with_reducible apply State.startUp_later
    | with_reducible refine Later.foldl ?_ fun _ _ _ => ?_
    | split
    | dsimp only

theorem execUndervoltageShutdown_later {s0 s : State}  (hs : Later s0 s) :
    ∃ t, execUndervoltageShutdown  s = .next t ∧ Later s0 t := by
  refine ⟨_, rfl, ?_⟩
  try dsimp only
  repeat' first
    | with_reducible assumption
    | with_reducible apply State.powerDown_later
    | with_reducible apply State.setPkg_later
    | split
    | dsimp only

theorem execOvervoltageShutdown_later {s0 s : State}  (hs : Later s0 s) :
    ∃ t, execOvervoltageShutdown  s = .next t ∧ Later s0 t := by
  refine ⟨_, rfl, ?_⟩
  try dsimp only
  repeat' first
    | with_reducible assumption
    | with_reducible apply State.powerDown_later
    | split
    | dsimp only

theorem execThermalShutdown_later {s0 s : State}  (hs : Later s0 s) :
    ∃ t, execThermalShutdown  s = .next t ∧ Later s0 t := by
  refine ⟨_, rfl, ?_⟩
  try dsimp only
  repeat' first
    | with_reducible assumption
    | exact hs.trans ⟨rfl, State.wf_filter _, List.prefix_refl _, Nat.le_refl _, Nat.le_refl _,
        ⟨Nat.min_le_right _ _, Nat.min_le_right _ _, Nat.min_le_right _ _, rfl, id, Nat.min_le_right _ _, Nat.le_refl _⟩,
        ⟨List.prefix_refl _, List.prefix_refl _⟩⟩
    | split

theorem execResetN_later {s0 s : State} {us : Nat} (hs : Later s0 s) :
    ∃ t, execResetN us s = .next t ∧ Later s0 t := by
  refine ⟨_, rfl, ?_⟩
  try dsimp only
  repeat' first
    | with_reducible assumption
    | with_reducible apply State.wipe_later
    | with_reducible apply State.setPkg_later
    | split
    | dsimp only

theorem execPerstDeassert_later {s0 s : State} {port : Port} {rate width : Nat} {flit : Bool} (hs : Later s0 s) :
    ∃ t, execPerstDeassert port rate width flit s = .next t ∧ Later s0 t := by
  refine ⟨_, rfl, ?_⟩
  try dsimp only
  repeat' first
    | with_reducible assumption
    | with_reducible apply State.setPort_later
    | with_reducible apply State.portUp_later
    | split
    | dsimp only

theorem execHostPortReset_later {s0 s : State} {port : Port} {kind : PortResetKind} (hs : Later s0 s) :
    ∃ t, execHostPortReset port kind s = .next t ∧ Later s0 t := by
  refine ⟨_, rfl, ?_⟩
  try dsimp only
  repeat' first
    | with_reducible assumption
    | with_reducible apply State.portReset_later
    | split
    | dsimp only

theorem execHostLinkDown_later {s0 s : State} {port : Port} (hs : Later s0 s) :
    ∃ t, execHostLinkDown port s = .next t ∧ Later s0 t := by
  refine ⟨_, rfl, ?_⟩
  try dsimp only
  repeat' first
    | with_reducible assumption
    | with_reducible apply State.portDown_later
    | split
    | dsimp only

theorem execHostIdeFail_later {s0 s : State} {port : Port} {p : Nat} (hs : Later s0 s) :
    ∃ t, execHostIdeFail port p s = .next t ∧ Later s0 t := by
  refine ⟨_, rfl, ?_⟩
  try dsimp only
  repeat' first
    | with_reducible assumption
    | with_reducible apply State.setPort_later
    | with_reducible apply State.sessionError_later
    | split
    | dsimp only

theorem execEntropyHealthFail_later {s0 s : State}  (hs : Later s0 s) :
    ∃ t, execEntropyHealthFail  s = .next t ∧ Later s0 t := by
  refine ⟨_, rfl, ?_⟩
  try dsimp only
  repeat' first
    | with_reducible assumption
    | with_reducible refine State.setTrust_later ?_ ⟨Nat.min_le_right _ _, Nat.min_le_right _ _, Nat.min_le_right _ _, rfl, id, TrustLater.boot _, Nat.le_refl _⟩
    | with_reducible refine State.setTrust_later ?_ ⟨TrustLater.fuses _ _, Nat.min_le_right _ _, Nat.min_le_right _ _, rfl, id, Nat.min_le_right _ _, Nat.le_refl _⟩
    | with_reducible refine State.setTrust_later ?_ ⟨Nat.min_le_right _ _, TrustLater.fuses _ _, Nat.min_le_right _ _, rfl, id, Nat.min_le_right _ _, Nat.le_refl _⟩
    | with_reducible refine State.setTrust_later ?_ ⟨Nat.min_le_right _ _, Nat.min_le_right _ _, TrustLater.fuses _ _, rfl, id, Nat.min_le_right _ _, Nat.le_refl _⟩
    | with_reducible refine State.setTrust_later ?_ ⟨Nat.min_le_right _ _, Nat.min_le_right _ _, Nat.min_le_right _ _, rfl, fun _ => rfl, Nat.min_le_right _ _, Nat.le_refl _⟩
    | with_reducible refine State.setTrust_later ?_ ⟨Nat.min_le_right _ _, Nat.min_le_right _ _, Nat.min_le_right _ _, rfl, id, Nat.min_le_right _ _, Nat.le_refl _⟩
    | with_reducible refine State.setTrust_later ?_ ⟨Nat.min_le_right _ _, Nat.min_le_right _ _, Nat.min_le_right _ _, rfl, id, Nat.min_le_right _ _, Nat.le_succ _⟩
    | with_reducible apply State.lhManage_later
    | split
    | dsimp only

theorem execResetNRelease_later {s0 s : State} {env : BootEnv} (hs : Later s0 s) :
    ∃ t, execResetNRelease env s = .next t ∧ Later s0 t := by
  refine ⟨_, rfl, ?_⟩
  try dsimp only
  repeat' first
    | with_reducible assumption
    | with_reducible apply State.setPkg_later
    | with_reducible apply State.startUp_later
    | split
    | dsimp only

theorem execHostLinkUp_later {s0 s : State} {port : Port} {rate width : Nat} {flit : Bool} (hs : Later s0 s) :
    ∃ t, execHostLinkUp port rate width flit s = .next t ∧ Later s0 t := by
  refine ⟨_, rfl, ?_⟩
  try dsimp only
  repeat' first
    | with_reducible assumption
    | with_reducible apply State.portUp_later
    | split
    | dsimp only

theorem execModeChangeApplied_later {s0 s : State}  (hs : Later s0 s) :
    ∃ t, execModeChangeApplied  s = .next t ∧ Later s0 t := by
  refine ⟨_, rfl, ?_⟩
  try dsimp only
  repeat' first
    | with_reducible assumption
    | with_reducible apply State.applyMode_later
    | split
    | dsimp only

theorem execIdeKm_later {s0 s : State} {port : Port} {p : Nat} (hs : Later s0 s) :
    ∃ t, execIdeKm port p s = .next t ∧ Later s0 t := by
  refine ⟨_, rfl, ?_⟩
  try dsimp only
  repeat' first
    | with_reducible assumption
    | with_reducible apply State.setPort_later
    | split
    | dsimp only

theorem execManagementProcessorFault_later {s0 s : State}  (hs : Later s0 s) :
    ∃ t, execManagementProcessorFault  s = .next t ∧ Later s0 t := by
  refine ⟨_, rfl, ?_⟩
  try dsimp only
  repeat' first
    | with_reducible assumption
    | with_reducible apply State.escalate_later
    | split
    | dsimp only

theorem execPldmEventRetrieval_later {s0 s : State}  (hs : Later s0 s) :
    ∃ t, execPldmEventRetrieval  s = .next t ∧ Later s0 t := by
  refine ⟨_, rfl, ?_⟩
  try dsimp only
  repeat' first
    | with_reducible assumption
    | with_reducible apply State.setPkg_later
    | with_reducible apply State.emit_later
    | split
    | dsimp only

theorem execEndpointIdAssignment_later {s0 s : State} {m : Medium} {eid : Nat} (hs : Later s0 s) :
    ∃ t, execEndpointIdAssignment m eid s = .next t ∧ Later s0 t := by
  refine ⟨_, rfl, ?_⟩
  try dsimp only
  repeat' first
    | with_reducible assumption
    | with_reducible refine State.setTrust_later ?_ ⟨Nat.min_le_right _ _, Nat.min_le_right _ _, Nat.min_le_right _ _, rfl, id, TrustLater.boot _, Nat.le_refl _⟩
    | with_reducible refine State.setTrust_later ?_ ⟨TrustLater.fuses _ _, Nat.min_le_right _ _, Nat.min_le_right _ _, rfl, id, Nat.min_le_right _ _, Nat.le_refl _⟩
    | with_reducible refine State.setTrust_later ?_ ⟨Nat.min_le_right _ _, TrustLater.fuses _ _, Nat.min_le_right _ _, rfl, id, Nat.min_le_right _ _, Nat.le_refl _⟩
    | with_reducible refine State.setTrust_later ?_ ⟨Nat.min_le_right _ _, Nat.min_le_right _ _, TrustLater.fuses _ _, rfl, id, Nat.min_le_right _ _, Nat.le_refl _⟩
    | with_reducible refine State.setTrust_later ?_ ⟨Nat.min_le_right _ _, Nat.min_le_right _ _, Nat.min_le_right _ _, rfl, fun _ => rfl, Nat.min_le_right _ _, Nat.le_refl _⟩
    | with_reducible refine State.setTrust_later ?_ ⟨Nat.min_le_right _ _, Nat.min_le_right _ _, Nat.min_le_right _ _, rfl, id, Nat.min_le_right _ _, Nat.le_refl _⟩
    | with_reducible refine State.setTrust_later ?_ ⟨Nat.min_le_right _ _, Nat.min_le_right _ _, Nat.min_le_right _ _, rfl, id, Nat.min_le_right _ _, Nat.le_succ _⟩
    | with_reducible apply State.put_later
    | split
    | dsimp only

end Sys2Proof.Machine
end

