-- ==== Sys2Proof/Laws/Issue.lean ====
section
/-! SUPPORT. What the operations around an instruction do: issue, the first instruction's clearing of loop registers, and retirement. -/

namespace Sys2Proof.Machine

set_option Elab.async false
set_option linter.unusedTactic false
set_option linter.unreachableTactic false

/-- An instruction that can issue takes its effect on the task of the slot. -/
theorem State.issue_of_runs {s : State} {l : List Nat} {x : EngRef} {i : Instr} {t : Task} (f : State → Task → State) (h : Runs s l x i t) :
    s.issue l x i f = f (s.begin' x) t := by
  obtain ⟨h1, h2, h3⟩ := h
  unfold State.issue
  simp only [h1, h2, h3, Bool.and_self, if_true]

/-- What the beginning of an instruction leaves: it clears loop registers and passes the turn on. -/
structure SameButRegs (s t : State) : Prop where
  engs : t.engs = s.engs
  tasks : t.tasks = s.tasks
  mem : t.mem = s.mem
  chans : t.chans = s.chans
  disps : t.disps = s.disps
  ports : t.ports = s.ports
  lh : t.lh = s.lh
  pkg : t.pkg = s.pkg

theorem SameButRegs.trans {s t u : State} (h : SameButRegs s t) (k : SameButRegs t u) : SameButRegs s u :=
  ⟨k.1.trans h.1, k.2.trans h.2, k.3.trans h.3, k.4.trans h.4, k.5.trans h.5, k.6.trans h.6, k.7.trans h.7, k.8.trans h.8⟩

theorem State.setReg_same (s : State) (r : RegId) (w : Word) : SameButRegs s (s.setReg r w) := ⟨rfl, rfl, rfl, rfl, rfl, rfl, rfl, rfl⟩

theorem State.clear_same (x : EngRef) (l : List Nat) (s : State) :
    SameButRegs s (l.foldl (fun s r => s.setReg (lcReg x.core x.eng r) 0) s) := by
  induction l generalizing s with
  | nil => exact ⟨rfl, rfl, rfl, rfl, rfl, rfl, rfl, rfl⟩
  | cons r l ih => exact (State.setReg_same s _ _).trans (ih _)

theorem State.begin'_same (s : State) (x : EngRef) : SameButRegs s (s.begin' x) := by
  have h0 : SameButRegs s (s.setTurn x ((x.slot + 1) % 4)) := ⟨rfl, rfl, rfl, rfl, rfl, rfl, rfl, rfl⟩
  unfold State.begin'
  split
  · exact ⟨rfl, rfl, rfl, rfl, rfl, rfl, rfl, rfl⟩
  · dsimp only
    split
    · exact h0.trans (State.clear_same x _ _)
    · exact h0

@[simp] theorem State.begin'_eng (s : State) (x y : EngRef) : (s.begin' x).eng y = s.eng y := by
  unfold State.eng; rw [(State.begin'_same s x).engs]
@[simp] theorem State.begin'_taskAt (s : State) (x : EngRef) (g n : Nat) : (s.begin' x).taskAt g n = s.taskAt g n := by
  unfold State.taskAt; rw [(State.begin'_same s x).tasks]
@[simp] theorem State.begin'_chan (s : State) (x : EngRef) (g n : Nat) : (s.begin' x).chan g n = s.chan g n := by
  unfold State.chan; rw [(State.begin'_same s x).chans]
@[simp] theorem State.begin'_enabled (s : State) (x : EngRef) (g : Nat) : (s.begin' x).enabled g = s.enabled g := by
  unfold State.enabled; rw [(State.begin'_same s x).pkg]

/-- An address of a die's slot at a core's Cove. -/
theorem placeOf_cove {a g : Nat} (h : g < 384) (e : a = 0x10000000000 + g / 32 * 0x1000000000 + 0x800000000 + g % 32 * 0x10000000) : placeOf a = .cove g 0 := by
  have h1 : ¬ a < 0xC000000000 := by omega
  have h2 : ¬ a < 0x10000000000 := by omega
  have h3 : a < 0x1C000000000 := by omega
  have h4 : (a - 0x10000000000) / 0x1000000000 = g / 32 := by omega
  have h5 : (a - 0x10000000000) % 0x1000000000 = 0x800000000 + g % 32 * 0x10000000 := by omega
  have h6 : ¬ 0x800000000 + g % 32 * 0x10000000 < 0x4000000 := by omega
  have h7 : ¬ 0x800000000 + g % 32 * 0x10000000 < 0x800000000 := by omega
  have h8 : 0x800000000 + g % 32 * 0x10000000 < 0xA00000000 := by omega
  have h9 : 32 * (g / 32) + (0x800000000 + g % 32 * 0x10000000 - 0x800000000) / 0x10000000 = g := by rw [Nat.add_sub_cancel_left, Nat.mul_div_cancel _ (by omega), Nat.div_add_mod]
  have h10 : (0x800000000 + g % 32 * 0x10000000 - 0x800000000) % 0x10000000 = 0 := by rw [Nat.add_sub_cancel_left, Nat.mul_mod_left]
  unfold placeOf
  simp only [if_neg h1, if_neg h2, if_pos h3, h4, h5, if_neg h6, if_neg h7, if_pos h8, h9, h10]

/-- A core's Cove slot is that core's. -/
theorem placeOf_coveBase {g : Nat} (h : g < 384) : placeOf (coveBase g) = .cove g 0 :=
  placeOf_cove h (by simp only [coveBase, dieBase])

/-- With no earlier write incomplete, what goes to the own core takes effect there after the instruction retires. -/
theorem State.startSync_own {s : State} {x : EngRef} {t : Task} {i : Instr} {f : Frame} {o : Nat} (hm : (s.eng x).moves = [])
    (hf : placeOf f.address = .cove x.core o) :
    s.startSync x t i f = if f.kind == 6 then (s.retire x t i).incr x.core x.slot f.post f.counter f.amount x.core x.eng
      else (s.retire x t i).pushWords x.core f.counter ((chunksOf 8 8 f.payload).mapIdx fun k b => (leNat b, bitOf f.amount k)) := by
  unfold State.startSync State.sendSync State.deliverSync
  rw [hm, hf]
  simp

/-! ## What a wait leaves -/

/-- A wait marks its engine and counts handshakes of it: nothing else. -/
@[simp] theorem State.eng_stall_self (s : State) (x : EngRef) (w : Stall) : (s.stall x w).eng x = { s.eng x with blocked := some w } := by
  simp [State.stall, State.countWait, State.updEng, State.fresh]

@[simp] theorem State.taskAt_stall (s : State) (x : EngRef) (w : Stall) (g n : Nat) : (s.stall x w).taskAt g n = s.taskAt g n := rfl

theorem State.reg_stall (s : State) (x : EngRef) (w : Stall) {r : RegId} (h : r.name ≠ .pilHscount) : (s.stall x w).reg r = s.reg r := by
  unfold State.stall State.countWait State.addRf
  rw [State.reg_setRf_other _ _ _ _ (fun e => h (by rw [e]))]
  rfl

@[simp] theorem State.rf_stall_tm (s : State) (x : EngRef) (w : Stall) (g n k hi lo : Nat) : (s.stall x w).rf (tmReg g n k) hi lo = s.rf (tmReg g n k) hi lo := by
  unfold State.rf; rw [State.reg_stall _ _ _ (by simp [tmReg])]

@[simp] theorem State.rf_stall_sem (s : State) (x : EngRef) (w : Stall) (g n k hi lo : Nat) : (s.stall x w).rf (semReg g n k) hi lo = s.rf (semReg g n k) hi lo := by
  unfold State.rf; rw [State.reg_stall _ _ _ (by simp [semReg])]

/-- With no earlier write incomplete, what goes to another core of the die leaves after the instruction retires. -/
theorem State.startSync_die {s : State} {x : EngRef} {t : Task} {i : Instr} {f : Frame} {g o : Nat} (hm : (s.eng x).moves = [])
    (hf : placeOf f.address = .cove g o) (h1 : g ≠ x.core) (h2 : g / 32 = x.core / 32) :
    s.startSync x t i f = (s.retire x t i).send f := by
  unfold State.startSync State.sendSync State.deliverSync
  rw [hm, hf]
  simp [h1, h2]

/-- What a check that passed leaves. -/
theorem ok_of_ite {ε α : Type} {c : Prop} [Decidable c] {f : ε} {a e : α} (h : (if c then Except.error f else Except.ok a) = Except.ok e) : a = e := by
  by_cases hc : c
  · rw [if_pos hc] at h; cases h
  · rw [if_neg hc] at h; injection h
/-- The engine and the operand fields of an array's environment are those it was made for. -/
theorem State.arrayEnv_ops {s : State} {x : EngRef} {t : Machine.Task} {m : ArrayMode} {o : MmaOps} {l : LookoutOps} {e : ArrayEnv} (he : s.arrayEnv x t m o l = .ok e) : e.x = x ∧ e.ops = o := by
  unfold State.arrayEnv at he
  split at he
  · cases he
  · cases he
  · cases he
  · cases he
  · dsimp only at he
    revert he
    generalize (if (o.mask == 0xFFF) = true then Except.ok none else _ : Except Fail (Option Desc)) = mask
    generalize pairType m _ _ = pt
    intro he
    cases mask <;> cases pt <;> dsimp only at he
    · cases he
    · cases he
    · cases he
    · have := ok_of_ite he
      subst this; exact ⟨rfl, rfl⟩

end Sys2Proof.Machine
end

