-- ==== Sys2Proof/Laws/Sent.lean ====
section
/-! SUPPORT. What sending a frame, taking one, and entering an error leave alone, field by field. -/

namespace Sys2Proof.Machine.State

/-- A fold keeps what each of its steps keeps. -/
theorem foldl_keeps {α β : Type} (g : State → β) (f : State → α → State) (h : ∀ s a, g (f s a) = g s) (l : List α) (s : State) : g (l.foldl f s) = g s := by
  induction l generalizing s with
  | nil => rfl
  | cons a l ih => rw [List.foldl_cons, ih, h]

/-! ## launch, send and sendWaiting -/

theorem launch_keeps {β : Type} (g : State → β) (h1 : ∀ s v, g (s.setFrames v) = g s) (h2 : ∀ s a b v, g (s.setHop a b v) = g s) (s : State) (f : Frame) :
    g (s.launch f) = g s := by
  unfold launch; rw [foldl_keeps g _ (fun _ _ => h2 _ _ _ _)]; exact h1 _ _

theorem send_keeps {β : Type} (g : State → β) (h1 : ∀ s f, g (s.launch f) = g s) (h2 : ∀ s v, g (s.setBacklog v) = g s) (s : State) (f : Frame) :
    g (s.send f) = g s := by
  unfold send; split
  · exact h1 _ _
  · exact h2 _ _

theorem sendWaiting_keeps {β : Type} (g : State → β) (h1 : ∀ s f, g (s.send f) = g s) (h2 : ∀ s v, g (s.setBacklog v) = g s) (s : State) :
    g s.sendWaiting = g s := by
  unfold sendWaiting; rw [foldl_keeps g _ h1]; exact h2 _ _


@[simp] theorem launch_regs (s : State) (f : Frame) : (s.launch f).regs = s.regs := launch_keeps (·.regs) setFrames_regs setHop_regs s f
@[simp] theorem send_regs (s : State) (f : Frame) : (s.send f).regs = s.regs := send_keeps (·.regs) launch_regs setBacklog_regs s f
@[simp] theorem sendWaiting_regs (s : State) : s.sendWaiting.regs = s.regs := sendWaiting_keeps (·.regs) send_regs setBacklog_regs s
@[simp] theorem launch_mem (s : State) (f : Frame) : (s.launch f).mem = s.mem := launch_keeps (·.mem) setFrames_mem setHop_mem s f
@[simp] theorem send_mem (s : State) (f : Frame) : (s.send f).mem = s.mem := send_keeps (·.mem) launch_mem setBacklog_mem s f
@[simp] theorem sendWaiting_mem (s : State) : s.sendWaiting.mem = s.mem := sendWaiting_keeps (·.mem) send_mem setBacklog_mem s
@[simp] theorem launch_poison (s : State) (f : Frame) : (s.launch f).poison = s.poison := launch_keeps (·.poison) setFrames_poison setHop_poison s f
@[simp] theorem send_poison (s : State) (f : Frame) : (s.send f).poison = s.poison := send_keeps (·.poison) launch_poison setBacklog_poison s f
@[simp] theorem sendWaiting_poison (s : State) : s.sendWaiting.poison = s.poison := sendWaiting_keeps (·.poison) send_poison setBacklog_poison s
@[simp] theorem launch_struck (s : State) (f : Frame) : (s.launch f).struck = s.struck := launch_keeps (·.struck) setFrames_struck setHop_struck s f
@[simp] theorem send_struck (s : State) (f : Frame) : (s.send f).struck = s.struck := send_keeps (·.struck) launch_struck setBacklog_struck s f
@[simp] theorem sendWaiting_struck (s : State) : s.sendWaiting.struck = s.struck := sendWaiting_keeps (·.struck) send_struck setBacklog_struck s
@[simp] theorem launch_seals (s : State) (f : Frame) : (s.launch f).seals = s.seals := launch_keeps (·.seals) setFrames_seals setHop_seals s f
@[simp] theorem send_seals (s : State) (f : Frame) : (s.send f).seals = s.seals := send_keeps (·.seals) launch_seals setBacklog_seals s f
@[simp] theorem sendWaiting_seals (s : State) : s.sendWaiting.seals = s.seals := sendWaiting_keeps (·.seals) send_seals setBacklog_seals s
@[simp] theorem launch_tasks (s : State) (f : Frame) : (s.launch f).tasks = s.tasks := launch_keeps (·.tasks) setFrames_tasks setHop_tasks s f
@[simp] theorem send_tasks (s : State) (f : Frame) : (s.send f).tasks = s.tasks := send_keeps (·.tasks) launch_tasks setBacklog_tasks s f
@[simp] theorem sendWaiting_tasks (s : State) : s.sendWaiting.tasks = s.tasks := sendWaiting_keeps (·.tasks) send_tasks setBacklog_tasks s
@[simp] theorem launch_engs (s : State) (f : Frame) : (s.launch f).engs = s.engs := launch_keeps (·.engs) setFrames_engs setHop_engs s f
@[simp] theorem send_engs (s : State) (f : Frame) : (s.send f).engs = s.engs := send_keeps (·.engs) launch_engs setBacklog_engs s f
@[simp] theorem sendWaiting_engs (s : State) : s.sendWaiting.engs = s.engs := sendWaiting_keeps (·.engs) send_engs setBacklog_engs s
@[simp] theorem launch_rings (s : State) (f : Frame) : (s.launch f).rings = s.rings := launch_keeps (·.rings) setFrames_rings setHop_rings s f
@[simp] theorem send_rings (s : State) (f : Frame) : (s.send f).rings = s.rings := send_keeps (·.rings) launch_rings setBacklog_rings s f
@[simp] theorem sendWaiting_rings (s : State) : s.sendWaiting.rings = s.rings := sendWaiting_keeps (·.rings) send_rings setBacklog_rings s
@[simp] theorem launch_chans (s : State) (f : Frame) : (s.launch f).chans = s.chans := launch_keeps (·.chans) setFrames_chans setHop_chans s f
@[simp] theorem send_chans (s : State) (f : Frame) : (s.send f).chans = s.chans := send_keeps (·.chans) launch_chans setBacklog_chans s f
@[simp] theorem sendWaiting_chans (s : State) : s.sendWaiting.chans = s.chans := sendWaiting_keeps (·.chans) send_chans setBacklog_chans s
@[simp] theorem launch_arrays (s : State) (f : Frame) : (s.launch f).arrays = s.arrays := launch_keeps (·.arrays) setFrames_arrays setHop_arrays s f
@[simp] theorem send_arrays (s : State) (f : Frame) : (s.send f).arrays = s.arrays := send_keeps (·.arrays) launch_arrays setBacklog_arrays s f
@[simp] theorem sendWaiting_arrays (s : State) : s.sendWaiting.arrays = s.arrays := sendWaiting_keeps (·.arrays) send_arrays setBacklog_arrays s
@[simp] theorem launch_landed (s : State) (f : Frame) : (s.launch f).landed = s.landed := launch_keeps (·.landed) setFrames_landed setHop_landed s f
@[simp] theorem send_landed (s : State) (f : Frame) : (s.send f).landed = s.landed := send_keeps (·.landed) launch_landed setBacklog_landed s f
@[simp] theorem sendWaiting_landed (s : State) : s.sendWaiting.landed = s.landed := sendWaiting_keeps (·.landed) send_landed setBacklog_landed s
@[simp] theorem launch_rotation (s : State) (f : Frame) : (s.launch f).rotation = s.rotation := launch_keeps (·.rotation) setFrames_rotation setHop_rotation s f
@[simp] theorem send_rotation (s : State) (f : Frame) : (s.send f).rotation = s.rotation := send_keeps (·.rotation) launch_rotation setBacklog_rotation s f
@[simp] theorem sendWaiting_rotation (s : State) : s.sendWaiting.rotation = s.rotation := sendWaiting_keeps (·.rotation) send_rotation setBacklog_rotation s
@[simp] theorem launch_turns (s : State) (f : Frame) : (s.launch f).turns = s.turns := launch_keeps (·.turns) setFrames_turns setHop_turns s f
@[simp] theorem send_turns (s : State) (f : Frame) : (s.send f).turns = s.turns := send_keeps (·.turns) launch_turns setBacklog_turns s f
@[simp] theorem sendWaiting_turns (s : State) : s.sendWaiting.turns = s.turns := sendWaiting_keeps (·.turns) send_turns setBacklog_turns s
@[simp] theorem launch_pools (s : State) (f : Frame) : (s.launch f).pools = s.pools := launch_keeps (·.pools) setFrames_pools setHop_pools s f
@[simp] theorem send_pools (s : State) (f : Frame) : (s.send f).pools = s.pools := send_keeps (·.pools) launch_pools setBacklog_pools s f
@[simp] theorem sendWaiting_pools (s : State) : s.sendWaiting.pools = s.pools := sendWaiting_keeps (·.pools) send_pools setBacklog_pools s
@[simp] theorem launch_backlog (s : State) (f : Frame) : (s.launch f).backlog = s.backlog := launch_keeps (·.backlog) setFrames_backlog setHop_backlog s f
@[simp] theorem launch_disps (s : State) (f : Frame) : (s.launch f).disps = s.disps := launch_keeps (·.disps) setFrames_disps setHop_disps s f
@[simp] theorem send_disps (s : State) (f : Frame) : (s.send f).disps = s.disps := send_keeps (·.disps) launch_disps setBacklog_disps s f
@[simp] theorem sendWaiting_disps (s : State) : s.sendWaiting.disps = s.disps := sendWaiting_keeps (·.disps) send_disps setBacklog_disps s
@[simp] theorem launch_links (s : State) (f : Frame) : (s.launch f).links = s.links := launch_keeps (·.links) setFrames_links setHop_links s f
@[simp] theorem send_links (s : State) (f : Frame) : (s.send f).links = s.links := send_keeps (·.links) launch_links setBacklog_links s f
@[simp] theorem sendWaiting_links (s : State) : s.sendWaiting.links = s.links := sendWaiting_keeps (·.links) send_links setBacklog_links s
@[simp] theorem launch_cxls (s : State) (f : Frame) : (s.launch f).cxls = s.cxls := launch_keeps (·.cxls) setFrames_cxls setHop_cxls s f
@[simp] theorem send_cxls (s : State) (f : Frame) : (s.send f).cxls = s.cxls := send_keeps (·.cxls) launch_cxls setBacklog_cxls s f
@[simp] theorem sendWaiting_cxls (s : State) : s.sendWaiting.cxls = s.cxls := sendWaiting_keeps (·.cxls) send_cxls setBacklog_cxls s
@[simp] theorem launch_ports (s : State) (f : Frame) : (s.launch f).ports = s.ports := launch_keeps (·.ports) setFrames_ports setHop_ports s f
@[simp] theorem send_ports (s : State) (f : Frame) : (s.send f).ports = s.ports := send_keeps (·.ports) launch_ports setBacklog_ports s f
@[simp] theorem sendWaiting_ports (s : State) : s.sendWaiting.ports = s.ports := sendWaiting_keeps (·.ports) send_ports setBacklog_ports s
@[simp] theorem launch_pkg (s : State) (f : Frame) : (s.launch f).pkg = s.pkg := launch_keeps (·.pkg) setFrames_pkg setHop_pkg s f
@[simp] theorem send_pkg (s : State) (f : Frame) : (s.send f).pkg = s.pkg := send_keeps (·.pkg) launch_pkg setBacklog_pkg s f
@[simp] theorem sendWaiting_pkg (s : State) : s.sendWaiting.pkg = s.pkg := sendWaiting_keeps (·.pkg) send_pkg setBacklog_pkg s
@[simp] theorem launch_lh (s : State) (f : Frame) : (s.launch f).lh = s.lh := launch_keeps (·.lh) setFrames_lh setHop_lh s f
@[simp] theorem send_lh (s : State) (f : Frame) : (s.send f).lh = s.lh := send_keeps (·.lh) launch_lh setBacklog_lh s f
@[simp] theorem sendWaiting_lh (s : State) : s.sendWaiting.lh = s.lh := sendWaiting_keeps (·.lh) send_lh setBacklog_lh s
@[simp] theorem launch_sessions (s : State) (f : Frame) : (s.launch f).sessions = s.sessions := launch_keeps (·.sessions) setFrames_sessions setHop_sessions s f
@[simp] theorem send_sessions (s : State) (f : Frame) : (s.send f).sessions = s.sessions := send_keeps (·.sessions) launch_sessions setBacklog_sessions s f
@[simp] theorem sendWaiting_sessions (s : State) : s.sendWaiting.sessions = s.sessions := sendWaiting_keeps (·.sessions) send_sessions setBacklog_sessions s
@[simp] theorem launch_phases (s : State) (f : Frame) : (s.launch f).phases = s.phases := launch_keeps (·.phases) setFrames_phases setHop_phases s f
@[simp] theorem send_phases (s : State) (f : Frame) : (s.send f).phases = s.phases := send_keeps (·.phases) launch_phases setBacklog_phases s f
@[simp] theorem sendWaiting_phases (s : State) : s.sendWaiting.phases = s.phases := sendWaiting_keeps (·.phases) send_phases setBacklog_phases s
@[simp] theorem launch_trust (s : State) (f : Frame) : (s.launch f).trust = s.trust := launch_keeps (·.trust) setFrames_trust setHop_trust s f
@[simp] theorem send_trust (s : State) (f : Frame) : (s.send f).trust = s.trust := send_keeps (·.trust) launch_trust setBacklog_trust s f
@[simp] theorem sendWaiting_trust (s : State) : s.sendWaiting.trust = s.trust := sendWaiting_keeps (·.trust) send_trust setBacklog_trust s
@[simp] theorem launch_nextTask (s : State) (f : Frame) : (s.launch f).nextTask = s.nextTask := launch_keeps (·.nextTask) setFrames_nextTask setHop_nextTask s f
@[simp] theorem send_nextTask (s : State) (f : Frame) : (s.send f).nextTask = s.nextTask := send_keeps (·.nextTask) launch_nextTask setBacklog_nextTask s f
@[simp] theorem sendWaiting_nextTask (s : State) : s.sendWaiting.nextTask = s.nextTask := sendWaiting_keeps (·.nextTask) send_nextTask setBacklog_nextTask s
@[simp] theorem launch_free (s : State) (f : Frame) : (s.launch f).free = s.free := launch_keeps (·.free) setFrames_free setHop_free s f
@[simp] theorem send_free (s : State) (f : Frame) : (s.send f).free = s.free := send_keeps (·.free) launch_free setBacklog_free s f
@[simp] theorem sendWaiting_free (s : State) : s.sendWaiting.free = s.free := sendWaiting_keeps (·.free) send_free setBacklog_free s
@[simp] theorem launch_out (s : State) (f : Frame) : (s.launch f).out = s.out := launch_keeps (·.out) setFrames_out setHop_out s f
@[simp] theorem send_out (s : State) (f : Frame) : (s.send f).out = s.out := send_keeps (·.out) launch_out setBacklog_out s f
@[simp] theorem sendWaiting_out (s : State) : s.sendWaiting.out = s.out := sendWaiting_keeps (·.out) send_out setBacklog_out s
@[simp] theorem launch_pending (s : State) (f : Frame) : (s.launch f).pending = s.pending := launch_keeps (·.pending) setFrames_pending setHop_pending s f
@[simp] theorem send_pending (s : State) (f : Frame) : (s.send f).pending = s.pending := send_keeps (·.pending) launch_pending setBacklog_pending s f
@[simp] theorem sendWaiting_pending (s : State) : s.sendWaiting.pending = s.pending := sendWaiting_keeps (·.pending) send_pending setBacklog_pending s
theorem launch_frames (s : State) (f : Frame) : (s.launch f).frames = s.frames ++ [f] := by
  unfold launch; dsimp only; rw [foldl_keeps (·.frames) _ (fun _ _ => setHop_frames _ _ _ _)]; simp
/-- A frame that is sent goes onto the fabric, or waits for room on a hop of its way. -/
theorem send_cases (s : State) (f : Frame) :
    (s.maySend f = true ∧ s.send f = s.launch f) ∨ (s.maySend f = false ∧ s.send f = s.setBacklog (s.backlog ++ [f])) := by
  unfold send
  cases h : s.maySend f
  · exact .inr ⟨rfl, rfl⟩
  · exact .inl ⟨rfl, rfl⟩

/-- A frame that has room goes; one inside a die has no hop to wait for. -/
theorem send_goes {s : State} {f : Frame} (h : s.maySend f = true) : (s.send f).frames = s.frames ++ [f] := by
  rcases send_cases s f with ⟨_, e⟩ | ⟨e, _⟩
  · rw [e, launch_frames]
  · rw [h] at e; cases e
theorem maySend_here {s : State} {f : Frame} (h : s.framePath f = []) : s.maySend f = true := by
  unfold maySend; rw [h]; simp

/-! ## accepts and arrived -/

theorem accepts_keeps {β : Type} (g : State → β) (h1 : ∀ s a b v, g (s.setHop a b v) = g s) (s : State) (h : Nat × Nat) (n : Nat) :
    g (s.accepts h n) = g s := by
  unfold accepts
  dsimp only
  generalize seqLe (s.hop h.1 h.2).expected n = b
  cases b
  · rw [if_neg (by decide)]
  · rw [if_pos rfl]; exact h1 _ _ _ _

theorem arrived_keeps {β : Type} (g : State → β) (h1 : ∀ s h n, g (s.accepts h n) = g s) (h2 : ∀ s v, g (s.setFrames v) = g s)
    (h3 : ∀ s, g s.sendWaiting = g s) (s : State) (f : Frame) : g (s.arrived f) = g s := by
  unfold arrived
  generalize s.frames.contains f = b
  cases b
  · rfl
  · dsimp only [if_true]
    rw [if_pos rfl, h3, h2, foldl_keeps g]
    intro t h
    generalize ((t.hop h.1 h.2).buffer.find? fun e => decide (e.2 = f)) = o
    cases o
    · rfl
    · exact h1 _ _ _

@[simp] theorem accepts_regs (s : State) (h : Nat × Nat) (n : Nat) : (s.accepts h n).regs = s.regs := accepts_keeps (·.regs) setHop_regs s h n
@[simp] theorem arrived_regs (s : State) (f : Frame) : (s.arrived f).regs = s.regs := arrived_keeps (·.regs) accepts_regs setFrames_regs sendWaiting_regs s f
@[simp] theorem accepts_mem (s : State) (h : Nat × Nat) (n : Nat) : (s.accepts h n).mem = s.mem := accepts_keeps (·.mem) setHop_mem s h n
@[simp] theorem arrived_mem (s : State) (f : Frame) : (s.arrived f).mem = s.mem := arrived_keeps (·.mem) accepts_mem setFrames_mem sendWaiting_mem s f
@[simp] theorem accepts_poison (s : State) (h : Nat × Nat) (n : Nat) : (s.accepts h n).poison = s.poison := accepts_keeps (·.poison) setHop_poison s h n
@[simp] theorem arrived_poison (s : State) (f : Frame) : (s.arrived f).poison = s.poison := arrived_keeps (·.poison) accepts_poison setFrames_poison sendWaiting_poison s f
@[simp] theorem accepts_struck (s : State) (h : Nat × Nat) (n : Nat) : (s.accepts h n).struck = s.struck := accepts_keeps (·.struck) setHop_struck s h n
@[simp] theorem arrived_struck (s : State) (f : Frame) : (s.arrived f).struck = s.struck := arrived_keeps (·.struck) accepts_struck setFrames_struck sendWaiting_struck s f
@[simp] theorem accepts_seals (s : State) (h : Nat × Nat) (n : Nat) : (s.accepts h n).seals = s.seals := accepts_keeps (·.seals) setHop_seals s h n
@[simp] theorem arrived_seals (s : State) (f : Frame) : (s.arrived f).seals = s.seals := arrived_keeps (·.seals) accepts_seals setFrames_seals sendWaiting_seals s f
@[simp] theorem accepts_tasks (s : State) (h : Nat × Nat) (n : Nat) : (s.accepts h n).tasks = s.tasks := accepts_keeps (·.tasks) setHop_tasks s h n
@[simp] theorem arrived_tasks (s : State) (f : Frame) : (s.arrived f).tasks = s.tasks := arrived_keeps (·.tasks) accepts_tasks setFrames_tasks sendWaiting_tasks s f
@[simp] theorem accepts_engs (s : State) (h : Nat × Nat) (n : Nat) : (s.accepts h n).engs = s.engs := accepts_keeps (·.engs) setHop_engs s h n
@[simp] theorem arrived_engs (s : State) (f : Frame) : (s.arrived f).engs = s.engs := arrived_keeps (·.engs) accepts_engs setFrames_engs sendWaiting_engs s f
@[simp] theorem accepts_rings (s : State) (h : Nat × Nat) (n : Nat) : (s.accepts h n).rings = s.rings := accepts_keeps (·.rings) setHop_rings s h n
@[simp] theorem arrived_rings (s : State) (f : Frame) : (s.arrived f).rings = s.rings := arrived_keeps (·.rings) accepts_rings setFrames_rings sendWaiting_rings s f
@[simp] theorem accepts_chans (s : State) (h : Nat × Nat) (n : Nat) : (s.accepts h n).chans = s.chans := accepts_keeps (·.chans) setHop_chans s h n
@[simp] theorem arrived_chans (s : State) (f : Frame) : (s.arrived f).chans = s.chans := arrived_keeps (·.chans) accepts_chans setFrames_chans sendWaiting_chans s f
@[simp] theorem accepts_arrays (s : State) (h : Nat × Nat) (n : Nat) : (s.accepts h n).arrays = s.arrays := accepts_keeps (·.arrays) setHop_arrays s h n
@[simp] theorem arrived_arrays (s : State) (f : Frame) : (s.arrived f).arrays = s.arrays := arrived_keeps (·.arrays) accepts_arrays setFrames_arrays sendWaiting_arrays s f
@[simp] theorem accepts_landed (s : State) (h : Nat × Nat) (n : Nat) : (s.accepts h n).landed = s.landed := accepts_keeps (·.landed) setHop_landed s h n
@[simp] theorem arrived_landed (s : State) (f : Frame) : (s.arrived f).landed = s.landed := arrived_keeps (·.landed) accepts_landed setFrames_landed sendWaiting_landed s f
@[simp] theorem accepts_rotation (s : State) (h : Nat × Nat) (n : Nat) : (s.accepts h n).rotation = s.rotation := accepts_keeps (·.rotation) setHop_rotation s h n
@[simp] theorem arrived_rotation (s : State) (f : Frame) : (s.arrived f).rotation = s.rotation := arrived_keeps (·.rotation) accepts_rotation setFrames_rotation sendWaiting_rotation s f
@[simp] theorem accepts_turns (s : State) (h : Nat × Nat) (n : Nat) : (s.accepts h n).turns = s.turns := accepts_keeps (·.turns) setHop_turns s h n
@[simp] theorem arrived_turns (s : State) (f : Frame) : (s.arrived f).turns = s.turns := arrived_keeps (·.turns) accepts_turns setFrames_turns sendWaiting_turns s f
@[simp] theorem accepts_pools (s : State) (h : Nat × Nat) (n : Nat) : (s.accepts h n).pools = s.pools := accepts_keeps (·.pools) setHop_pools s h n
@[simp] theorem arrived_pools (s : State) (f : Frame) : (s.arrived f).pools = s.pools := arrived_keeps (·.pools) accepts_pools setFrames_pools sendWaiting_pools s f
@[simp] theorem accepts_frames (s : State) (h : Nat × Nat) (n : Nat) : (s.accepts h n).frames = s.frames := accepts_keeps (·.frames) setHop_frames s h n
@[simp] theorem accepts_backlog (s : State) (h : Nat × Nat) (n : Nat) : (s.accepts h n).backlog = s.backlog := accepts_keeps (·.backlog) setHop_backlog s h n
@[simp] theorem accepts_disps (s : State) (h : Nat × Nat) (n : Nat) : (s.accepts h n).disps = s.disps := accepts_keeps (·.disps) setHop_disps s h n
@[simp] theorem arrived_disps (s : State) (f : Frame) : (s.arrived f).disps = s.disps := arrived_keeps (·.disps) accepts_disps setFrames_disps sendWaiting_disps s f
@[simp] theorem accepts_links (s : State) (h : Nat × Nat) (n : Nat) : (s.accepts h n).links = s.links := accepts_keeps (·.links) setHop_links s h n
@[simp] theorem arrived_links (s : State) (f : Frame) : (s.arrived f).links = s.links := arrived_keeps (·.links) accepts_links setFrames_links sendWaiting_links s f
@[simp] theorem accepts_cxls (s : State) (h : Nat × Nat) (n : Nat) : (s.accepts h n).cxls = s.cxls := accepts_keeps (·.cxls) setHop_cxls s h n
@[simp] theorem arrived_cxls (s : State) (f : Frame) : (s.arrived f).cxls = s.cxls := arrived_keeps (·.cxls) accepts_cxls setFrames_cxls sendWaiting_cxls s f
@[simp] theorem accepts_ports (s : State) (h : Nat × Nat) (n : Nat) : (s.accepts h n).ports = s.ports := accepts_keeps (·.ports) setHop_ports s h n
@[simp] theorem arrived_ports (s : State) (f : Frame) : (s.arrived f).ports = s.ports := arrived_keeps (·.ports) accepts_ports setFrames_ports sendWaiting_ports s f
@[simp] theorem accepts_pkg (s : State) (h : Nat × Nat) (n : Nat) : (s.accepts h n).pkg = s.pkg := accepts_keeps (·.pkg) setHop_pkg s h n
@[simp] theorem arrived_pkg (s : State) (f : Frame) : (s.arrived f).pkg = s.pkg := arrived_keeps (·.pkg) accepts_pkg setFrames_pkg sendWaiting_pkg s f
@[simp] theorem accepts_lh (s : State) (h : Nat × Nat) (n : Nat) : (s.accepts h n).lh = s.lh := accepts_keeps (·.lh) setHop_lh s h n
@[simp] theorem arrived_lh (s : State) (f : Frame) : (s.arrived f).lh = s.lh := arrived_keeps (·.lh) accepts_lh setFrames_lh sendWaiting_lh s f
@[simp] theorem accepts_sessions (s : State) (h : Nat × Nat) (n : Nat) : (s.accepts h n).sessions = s.sessions := accepts_keeps (·.sessions) setHop_sessions s h n
@[simp] theorem arrived_sessions (s : State) (f : Frame) : (s.arrived f).sessions = s.sessions := arrived_keeps (·.sessions) accepts_sessions setFrames_sessions sendWaiting_sessions s f
@[simp] theorem accepts_phases (s : State) (h : Nat × Nat) (n : Nat) : (s.accepts h n).phases = s.phases := accepts_keeps (·.phases) setHop_phases s h n
@[simp] theorem arrived_phases (s : State) (f : Frame) : (s.arrived f).phases = s.phases := arrived_keeps (·.phases) accepts_phases setFrames_phases sendWaiting_phases s f
@[simp] theorem accepts_trust (s : State) (h : Nat × Nat) (n : Nat) : (s.accepts h n).trust = s.trust := accepts_keeps (·.trust) setHop_trust s h n
@[simp] theorem arrived_trust (s : State) (f : Frame) : (s.arrived f).trust = s.trust := arrived_keeps (·.trust) accepts_trust setFrames_trust sendWaiting_trust s f
@[simp] theorem accepts_nextTask (s : State) (h : Nat × Nat) (n : Nat) : (s.accepts h n).nextTask = s.nextTask := accepts_keeps (·.nextTask) setHop_nextTask s h n
@[simp] theorem arrived_nextTask (s : State) (f : Frame) : (s.arrived f).nextTask = s.nextTask := arrived_keeps (·.nextTask) accepts_nextTask setFrames_nextTask sendWaiting_nextTask s f
@[simp] theorem accepts_free (s : State) (h : Nat × Nat) (n : Nat) : (s.accepts h n).free = s.free := accepts_keeps (·.free) setHop_free s h n
@[simp] theorem arrived_free (s : State) (f : Frame) : (s.arrived f).free = s.free := arrived_keeps (·.free) accepts_free setFrames_free sendWaiting_free s f
@[simp] theorem accepts_out (s : State) (h : Nat × Nat) (n : Nat) : (s.accepts h n).out = s.out := accepts_keeps (·.out) setHop_out s h n
@[simp] theorem arrived_out (s : State) (f : Frame) : (s.arrived f).out = s.out := arrived_keeps (·.out) accepts_out setFrames_out sendWaiting_out s f
@[simp] theorem accepts_pending (s : State) (h : Nat × Nat) (n : Nat) : (s.accepts h n).pending = s.pending := accepts_keeps (·.pending) setHop_pending s h n
@[simp] theorem arrived_pending (s : State) (f : Frame) : (s.arrived f).pending = s.pending := arrived_keeps (·.pending) accepts_pending setFrames_pending sendWaiting_pending s f

/-! ## logErr -/

theorem fireVector_mem (s : State) (p : Port) (v : Nat) : (s.fireVector p v).mem = s.mem := by
  unfold fireVector; split <;> simp
theorem logOne_mem (s : State) (n : Nat) (b : Bool) (e : ErrInfo) : (s.logOne n b e).mem = s.mem := by
  unfold logOne setErrsum setLog; simp
@[simp] theorem logErr_mem (s : State) (e : ErrInfo) : (s.logErr e).mem = s.mem := by
  unfold logErr; dsimp only; split <;> split <;> simp only [fireVector_mem, setPkg_mem, logOne_mem]
theorem fireVector_poison (s : State) (p : Port) (v : Nat) : (s.fireVector p v).poison = s.poison := by
  unfold fireVector; split <;> simp
theorem logOne_poison (s : State) (n : Nat) (b : Bool) (e : ErrInfo) : (s.logOne n b e).poison = s.poison := by
  unfold logOne setErrsum setLog; simp
@[simp] theorem logErr_poison (s : State) (e : ErrInfo) : (s.logErr e).poison = s.poison := by
  unfold logErr; dsimp only; split <;> split <;> simp only [fireVector_poison, setPkg_poison, logOne_poison]
theorem fireVector_struck (s : State) (p : Port) (v : Nat) : (s.fireVector p v).struck = s.struck := by
  unfold fireVector; split <;> simp
theorem logOne_struck (s : State) (n : Nat) (b : Bool) (e : ErrInfo) : (s.logOne n b e).struck = s.struck := by
  unfold logOne setErrsum setLog; simp
@[simp] theorem logErr_struck (s : State) (e : ErrInfo) : (s.logErr e).struck = s.struck := by
  unfold logErr; dsimp only; split <;> split <;> simp only [fireVector_struck, setPkg_struck, logOne_struck]
theorem fireVector_seals (s : State) (p : Port) (v : Nat) : (s.fireVector p v).seals = s.seals := by
  unfold fireVector; split <;> simp
theorem logOne_seals (s : State) (n : Nat) (b : Bool) (e : ErrInfo) : (s.logOne n b e).seals = s.seals := by
  unfold logOne setErrsum setLog; simp
@[simp] theorem logErr_seals (s : State) (e : ErrInfo) : (s.logErr e).seals = s.seals := by
  unfold logErr; dsimp only; split <;> split <;> simp only [fireVector_seals, setPkg_seals, logOne_seals]
theorem fireVector_tasks (s : State) (p : Port) (v : Nat) : (s.fireVector p v).tasks = s.tasks := by
  unfold fireVector; split <;> simp
theorem logOne_tasks (s : State) (n : Nat) (b : Bool) (e : ErrInfo) : (s.logOne n b e).tasks = s.tasks := by
  unfold logOne setErrsum setLog; simp
@[simp] theorem logErr_tasks (s : State) (e : ErrInfo) : (s.logErr e).tasks = s.tasks := by
  unfold logErr; dsimp only; split <;> split <;> simp only [fireVector_tasks, setPkg_tasks, logOne_tasks]
theorem fireVector_engs (s : State) (p : Port) (v : Nat) : (s.fireVector p v).engs = s.engs := by
  unfold fireVector; split <;> simp
theorem logOne_engs (s : State) (n : Nat) (b : Bool) (e : ErrInfo) : (s.logOne n b e).engs = s.engs := by
  unfold logOne setErrsum setLog; simp
@[simp] theorem logErr_engs (s : State) (e : ErrInfo) : (s.logErr e).engs = s.engs := by
  unfold logErr; dsimp only; split <;> split <;> simp only [fireVector_engs, setPkg_engs, logOne_engs]
theorem fireVector_rings (s : State) (p : Port) (v : Nat) : (s.fireVector p v).rings = s.rings := by
  unfold fireVector; split <;> simp
theorem logOne_rings (s : State) (n : Nat) (b : Bool) (e : ErrInfo) : (s.logOne n b e).rings = s.rings := by
  unfold logOne setErrsum setLog; simp
@[simp] theorem logErr_rings (s : State) (e : ErrInfo) : (s.logErr e).rings = s.rings := by
  unfold logErr; dsimp only; split <;> split <;> simp only [fireVector_rings, setPkg_rings, logOne_rings]
theorem fireVector_chans (s : State) (p : Port) (v : Nat) : (s.fireVector p v).chans = s.chans := by
  unfold fireVector; split <;> simp
theorem logOne_chans (s : State) (n : Nat) (b : Bool) (e : ErrInfo) : (s.logOne n b e).chans = s.chans := by
  unfold logOne setErrsum setLog; simp
@[simp] theorem logErr_chans (s : State) (e : ErrInfo) : (s.logErr e).chans = s.chans := by
  unfold logErr; dsimp only; split <;> split <;> simp only [fireVector_chans, setPkg_chans, logOne_chans]
theorem fireVector_arrays (s : State) (p : Port) (v : Nat) : (s.fireVector p v).arrays = s.arrays := by
  unfold fireVector; split <;> simp
theorem logOne_arrays (s : State) (n : Nat) (b : Bool) (e : ErrInfo) : (s.logOne n b e).arrays = s.arrays := by
  unfold logOne setErrsum setLog; simp
@[simp] theorem logErr_arrays (s : State) (e : ErrInfo) : (s.logErr e).arrays = s.arrays := by
  unfold logErr; dsimp only; split <;> split <;> simp only [fireVector_arrays, setPkg_arrays, logOne_arrays]
theorem fireVector_landed (s : State) (p : Port) (v : Nat) : (s.fireVector p v).landed = s.landed := by
  unfold fireVector; split <;> simp
theorem logOne_landed (s : State) (n : Nat) (b : Bool) (e : ErrInfo) : (s.logOne n b e).landed = s.landed := by
  unfold logOne setErrsum setLog; simp
@[simp] theorem logErr_landed (s : State) (e : ErrInfo) : (s.logErr e).landed = s.landed := by
  unfold logErr; dsimp only; split <;> split <;> simp only [fireVector_landed, setPkg_landed, logOne_landed]
theorem fireVector_rotation (s : State) (p : Port) (v : Nat) : (s.fireVector p v).rotation = s.rotation := by
  unfold fireVector; split <;> simp
theorem logOne_rotation (s : State) (n : Nat) (b : Bool) (e : ErrInfo) : (s.logOne n b e).rotation = s.rotation := by
  unfold logOne setErrsum setLog; simp
@[simp] theorem logErr_rotation (s : State) (e : ErrInfo) : (s.logErr e).rotation = s.rotation := by
  unfold logErr; dsimp only; split <;> split <;> simp only [fireVector_rotation, setPkg_rotation, logOne_rotation]
theorem fireVector_turns (s : State) (p : Port) (v : Nat) : (s.fireVector p v).turns = s.turns := by
  unfold fireVector; split <;> simp
theorem logOne_turns (s : State) (n : Nat) (b : Bool) (e : ErrInfo) : (s.logOne n b e).turns = s.turns := by
  unfold logOne setErrsum setLog; simp
@[simp] theorem logErr_turns (s : State) (e : ErrInfo) : (s.logErr e).turns = s.turns := by
  unfold logErr; dsimp only; split <;> split <;> simp only [fireVector_turns, setPkg_turns, logOne_turns]
theorem fireVector_pools (s : State) (p : Port) (v : Nat) : (s.fireVector p v).pools = s.pools := by
  unfold fireVector; split <;> simp
theorem logOne_pools (s : State) (n : Nat) (b : Bool) (e : ErrInfo) : (s.logOne n b e).pools = s.pools := by
  unfold logOne setErrsum setLog; simp
@[simp] theorem logErr_pools (s : State) (e : ErrInfo) : (s.logErr e).pools = s.pools := by
  unfold logErr; dsimp only; split <;> split <;> simp only [fireVector_pools, setPkg_pools, logOne_pools]
theorem fireVector_frames (s : State) (p : Port) (v : Nat) : (s.fireVector p v).frames = s.frames := by
  unfold fireVector; split <;> simp
theorem logOne_frames (s : State) (n : Nat) (b : Bool) (e : ErrInfo) : (s.logOne n b e).frames = s.frames := by
  unfold logOne setErrsum setLog; simp
@[simp] theorem logErr_frames (s : State) (e : ErrInfo) : (s.logErr e).frames = s.frames := by
  unfold logErr; dsimp only; split <;> split <;> simp only [fireVector_frames, setPkg_frames, logOne_frames]
theorem fireVector_backlog (s : State) (p : Port) (v : Nat) : (s.fireVector p v).backlog = s.backlog := by
  unfold fireVector; split <;> simp
theorem logOne_backlog (s : State) (n : Nat) (b : Bool) (e : ErrInfo) : (s.logOne n b e).backlog = s.backlog := by
  unfold logOne setErrsum setLog; simp
@[simp] theorem logErr_backlog (s : State) (e : ErrInfo) : (s.logErr e).backlog = s.backlog := by
  unfold logErr; dsimp only; split <;> split <;> simp only [fireVector_backlog, setPkg_backlog, logOne_backlog]
theorem fireVector_hops (s : State) (p : Port) (v : Nat) : (s.fireVector p v).hops = s.hops := by
  unfold fireVector; split <;> simp
theorem logOne_hops (s : State) (n : Nat) (b : Bool) (e : ErrInfo) : (s.logOne n b e).hops = s.hops := by
  unfold logOne setErrsum setLog; simp
@[simp] theorem logErr_hops (s : State) (e : ErrInfo) : (s.logErr e).hops = s.hops := by
  unfold logErr; dsimp only; split <;> split <;> simp only [fireVector_hops, setPkg_hops, logOne_hops]
theorem fireVector_disps (s : State) (p : Port) (v : Nat) : (s.fireVector p v).disps = s.disps := by
  unfold fireVector; split <;> simp
theorem logOne_disps (s : State) (n : Nat) (b : Bool) (e : ErrInfo) : (s.logOne n b e).disps = s.disps := by
  unfold logOne setErrsum setLog; simp
@[simp] theorem logErr_disps (s : State) (e : ErrInfo) : (s.logErr e).disps = s.disps := by
  unfold logErr; dsimp only; split <;> split <;> simp only [fireVector_disps, setPkg_disps, logOne_disps]
theorem fireVector_links (s : State) (p : Port) (v : Nat) : (s.fireVector p v).links = s.links := by
  unfold fireVector; split <;> simp
theorem logOne_links (s : State) (n : Nat) (b : Bool) (e : ErrInfo) : (s.logOne n b e).links = s.links := by
  unfold logOne setErrsum setLog; simp
@[simp] theorem logErr_links (s : State) (e : ErrInfo) : (s.logErr e).links = s.links := by
  unfold logErr; dsimp only; split <;> split <;> simp only [fireVector_links, setPkg_links, logOne_links]
theorem fireVector_cxls (s : State) (p : Port) (v : Nat) : (s.fireVector p v).cxls = s.cxls := by
  unfold fireVector; split <;> simp
theorem logOne_cxls (s : State) (n : Nat) (b : Bool) (e : ErrInfo) : (s.logOne n b e).cxls = s.cxls := by
  unfold logOne setErrsum setLog; simp
@[simp] theorem logErr_cxls (s : State) (e : ErrInfo) : (s.logErr e).cxls = s.cxls := by
  unfold logErr; dsimp only; split <;> split <;> simp only [fireVector_cxls, setPkg_cxls, logOne_cxls]
theorem fireVector_ports (s : State) (p : Port) (v : Nat) : (s.fireVector p v).ports = s.ports := by
  unfold fireVector; split <;> simp
theorem logOne_ports (s : State) (n : Nat) (b : Bool) (e : ErrInfo) : (s.logOne n b e).ports = s.ports := by
  unfold logOne setErrsum setLog; simp
@[simp] theorem logErr_ports (s : State) (e : ErrInfo) : (s.logErr e).ports = s.ports := by
  unfold logErr; dsimp only; split <;> split <;> simp only [fireVector_ports, setPkg_ports, logOne_ports]
theorem fireVector_sessions (s : State) (p : Port) (v : Nat) : (s.fireVector p v).sessions = s.sessions := by
  unfold fireVector; split <;> simp
theorem logOne_sessions (s : State) (n : Nat) (b : Bool) (e : ErrInfo) : (s.logOne n b e).sessions = s.sessions := by
  unfold logOne setErrsum setLog; simp
@[simp] theorem logErr_sessions (s : State) (e : ErrInfo) : (s.logErr e).sessions = s.sessions := by
  unfold logErr; dsimp only; split <;> split <;> simp only [fireVector_sessions, setPkg_sessions, logOne_sessions]
theorem fireVector_phases (s : State) (p : Port) (v : Nat) : (s.fireVector p v).phases = s.phases := by
  unfold fireVector; split <;> simp
theorem logOne_phases (s : State) (n : Nat) (b : Bool) (e : ErrInfo) : (s.logOne n b e).phases = s.phases := by
  unfold logOne setErrsum setLog; simp
@[simp] theorem logErr_phases (s : State) (e : ErrInfo) : (s.logErr e).phases = s.phases := by
  unfold logErr; dsimp only; split <;> split <;> simp only [fireVector_phases, setPkg_phases, logOne_phases]
theorem fireVector_trust (s : State) (p : Port) (v : Nat) : (s.fireVector p v).trust = s.trust := by
  unfold fireVector; split <;> simp
theorem logOne_trust (s : State) (n : Nat) (b : Bool) (e : ErrInfo) : (s.logOne n b e).trust = s.trust := by
  unfold logOne setErrsum setLog; simp
@[simp] theorem logErr_trust (s : State) (e : ErrInfo) : (s.logErr e).trust = s.trust := by
  unfold logErr; dsimp only; split <;> split <;> simp only [fireVector_trust, setPkg_trust, logOne_trust]
theorem fireVector_nextTask (s : State) (p : Port) (v : Nat) : (s.fireVector p v).nextTask = s.nextTask := by
  unfold fireVector; split <;> simp
theorem logOne_nextTask (s : State) (n : Nat) (b : Bool) (e : ErrInfo) : (s.logOne n b e).nextTask = s.nextTask := by
  unfold logOne setErrsum setLog; simp
@[simp] theorem logErr_nextTask (s : State) (e : ErrInfo) : (s.logErr e).nextTask = s.nextTask := by
  unfold logErr; dsimp only; split <;> split <;> simp only [fireVector_nextTask, setPkg_nextTask, logOne_nextTask]
theorem fireVector_free (s : State) (p : Port) (v : Nat) : (s.fireVector p v).free = s.free := by
  unfold fireVector; split <;> simp
theorem logOne_free (s : State) (n : Nat) (b : Bool) (e : ErrInfo) : (s.logOne n b e).free = s.free := by
  unfold logOne setErrsum setLog; simp
@[simp] theorem logErr_free (s : State) (e : ErrInfo) : (s.logErr e).free = s.free := by
  unfold logErr; dsimp only; split <;> split <;> simp only [fireVector_free, setPkg_free, logOne_free]
theorem fireVector_pending (s : State) (p : Port) (v : Nat) : (s.fireVector p v).pending = s.pending := by
  unfold fireVector; split <;> simp
theorem logOne_pending (s : State) (n : Nat) (b : Bool) (e : ErrInfo) : (s.logOne n b e).pending = s.pending := by
  unfold logOne setErrsum setLog; simp
@[simp] theorem logErr_pending (s : State) (e : ErrInfo) : (s.logErr e).pending = s.pending := by
  unfold logErr; dsimp only; split <;> split <;> simp only [fireVector_pending, setPkg_pending, logOne_pending]

end Sys2Proof.Machine.State
end

