-- ==== Sys2Proof/Tests/Slice0.lean ====
section
/-! SUPPORT. Tests: terms that WellFormed refuses, words from the spec's tables, small steps, and a witness for the hypotheses of each statement. -/

namespace Sys2Proof.Tests

set_option Elab.async false

open Sys2Proof Sys2Proof.Machine

/-- StepRunsTheFrontCommand: a queue of two commands. -/
theorem wit_step_front : (State.reset.setPending [.heartbeatStale, .causewayFailed]).pending = [.heartbeatStale, .causewayFailed] := by decide

/-- EmptyQueueIdles: the state after reset. -/
theorem wit_idle : State.reset.pending = [] := by decide

/-- MemoryStaysCanonical: memory with two bytes, and a step from there. -/
theorem wit_memory : Memory.wf (((State.reset.setByte 7 1).setByte 3 2).mem) = true ∧ ((State.reset.setByte 7 1).setByte 3 2).mem.length = 2 := by decide

/-- FusesOnlyBlow: a step from reset that blows the lock fuse. -/
theorem wit_fuses : (match step (State.reset.setPending [.lockfuse .w]) with | .next t => t.pending.isEmpty | _ => false) = true := by decide

/-- A task that runs on core 0 in slot 0. -/
def demoTask : Task :=
  { id := 1, number := 5, partition := 0, slot := 0, port := .w, tq := 0, cq := 0, tag := 0, cores := [0], state := 2, launchAt := 0, launch := [], map := [],
    started := [0], release := false, skip := false, aborting := false, truncated := false, logged := false, error := 0, errCore := 0, errSeq := 0,
    discarded := false }

/-- The state after reset with that task. -/
def demo : State := State.reset.setTasks [demoTask]

/-- Engine e of core 0 for slot 0. -/
def eng (e : Nat) : EngRef := ⟨0, 0, e⟩

/-- EngineControlCompletes: each of its commands can issue for the task of demo. -/
theorem wit_engine_control : Runs demo allEngines (eng 5) (.nop (eng 5)) demoTask ∧ Runs demo allEngines (eng 5) (.endSeq (eng 5)) demoTask
    ∧ Runs demo allEngines (eng 0) (.setlc (eng 0) 7 false 0 0xFFFFFFFF) demoTask ∧ Runs demo allEngines (eng 0) (.setlc (eng 0) 0 true 15 0) demoTask
    ∧ Runs demo allEngines (eng 3) (.param (eng 3) 3 9) demoTask ∧ Runs demo [7] (eng 7) (.release (eng 7)) demoTask := by
  unfold Runs; decide

/-- RegisterCommandsFrame: an engine of demo at its first instruction. -/
theorem wit_register_frame : Runs demo allEngines (eng 2) (.setlc (eng 2) 7 false 0 5) demoTask ∧ Quiet demo (eng 2) demoTask ∧ (demo.eng (eng 2)).frames = [] := by
  unfold Runs
  exact ⟨by decide, ⟨by decide, by decide, by decide, by decide, eng 3, by decide, by decide, by decide, by decide, by decide⟩, by decide⟩

/-- WaitsComplete: counters at the value that is asked for. -/
theorem wit_waits : let s := (demo.setRf (tmReg 0 0 63) 31 0 7).setRf (semReg 0 0 15) 15 0 3
    (Runs s allEngines (eng 1) (.waitGe (eng 1) 63 7) demoTask ∧ 7 ≤ (s.begin' (eng 1)).rf (tmReg 0 0 63) 31 0)
    ∧ (Runs s allEngines (eng 1) (.waitTake (eng 1) 63 7) demoTask)
    ∧ Runs s allEngines (eng 1) (.waitAcq (eng 1) 15 3) demoTask ∧ 3 ≤ (s.begin' (eng 1)).rf (semReg 0 0 15) 15 0 := by
  unfold Runs; decide

/-- IncrementsOfCounters: counters at the edge of their widths. -/
theorem wit_counters : let s := (demo.setRf (tmReg 0 0 63) 31 0 (2 ^ 32 - 2)).setRf (semReg 0 0 15) 15 0 (2 ^ 16 - 2)
    s.rf (tmReg 0 0 63) 31 0 + 1 < 2 ^ 32 ∧ s.rf (semReg 0 0 15) 15 0 + 1 < 2 ^ 16 := by decide

/-- SignalsComplete: the own core, and core 1 of the same die for a task that has it. -/
theorem wit_signals : let t : Task := { demoTask with cores := [0, 1] }
    let s := State.reset.setTasks [t]
    (s.eng (eng 4)).moves = [] ∧ Runs s allEngines (eng 4) (.signalAdd (eng 4) 0x1FF 63 1) t ∧ Runs s allEngines (eng 4) (.signalPost (eng 4) 1 15 1) t
    ∧ Runs s allEngines (eng 4) (.chsend (eng 4) 7 true 1 5) t ∧ s.enabled 1 = true ∧ t.cores.contains 1 = true := by
  unfold Runs; decide

/-- ChrecvCompletes: a channel with an end packet, and an empty tagged one. -/
theorem wit_chrecv : let s := (demo.setChan 0 3 { Chan.empty with words := [(2 ^ 64 - 1, true)] }).setReg ⟨.chCfg, 0, 4⟩ 1
    Runs s allEngines (eng 6) (.chrecv (eng 6) 3 1 true 2) demoTask ∧ Runs s allEngines (eng 6) (.chrecv (eng 6) 4 1 true 2) demoTask
    ∧ (s.begin' (eng 6)).dispChannel 0 3 = false ∧ ((s.begin' (eng 6)).chan 0 4).words = [] ∧ (s.begin' (eng 6)).rb ⟨.chCfg, 0, 4⟩ 0 = true := by
  unfold Runs; decide

/-- A page table of tier 0 at 0x1000: page 0 maps to itself. -/
def pageCells : List Host.Cell :=
  [(0x1007, 224)]

/-- Two windows at 0x2000: page 0, and core 0's Cove. -/
def windowCells : List Host.Cell :=
  [(0x2000, 3), (0x200a, 32), (0x2010, 3), (0x2014, 8), (0x2015, 1), (0x201b, 16), (0x201c, 8), (0x201d, 1)]

/-- The bytes of descriptor k in the table at 0x3000, all in core 0's Cove: 0 FP32 [64]; 1 INT32 [64]; 2 FP32 tiles; 3 bytes [544]; 4 and 5 INT64 [24];
6 FP32 rows; 7 bytes [1, 64]; 8 INT8 tiles; 9 PF1 tiles; 10 INT8 [127]. -/
def descCells (k : Nat) : List Host.Cell :=
  match k with
  | 0 => [(0x3004, 8), (0x3005, 1), (0x3008, 1), (0x3009, 8), (0x300c, 255), (0x3010, 64)]
  | 1 => [(0x3081, 16), (0x3084, 8), (0x3085, 1), (0x3088, 18), (0x3089, 8), (0x308c, 255), (0x3090, 64)]
  | 2 => [(0x3101, 32), (0x3104, 8), (0x3105, 1), (0x3108, 33), (0x3109, 16), (0x310c, 255), (0x3110, 64), (0x3114, 64)]
  | 3 => [(0x3181, 64), (0x3184, 8), (0x3185, 1), (0x3188, 16), (0x3189, 8), (0x318c, 255), (0x3190, 32), (0x3191, 2)]
  | 4 => [(0x3201, 96), (0x3204, 8), (0x3205, 1), (0x3208, 19), (0x3209, 8), (0x320c, 255), (0x3210, 24)]
  | 5 => [(0x3281, 112), (0x3284, 8), (0x3285, 1), (0x3288, 19), (0x3289, 8), (0x328c, 255), (0x3290, 24)]
  | 6 => [(0x3301, 32), (0x3304, 8), (0x3305, 1), (0x3308, 65), (0x3309, 16), (0x330c, 255), (0x3310, 64), (0x3314, 4)]
  | 7 => [(0x3381, 128), (0x3384, 8), (0x3385, 1), (0x3388, 16), (0x3389, 16), (0x338c, 255), (0x3390, 1), (0x3394, 64), (0x33b5, 1)]
  | 8 => [(0x3401, 32), (0x3404, 8), (0x3405, 1), (0x3408, 47), (0x3409, 16), (0x340c, 255), (0x3410, 64), (0x3414, 64)]
  | 9 => [(0x3481, 32), (0x3484, 8), (0x3485, 1), (0x3488, 56), (0x3489, 16), (0x348c, 255), (0x3490, 64), (0x3494, 64)]
  | 10 => [(0x3501, 16), (0x3504, 8), (0x3505, 1), (0x3508, 15), (0x3509, 8), (0x350c, 255), (0x3510, 127)]
  | _ => []

/-- Stream record 0 at 0x4000: one element of tensor 0 to element 1 of tensor 0. -/
def streamCells : List Host.Cell :=
  [(0x4000, 1), (0x4004, 1), (0x4008, 1), (0x400c, 1), (0x4010, 1), (0x4017, 4), (0x4018, 255), (0x4019, 15), (0x4050, 1)]

/-- Nests at 0x5000: 0 of one level of 2 points; 1 an items nest of every engine. -/
def nestCells : List Host.Cell :=
  [(0x5000, 1), (0x5020, 2), (0x5080, 1), (0x5081, 1), (0x5088, 255), (0x50a0, 1)]

/-- Tensor 5: one item for die 0 at address 0. -/
def listCells : List Host.Cell :=
  [(0x10800007008, 1)]

/-- The merge table of a group of one record from ring 40 to the output ring, in single records. -/
def mergeTable : List Byte := [1, 0, 0, 0, 1, 0, 16, 0, 0, 0, 0, 0, 255, 15, 0, 0, 0, 0, 0, 0, 0, 0, 0, 0, 0, 0, 0, 0, 0, 0, 0, 0, 255, 15, 255, 15] ++ zeros 508

/-- A task of core 0 in slot 0 whose launch record names those tables, with w windows. -/
def mappedTask (w : Nat) : Task :=
  { demoTask with launch := [0, 0, 0, 0, 0, 2, BitVec.ofNat 8 w, 0, 11, 0, 1, 0, 0, 0, 0, 0, 0, 0x30, 0, 0, 0, 0, 0, 0, 0, 0x40, 0, 0, 0, 0, 0, 0, 0, 0x20, 0, 0, 0, 0, 0, 0, 0, 0x50] }

/-- The state after reset with that task, partition 0's page table, slot 0's Cove window, the listed cells, and configurations of rings. -/
def mapped (w : Nat) (cells : List Host.Cell) : State :=
  let s := (State.reset.setTasks [mappedTask w]).setMem (pageCells ++ cells)
  let s := (s.setReg ⟨.lhPtbase, 0, 0⟩ 0x1001).setReg ⟨.cvBound, 0, 0⟩ (BitVec.ofNat 64 (2 ^ 63 + 256))
  let r : Word := BitVec.ofNat 64 (2 ^ 63 + 2 ^ 16)
  let s := (s.setReg ⟨.rpCfg, 0, 0⟩ (r + 0x20000000000000)).setReg ⟨.rpCfg, 0, 1⟩ (r + 0x30000000000000)
  let s := (s.setReg ⟨.rpCfg, 0, 8⟩ r).setReg ⟨.rpCfg, 0, 34⟩ (r + 0x30000)
  (((s.setReg ⟨.rpCfg, 0, 40⟩ r).setReg ⟨.slCfg, 0, 0⟩ 0x408).setReg ⟨.esOut, 0, 0⟩ 1).setReg ⟨.esCfg, 0, 0⟩ 0

/-- That state with an empty tile of type a in ring 0 and one of type b in ring 8. -/
def mappedTiles (a b : Nat) (cells : List Host.Cell) : State :=
  ((mapped 0 cells).setRing 0 0 { Ring.empty with slots := [⟨emHeader a, 0, 0xFF, false⟩] }).setRing 0 8 { Ring.empty with slots := [⟨emHeader b, 0, 0xFF, false⟩] }

/-- ListAndChainComplete: a core that is no starter; a starter whose list is empty; one whose list has an item; chain slots at both ends. -/
theorem wit_list_other : Runs demo [7] (eng 7) (.list (eng 7) 31 0) demoTask ∧ Runs demo [0, 1] (eng 0) (.ebbSetimm (eng 0) 7 1 2) demoTask
    ∧ Runs demo [0, 1] (eng 1) (.ebbSetvec (eng 1) 0 0xFFF) demoTask := by unfold Runs; decide

/-- The windows of a task with two. -/
def twoWindows : List Window := [⟨0, 0x200000, true, true⟩, ⟨0x10800000000, 0x10810000000, true, true⟩]

theorem ok_of_some {ε α : Type} {e : Except ε α} {a : α} (h : e.toOption = some a) : e = .ok a := by
  cases e with
  | ok b => injection h with h; rw [h]
  | error _ => cases h

theorem wit_list_empty : let s := mapped 2 (windowCells ++ descCells 4)
    Runs s [7] (eng 7) (.list (eng 7) 0 4) (mappedTask 2) ∧ (s.begin' (eng 7)).windowTable (mappedTask 2) = .ok twoWindows
    ∧ (s.begin' (eng 7)).listEntry (mappedTask 2) twoWindows 0 4 0 = .ok (0, 0) :=
  ⟨by unfold Runs; decide +kernel, ok_of_some (by decide +kernel), ok_of_some (by decide +kernel)⟩

theorem wit_list_items : let s := mapped 2 (windowCells ++ descCells 5 ++ listCells)
    Runs s [7] (eng 7) (.list (eng 7) 0 5) (mappedTask 2) ∧ (s.begin' (eng 7)).windowTable (mappedTask 2) = .ok twoWindows
    ∧ (s.begin' (eng 7)).listEntry (mappedTask 2) twoWindows 0 5 0 = .ok (0, 1) :=
  ⟨by unfold Runs; decide +kernel, ok_of_some (by decide +kernel), ok_of_some (by decide +kernel)⟩

/-- Operands of an MMA of one output block and one chunk that starts its tile and leaves it. -/
def mmaOne (a b : Nat) : MmaOps := ⟨0, 0, 0, 0, 0, false, false, true, 0, 0xFFF, b, a, 0, false⟩

/-- Operands of a LOOKOUT of one group row. -/
def lookOne : LookoutOps := ⟨0, 0, 0, 0, 0, false, false, 1, 0, 7, 9, 8, 0, 0, false⟩

/-- A run of an array with every block drained. -/
def arrayDrained : ArrayRun :=
  { ob := 1, lob := 1, rc := 0, col := 0, half := 0, taken := [], groups := [], loads := [], active := false, full := false, mb := 0, ci := 0, counted := false,
    elems := [], parts := [], c := [], abar := [], stats := [], doom := none, single := none, chain := [] }

/-- The state of mappedTiles with array 0 at the end of a run. -/
def mappedDrained (cells : List Host.Cell) : State := (mapped 0 cells).setRun (eng 0) (.array arrayDrained)

/-- ArrayCommandsComplete: a whole MMA of empty tiles. -/
theorem wit_mma_dense : let s := mappedTiles 1 1 (descCells 2)
    Runs s [0, 1] (eng 0) (.mmaDense (eng 0) (mmaOne 2 2)) (mappedTask 0)
    ∧ (arrayDone (s.begin' (eng 0)) (eng 0) (mappedTask 0) .dense (mmaOne 2 2) noLookout).isSome = true := by unfold Runs; decide +kernel

/-- ArrayCommandsComplete: the other forms at the end of a run. -/
theorem wit_mma_sliding : let s := mappedDrained (descCells 8 ++ descCells 10)
    Runs s [0, 1] (eng 0) (.mmaSliding (eng 0) (mmaOne 10 8)) (mappedTask 0)
    ∧ (arrayDone (s.begin' (eng 0)) (eng 0) (mappedTask 0) .sliding (mmaOne 10 8) noLookout).isSome = true := by unfold Runs; decide +kernel

theorem wit_mma_transposed : let s := mappedDrained (descCells 2)
    Runs s [0, 1] (eng 0) (.mmaTransposed (eng 0) (mmaOne 2 2)) (mappedTask 0)
    ∧ (arrayDone (s.begin' (eng 0)) (eng 0) (mappedTask 0) .transposed (mmaOne 2 2) noLookout).isSome = true := by unfold Runs; decide +kernel

theorem wit_mma_plane : let s := mappedDrained (descCells 8 ++ descCells 9)
    Runs s [0, 1] (eng 0) (.mmaPlane (eng 0) (mmaOne 8 9)) (mappedTask 0)
    ∧ (arrayDone (s.begin' (eng 0)) (eng 0) (mappedTask 0) .plane (mmaOne 8 9) noLookout).isSome = true := by unfold Runs; decide +kernel

theorem wit_spmm : let s := mappedDrained (descCells 2)
    Runs s [0, 1] (eng 0) (.spmm (eng 0) (mmaOne 2 2)) (mappedTask 0)
    ∧ (arrayDone (s.begin' (eng 0)) (eng 0) (mappedTask 0) .sparse (mmaOne 2 2) noLookout).isSome = true := by unfold Runs; decide +kernel

theorem wit_lookout : let s := mappedDrained (descCells 7 ++ descCells 8 ++ descCells 9)
    Runs s [0, 1] (eng 0) (.lookout (eng 0) lookOne) (mappedTask 0)
    ∧ (arrayDone (s.begin' (eng 0)) (eng 0) (mappedTask 0) .lookout (lookoutMma lookOne) lookOne).isSome = true := by unfold Runs; decide +kernel

/-- LoopsComplete: a LOOP that is skipped and one of three passes, a NEST of two points and an items nest. -/
theorem wit_loops : let s := (mapped 0 nestCells).setReg (lcReg 0 5 2) 3
    Runs s allEngines (eng 5) (.loop (eng 5) 1 4) (mappedTask 0) ∧ Runs s allEngines (eng 5) (.nest (eng 5) 1 4) (mappedTask 0)
    ∧ bodyFault ((s.begin' (eng 5)).eng (eng 5)) 4 = none ∧ inNest ((s.begin' (eng 5)).eng (eng 5)) = false ∧ 1 < (mappedTask 0).nests
    ∧ (match s.nestEntry (mappedTask 0) 0 0, s.nestEntry (mappedTask 0) 0 1 with
      | .ok e, .ok f => !e.items && f.items && bitOf f.engines 5
      | _, _ => false) = true := by unfold Runs; decide +kernel

/-- Whether a run is done. -/
def isDone : RunEnd → Bool
  | .done _ => true
  | _ => false

/-- DataUnitsComplete: a MOVE of one element within the Cove of core 0. -/
theorem wit_move : let s := mapped 2 (windowCells ++ descCells 0 ++ streamCells)
    Runs s [5, 6] (eng 5) (.move (eng 5) ⟨0, 0, false⟩) (mappedTask 2)
    ∧ (moveDone (s.begin' (eng 5)) (eng 5) (mappedTask 2) ⟨0, 0, false⟩).isSome = true := by unfold Runs; decide +kernel

/-- A MOVE whose transactions have all completed. -/
def doneMove : MoveSt :=
  { id := 0, arrive := false, counter := 0, add := 0xFF, ty := 1, srcHandle := 0, dstHandle := 0, tenant := false, total := 1, next := 1, transpose := false,
    strip := [], done := 1, units := [], entry := none, combined := false, prev := [], cur := [], ahead := none, grow := none, got := [], nextRead := 1, xacts := [],
    group := none, tx := none, ring := none, slot := [], vals := [] }

theorem wit_move_complete : ((demo.updEng (eng 6) fun c => { c with moves := [doneMove] }).eng (eng 6)).moves.find? MoveSt.isDone = some doneMove := by decide

/-- Operands of an ISECT of rows with coordinates into records of positions. -/
def isectOne : IsectOps := ⟨1, 0, 0, false, false, false, false, false, 0xFFF, 1, 6, 0, 0, false⟩

/-- DataUnitsComplete: an ISECT whose rows have all been met. -/
theorem wit_isect : let s := (mapped 0 (descCells 1 ++ descCells 6)).setRun (eng 2) (.isect ⟨5, 0, 0, none, 0, [], []⟩)
    Runs s [2] (eng 2) (.isect (eng 2) isectOne) (mappedTask 0)
    ∧ (match (s.begin' (eng 2)).isectEnv (eng 2) (mappedTask 0) isectOne with
      | .ok e => isDone (State.slGo e (2 * e.count + 8) (s.begin' (eng 2)) ⟨5, 0, 0, none, 0, [], []⟩)
      | .error _ => false) = true := by unfold Runs; decide +kernel

/-- DataUnitsComplete: a MERGE after its last group. -/
theorem wit_merge : let s := (mapped 0 []).setRun (eng 3) (.merge ⟨mergeTable, 1, [], 0, [], 0, [], none⟩)
    Runs s [3] (eng 3) (.merge (eng 3) 3) (mappedTask 0)
    ∧ (match (s.begin' (eng 3)).mergeEnv (eng 3) (mappedTask 0) 3 mergeTable with
      | .ok e => isDone (State.mergeGo e (1 + 2 ^ 12) (s.begin' (eng 3)) ⟨mergeTable, 1, [], 0, [], 0, [], none⟩)
      | .error _ => false) = true := by unfold Runs; decide +kernel

/-- Operands of a PACK of one tile. -/
def packOne : PackOps := ⟨0, false, 0, 2, 0xFFF, 1, 0, 0, false⟩

/-- DataUnitsComplete: a PACK after its last tile. -/
theorem wit_pack : let s := (mapped 0 (descCells 2)).setRun (eng 4) (.pack ⟨1, 0⟩)
    Runs s [4] (eng 4) (.pack (eng 4) packOne) (mappedTask 0)
    ∧ (match (s.begin' (eng 4)).packEnv (eng 4) (mappedTask 0) packOne with
      | .ok e => isDone (State.packGo e 1 (s.begin' (eng 4)) ⟨1, 0⟩)
      | .error _ => false) = true := by unfold Runs; decide +kernel

/-- IntegerAccumulation: the largest sum, the smallest, and sums one beyond. -/
theorem wit_accumulation : sext 32 0x7FFFFFFE + sext 32 1 = 2 ^ 31 - 1 ∧ sext 32 0x80000001 + sext 32 0 = -(2 ^ 31 - 1)
    ∧ sext 32 0x7FFFFFFF + sext 32 1 = 2 ^ 31 ∧ sext 32 0x80000001 + sext 32 0xFFFFFFFF = -(2 ^ 31) := by decide

/-- IntegerPartials: a sum that leaves the range with its second product, and the smallest INT8 product. -/
theorem wit_partials :
    2 ^ 31 - 1 < exactSum 0x12 0x12 ([(⟨0x7FFFFFFF, true, 0x7F⟩, ⟨1, true, 0x7F⟩), (⟨1, true, 0x7F⟩, ⟨1, true, 0x7F⟩)].take 2)
    ∧ exactSum 0x0F 0x0F ([(⟨0x80, true, 0x7F⟩, ⟨0x7F, true, 0x7F⟩)].take 1) = -16256 := by decide

/-- CoordinateMatching: lists with a gap that gallops. -/
theorem wit_matching : ((List.range 40).map fun k => (k, k)).Pairwise (fun p q => p.1 < q.1) ∧ [(3, 0), (39, 1), (50, 2)].Pairwise (fun p q => p.1 < q.1)
    ∧ (matchRuns 51 ((List.range 40).map fun k => (k, k)) [(3, 0), (39, 1), (50, 2)] 0 0).1 = [(3, 3, 0), (39, 39, 1)] := by decide

/-- ReplaceKeepsTheHighestPort: sixteen ports of which two hold the key. -/
theorem wit_port_tree : (none :: some 7 :: List.replicate 13 none ++ [some 9]).length = 16
    ∧ portTree 3 0 (none :: some 7 :: List.replicate 13 none ++ [some 9]) = some 9 := by decide

/-- AddressesNameOnePlace: the last byte of each kind of place. -/
theorem wit_places : placeOf 0xBFFFFFFFFF = .tower 7 0x17FFFFFFFF ∧ placeOf 0x1B003FFFFFF = .lagoon 11 0x3FFFFFF
    ∧ placeOf 0x1B9FFFFFFFF = .cove 383 0xFFFFFFF ∧ placeOf 0x10FFFFFFFFFFF = .cxl 3 0x3FFFFFFFFFF ∧ placeOf 0xFFFFFFFFFFFFF = .control 0xFFFFFFFFFFFF := by decide

/-- The state after reset with port W in control. -/
def controlled : State := State.reset.setPkg { State.reset.pkg with control := 1 }

/-- A launch record of task 9 in slot 2 of core 0, partition 0. -/
def record9 : List Host.Cell := [(0x6000, 9), (0x6004, 0x20), (0x60C0, 1)]

/-- A task queue of port W with one entry waiting, of partition 0. -/
def queued : State :=
  let s := controlled.setMem (pageCells ++ record9)
  ((s.setReg ⟨.lhPtbase, 0, 0⟩ 0x1001).setRf ⟨.hbTqcfg, 0, 3⟩ 63 63 1).setRf ⟨.hbTqdb, 0, 3⟩ 15 0 1

/-- TaskQueuesComplete: a doorbell at the last entry, an entry that is taken, a fetch. -/
theorem wit_doorbell : controlled.gate (.host .w) true ⟨.hbTqdb, 0, 63⟩ = none ∧ controlled.rb ⟨.hbPortstat, 0, 0⟩ 63 = true
    ∧ 15 < State.queueSize (controlled.rf ⟨.hbTqcfg, 0, 63⟩ 3 0) ∧ (controlled.port .w).heldWrites = [] :=
  ⟨Option.isNone_iff_eq_none.mp (by decide), by decide, by decide, by decide⟩

theorem wit_queue : queued.queueServed .w 3 = true ∧ entryBad (leBytes 8 0x6000 ++ zeros 56) (zeros 256) = false
    ∧ (match queued.fetch 0 0x6000 256 with
      | .ok lr => fieldAt lr 4 1 % 8 == 0 && launchCores lr == [0] && fld (fieldAt lr 4 1) 5 4 == 2
      | .error _ => false) = true
    ∧ queued.dieOwner 0 = 0 ∧ queued.fenced 1 0 = false ∧ queued.tasks = [] ∧ queued.takesTasks 0 = true := by decide +kernel

/-- A task whose engine 5 has a stream of 40 words in host memory, and whose engine 6 is express. -/
def streamTask : Task := { demoTask with map := zeros 88 ++ [40, 0, 0, 0, 0, 0, 0, 0] ++ zeros 12 ++ [1, 0, 0, 0] }

/-- StreamWordsArrive: a first block, and an express write at the end of a window. -/
theorem wit_streams : let s := controlled.setTasks [streamTask]
    s.taskAt 0 0 = some streamTask ∧ mapExpress streamTask.map 5 = false ∧ mapDpa streamTask.map 5 = false ∧ mapCount streamTask.map 5 = 40
    ∧ (s.eng ⟨0, 0, 5⟩).words = 0 ∧ (s.eng ⟨0, 0, 5⟩).position = 0 ∧ (s.eng ⟨0, 0, 5⟩).early = []
    ∧ mapExpress streamTask.map 6 = true ∧ (s.port .w).linkUp = true ∧ s.enabled 0 = true ∧ s.standby .w = false ∧ 0xFF8 + 8 ≤ 0x1000 := by decide

/-- A queued task of core 0 whose launch record at 0x6000 has one window, one descriptor, a Cove window of 4 KiB units 0 to 1, and a run-time extent of 3
planned as 4. -/
def waitingTask : Task := { demoTask with state := 1, started := [], launchAt := 0x6000 }

/-- That task with its record in memory. -/
def waitingState : State :=
  let s := (State.reset.setTasks [waitingTask]).setMem (pageCells ++ [(0x6000, 5), (0x6006, 1), (0x6008, 1), (0x600E, 1), (0x6040, 3), (0x6080, 4), (0x60C0, 1)])
  s.setReg ⟨.lhPtbase, 0, 0⟩ 0x1001

/-- TaskStartCompletes: a task whose record reads, keeps the rules, and starts. -/
theorem wit_start :
    (match waitingState.fetch 0 0x6000 256 with
    | .ok lr =>
      let u : Task := { waitingTask with launch := lr }
      let a := waitingState.updTask 1 fun v => { v with launch := lr, skip := false }
      decide (waitingState.taskAt 0 0 = some waitingTask) && decide (waitingState.strataState 0 = 0) && !waitingState.fenced 1 0
        && decide (waitingState.ownerOf (coveBase 0) = 0) && !u.debug && !a.recordBad u && !a.windowMoves u 0 && (a.setWindow u 0).windowOk 0 0
        && u.shape 0 == 3 && u.plan 0 == 4 && (List.range 15).all (fun i => u.plan (i + 1) == 0) && (((a.setWindow u 0).clearSlot u 0).nestFault u).isNone
    | .error _ => false) = true := by decide +kernel

/-- TaskEndsComplete: a task that has drained for an error, and one for its truncation point. -/
theorem wit_drains : let t : Task := { demoTask with state := 3, aborting := true }
    let v : Task := { demoTask with state := 3, truncated := true }
    (State.reset.setTasks [t]).taskAt 0 0 = some t ∧ (State.reset.setTasks [t]).drained t = true ∧ (State.reset.setTasks [t]).taskId 1 = some t
    ∧ (State.reset.setTasks [v]).taskAt 0 0 = some v ∧ (State.reset.setTasks [v]).drained v = true
    ∧ ((State.reset.setTasks [v]).writeReports v).taskId 1 = some v := by decide

/-- TaskEndsComplete: a task at its truncation point of 0 words. -/
theorem wit_truncation : let t : Task := { demoTask with launch := zeros 63 ++ [0x80] }
    (State.reset.setTasks [t]).taskAt 0 0 = some t ∧ (State.reset.setTasks [t]).atTruncation ⟨0, 0, t.truncEngine⟩ t = true
    ∧ ((State.reset.setTasks [t]).eng ⟨0, 0, t.truncEngine⟩).ended = false := by decide

/-- TaskEndsComplete: an entry held for queue 5, which is open; and an enable of queue 6. -/
theorem wit_held : let s := (controlled.setPort .w { controlled.port .w with held := [(4, zeros 32), (5, zeros 32)] }).setRf ⟨.hbCqcfg, 0, 5⟩ 63 63 1
    (s.port .w).held.find? (fun h => h.1 == 5) = some (5, zeros 32) ∧ (s.setRf ⟨.hbCqhead, 0, 5⟩ 15 0 9).cqOpen .w 5 = true
    ∧ (s.gate (.host .w) true ⟨.hbCqcfg, 0, 6⟩).isNone = true ∧ wbit (BitVec.ofNat 64 (2 ^ 63 + 4)) 63 = true := by decide

/-- CompletionEntriesAdvance: an entry at the tail before the wrap. -/
theorem wit_entry : (zeros 32).length = 32 ∧ (State.reset.setRf ⟨.hbCqstat, 0, 5⟩ 15 0 15).rf ⟨.hbCqstat, 0, 5⟩ 15 0 + 1
    = State.queueSize (State.reset.rf ⟨.hbCqcfg, 0, 5⟩ 3 0) := by decide

/-- A frame of partition 0 between core 0's Stream Engine and an address. -/
def frameTo (kind address source : Nat) (payload : List Byte) : Frame :=
  { kind := kind, partition := 0, arrive := false, address := address, package := 256, payload := payload, count := 8, counter := 63, source := source,
    engine := 6, tag := 3, slot := 0, add := 0xFF, post := false, amount := 1, target := 12, gen := 0, epoch := 2 }

/-- The state with link 35 up and keyed, on the route to package 7. -/
def linked : State :=
  ((State.reset.setRf (blReg .blStatus 35) 63 62 3).setReg ⟨.lhRoute, 0, 7⟩ (BitVec.ofNat 64 (2 ^ 35))).setLink 35 { Link.down with cable := true }

/-- TransfersComplete: the last bytes of a tower, a scatter-add, a peer of package 7, a peer's and an engine's response. -/
theorem wit_transfers : let f := frameTo 0 0x17FFFFFFF8 200 [1, 2, 3, 4, 5, 6, 7, 8]
    State.reset.serveFault f = none ∧ State.reset.writeFault f.address 8 = none ∧ State.reset.readFault f.address 8 = none ∧ f.add = 0xFF
    ∧ { f with add := 0x12 }.add ≠ 0xFF ∧ linked.routeLink 0 7 f.address = some 35 ∧ { f with package := 7 }.package ≠ 256 ∧ f.source < 384
    ∧ 512 ≤ { f with source := 547 }.source ∧ (State.reset.arrived f).serveFault f = none := by decide +kernel

/-- A write of 8 bytes to a tower that has asked for its credit under tag 3. -/
def askedWrite : Xact := ⟨0, false, 1, true, 256, 0x40, 2, 8, [1, 2, 3, 4, 5, 6, 7, 8], [], 3, 1, 0, 0, 0, 0x40, false, false, 0⟩

/-- CreditsMove: an engine's write, a SIGNAL of core 0 to core 40, a port's held write, a peer, a Cove. -/
theorem wit_credits :
    let f := frameTo 4 0x40 0 []
    let m := demo.updEng (eng 6) fun c => { c with moves := [{ doneMove with xacts := [askedWrite] }] }
    let i : Instr := .signalAdd (eng 6) 40 2 1
    let b := demo.updEng (eng 6) fun c => { c with blocked := some (.send i (frameTo 6 (coveBase 40) 0 []) true) }
    let h := State.reset.setPort .w { HostPort.fresh with heldWrites := [frameTo 0 0x40 0x1FF []] }
    State.frameEngine f = eng 6 ∧ m.taskAt 0 0 = some demoTask ∧ m.findXact (eng 6) 1 3 = some (doneMove.id, askedWrite) ∧ f.tag ≠ syncTag
    ∧ b.taskAt 0 0 = some demoTask ∧ (b.eng (eng 6)).blocked = some (.send i (frameTo 6 (coveBase 40) 0 []) true)
    ∧ State.framePort { frameTo 4 0x40 0x18F [] with engine := 0 } = .w ∧ ((h.port .w).heldWrites.find? fun w => w.tag == 3).isSome = true
    ∧ 384 ≤ 0x18F ∧ 0x18F < 512 ∧ (placeOf (coveBase 383) = .cove 383 0) ∧ demoTask.aborting = false := by decide +kernel

/-- HopsAdvance: sources of each kind, a hop at the end of the sequence ring, the Causeway, a link. -/
theorem wit_hops : (frameTo 10 0 383 []).source < 384 ∧ 384 ≤ (frameTo 10 0 0x1FF []).source ∧ (frameTo 10 0 0x1FF []).source < 512
    ∧ 512 ≤ (frameTo 10 0 547 []).source ∧ 13 < 100 ∧ 13 ≠ causewayHop ∧ causewayHop < 100 ∧ seqLe 65535 0 = true ∧ seqLe 0 65535 = false := by decide

/-- HopsAdvance: frames of counters 7 and 8 wait in link 35's replay buffer; 9 is no frame of it. -/
theorem wit_link_acks : let g : LinkOut := ⟨7, 0, some 1, 1, 0, 0, 0, some (frameTo 1 0 0 []), []⟩
    let s := State.reset.setLink 35 { Link.down with replay := [g, { g with counter := 8 }], sendCounter := 9 }
    ((s.link 35).replay.findIdx? fun g => g.counter == 8) = some 1 ∧ ((s.link 35).replay.findIdx? fun g => g.counter == 10) = none
    ∧ 10 ≠ (s.link 35).sendCounter := by decide

/-- HostWritesStoreTheirBytes: port W's write of the last 8 bytes of a Cove's slot, of a Lagoon, and one to poison. -/
theorem wit_host_write : let f := frameTo 0 (coveBase 383 + 0xFFFFFF8) 0x1FF [1, 2, 3, 4, 5, 6, 7, 8]
    384 ≤ f.source ∧ f.package = 256 ∧ f.arrive = false ∧ f.mask = [] ∧ placeOf f.address = .cove 383 0xFFFFFF8 ∧ State.reset.serveFault f = none
    ∧ State.reset.writeFault f.address 8 = none ∧ ((State.reset.setPoison [(f.address - 8, 16)]).writeFault f.address 8).isSome = true := by decide +kernel

/-- ReadsLeaveMemory: a READ_REQUEST, and one that poisons the block of its last byte. -/
theorem test_read_poisons : (frameTo 1 0x1000 0 []).kind = 1 ∧ State.reset.struck = [] ∧
    ((State.reset.takeRead (frameTo 1 0x103C 0 []) (.uncorrectable 7)).poison) = [(0x1040, 64)] := by decide +kernel

/-- CreditsAreConserved: the last credit of a pool granted, one that waits, a return, a return of an older generation. -/
theorem wit_pools : let s := (State.reset.setPool 0 12 ⟨64, 8, 3, []⟩).setRf ⟨.lhQuota, 0, 2⟩ 31 0 0xFFFFFFFF
    let f := frameTo 3 0x40 0 []
    s.targetFenced 12 = false ∧ (s.pool 0 12).queue = [] ∧ min f.count (s.pool 0 12).size = 8 ∧ 8 ≤ (s.pool 0 12).avail
    ∧ ((State.reset.setPool 0 12 ⟨64, 7, 3, []⟩).pool 0 12).avail < 8 ∧ { f with gen := 3 }.gen = (s.pool 0 12).gen ∧ s.quotaLimit 0 2 = none
    ∧ { f with gen := 2 }.gen ≠ (s.pool 0 12).gen := by decide

/-- Link 35 up towards package 255 (this module leads) or 0 with its own number 1 (it follows), with or without keys. -/
def leading (keyed : Nat) (stage : Nat) : State :=
  (State.reset.setRf (State.linkStat 35) 63 40 (2 ^ 23 + keyed * 2 ^ 22 + 255)).setLink 35 { Link.down with cable := true, stage := stage }

def following (keyed : Nat) (stage : Nat) : State :=
  ((State.reset.setRf (State.linkStat 35) 63 40 (2 ^ 23 + keyed * 2 ^ 22)).setReg ⟨.lhPackage, 0, 0⟩ 1).setLink 35 { Link.down with cable := true, stage := stage }

/-- KeyMessagesComplete. -/
theorem wit_keys : (leading 0 0).linkUp 35 = true ∧ (leading 0 0).leads 35 = true ∧ (leading 0 0).linkKeyed 35 = false ∧ (leading 1 0).linkKeyed 35 = true
    ∧ (leading 1 0).linkRotating 35 = false ∧ (leading 1 0).leads 35 = true ∧ (leading 1 0).linkUp 35 = true
    ∧ (following 0 0).linkUp 35 = true ∧ (following 0 0).leads 35 = false ∧ (following 0 4).linkKeyed 35 = false ∧ (following 1 4).linkKeyed 35 = true
    ∧ (following 1 0).leads 35 = false ∧ ((following 0 4).link 35).stage = 4 ∧ (following 0 4).trust.entropyOk = true
    ∧ ((leading 1 5).link 35).stage = 5 ∧ ((leading 0 1).link 35).stage = 1 ∧ ((following 0 2).link 35).stage = 2 ∧ (following 0 2).linkUp 35 = true
    ∧ ((leading 1 7).setRf (State.linkStat 35) 60 60 1).linkRotating 35 = true ∧ ((leading 1 7).link 35).peerReady = false := by decide +kernel

/-- LinkControlComplete: link 35 enabled and cabled; keyed; a frame in clear and one under a key. -/
theorem wit_links : let s := (State.reset.setRf (blReg .blCfg 35) 63 63 1).setLink 35 { Link.down with cable := true }
    let k := (leading 1 0).setLink 35 { Link.down with cable := true, recvKeys := (none, some 9), expected := 2 ^ 40 }
    s.rb (blReg .blCfg 35) 63 = true ∧ (s.link 35).cable = true ∧ s.linkUp 35 = false ∧ s.fenced 5 35 = false
    ∧ (leading 1 0).linkUp 35 = true ∧ ((leading 1 0).link 35).stage = 0 ∧ (leading 1 0).trust.entropyOk = true
    ∧ ((leading 1 0).setPkg controlled.pkg).gate (.host .w) true (blReg .blKeyctl 35) = none ∧ ((leading 0 0).setPkg controlled.pkg).gate (.host .w) true (blReg .blKeyctl 35) = none
    ∧ ((leading 0 0).link 35).recvKeys = (none, none) ∧ (State.slotOf (k.link 35).recvKeys 1).isSome = true ∧ k.linkUp 35 = true ∧ k.packageNumber = 0
    ∧ 2 ^ 40 + 2 ^ 32 ≤ (({ Link.down with sentUnder := 2 ^ 40 + 2 ^ 32 } : Link).sentUnder) := by
  refine ⟨by decide +kernel, by decide +kernel, by decide +kernel, by decide +kernel, by decide +kernel, by decide +kernel, by decide +kernel, ?_, ?_, by decide +kernel, by decide +kernel, by decide +kernel, by decide +kernel, by decide⟩
  all_goals exact Option.isNone_iff_eq_none.mp (by decide +kernel)

/-- BadLinkFramesChangeNothing: a frame one behind the expected counter, on a link that is up. -/
theorem wit_bad_frame : (leading 1 0).linkUp 35 = true
    ∧ ¬ ((⟨true, true, 5, 0, true, 0, 35, 0, 0, 0, 1, frameTo 0 0 0 []⟩ : LinkFrame).counter = ((leading 1 0).link 35).expected) := by decide +kernel

/-- Die 11 with core 31 in its dispenser on channel 7, an item of rows 0 to 9 for core 352 at the head of a list of one. -/
def listing : State :=
  ((State.reset.setRf ⟨.dspCfg, 11, 0⟩ 31 31 1).setRf ⟨.dspCfg, 11, 0⟩ 34 32 7).setDisp 11
    { Disp.idle with running := true, count := 1, head := some ⟨0, 0, 9, 0, 352, false, 0, 0, 0⟩ }

/-- DispensersComplete. -/
theorem wit_dispenser : listing.nextCore 11 = some 31 ∧ listing.headItem 11 = .ok ⟨0, 0, 9, 0, 352, false, 0, 0, 0⟩
    ∧ listing.itemBad 11 ⟨0, 0, 9, 0, 352, false, 0, 0, 0⟩ = false
    ∧ (let s := (controlled.setRf ⟨.dspCfg, 11, 0⟩ 31 31 1).setRf ⟨.chCfg, 383, 0⟩ 0 0 0
       (s.gate (.host .w) false ⟨.dspListctl, 11, 0⟩).isNone = true ∧ (s.disp 11).running = false
       ∧ ((s.store (.host .w) ⟨.dspListctl, 11, 0⟩ (BitVec.ofNat 64 (2 ^ 63 + 5))).setRf ⟨.dspListctl, 11, 0⟩ 63 63 0).dispOk 11 = true) := by
  refine ⟨by decide +kernel, by rfl, by decide +kernel, by decide +kernel, by decide +kernel, by decide +kernel⟩

/-- LanesHopsAndTowersComplete: a lane with a spare left, the last spare, none left; a swap in training. -/
theorem wit_lanes : State.reset.pkg.causewayFailed = false ∧ State.reset.spares 1 ≠ 0
    ∧ (State.reset.setRf State.cwStatus 7 0 0).spares 1 = 0
    ∧ ((State.reset.setPkg { State.reset.pkg with swaps := [(1, 71)] }).pkg.swaps.find? fun w => w.1 == 1) = some (1, 71) := by decide

/-- LighthouseWorkCompletes: the state after reset, an engine hung after eight unchanged samples, a silent host, a gated die, a recovery of core 383. -/
theorem wit_lighthouse :
    let h := ((demo.setRf ⟨.lhStallWatch, 0, 0⟩ 8 8 1).updEng (eng 5) fun c => { c with queue := [7] }).setLh { Lighthouse.reset with runs := [(5, 0, 8)], due := [5] }
    let r : Recovery := ⟨1, 1, 383, 5, 0, 0, []⟩
    State.reset.lighthouseRuns = true ∧ h.hung 0 5 = true ∧ controlled.pkg.split = false ∧ controlled.pkg.control ≠ 0
    ∧ (controlled.setRf lhHostctl 9 0 5).gapMs ≠ 0 ∧ Tab.get 0 ({ Lighthouse.reset with gating := [(11, 1)] }).gating 11 ≠ 0
    ∧ (State.reset.putRecovery 7 r).lh.recoveries.find? (fun e => e.1 == 7) = some (7, r) ∧ State.reset.pkg.halted = false := by decide +kernel

/-- An empty image of partition 0, identity 1, for every die, at 0x10000. -/
def emptyImage : List Host.Cell :=
  [(0x10000, 0x53), (0x10001, 0x54), (0x10002, 0x52), (0x10003, 0x41), (0x10004, 1), (0x10008, 64), (0x10010, 1), (0x10018, 0xFF), (0x10019, 0x0F)]
    ++ [(0x1003C, 197), (0x1003D, 199), (0x1003E, 198), (0x1003F, 53)]

def slackState : State := (((controlled.setMem emptyImage).setRf (State.strataReg 0) 63 62 2).setRf ⟨.lhStrataAddr, 0, 0⟩ 51 12 16)

/-- StrataCompletes: a load in SLACK, a hold, a Sounding. -/
theorem wit_strata : slackState.strataState 0 = 2 ∧ (slackState.session 0).state = 0
    ∧ (match slackState.checkImage 0 0x10000 with | .ok q => q.1.length == 64 && q.2.isEmpty | .error _ => false) = true
    ∧ slackState.rf ⟨.lhStrataAddr, 0, 0⟩ 51 12 * 4096 = 0x10000
    ∧ (match sectionsFrom (slackState.bytes 0x10000 64) 0 0 64 with | .ok q => q.2 == 64 | .error _ => false) = true
    ∧ (slackState.setRf ⟨.lhSoundstat, 0, 1⟩ 63 63 1).rb ⟨.lhSoundstat, 0, 1⟩ 63 = true := by decide +kernel

theorem wit_strata_gates : slackState.gate (.host .w) true ⟨.lhStrataCtl, 0, 7⟩ = none ∧ slackState.gate (.host .w) true ⟨.lhSoundctl, 0, 1⟩ = none
    ∧ slackState.gate (.host .w) true State.lhLayoutctl = none := by
  refine ⟨?_, ?_, ?_⟩ <;> exact Option.isNone_iff_eq_none.mp (by decide +kernel)

/-- A layout record at 0x20000 that leaves every unit with no partition but the dies, and die 11 with partition 7; every partition is in SLACK. -/
def layoutState : State :=
  let s := (List.range 8).foldl (fun s p => s.setRf (State.strataReg p) 63 62 2) controlled
  (s.setMem [(0x20001, 1), (0x2000F, 7)]).setRf ⟨.lhLayoutaddr, 0, 0⟩ 51 12 32

theorem wit_layout : layoutState.pkg.split = false ∧ layoutState.pkg.control = Port.w.shore + 1 ∧ layoutState.rf ⟨.lhLayoutaddr, 0, 0⟩ 51 12 * 4096 = 0x20000
    ∧ layoutState.poisoned 0x20000 576 = false ∧ fieldAt (layoutState.bytes 0x20000 576) 0 1 = 0 ∧ fieldAt (layoutState.bytes 0x20000 576) 1 1 = 1
    ∧ (let new := layoutState.recordPackage (layoutState.bytes 0x20000 576)
       State.rangesApart new.ranges = true ∧ new.ranges.all layoutState.rangeUsable = true ∧ new.die.getD 11 255 = 7
       ∧ (List.range 8).all (fun q => layoutState.strataState q == 2 && (layoutState.session q).state == 0 && !layoutState.layoutOverQuota new q) = true)
    ∧ placeOf 0x20000 = .tower 0 0x20000 ∧ placeOf (0x20000 + 575) = .tower 0 (0x20000 + 575) := by decide +kernel

theorem wit_layout_gate : layoutState.gate (.host .w) true State.lhLayoutctl = none := Option.isNone_iff_eq_none.mp (by decide +kernel)

/-- HostControlCompletes: a claim of the standby port, a heartbeat, a request in SLACK, a change. -/
def restState : State := (List.range 8).foldl (fun s p => s.setRf (State.strataReg p) 63 62 2) controlled

theorem wit_host_control :
    let w (s : State) : State := s.setReg lhHostctl (wput (BitVec.ofNat 64 (2 ^ 63 + b2n true * 2 ^ 62 + b2n true * 2 ^ 61 + s.rf lhHostctl 9 0)) 63 63 0 &&& 0x60000000000003FF)
    (controlled.gate (.host .e) true lhClaim).isNone = true ∧ (controlled.gate (.host .w) true ⟨.lhHeartbeat, 0, 0⟩).isNone = true
    ∧ (restState.gate (.host .w) true lhHostctl).isNone = true ∧ (w restState).modeMay true = true ∧ restState.pkg.split = false ∧ restState.pkg.control ≠ 0
    ∧ (let z := restState.setPkg { restState.pkg with control := 0 }
       (z.gate (.host .e) true lhHostctl).isNone = true ∧ (w z).modeMay true = true ∧ z.pkg.requests = [])
    ∧ (let z := restState.setPkg { restState.pkg with control := 0, requests := [(.w, true, true)] }
       (z.gate (.host .e) true lhHostctl).isNone = true ∧ (w z).modeMay true = true ∧ z.pkg.requests = [(Port.e.other, true, true)]) := by
  refine ⟨?_, ?_, ?_, ?_, ?_, ?_, ⟨?_, ?_, ?_⟩, ?_, ?_, ?_⟩ <;> decide +kernel

/-- The state with aperture 15 of port W on tower page 0 of partition 0. -/
def apertureState : State :=
  ((controlled.setMem [(0x1007, 0xE0)]).setReg ⟨.lhPtbase, 0, 0⟩ 0x1001).setRf ⟨.hbMemwin, 0, 15⟩ 63 61 7

/-- HostPortsComplete. -/
theorem wit_host_ports : State.reset.portsOpen = true ∧ (State.reset.port .e).perst = false ∧ State.reset.rb (portstat .e) 63 = true
    ∧ (State.reset.setReg (portstat .w) 0).rb (portstat .w) 63 = false
    ∧ (let o := 15 * 2 ^ 26 + 0xFFFF8
       apertureState.tdiRefuses .w true o = false ∧ apertureState.bar4Place .w false o = some (0, 0xFFFF8, 2) ∧ apertureState.bar4Place .w true o = some (0, 0xFFFF8, 2)
       ∧ apertureState.readFault 0xFFFF8 8 = none ∧ (apertureState.port .w).linkUp = true ∧ 8 ≤ 256 - o % 256) := by decide +kernel

/-- CxlPortsComplete: port 3 off, in bring-up, up. -/
theorem wit_cxl : let up := controlled.setRf (cxReg .cxStatus 3) 63 61 4
    (controlled.gate (.host .w) true (cxReg .cxCfg 3)).isNone = true ∧ (controlled.setRf (cxReg .cxStatus 3) 63 61 0).rf (cxReg .cxStatus 3) 63 61 = 0
    ∧ (controlled.cxl 3).bringUp = true ∧ controlled.fenced 6 3 = false ∧ controlled.trust.entropyOk = true
    ∧ up.rf (cxReg .cxStatus 3) 63 61 = 4 ∧ (up.setRf (State.strataReg 0) 63 62 2).strataState (up.cxlOwner 3) = 2 := by decide +kernel

/-- A partition in SLACK with an image loaded and a stream of port W. -/
def lockState : State :=
  ((controlled.setRf (State.strataReg 7) 63 62 2).setRf (State.strataReg 7) 60 60 1).setPort .w { controlled.port .w with ide := [7] }

/-- Partition 7 in a session with keys 5 (epoch 0) and 6 (epoch 1), rotating to epoch 1, whose CXL page 0 at 0x1000 is sealed under epoch 0. -/
def rotatingState : State :=
  ((controlled.setMem [(0x1000, 0), (0x1007, 0xE8)]).setReg ⟨.lhPtbase, 0, 22⟩ 0x1001).setSession 7
    { Session.none with state := 2, key0 := some 5, key1 := some 6, epoch := 1, rotating := true }

/-- InterfacesComplete: a partition that may be locked, one in a session, and a rotation under way. -/
theorem wit_interfaces : lockState.lockMay .w 7 = true ∧ (lockState.port .w).linkUp = true ∧ lockState.portOwns .w 7 = true
    ∧ 6 ∉ (lockState.port .w).ide ∧ lockState.trust.entropyOk = true ∧ lockState.pkg.powered = true
    ∧ (lockState.setSession 7 { Session.none with state := 1 }).inSession 7 = true
    ∧ (Option.isNone ((lockState.setSession 7 { Session.none with state := 1 }).gate (.host .w) true ⟨.lhSealctl, 0, 7⟩)) = true := by decide +kernel

theorem wit_reseal : (rotatingState.session 7).rotating = true ∧ wbit (rotatingState.reg ⟨.lhPtbase, 0, 22⟩) 0 = true
    ∧ (let e := leNat (rotatingState.bytes 0x1000 8)
       bitOf e 63 = true ∧ bitOf e 59 = true ∧ fld e 58 58 = 0) ∧ wfld (rotatingState.reg ⟨.lhPtbase, 0, 22⟩) 51 12 * 4096 + 8 * 0 = 0x1000
    ∧ rotatingState.pageInFlight 7 0 0 = false ∧ rotatingState.sealKey 7 0 = some 5 ∧ rotatingState.sealKey 7 1 = some 6 := by decide +kernel

theorem wit_scrub : ((lockState.setSession 7 { Session.none with state := 3, scrub := true, stopping := true }).session 7).scrub = true := by decide

/-- FirmwareAndFusesComplete: the controlling port, the board controller, a partition in SLACK that owns its first pages. -/
theorem wit_firmware : (controlled.gate (.host .w) true ⟨.lhSecctl, 0, 0⟩).isNone = true ∧ controlled.serves .smbus = true
    ∧ (State.reset.gate .board false ⟨.lhSecctl, 0, 0⟩).isNone = true ∧ (slackState.gate (.host .w) true ⟨.lhPilotfw, 0, 0⟩).isNone = true
    ∧ (slackState.session 0).state = 0 ∧ slackState.ownTower 0 0x30000 64 = true ∧ fieldAt (slackState.bytes 0x30000 64) 8 4 = 0
    ∧ (slackState.setReg ⟨.lhPilotfw, 0, 0⟩ 0x30000).ownTower 0 0x30000 (64 + 0 + 7856) = true
    ∧ State.reset.pkg.powered = true ∧ State.reset.pkg.heldReset = false := by decide +kernel

/-- AttestationCompletes: every medium is served after reset; a request waits. -/
theorem wit_attestation : State.reset.serves .smbus = true ∧ State.reset.serves (.doe .e) = true ∧ State.reset.serves (.pcie .w) = true
    ∧ (State.reset.askSigned .smbus 1 [7]).trust.signing = [(.smbus, 1, [7], 0)] := by decide

/-- ManagementCompletes. -/
theorem wit_management : State.reset.serves .smbus = true ∧ (State.reset.setPkg { State.reset.pkg with alerts := 1 }).pkg.alerts = 0 + 1 ∧ State.reset.pkg.railsOff = false
    ∧ (controlled.gate (.host .w) true State.lhResetctl).isNone = true := by decide

/-- PowerCommandsComplete: the state after reset is powered, with no thermal trip. -/
theorem wit_power : State.reset.pkg.powered = true ∧ State.reset.pkg.thermtrip = false ∧ State.reset.pkg.railsOff = false
    ∧ (State.reset.setPkg { State.reset.pkg with heldReset := true }).pkg.heldReset = true ∧ State.reset.powerDown.pkg.powered = false := by decide +kernel

/-- ResetsClearAndKeep: each of the three commands applies at the state after reset. -/
theorem wit_resets : State.reset.pkg.powered = true ∧ State.reset.pkg.thermtrip = false ∧ State.reset.pkg.railsOff = false
    ∧ (∃ t, exec (.resetN 1000) State.reset = .next t) ∧ (∃ t, exec .undervoltageShutdown State.reset = .next t) ∧ (∃ t, exec .overvoltageShutdown State.reset = .next t) :=
  ⟨rfl, rfl, rfl, ⟨_, rfl⟩, ⟨_, rfl⟩, ⟨_, rfl⟩⟩

/-- OverflowAborts: a Tidemark and a semaphore at their largest values, with the running task of the slot. -/
theorem wit_overflow : let s := (demo.setRf (tmReg 0 0 63) 31 0 (2 ^ 32 - 1)).setRf (semReg 0 0 15) 15 0 (2 ^ 16 - 1)
    2 ^ 32 ≤ s.rf (tmReg 0 0 63) 31 0 + 1 ∧ 2 ^ 16 ≤ s.rf (semReg 0 0 15) 15 0 + 1 ∧ s.taskAt 0 0 = some demoTask ∧ s.taskId demoTask.id = some demoTask
    ∧ ((s.incr 0 0 false 63 1 0 7).rf (tmReg 0 0 63) 31 0 = 2 ^ 32 - 1) := by decide +kernel

/-- RingsEnable: a core without a task; a value that passes, and one value for each failure (two slots, a ring that ends past unit 1,024, a ring over ring 1's
last unit). -/
theorem wit_rings : let s := controlled.setReg ⟨.rpCfg, 0, 1⟩ (BitVec.ofNat 64 (2 ^ 63 + 3 * 2 ^ 44 + 16 * 2 ^ 16 + 0))
    (s.gate (.host .w) false ⟨.rpCfg, 0, 0⟩).isNone = true ∧ s.coreBusy 0 = false
    ∧ s.ringOk 0 0 (BitVec.ofNat 64 (2 ^ 63 + 2 * 2 ^ 44 + 320 * 2 ^ 16 + 64)) = true
    ∧ s.ringOk 0 0 (BitVec.ofNat 64 (2 ^ 63 + 1 * 2 ^ 44 + 16 * 2 ^ 16 + 64)) = false
    ∧ s.ringOk 0 0 (BitVec.ofNat 64 (2 ^ 63 + 2 * 2 ^ 44 + 320 * 2 ^ 16 + 65)) = false
    ∧ s.ringOk 0 0 (BitVec.ofNat 64 (2 ^ 63 + 2 * 2 ^ 44 + 16 * 2 ^ 16 + 63)) = false := by decide +kernel

/-- WindowsValid: windows of an idle core; the check at the edge of the usable size, beside another window, and over its last page. -/
theorem wit_windows : let s := ((controlled.setReg ⟨.cvBase, 0, 1⟩ 16).setReg ⟨.cvBound, 0, 1⟩ (BitVec.ofNat 64 (2 ^ 63 + 32)))
    let w (base limit : Nat) := (s.setReg ⟨.cvBase, 0, 0⟩ (BitVec.ofNat 64 base)).setReg ⟨.cvBound, 0, 0⟩ (BitVec.ofNat 64 limit)
    (s.gate (.host .w) false ⟨.cvBound, 0, 0⟩).isNone = true ∧ s.busy (.host .w) ⟨.cvBound, 0, 0⟩ (BitVec.ofNat 64 (2 ^ 63 + 512)) = false
    ∧ s.rb ⟨.cvBound, 0, 1⟩ 63 = true ∧ (w 32 512).windowOk 0 0 = true ∧ (w 32 513).windowOk 0 0 = false ∧ (w 31 512).windowOk 0 0 = false
    ∧ (w 0 16).windowOk 0 0 = true ∧ (w 0 17).windowOk 0 0 = false ∧ (w 40 40).windowOk 0 0 = false := by decide +kernel

/-- WindowsValid: a Pilot whose Cove waits for its scrub. -/
theorem wit_waiting_window : let s := State.reset.setLh { Lighthouse.reset with unowned := [(coveBase 0, 0x10000000)] }
    (s.gate .pilot false ⟨.cvBound, 0, 0⟩).isNone = true ∧ s.ownerOf (coveBase 0) ≠ s.dieOwner (0 / 32) ∧ State.reset.ownerOf (coveBase 0) = State.reset.dieOwner (0 / 32) := by
  decide +kernel

/-- ChannelsComplete: an idle core, whose channel 0 is empty, holds a word, and is full. -/
theorem wit_channels : (controlled.disp 0).running = false ∧ (List.range 4).all (fun slot => (controlled.eng ⟨0, slot, 7⟩).zeros == 0) = true ∧ (controlled.gate (.host .w) false ⟨.chCfg, 0, 0⟩).isNone = true ∧ controlled.engs = []
    ∧ (controlled.port .w).linkUp = true ∧ controlled.pkg.split = false ∧ controlled.enabled 0 = true ∧ (controlled.chan 0 0).words = []
    ∧ ((controlled.setChan 0 0 { Chan.empty with words := List.replicate 64 (7, true) }).chan 0 0).words.length = 64
    ∧ (controlled.gate (.host .w) true ⟨.chData, 0, 0⟩).isNone = true ∧ (controlled.gate (.host .w) true ⟨.chPushend, 0, 0⟩).isNone = true := by decide +kernel

/-- ErrorLogsKeepWhatIsUnread: an error of the West shore, one of both, one of the East; a log with room and a full one. -/
theorem wit_errors : let full : ErrLog := ⟨[], 256, 0, 0, 256, 0⟩
    ({ code := 0x0508, severity := 0, kind := 1, unit := 191 } : ErrInfo).where' = 0 ∧ ({ code := 0x0508, severity := 0, kind := 1, unit := 192 } : ErrInfo).where' = 1
    ∧ ({ code := 0x0700, severity := 2, kind := 9 } : ErrInfo).where' = 2 ∧ (State.reset.log 0).unread = 0 ∧ ((State.reset.setLog 1 full).log 1).unread = 256 := by decide +kernel

/-- RegisterCommandsComplete: an assigned offset, an unassigned one, and an open gate for each kind of write. -/
theorem wit_registers : (regAt 0x1000).isSome = true ∧ (regAt 0xFFFFFF8).isNone = true ∧ (controlled.port .w).linkUp = true ∧ controlled.standby .w = false
    ∧ (controlled.gate (.host .w) false ⟨.rpCfg, 0, 0⟩).isNone = true ∧ (controlled.gate (.host .e) false ⟨.rpCfg, 0, 0⟩).isSome = true
    ∧ controlled.enabled 0 = true ∧ controlled.pkg.split = false ∧ controlled.debugReads 0 = false
    ∧ (controlled.gate (.host .w) true ⟨.hbErrhead, 0, 0⟩).isNone = true ∧ (controlled.log 0).unread < 256 := by decide +kernel

/-- control: the terms are commands. -/
theorem test_accepts_control : ([.nop ⟨383, 3, 7⟩, .endSeq (eng 0), .setlc (eng 0) 7 true 15 0xFFFFFFFF, .list (eng 7) 31 0xFFF, .release (eng 7), .chsend (eng 0) 7 true 0x1FF 0, .chsend (eng 0) 7 true 383 0xFFFFFFFFFFFFFFFF, .chrecv (eng 0) 7 7 true 7, .param (eng 0) 3 0xFFFFFFFFFFFF, .signalAdd (eng 0) 383 63 65535, .signalPost (eng 0) 0x1FF 63 1, .waitGe (eng 0) 63 0xFFFFFFFF, .waitTake (eng 0) 63 0, .waitAcq (eng 0) 63 65535, .loop (eng 0) 7 4095, .nest (eng 0) 15 1] : List Instr).all Instr.wellFormed = true := by decide +kernel

/-- control: each term breaks one check of WellFormed. -/
theorem test_refuses_control : ([.nop ⟨384, 0, 0⟩,
    .nop ⟨0, 4, 0⟩,
    .nop ⟨0, 0, 8⟩,
    .endSeq ⟨384, 0, 0⟩,
    .setlc (eng 0) 8 true 0 0,
    .setlc (eng 0) 0 true 16 0,
    .setlc (eng 0) 0 true 0 0x100000000,
    .list (eng 0) 0 0,
    .list (eng 7) 32 0,
    .list (eng 7) 0 0x1000,
    .release (eng 0),
    .chsend (eng 0) 8 true 0 0,
    .chsend (eng 0) 0 true 384 0,
    .chsend (eng 0) 0 true 0 0x10000000000000000,
    .chrecv (eng 0) 8 0 true 0,
    .chrecv (eng 0) 0 8 true 0,
    .chrecv (eng 0) 0 0 true 8,
    .param (eng 0) 4 0,
    .param (eng 0) 0 0x1000000000000,
    .signalAdd (eng 0) 510 0 1,
    .signalAdd (eng 0) 0 64 1,
    .signalAdd (eng 0) 0 0 65536,
    .signalAdd (eng 0) 0 0 0,
    .signalPost (eng 0) 0 0 0,
    .waitGe (eng 0) 64 0,
    .waitGe (eng 0) 0 0x100000000,
    .waitTake (eng 0) 64 0,
    .waitAcq (eng 0) 0 0,
    .waitAcq (eng 0) 0 65536,
    .loop (eng 0) 8 1,
    .loop (eng 0) 0 0,
    .loop (eng 0) 0 4096,
    .nest (eng 0) 16 1,
    .nest (eng 0) 0 0] : List Instr).all (fun i => !i.wellFormed) = true := by decide +kernel

/-- The lookout, match and pack of the tests beside one MMA. -/
def moveOps : MoveOps := ⟨0xFFF, 15, true⟩

/-- arrays: the terms are commands. -/
theorem test_accepts_arrays : ([.move (eng 5) moveOps, .moveComplete (eng 6), .mmaDense (eng 1) (mmaOne 0 0), .lookout (eng 0) lookOne] : List Instr).all Instr.wellFormed = true := by decide +kernel

/-- arrays: each term breaks one check of WellFormed. -/
theorem test_refuses_arrays : ([.move (eng 4) moveOps,
    .move (eng 5) { moveOps with stream := 4096 },
    .move (eng 5) { moveOps with bmask := 16 },
    .moveComplete (eng 7),
    .mmaDense (eng 2) (mmaOne 0 0),
    .mmaSliding (eng 2) (mmaOne 0 0),
    .mmaTransposed (eng 2) (mmaOne 0 0),
    .mmaPlane (eng 2) (mmaOne 0 0),
    .spmm (eng 2) (mmaOne 0 0),
    .mmaDense (eng 0) { mmaOne 0 0 with m := 16 },
    .mmaDense (eng 0) { mmaOne 0 0 with n := 16 },
    .mmaDense (eng 0) { mmaOne 0 0 with k := 64 },
    .mmaDense (eng 0) { mmaOne 0 0 with aring := 8 },
    .mmaDense (eng 0) { mmaOne 0 0 with bring := 8 },
    .mmaDense (eng 0) { mmaOne 0 0 with acc := 16 },
    .mmaDense (eng 0) { mmaOne 0 0 with mask := 4096 },
    .mmaDense (eng 0) { mmaOne 0 0 with b := 4096 },
    .mmaDense (eng 0) { mmaOne 0 0 with a := 4096 },
    .mmaDense (eng 0) { mmaOne 0 0 with bmask := 16 },
    .lookout (eng 5) lookOne,
    .lookout (eng 0) { lookOne with m := 16 },
    .lookout (eng 0) { lookOne with n := 16 },
    .lookout (eng 0) { lookOne with k := 64 },
    .lookout (eng 0) { lookOne with aring := 8 },
    .lookout (eng 0) { lookOne with bring := 8 },
    .lookout (eng 0) { lookOne with planes := 0 },
    .lookout (eng 0) { lookOne with planes := 4 },
    .lookout (eng 0) { lookOne with acc := 16 },
    .lookout (eng 0) { lookOne with mask := 4095 },
    .lookout (eng 0) { lookOne with b := 4096 },
    .lookout (eng 0) { lookOne with a := 4096 },
    .lookout (eng 0) { lookOne with param := 4294967296 },
    .lookout (eng 0) { lookOne with bmask := 16 }] : List Instr).all (fun i => !i.wellFormed) = true := by decide +kernel

/-- data_units: the terms are commands. -/
theorem test_accepts_data_units : ([.ebbSetimm (eng 0) 7 0xFFFFFFFF 0, .ebbSetvec (eng 1) 7 0xFFF, .isect (eng 2) isectOne, .merge (eng 3) 0xFFF, .pack (eng 4) packOne] : List Instr).all Instr.wellFormed = true := by decide +kernel

/-- data_units: each term breaks one check of WellFormed. -/
theorem test_refuses_data_units : ([.ebbSetimm (eng 2) 0 0 0,
    .ebbSetimm (eng 0) 8 0 0,
    .ebbSetimm (eng 0) 0 0x100000000 0,
    .ebbSetimm (eng 0) 0 0 0x100000000,
    .ebbSetvec (eng 2) 0 0,
    .ebbSetvec (eng 0) 8 0,
    .ebbSetvec (eng 0) 0 4096,
    .isect (eng 3) isectOne,
    .merge (eng 2) 0,
    .merge (eng 3) 4096,
    .pack (eng 3) packOne,
    .isect (eng 2) { isectOne with akind := 5 },
    .isect (eng 2) { isectOne with bkind := 5 },
    .isect (eng 2) { isectOne with form := 3 },
    .isect (eng 2) { isectOne with out := 4096 },
    .isect (eng 2) { isectOne with bh := 4096 },
    .isect (eng 2) { isectOne with ah := 4096 },
    .isect (eng 2) { isectOne with r0 := 2147483647 },
    .isect (eng 2) { isectOne with bmask := 16 },
    .pack (eng 4) { packOne with fmt := 6 },
    .pack (eng 4) { packOne with ring := 8 },
    .pack (eng 4) { packOne with dest := 4096 },
    .pack (eng 4) { packOne with arena := 4096 },
    .pack (eng 4) { packOne with tiles := 0 },
    .pack (eng 4) { packOne with tiles := 4294967296 },
    .pack (eng 4) { packOne with first := 4294967296 },
    .pack (eng 4) { packOne with bmask := 16 }] : List Instr).all (fun i => !i.wellFormed) = true := by decide +kernel

/-- tasks: the terms are commands. -/
theorem test_accepts_tasks : ([.taskQueueDoorbell .w 63 65535, .taskQueueEntry .e 63 none, .taskQueueEntry .e 63 (some ⟨zeros 64, zeros 256⟩), .streamBlockFetch 383 3 7 (some [0]), .expressWrite .w 0x3FFFFFF (zeros 8), .taskStart 383 3, .drainEnd 383 3, .truncationPoint 383 3, .heldCompletionWrite .w 63, .workItem 11, .dspListctlStart .pilot 11 0] : List Instr).all Instr.wellFormed = true := by decide +kernel

/-- tasks: each term breaks one check of WellFormed. -/
theorem test_refuses_tasks : ([.taskQueueDoorbell .w 64 0,
    .taskQueueDoorbell .w 0 65536,
    .taskQueueEntry .w 64 none,
    .taskQueueEntry .w 0 (some ⟨zeros 63, zeros 256⟩),
    .taskQueueEntry .w 0 (some ⟨zeros 64, zeros 255⟩),
    .streamBlockFetch 384 0 0 none,
    .streamBlockFetch 0 4 0 none,
    .streamBlockFetch 0 0 8 none,
    .streamBlockFetch 0 0 0 (some [0x10000000000000000]),
    .expressWrite .w 0x4000000 [],
    .expressWrite .w 0 (zeros 4097),
    .taskStart 384 0,
    .taskStart 0 4,
    .drainEnd 384 0,
    .drainEnd 0 4,
    .truncationPoint 384 0,
    .truncationPoint 0 4,
    .heldCompletionWrite .w 64,
    .workItem 12,
    .dspListctlStart .pilot 12 0,
    .dspListctlStart .pilot 0 0x10000000000000000] : List Instr).all (fun i => !i.wellFormed) = true := by decide +kernel

/-- frames: the terms are commands. -/
theorem test_accepts_frames : ([.write (frameTo 0 0 0 []), .readRequest (frameTo 1 0 0 []) .good, .readResponse (frameTo 2 0 0 []), .creditRequest (frameTo 3 0 0 []), .creditGrant (frameTo 4 0 0 []), .creditReturn (frameTo 5 0 0 []), .signal (frameTo 6 0 0 []), .channelWrite (frameTo 7 0 0 []), .command (frameTo 8 0 0 []), .completion (frameTo 9 0 0 []), .errorResponse (frameTo 10 0 0 []), .idle (frameTo 11 0 0 []), .acknowledgement 135 1 0, .negativeAcknowledgement 135 1 0] : List Instr).all Instr.wellFormed = true := by decide +kernel

/-- frames: each term breaks one check of WellFormed. -/
theorem test_refuses_frames : ([.write (frameTo 1 0 0 []),
    .readRequest (frameTo 2 0 0 []) .good,
    .readResponse (frameTo 3 0 0 []),
    .creditRequest (frameTo 4 0 0 []),
    .creditGrant (frameTo 5 0 0 []),
    .creditReturn (frameTo 6 0 0 []),
    .signal (frameTo 7 0 0 []),
    .channelWrite (frameTo 8 0 0 []),
    .command (frameTo 9 0 0 []),
    .completion (frameTo 10 0 0 []),
    .errorResponse (frameTo 11 0 0 []),
    .idle (frameTo 0 0 0 []),
    .write { frameTo 0 0 0 [] with partition := 8 },
    .write { frameTo 0 0 0 [] with address := 4503599627370496 },
    .write { frameTo 0 0 0 [] with package := 257 },
    .write { frameTo 0 0 0 [] with payload := zeros 257 },
    .write { frameTo 0 0 0 [] with count := 65536 },
    .write { frameTo 0 0 0 [] with counter := 256 },
    .write { frameTo 0 0 0 [] with slot := 16 },
    .write { frameTo 0 0 0 [] with add := 256 },
    .write { frameTo 0 0 0 [] with amount := 65536 },
    .write { frameTo 0 0 0 [] with target := 24 },
    .write { frameTo 0 0 0 [] with gen := 16 },
    .write { frameTo 0 0 0 [] with mask := [1] },
    .write { frameTo 0 0 0 [] with epoch := 3 },
    .acknowledgement 136 0 0,
    .acknowledgement 0 2 0,
    .negativeAcknowledgement 136 0 0,
    .negativeAcknowledgement 0 2 0] : List Instr).all (fun i => !i.wellFormed) = true := by decide +kernel

/-- A link frame that carries a write, and a key message, for the tests. -/
def linkOne : LinkFrame := ⟨true, true, 0, 0, true, 0, 0, 0, 0, 0, 0, frameTo 0 0 0 []⟩
def keyOne : KeyMessage := ⟨255, 35, [], []⟩

/-- links: the terms are commands. -/
theorem test_accepts_links : ([.linkFrame 35 linkOne, .offer 35 keyOne, .accept 35 keyOne, .confirm 35 keyOne, .rotateOffer 35 keyOne, .rotateAccept 35 keyOne, .ready 35 1, .request 35 1, .abort 35 65535, .blLinkUp 35 255 35, .blDown 35 .training, .keyRotationFrameLimit 35, .dataFrameHold 35, .keyAgree .w 35, .keyRotate .w 35, .keyDrop .w 35] : List Instr).all Instr.wellFormed = true := by decide +kernel

/-- links: each term breaks one check of WellFormed. -/
theorem test_refuses_links : ([.linkFrame 36 linkOne,
    .linkFrame 0 { linkOne with epoch := 2 },
    .linkFrame 0 { linkOne with toPackage := 256 },
    .linkFrame 0 { linkOne with toLink := 36 },
    .linkFrame 0 { linkOne with kind := 12 },
    .linkFrame 0 { linkOne with subtype := 16 },
    .linkFrame 0 { linkOne with frame := frameTo 12 0 0 [] },
    .offer 36 keyOne,
    .offer 0 { keyOne with package := 256 },
    .offer 0 { keyOne with link := 36 },
    .accept 36 keyOne,
    .accept 0 { keyOne with package := 256 },
    .accept 0 { keyOne with link := 36 },
    .confirm 36 keyOne,
    .confirm 0 { keyOne with package := 256 },
    .confirm 0 { keyOne with link := 36 },
    .rotateOffer 36 keyOne,
    .rotateOffer 0 { keyOne with package := 256 },
    .rotateOffer 0 { keyOne with link := 36 },
    .rotateAccept 36 keyOne,
    .rotateAccept 0 { keyOne with package := 256 },
    .rotateAccept 0 { keyOne with link := 36 },
    .ready 36 0,
    .ready 0 2,
    .request 36 1,
    .request 0 0,
    .request 0 3,
    .abort 36 0,
    .abort 0 65536,
    .blLinkUp 36 0 0,
    .blLinkUp 0 256 0,
    .blLinkUp 0 0 36,
    .blDown 36 .training,
    .keyRotationFrameLimit 36,
    .dataFrameHold 36,
    .keyAgree .w 36,
    .keyRotate .w 36,
    .keyDrop .w 36] : List Instr).all (fun i => !i.wellFormed) = true := by decide +kernel

/-- A sample at rest, for the tests. -/
def calm : Sensors := ⟨[], List.replicate 26 400, List.replicate 26 1000, [], 48000, 500000, [], []⟩

/-- lighthouse: the terms are commands. -/
theorem test_accepts_lighthouse : ([.laneFailing 1 69, .laneSwapDone 1 true, .causewayFailed, .hopReplayLimit 1 6 true, .towerRetryLimit 7 true, .sample { calm with strikes := [.memory 0 true, .slot 383 71 0, .cell 383 1 1 63] }, .engineHung 383 7, .heartbeatStale, .gatingSpan 11, .recoveryDone 7, .scrubDone 7 [(0xFFFFFFFFFFFFF, 65535)], .strataLoad .w 7, .strataLoadDone 7, .strataHold .w 7 true, .sound .w .e 1023, .summaryWritten .w true, .claim .e, .heartbeat .w 0xFFFFFFFFFFFFFFFF, .modeRequest .w true true, .layoutApply .w, .sealRotate .w 7, .pageResealed 7 0x7FFFFF] : List Instr).all Instr.wellFormed = true := by decide +kernel

/-- lighthouse: each term breaks one check of WellFormed. -/
theorem test_refuses_lighthouse : ([.laneFailing 2 0,
    .laneFailing 0 70,
    .laneSwapDone 2 true,
    .hopReplayLimit 2 0 true,
    .hopReplayLimit 0 7 true,
    .towerRetryLimit 8 true,
    .engineHung 384 0,
    .engineHung 0 8,
    .gatingSpan 12,
    .recoveryDone 8,
    .scrubDone 8 [],
    .scrubDone 0 [(0x10000000000000, 0)],
    .scrubDone 0 [(0, 65536)],
    .strataLoad .w 8,
    .strataLoadDone 8,
    .strataHold .w 8 true,
    .sound .w .w 1024,
    .heartbeat .w 0x10000000000000000,
    .sealRotate .w 8,
    .pageResealed 8 0,
    .pageResealed 0 0x800000,
    .sample { calm with canary := [24] },
    .sample { calm with temp := [] },
    .sample { calm with temp := 4096 :: List.replicate 25 400 },
    .sample { calm with power := [] },
    .sample { calm with power := 0x1000000 :: List.replicate 25 0 },
    .sample { calm with vrFault := [26] },
    .sample { calm with unconfirmed := [8] },
    .sample { calm with strikes := [.memory (2 ^ 52) true] },
    .sample { calm with strikes := [.slot 384 0 0] },
    .sample { calm with strikes := [.slot 0 72 0] },
    .sample { calm with strikes := [.cell 0 2 0 0] },
    .sample { calm with strikes := [.cell 0 0 2 0] },
    .sample { calm with strikes := [.cell 0 0 0 64] },
    .sample { calm with inputPower := 4294967296 }] : List Instr).all (fun i => !i.wellFormed) = true := by decide +kernel

/-- An absent CXL device, for the tests. -/
def noDevice : CxlDevice := { present := false, direct := false, ide := false, authentic := false, capacity := 0, rate := 15, width := 31 }

/-- registers: the terms are commands. -/
theorem test_accepts_registers : ([.commitLh .w, .commitHb .w, .commitPil .w, .lockfuse .w, .fullres .board true, .pilotFwLoad .w 7 0xFFFFFFFFFF, .packageReset .w 65535 BootEnv.clean, .cxlEnable .w 3, .cxlDisable .w 3, .cxlPortUp 3 noDevice, .cxlDown 3 .removed, .ringEnable .pilot 383 71 0, .windowValid .pilot 383 3 0, .channelFlush .pilot 383 7, .channelModeChange .pilot 383 7 true, .hostChannelRead .w 383 ⟨7, 4, 4⟩, .hostChannelPush .w 383 7 0, .hostChannelPushEnd .w 383 7 0, .accDataRead .w 383 ⟨1, 0, 8⟩, .errlogHeadWrite .w 1 255, .cqEnable .w 63 0, .registerWrite .pilot true 0xFFFFFFF 4 0xFFFFFFFF, .bar4Read .w true 0 4096, .bar4Write .w true 0 [1], .configRequest .w none] : List Instr).all Instr.wellFormed = true := by decide +kernel

/-- registers: each term breaks one check of WellFormed. -/
theorem test_refuses_registers : ([.pilotFwLoad .w 8 0,
    .pilotFwLoad .w 0 0x10000000000,
    .packageReset .w 65536 BootEnv.clean,
    .cxlEnable .w 4,
    .cxlDisable .w 4,
    .cxlPortUp 4 noDevice,
    .cxlPortUp 0 { noDevice with rate := 16 },
    .cxlPortUp 0 { noDevice with width := 32 },
    .cxlDown 4 .ide,
    .ringEnable .pilot 384 0 0,
    .ringEnable .pilot 0 72 0,
    .ringEnable .pilot 0 0 0x10000000000000000,
    .windowValid .pilot 384 0 0,
    .windowValid .pilot 0 4 0,
    .windowValid .pilot 0 0 0x10000000000000000,
    .channelFlush .pilot 384 0,
    .channelFlush .pilot 0 8,
    .channelModeChange .pilot 384 0 true,
    .channelModeChange .pilot 0 8 true,
    .hostChannelRead .w 384 ⟨0, 0, 8⟩,
    .hostChannelRead .w 0 ⟨8, 0, 8⟩,
    .hostChannelRead .w 0 ⟨0, 4, 5⟩,
    .hostChannelRead .w 0 ⟨0, 0, 0⟩,
    .hostChannelPush .w 384 0 0,
    .hostChannelPush .w 0 8 0,
    .hostChannelPush .w 0 0 0x10000000000000000,
    .hostChannelPushEnd .w 384 0 0,
    .hostChannelPushEnd .w 0 8 0,
    .hostChannelPushEnd .w 0 0 0x10000000000000000,
    .accDataRead .w 384 ⟨0, 0, 8⟩,
    .accDataRead .w 0 ⟨2, 0, 8⟩,
    .accDataRead .w 0 ⟨0, 8, 1⟩,
    .accDataRead .w 0 ⟨0, 0, 0⟩,
    .errlogHeadWrite .w 2 0,
    .errlogHeadWrite .w 0 256,
    .cqEnable .w 64 0,
    .cqEnable .w 0 0x10000000000000000,
    .registerWrite .pilot true 0x1000000000000 8 0,
    .registerWrite .pilot true 0 3 0,
    .registerWrite .pilot true 0 4 0x100000000,
    .bar4Read .w true 0 0,
    .bar4Read .w true 0 4097,
    .bar4Write .w true 0 [],
    .bar4Write .w true 0 (zeros 4097)] : List Instr).all (fun i => !i.wellFormed) = true := by decide +kernel

/-- trust_and_power: the terms are commands. -/
theorem test_accepts_trust_and_power : ([.lockInterface .w 7, .startInterface .w 7, .stopInterface .w 7, .getDeviceInterfaceReport .w 7, .certificate .smbus, .challenge .smbus (zeros 32), .measurements .smbus [255], .signatureReady, .pldmPowerCap 65535, .pldmSensorRead 25, .pldmQuotaWrite 7 3 0xFFFFFFFF, .pldmReset BootEnv.clean, .pldmCommit 3, .testPortInstruction 0, .powerOn BootEnv.clean, .undervoltageShutdown, .overvoltageShutdown, .thermalShutdown, .resetN 0, .perstDeassert .w 15 31 true, .hostPortReset .w .hotReset, .hostLinkDown .w, .hostIdeFail .w 7, .entropyHealthFail, .resetNRelease BootEnv.clean, .hostLinkUp .w 15 31 true, .modeChangeApplied, .ideKm .w 7, .managementProcessorFault, .pldmEventRetrieval, .endpointIdAssignment .smbus 255] : List Instr).all Instr.wellFormed = true := by decide +kernel

/-- trust_and_power: each term breaks one check of WellFormed. -/
theorem test_refuses_trust_and_power : ([.lockInterface .w 8,
    .startInterface .w 8,
    .stopInterface .w 8,
    .getDeviceInterfaceReport .w 8,
    .challenge .smbus (zeros 31),
    .measurements .smbus [256],
    .keyExchange .smbus (zeros 1183),
    .pldmPowerCap 65536,
    .pldmSensorRead 26,
    .pldmQuotaWrite 8 0 0,
    .pldmQuotaWrite 0 4 0,
    .pldmQuotaWrite 0 0 0x100000000,
    .pldmCommit 0,
    .pldmCommit 4,
    .perstDeassert .w 16 0 true,
    .perstDeassert .w 0 32 true,
    .hostIdeFail .w 8,
    .hostLinkUp .w 16 0 true,
    .hostLinkUp .w 0 32 true,
    .ideKm .w 8,
    .endpointIdAssignment .smbus 256] : List Instr).all (fun i => !i.wellFormed) = true := by decide +kernel

/-! ## Words and values of the spec's tables and worked examples -/

/-- The native words of the worked nest (chapter 12, R319, R320). -/
theorem test_decode_worked_nest : nativeInstr (eng 5) (mappedTask 2) 0x1000080000000000 0 [] = some (.nest (eng 5) 0 2)
    ∧ nativeInstr (eng 5) (mappedTask 2) 0x4000060000000000 0 [] = some (.move (eng 5) ⟨0, 1, true⟩)
    ∧ nativeInstr (eng 5) (mappedTask 2) 0x40004A0000000000 0 [] = some (.move (eng 5) ⟨1, 2, true⟩)
    ∧ nativeInstr (eng 5) (mappedTask 2) 0x0400000000000000 0 [] = some (.endSeq (eng 5))
    ∧ nativeInstr (eng 0) (mappedTask 2) 0x2400000FFF002001 0 [] = some (.param (eng 0) 0 0xFFF002001)
    ∧ nativeInstr (eng 0) (mappedTask 2) 0x40100C0600000000 0 [0xFFF002001, 0]
      = some (.mmaDense (eng 0) ⟨1, 0, 3, 0, 0, false, true, true, 0, 0xFFF, 2, 1, 0, false⟩) := by decide

/-- The other words of R319, each from its opcode and fields. -/
theorem test_decode_common : let d (w data : Nat) := nativeInstr (eng 2) (mappedTask 2) w data []
    d 0 0 = some (.nop (eng 2)) ∧ d (2 * 2 ^ 58 + 5 * 2 ^ 55 + 2 ^ 54 + 9 * 2 ^ 50 + 77) 0 = some (.setlc (eng 2) 5 true 9 77)
    ∧ d (3 * 2 ^ 58 + 6 * 2 ^ 55 + 3 * 2 ^ 42) 0 = some (.loop (eng 2) 6 3)
    ∧ d (5 * 2 ^ 58 + 300 * 2 ^ 48 + 41 * 2 ^ 42 + 7) 0 = some (.signalAdd (eng 2) 300 41 7)
    ∧ d (5 * 2 ^ 58 + 2 ^ 57 + 0x1FF * 2 ^ 48 + 15 * 2 ^ 42 + 1) 0 = some (.signalPost (eng 2) 0x1FF 15 1)
    ∧ d (6 * 2 ^ 58 + 33 * 2 ^ 48 + 99) 0 = some (.waitGe (eng 2) 33 99) ∧ d (6 * 2 ^ 58 + 2 ^ 56 + 33 * 2 ^ 48 + 99) 0 = some (.waitTake (eng 2) 33 99)
    ∧ d (6 * 2 ^ 58 + 2 * 2 ^ 56 + 3 * 2 ^ 48 + 99) 0 = some (.waitAcq (eng 2) 3 99) ∧ d (6 * 2 ^ 58 + 3 * 2 ^ 56) 0 = none
    ∧ d (7 * 2 ^ 58 + 4 * 2 ^ 55 + 2 ^ 54 + 383 * 2 ^ 45) 0xABCD = some (.chsend (eng 2) 4 true 383 0xABCD)
    ∧ d (8 * 2 ^ 58 + 4 * 2 ^ 55 + 3 * 2 ^ 52 + 2 ^ 51 + 2 * 2 ^ 48) 0 = some (.chrecv (eng 2) 4 3 true 2)
    ∧ d (5 * 2 ^ 58 + 384 * 2 ^ 48 + 1) 0 = none ∧ d (10 * 2 ^ 58) 0 = none ∧ d 1 0 = none := by decide

/-- The engines' own words (R320), each from its opcode and fields. -/
theorem test_decode_engines : let t := mappedTask 2
    nativeInstr (eng 1) t (0x11 * 2 ^ 58 + 2 ^ 52 + 2 * 2 ^ 39 + 2 ^ 36 + 2 ^ 35 + 5 * 2 ^ 29) 0 [0xFFF003004, 0]
      = some (.spmm (eng 1) ⟨1, 0, 0, 2, 1, true, false, false, 5, 0xFFF, 3, 4, 0, false⟩)
    ∧ nativeInstr (eng 0) t (0x12 * 2 ^ 58 + 2 ^ 56 + 3 * 2 ^ 42 + 2 ^ 33) 0 [0x007003004, 0x80000000]
      = some (.lookout (eng 0) ⟨0, 0, 3, 0, 0, true, false, 1, 0, 7, 3, 4, 0x80000000, 0, false⟩)
    ∧ nativeInstr (eng 0) t (0x13 * 2 ^ 58 + 6 * 2 ^ 55 + 0x3F800000) 0 [0x40000000, 0] = some (.ebbSetimm (eng 0) 6 0x3F800000 0x40000000)
    ∧ nativeInstr (eng 0) t (0x14 * 2 ^ 58 + 6 * 2 ^ 55 + 10) 0 [] = some (.ebbSetvec (eng 0) 6 10)
    ∧ nativeInstr (eng 2) t (0x10 * 2 ^ 58 + 2 * 2 ^ 55 + 3 * 2 ^ 52 + 2 * 2 ^ 50 + 2 ^ 49 + 2 ^ 47) 0 [0x001002003, 5]
      = some (.isect (eng 2) ⟨2, 3, 2, true, false, true, false, false, 1, 2, 3, 5, 0, false⟩)
    ∧ nativeInstr (eng 3) t (0x10 * 2 ^ 58 + 7) 0 [] = some (.merge (eng 3) 7)
    ∧ nativeInstr (eng 4) t (0x10 * 2 ^ 58 + 3 * 2 ^ 55 + 2 ^ 54 + 6 * 2 ^ 51 + 8 * 2 ^ 39 + 9 * 2 ^ 27) 0 [2, 1]
      = some (.pack (eng 4) ⟨3, true, 6, 8, 9, 2, 1, 0, false⟩)
    ∧ nativeInstr (eng 7) t (0x10 * 2 ^ 58 + 31 * 2 ^ 53 + 9) 0 [] = some (.list (eng 7) 31 9) ∧ nativeInstr (eng 7) t (0x11 * 2 ^ 58) 0 [] = some (.release (eng 7))
    ∧ nativeInstr (eng 3) t (0x10 * 2 ^ 58 + 100) 0 [] = none ∧ nativeInstr (eng 5) t (0x11 * 2 ^ 58) 0 [] = none := by decide

/-- The window offset of chapter 5's worked example, its bank and row (R136, R140), and the first offset past the window. -/
theorem test_window_offset : let s := ((State.reset.setReg ⟨.cvBase, 137, 2⟩ 0x180).setReg ⟨.cvBound, 137, 2⟩ 0x8000000000000200)
    coveBase 137 + 0x12340 = 0x14890012340 ∧ s.coveAddr 0 2 137 0x12340 = some (coveBase 137 + 0x192340) ∧ coveBank 0x192340 = (5, 1608)
    ∧ (s.coveAddr 0 2 137 0x7FFFF).isSome = true ∧ s.coveAddr 0 2 137 0x80000 = none := by decide

/-- The tile headers of chapter 3's worked encodings (R78, R79). -/
theorem test_tile_headers : headerBytes 0 4 0 0 false false = [0x10, 4, 0, 0, 0, 0, 0, 0, 0, 0, 0, 0, 0, 0, 0x30, 0x6A]
    ∧ headerBytes 1 4 4 4096 false false = [0x11, 4, 4, 0, 0, 0x10, 0, 0, 0, 0, 0, 0, 0, 0, 0x7B, 0x4F]
    ∧ headerBytes 2 4 4 516 false false = [0x12, 4, 4, 0, 4, 2, 0, 0, 0, 0, 0, 0, 0, 0, 0x74, 0xFA]
    ∧ headerBytes 3 4 4 12 false false = [0x13, 4, 4, 0, 0xC, 0, 0, 0, 0, 0, 0, 0, 0, 0, 0x39, 0x0D]
    ∧ headerBytes 4 0x1B 5 200 false false = [0x14, 0x1B, 5, 0, 0xC8, 0, 0, 0, 0, 0, 0, 0, 0, 0, 0xB7, 0x92]
    ∧ headerBytes 5 0x1B 5 596 false false = [0x15, 0x1B, 5, 0, 0x54, 2, 0, 0, 0, 0, 0, 0, 0, 0, 0x6D, 0xB8] := by decide +kernel

/-- The directory entries of chapter 8's worked example (R90). -/
theorem test_directory_entries : leBytes 8 (dirEntry 3 4 0x40) = [0x40, 0, 0, 0, 0, 0, 2, 0x30] ∧ leBytes 8 (dirEntry 1 3700 0x42) = [0x42, 0, 0, 0, 0, 0, 0x3A, 0x17] := by decide

/-- The coordinates of tile T and the group words of the PF4 tile (R83, R85). -/
theorem test_payload_parts : leBytes 2 4 ++ coordUnits [0, 5, 0x7F, 0x442] = [4, 0, 0, 0x50, 0, 0x7F, 0x20, 0x44]
    ∧ planeWord 4 ([5, 0x13, 1] ++ List.replicate 28 0 ++ [0x1C]) = 0x80000002 ∧ planeWord 3 ([5, 0x13, 1] ++ List.replicate 28 0 ++ [0x1C]) = 0x80000000
    ∧ planeWord 0 ([5, 0x13, 1] ++ List.replicate 28 0 ++ [0x1C]) = 7 := by decide

/-- R340's check value. -/
theorem test_crc32c : crc32c [0x31, 0x32, 0x33, 0x34, 0x35, 0x36, 0x37, 0x38, 0x39] = 0xE3069283 := by decide +kernel

/-- The element codes of tile T are 1, -2, 0.5 and 3 (R68); what overflows FP8 E4M3 and a conversion to INT8 saturate (R73). -/
theorem test_elements : Val.eq (eltVal 4 0x38) (Val.ofInt 1) = true ∧ Val.eq (eltVal 4 0xC0) (Val.ofInt (-2)) = true
    ∧ Val.eq (Val.add (eltVal 4 0x30) (eltVal 4 0x30)) (Val.ofInt 1) = true ∧ Val.eq (eltVal 4 0x44) (Val.ofInt 3) = true
    ∧ (convert 4 none (Val.ofInt 1000)).1 = 0x7E ∧ (convert 4 none (Val.ofInt (-1000))).1 = 0xFE := by decide +kernel

/-- Reset: the Tidemarks, the boot status and the ports as R480 and R481 leave them, with no port in control. -/
theorem test_reset : State.reset.pkg.control = 0 ∧ State.reset.rb lhBootstat 63 = true ∧ State.reset.rf lhBootstat 62 60 = 6
    ∧ State.reset.rf (tmReg 0 0 0) 31 0 = 0 ∧ State.reset.rb ⟨.cxCfg, 3, 1⟩ 63 = true := by decide

/-- An error's 32 bytes: code, severity, unit and engine where R446 puts them. -/
theorem test_error_bytes : ({ code := 0x0508, severity := 1, kind := 1, unit := 0x137, engine := 5, partition := some 6, task := 0x11223344, detail := 0x7F } : ErrInfo).bytes 3 false
    = [3, 0, 0, 0, 0, 0, 0, 0, 0xFF, 0xFF, 0xFF, 0xFF, 0xFF, 0xFF, 0xFF, 0xFF, 0x08, 0x05, 1, 0x1E, 0x37, 0x51, 0x44, 0x33, 0x22, 0x11, 0x7F, 0, 0, 0, 0, 0] := by decide

/-- A Tidemark increment wakes a WAIT GE that it reaches, on the engine that waits (R308, R311). -/
theorem test_increment : (demo.incr 0 0 false 5 3 0 7).rf (tmReg 0 0 5) 31 0 = 3 ∧ (demo.incr 0 0 true 5 3 0 7).rf (semReg 0 0 5) 15 0 = 3 := by decide +kernel

/-- NativeWordsDecode: a LOOKOUT and a CHSEND at the ends of their fields, for a task with 11 descriptors. -/
theorem wit_native_words : let look : Instr := .lookout (eng 1) ⟨15, 15, 63, 7, 7, true, true, 3, 15, 10, 10, 0xFFF, 0xFFFFFFFF, 15, true⟩
    look.wellFormed = true ∧ (encodeWord look).isSome = true ∧ (handlesOf look).all (handleOk (mappedTask 2).descriptors) = true ∧ nestNamed 1 (.nest (eng 5) 0 4095) = true
    ∧ nestNamed 0 look = true ∧ Instr.wellFormed (.chsend (eng 7) 7 true 0x1FF 0xFFFFFFFFFFFFFFFF) = true
    ∧ (encodeWord (.chsend (eng 7) 7 true 0x1FF 0xFFFFFFFFFFFFFFFF)).isSome = true := by decide +kernel

/-- StartSetsTheSlot: a task of slot 3; FlashAndOutputsStay, EveryStepAnswersAState: a step that sends something. -/
theorem wit_start_slot : ({ demoTask with slot := 3 } : Task).slot < 4
    ∧ (match step (State.reset.setPending [.certificate .smbus]) with | .next t => !t.out.isEmpty | _ => false) = true := by decide +kernel

/-- R358, R362: the header of SE1's write of 8 bytes from core 5 with tag 3, that names counter 9, and that of a grant of 8 credits of target 12, by hand. -/
theorem test_frame_headers :
    Wire.header 0x1234 { frameTo 0 0x40 5 [1, 2, 3, 4, 5, 6, 7, 8] with partition := 2, arrive := true, counter := 9, count := 0 }
      = [0x34, 0x12, 0xC0, 0x50, 0x40, 0, 0, 0, 0, 0, 0, 7, 9, 0x60, 0xC0, 2]
    ∧ Wire.header 0 { frameTo 4 0 5 [] with gen := 3 } = [0, 0, 0x84, 0, 7, 0, 12, 3, 0, 0, 0, 0, 0, 0x60, 0xC0, 2] := by decide

/-- R367: a frame's 64 lanes carry it whole; a bit that a lane turns is that lane's parity error, and the CRC refuses the frame. -/
theorem test_stripes : let f : Frame := { frameTo 0 0x40 5 [1, 2, 3, 4, 5, 6, 7, 8] with counter := 0, count := 0, target := 0, amount := 0 }
    let ws := Wire.stripes 7 f
    ws.length = 64 ∧ Wire.unstripe ws = some f ∧ Wire.laneErrors ws = [] ∧ Wire.laneErrors (ws.modify 1 (· + 8)) = [1]
    ∧ Wire.unstripe (ws.modify 1 (· + 8)) = none := by decide +kernel

/-- R371: the empty block under the zero key and nonce (the GCM specification's case 14). -/
theorem test_gcm : let z := List.replicate 32 0
    Aes.stream z (List.replicate 12 0) (List.replicate 16 0) = [0xCE, 0xA7, 0x40, 0x3D, 0x4D, 0x60, 0x6B, 0x6E, 0x07, 0x4E, 0xC5, 0xD3, 0xBA, 0xF3, 0x9D, 0x18]
    ∧ Aes.tag z (List.replicate 12 0) [] (Aes.stream z (List.replicate 12 0) (List.replicate 16 0))
      = [0xD0, 0xD1, 0xC8, 0xA7, 0x99, 0x99, 0x6B, 0xF0, 0x26, 0x5B, 0x98, 0xB5, 0xD4, 0x8A, 0xB9, 0x19] := by decide +kernel

/-- R271, R272: a row of one segment whose halves have both landed, and one of which half has. -/
theorem test_landing : let s := (State.reset.setBytes 0x40 (State.landingMark 1)).setBytes 0x80 (State.landingMark 1)
    State.landingMark 1 = [2, 0, 0, 0, 0, 0, 0, 0] ∧ s.landingWait 1 2 [0x40, 0x80] = none ∧ s.landingWait 1 1 [0x40, 0xC0] = some 2 ∧ s.landingWait 1 0 [0x40] = some 1 := by
  decide +kernel

end Sys2Proof.Tests
end

section
/-! PROOFS of the family 00_scope: what a register write does field by field (R12, R13, R495), and what the commands that reach registers
do (R11, R159, R209, R210, R451). -/

namespace Sys2Proof.Machine

/-! ## Bits -/

theorem fld_lt_two_pow (v hi lo : Nat) : fld v hi lo < 2 ^ (hi + 1 - lo) := Nat.mod_lt _ (Nat.two_pow_pos _)

theorem bitOf_eq_testBit (v i : Nat) : bitOf v i = v.testBit i := by
  rw [bitOf, Nat.testBit_eq_decide_div_mod_eq]; rfl

/-- Taking from a number the bits that it shares with another borrows nothing: it clears exactly those. -/
theorem testBit_sub_and (o n i : Nat) : (o - (o &&& n)).testBit i = (o.testBit i && !n.testBit i) := by
  induction i generalizing o n with
  | zero =>
    have hpar : (o &&& n) % 2 = o % 2 &&& n % 2 := Nat.and_mod_two_pow (n := 1)
    have hle : (o &&& n) % 2 ≤ o % 2 := hpar ▸ Nat.and_le_left
    have hsub : (o - (o &&& n)) % 2 = o % 2 - (o % 2 &&& n % 2) := by
      have : o &&& n ≤ o := Nat.and_le_left
      omega
    rcases Nat.mod_two_eq_zero_or_one o with ho | ho <;> rcases Nat.mod_two_eq_zero_or_one n with hn | hn <;>
      simp [Nat.testBit_zero, hsub, ho, hn]
  | succ i ih =>
    have hle : o &&& n ≤ o := Nat.and_le_left
    have hpar : (o &&& n) % 2 ≤ o % 2 := by rw [Nat.and_mod_two_pow (n := 1)]; exact Nat.and_le_left
    have hhalf : (o - (o &&& n)) / 2 = o / 2 - (o / 2 &&& n / 2) := by rw [← Nat.and_div_two]; omega
    rw [Nat.testBit_succ, hhalf, ih, Nat.testBit_succ, Nat.testBit_succ]

/-! ## Fields put one after another -/

/-- Fields of a 64-bit register that share no bit, from the highest to the lowest. -/
def FieldsApart (fs : List RegField) : Prop := (∀ f ∈ fs, f.lo ≤ f.hi ∧ f.hi < 64) ∧ fs.Pairwise fun f g => g.hi < f.lo

/-- Every row of the map lists its fields in this way. -/
theorem info_fieldsApart (n : RegName) : FieldsApart n.info.fields := by
  cases n <;> exact ⟨by decide, by decide⟩

/-- Each field of a list put into a value in turn. -/
def putFields (x : RegField → Nat) (fs : List RegField) (v : Nat) : Nat := fs.foldl (fun v f => putFld v f.hi f.lo (x f)) v

theorem after_eq_putFields (i : RegInfo) (b : Bool) (old new : Nat) : i.after b old new = putFields (fun f => f.after b old new) i.fields old := rfl

section
variable {x : RegField → Nat} {fs : List RegField}

theorem putFields_testBit_reserved (hfs : ∀ f ∈ fs, f.lo ≤ f.hi ∧ f.hi < 64) {i : Nat} (hi : ∀ f ∈ fs, ¬ (f.lo ≤ i ∧ i ≤ f.hi)) (v : Nat) :
    (putFields x fs v).testBit i = v.testBit i := by
  induction fs generalizing v with
  | nil => rfl
  | cons f fs ih =>
    rw [List.forall_mem_cons] at hfs hi
    calc (putFields x (f :: fs) v).testBit i
      _ = (putFld v f.hi f.lo (x f)).testBit i := ih hfs.2 hi.2 _
      _ = v.testBit i := by rw [putFld_testBit _ _ _ _ _ (by omega), if_neg hi.1]

theorem putFields_testBit_field (hfs : FieldsApart fs) {f : RegField} (hf : f ∈ fs) {i : Nat} (hlo : f.lo ≤ i) (hhi : i ≤ f.hi) (v : Nat) :
    (putFields x fs v).testBit i = (x f).testBit (i - f.lo) := by
  induction fs generalizing v with
  | nil => cases hf
  | cons g fs ih =>
    obtain ⟨hin, hapart⟩ := hfs
    rw [List.forall_mem_cons] at hin
    rw [List.pairwise_cons] at hapart
    rcases List.mem_cons.1 hf with rfl | hf
    · have hlater : ∀ g ∈ fs, ¬ (g.lo ≤ i ∧ i ≤ g.hi) := fun g hg => by have := hapart.1 g hg; omega
      calc (putFields x (f :: fs) v).testBit i
        _ = (putFld v f.hi f.lo (x f)).testBit i := putFields_testBit_reserved hin.2 hlater _
        _ = (x f).testBit (i - f.lo) := by rw [putFld_testBit _ _ _ _ _ (by omega), if_pos ⟨hlo, hhi⟩]
    · exact ih ⟨hin.2, hapart.2⟩ hf _

theorem putFields_lt (hfs : ∀ f ∈ fs, f.lo ≤ f.hi ∧ f.hi < 64) {v : Nat} (hv : v < 2 ^ 64) : putFields x fs v < 2 ^ 64 := by
  induction fs generalizing v with
  | nil => exact hv
  | cons f fs ih =>
    rw [List.forall_mem_cons] at hfs
    exact ih hfs.2 (putFld_lt (by omega) hfs.1.2 hv)

theorem fld_putFields (hfs : FieldsApart fs) {f : RegField} (hf : f ∈ fs) (hx : x f < 2 ^ (f.hi + 1 - f.lo)) (v : Nat) :
    fld (putFields x fs v) f.hi f.lo = x f := by
  apply Nat.eq_of_testBit_eq
  intro j
  rw [fld_testBit]
  by_cases hj : j < f.hi + 1 - f.lo
  · rw [putFields_testBit_field hfs hf (by omega) (by omega)]
    simp [hj]
  · simp [hj, Nat.testBit_lt_two_pow (Nat.lt_of_lt_of_le hx (Nat.pow_le_pow_right (by decide) (Nat.not_lt.1 hj)))]

end

/-! ## One field after a write, by its class (R13, R495) -/

namespace RegField

variable {f : RegField} {b : Bool} {old new : Nat}

theorem after_direct (h : f.cls = .live ∨ f.cls = .task) : f.after b old new = fld new f.hi f.lo := by
  rcases h with h | h <;> simp only [after, h]

theorem after_quiet (h : f.cls = .quiet) : f.after b old new = fld (if b then old else new) f.hi f.lo := by
  cases b <;> simp [after, h]

theorem after_sticky (h : f.cls = .sticky) : f.after b old new = fld old f.hi f.lo - (fld old f.hi f.lo &&& fld new f.hi f.lo) := by
  simp only [after, h]

theorem after_ro (h : f.cls = .ro) : f.after b old new = fld old f.hi f.lo := by
  simp only [after, h]

theorem after_lt : f.after b old new < 2 ^ (f.hi + 1 - f.lo) := by
  cases h : f.cls with
  | live => rw [after_direct (.inl h)]; exact fld_lt_two_pow _ _ _
  | task => rw [after_direct (.inr h)]; exact fld_lt_two_pow _ _ _
  | quiet => rw [after_quiet h]; exact fld_lt_two_pow _ _ _
  | sticky => rw [after_sticky h]; exact Nat.lt_of_le_of_lt (Nat.sub_le _ _) (fld_lt_two_pow _ _ _)
  | ro => rw [after_ro h]; exact fld_lt_two_pow _ _ _

end RegField

/-- A field of a written register holds what its class makes of the write. -/
theorem fld_after {n : RegName} {f : RegField} (hf : f ∈ n.info.fields) (b : Bool) (old new : Nat) :
    fld (n.info.after b old new) f.hi f.lo = f.after b old new :=
  fld_putFields (info_fieldsApart n) hf RegField.after_lt old

/-! ## The write of a register in a state -/

theorem logsBusy_iff (n : RegName) (old new : Word) :
    n.logsBusy old.toNat new.toNat = true
      ↔ (∃ f ∈ n.info.fields, f.cls = .quiet ∧ wfld old f.hi f.lo ≠ wfld new f.hi f.lo) ∨ (∃ i ∈ n.actionBits, wbit new i = true) := by
  simp only [RegName.logsBusy, Bool.or_eq_true, List.any_eq_true, Bool.and_eq_true, beq_iff_eq, bne_iff_ne, bitOf_eq_testBit]
  rfl

namespace State

/-- What R356 notes of a write touches LH_STRATA_STATUSp alone, and never for a write of that register. -/
theorem noteModified_cases (s : State) (r : RegId) (old : Word) :
    s.noteModified r old = s ∨ ∃ p, r ≠ ⟨.lhStrataStatus, 0, p⟩ ∧ s.noteModified r old = s.setRf ⟨.lhStrataStatus, 0, p⟩ 61 61 1 := by
  unfold noteModified
  split
  next p _ =>
    split
    next h =>
      refine .inr ⟨p, ?_, rfl⟩
      rintro rfl
      simp [RegName.inImage] at h
    next => exact .inl rfl
  next => exact .inl rfl

theorem noteModified_reg_self (s : State) (r : RegId) (old : Word) : (s.noteModified r old).reg r = s.reg r := by
  rcases s.noteModified_cases r old with h | ⟨p, hr, h⟩
  · rw [h]
  · rw [h, reg_setRf_other s 61 61 1 hr]

@[simp] theorem noteModified_lh (s : State) (r : RegId) (old : Word) : (s.noteModified r old).lh = s.lh := by
  rcases s.noteModified_cases r old with h | ⟨p, -, h⟩ <;> simp [h]

theorem store_reg_self (s : State) (a : Agent) (r : RegId) (v : Word) :
    (s.store a r v).reg r = BitVec.ofNat 64 (r.name.info.after (s.busy a r v) (s.reg r).toNat v.toNat) := by
  simp only [store, noteModified_reg_self, reg_setReg_self]

theorem store_lh (s : State) (a : Agent) (r : RegId) (v : Word) :
    (s.store a r v).lh = (if s.busy a r v && r.name.logsBusy (s.reg r).toNat v.toNat then s.logErr (r.notice E.busyWrite) else s).lh := by
  simp only [store, noteModified_lh, setReg_lh]

end State

/-- Settles O59: a written register is its row's fields put one after another, which share no bit. -/
theorem fieldsFollowTheirClass : Obligations.FieldsFollowTheirClass := by
  unfold Obligations.FieldsFollowTheirClass
  refine ⟨fun n b old new hold _ => ⟨?_, fun f hf => ?_, fun i hi => ?_⟩, fun s a r v => ⟨s.store_reg_self a r v, ?_⟩⟩
  · exact putFields_lt (info_fieldsApart n).1 hold
  · rw [fld_after hf]
    refine ⟨RegField.after_direct, RegField.after_quiet, fun h i => ?_, RegField.after_ro⟩
    rw [RegField.after_sticky h, testBit_sub_and]
  · exact putFields_testBit_reserved (info_fieldsApart n).1 hi old
  · rw [State.store_lh]
    simp only [Bool.and_eq_true, logsBusy_iff]
    exact apply_ite State.lh _ _ _

/-! ## Which writes reach a register (R11, R159) -/

theorem exec_registerWrite (a : Agent) (tbit : Bool) (offset width value : Nat) (s : State) :
    exec (.registerWrite a tbit offset width value) s = .next (s.registerWrite a tbit offset width value) := rfl

namespace State

variable {s : State} {a : Agent} {tbit : Bool} {offset width value : Nat}

theorem registerWrite_narrow (h : width ≠ 8 ∨ offset % 8 ≠ 0) : s.registerWrite a tbit offset width value = s := by
  simp only [registerWrite, Bool.or_eq_true, bne_iff_ne, if_pos h]

theorem registerWrite_assigned (ha : offset % 8 = 0) {r : RegId} (hr : regAt offset = some r) :
    s.registerWrite a tbit offset 8 value = s.access a tbit r fun s => s.writeReg a r (BitVec.ofNat 64 value) := by
  simp [registerWrite, ha, hr]

theorem registerWrite_unassigned (ha : offset % 8 = 0) (hr : regAt offset = none) : s.registerWrite a tbit offset 8 value = s.writeNowhere a := by
  simp [registerWrite, ha, hr]

theorem writeNowhere_host {p : Port} (hup : (s.port p).linkUp = true) (hst : s.standby p = false) :
    s.writeNowhere (.host p) = s.logErr (portNotice p E.regAddr) := by
  simp [writeNowhere, hup, hst]

/-! ## Reads of accumulator memory (R209, R210) -/

theorem debugReads_setRf (s : State) (r : RegId) (hi lo x core : Nat) : (s.setRf r hi lo x).debugReads core = s.debugReads core := by
  simp only [debugReads, setRf_tasks, setRf_trust]

theorem debugReads_lockClosed (h : s.trust.lockClosed = true) (core : Nat) : s.debugReads core = false := by
  simp [debugReads, h]

/-- The state whose MA_ACCADDRn.word has advanced, from the last word to 0. -/
def accAdvance (s : State) (r : RegId) : State := s.setRf r 18 3 (if imageWords ≤ s.rf r 18 3 + 1 then 0 else s.rf r 18 3 + 1)

theorem exec_accDataRead {p : Port} {core : Nat} (hup : (s.port p).linkUp = true) (hsp : s.pkg.split = false) (hen : s.enabled core = true) (x : RegPart) :
    exec (.accDataRead p core x) s = .next
      (let r : RegId := ⟨.maAccaddr, core, x.reg⟩
       let u := s.accAdvance r
       let bs := u.imageBytes (u.array core x.reg) (s.rf r 18 3) 1
       if s.debugReads core then bs.2.emit (.readData p (partOf x.off x.size bs.1)) else u.emit (.readData p (zeros x.size))) := by
  change execAccDataRead p core x s = _
  unfold execAccDataRead
  cases hd : s.debugReads core <;> simp [hup, hsp, hen, hd, debugReads_setRf, accAdvance]

/-! ## Writes of an error log's head (R451) -/

theorem headAdvance_eq {l : ErrLog} {head : Nat} (h : (head + 256 - l.head) % 256 ≠ 0 ∨ l.unread < 256) :
    headAdvance l head = (head + 256 - l.head) % 256 := by
  have hfull : ¬ ((head + 256 - l.head) % 256 = 0 ∧ l.unread = 256) := by omega
  simp [headAdvance, hfull]

theorem writeErrhead_eq {l : ErrLog} {shore head d : Nat} (hl : s.log shore = l) (hh : head < 256) (hd : (head + 256 - l.head) % 256 = d)
    (h : d ≠ 0 ∨ l.unread < 256) :
    s.writeErrhead shore head = if l.unread < d then s.logErr { code := E.errlogHead, severity := 0, kind := 4, unit := 2 * shore }
      else s.setLog shore { l with head := head, unread := l.unread - d } := by
  subst hl hd
  simp only [writeErrhead, Nat.mod_eq_of_lt hh, headAdvance_eq h]

theorem exec_errlogHeadWrite_open {p : Port} {shore head : Nat} (hg : s.gate (.host p) true ⟨.hbErrhead, 2 * shore, 0⟩ = none) :
    exec (.errlogHeadWrite p shore head) s = .next (s.writeErrhead shore head) :=
  congrArg Host.Outcome.next (access_open hg)

end State

/-- Settles O60: each command is its access with the gate decided. -/
theorem registerCommandsComplete : Obligations.RegisterCommandsComplete := by
  unfold Obligations.RegisterCommandsComplete
  intro s a p
  refine ⟨fun tbit offset width value => ⟨fun h => ?_, ?_⟩, ?_, fun core k hup hsp hen => ⟨?_, ?_, ?_⟩, ?_⟩
  · rw [exec_registerWrite, State.registerWrite_narrow h]
  · rintro rfl ha
    refine ⟨fun r hr => ⟨fun hg => ?_, fun e hg => ?_⟩, ?_⟩
    · rw [exec_registerWrite, State.registerWrite_assigned ha hr, State.access_open hg]
    · rw [exec_registerWrite, State.registerWrite_assigned ha hr, State.access_shut hg]
    · rintro o rfl hup hst hr
      rw [exec_registerWrite, State.registerWrite_unassigned ha hr, State.writeNowhere_host hup hst]
      rfl
  · rintro ⟨n, unit, idx⟩ v hn
    fin_cases hn <;> rfl
  · intro off size hdbg
    rw [State.exec_accDataRead hup hsp hen, hdbg]
    rfl
  · intro off size hdbg
    rw [State.exec_accDataRead hup hsp hen, hdbg]
    rfl
  · exact fun h => State.debugReads_lockClosed h core
  · intro shore head _ hh hg l d h
    rw [State.exec_errlogHeadWrite_open hg, State.writeErrhead_eq rfl hh rfl h]
    exact ⟨fun hle => by rw [if_neg (Nat.not_lt.2 hle)], fun hlt => by rw [if_pos hlt]; rfl⟩

end Sys2Proof.Machine
end

section
/-! PROOFS of the family 01_shores_and_dies: what the frames of the fabric do at their ends (R33, R34, R358 to R364), which bytes a write stores and what
a read leaves alone (R147, R153), and what an unreliable lane, hop or tower starts (R50, R366 to R369). -/

namespace Sys2Proof.Machine
namespace State

/-- A choice keeps what both of its branches keep. -/
theorem ite_keeps {β : Type} (g : State → β) {c : Prop} [Decidable c] {t u : State} {b : β} (ht : g t = b) (hu : g u = b) :
    g (if c then t else u) = b :=
  iteInduction (motive := fun t : State => g t = b) (fun _ => ht) fun _ => hu

/-! ## Bytes stored one after another -/

theorem byteAt_of_mem {s t : State} (h : t.mem = s.mem) (b : Nat) : t.byteAt b = s.byteAt b := congrArg (fun m => Tab.get 0 m b) h

theorem byteAt_setBytes (s : State) (a : Nat) (bs : List Byte) (b : Nat) :
    (s.setBytes a bs).byteAt b = if a ≤ b then bs.getD (b - a) (s.byteAt b) else s.byteAt b := by
  induction bs generalizing s a with
  | nil => simp [setBytes]
  | cons c bs ih =>
    rw [setBytes, ih]
    rcases Nat.lt_trichotomy b a with h | rfl | h
    · rw [if_neg (by omega), if_neg (by omega), byteAt_setByte_other s c (by omega)]
    · simp
    · obtain ⟨k, rfl⟩ : ∃ k, b = a + 1 + k := Nat.exists_eq_add_of_lt h |>.imp fun k hk => by omega
      have hk : a + 1 + k - a = k + 1 := by omega
      rw [if_pos (by omega), if_pos (by omega), byteAt_setByte_other s c (by omega), hk, Nat.add_sub_cancel_left, List.getD_cons_succ]

theorem clearStruck_mem (s : State) (a n : Nat) : (s.clearStruck a n).mem = s.mem := ite_keeps (·.mem) rfl rfl

/-- Outside the CXL ports no sealing touches what is written (R155): the bytes are stored as they are. -/
theorem byteAt_writeBytes (s : State) {a : Nat} (h : ∀ p o, placeOf a ≠ .cxl p o) (p epoch : Nat) (bs : List Byte) (b : Nat) :
    (s.writeBytes p epoch a bs).byteAt b = if a ≤ b then bs.getD (b - a) (s.byteAt b) else s.byteAt b := by
  have hmem : ((s.clearPoison a bs.length).clearStruck a bs.length).mem = s.mem := clearStruck_mem _ _ _
  unfold writeBytes
  split
  next p o hp => exact absurd hp (h p o)
  next => rw [byteAt_setBytes, byteAt_of_mem hmem]

theorem byteAt_landBytes_plain (s : State) {a : Nat} (h : ∀ p o, placeOf a ≠ .cxl p o) (p epoch : Nat) (bs : List Byte) (b : Nat) :
    (s.landBytes p epoch a 0xFF bs []).byteAt b = if a ≤ b then bs.getD (b - a) (s.byteAt b) else s.byteAt b :=
  byteAt_writeBytes s h p epoch bs b

/-! ## What a frame's arrival leaves alone -/

theorem placeFenced_arrived (s : State) (f : Frame) (core a : Nat) : (s.arrived f).placeFenced core a = s.placeFenced core a := by
  unfold placeFenced targetFenced fenced; rw [arrived_lh]

theorem sealKey_arrived (s : State) (f : Frame) (p epoch : Nat) : (s.arrived f).sealKey p epoch = s.sealKey p epoch := by
  unfold sealKey session; rw [arrived_sessions]

theorem serveFault_arrived (s : State) (f : Frame) : (s.arrived f).serveFault f = s.serveFault f := by
  unfold serveFault; rw [placeFenced_arrived, sealKey_arrived]

theorem writeFault_arrived (s : State) (f : Frame) (a n : Nat) : (s.arrived f).writeFault a n = s.writeFault a n := by
  unfold writeFault cxlCapacity rf reg; rw [arrived_poison, arrived_regs]

/-! ## What a returned credit leaves alone -/

section
variable {β : Type} (g : State → β) (hpool : ∀ s p t v, g (s.setPool p t v) = g s) (hsend : ∀ s f, g (s.send f) = g s)
include hpool hsend

theorem grantPool_keeps (p t n : Nat) (s : State) : g (s.grantPool p t n) = g s := by
  induction n generalizing s with
  | zero => rfl
  | succ n ih =>
    unfold grantPool
    dsimp only
    split
    next => rfl
    next => exact ite_keeps g rfl ((ih _).trans ((hsend _ _).trans (hpool _ _ _ _)))

omit hsend in
theorem returnMany_keeps (p t n : Nat) (s : State) : g (s.returnMany p t n) = g s := by
  induction n generalizing s with
  | zero => rfl
  | succ n ih =>
    have hone : g (s.returnOne p t) = g s := ite_keeps g (hpool _ _ _ _) (hpool _ _ _ _)
    exact (ih _).trans hone

theorem returnCredits_keeps (p t gen n : Nat) (s : State) : g (s.returnCredits p t gen n) = g s := by
  unfold returnCredits
  exact ite_keeps g rfl ((grantPool_keeps g hpool hsend _ _ _ _).trans (returnMany_keeps g hpool _ _ _ _))

theorem returnFor_keeps (f : Frame) (s : State) : g (s.returnFor f) = g s := by
  unfold returnFor
  exact ite_keeps g (returnCredits_keeps g hpool hsend _ _ _ _ _) rfl

end

theorem returnFor_mem (s : State) (f : Frame) : (s.returnFor f).mem = s.mem := returnFor_keeps (·.mem) setPool_mem send_mem f s

/-! ## What an issuer's release and the end of a rotation leave alone -/

theorem ringBells_mem (s : State) (p : Port) : (s.ringBells p).mem = s.mem := by
  unfold ringBells
  exact ite_keeps (·.mem) ((foldl_keeps (·.mem) _ (fun s b => setRf_mem s _ _ _ _) _ _).trans (setPort_mem _ _ _)) rfl

theorem releaseWrite_mem (s : State) (p : Port) (tag : Nat) : (s.releaseWrite p tag).mem = s.mem := by
  have hbells : ∀ v, ((s.setPort p v).ringBells p).mem = s.mem := fun v => (ringBells_mem _ _).trans (setPort_mem _ _ _)
  unfold releaseWrite
  dsimp only
  split
  next => exact ite_keeps (·.mem) ((send_mem _ _).trans (hbells _)) (hbells _)
  next => exact hbells _

/-- Of the issuers of writes only an engine's core does more than release the write. -/
theorem writeLanded_mem (s : State) {f : Frame} (h : 384 ≤ f.source) : (s.writeLanded f).mem = s.mem := by
  unfold writeLanded
  rw [if_neg (Nat.not_lt.2 h)]
  exact ite_keeps (·.mem) (releaseWrite_mem _ _ _) rfl

theorem sessionEntry_mem (s : State) (p kind count identity : Nat) (digest : List Byte) : (s.sessionEntry p kind count identity digest).mem = s.mem := by
  unfold sessionEntry
  exact ite_keeps (·.mem) rfl rfl

theorem endRotation_mem (s : State) (p : Nat) : (s.endRotation p).mem = s.mem := by
  unfold endRotation
  exact ite_keeps (·.mem) (sessionEntry_mem _ _ _ _ _ _) rfl

/-! ## Writes at their targets -/

theorem landFault_eq_none_iff (s : State) (a add : Nat) (bs mask : List Byte) :
    s.landFault a add bs mask = none
      ↔ s.writeFault a bs.length = none ∧ (add = 0xFF ∧ (∀ b ∈ mask, b = 0xFF) ∨ s.readFault a bs.length = none) := by
  have hplain : (add != 0xFF || mask.any (· != 0xFF)) = false ↔ add = 0xFF ∧ ∀ b ∈ mask, b = 0xFF := by simp
  rw [← hplain]
  unfold landFault
  cases s.writeFault a bs.length <;> cases add != 0xFF || mask.any (· != 0xFF) <;> simp

theorem exec_write (f : Frame) (s : State) : exec (.write f) s = .next (s.takeWrite f) := rfl

/-- A write of this module that its target serves lands, and its issuer hears of it. -/
theorem exec_write_lands {s : State} {f : Frame} (hp : f.package = 256) (hs : (s.arrived f).serveFault f = none)
    (hl : (s.arrived f).landFault f.address f.add f.payload f.mask = none) :
    exec (.write f) s = .next ((((s.arrived f).landFrame f).writeLanded f).endRotation f.partition) := by
  simp [exec_write, takeWrite, serveWrite, hp, hs, hl]

/-- A write of this module that its target cannot serve is answered with an error; its credit may go back before. -/
theorem exec_write_refused {s : State} {f : Frame} (hp : f.package = 256)
    (h : ¬ ((s.arrived f).serveFault f = none ∧ (s.arrived f).landFault f.address f.add f.payload f.mask = none)) :
    ∃ c u, (u = s.arrived f ∨ u = (s.arrived f).returnFor f) ∧ exec (.write f) s = .next (u.send (errorFrame f c)) := by
  cases hs : (s.arrived f).serveFault f with
  | some c =>
    refine ⟨c, if c == E.targetRecovering then s.arrived f else (s.arrived f).returnFor f, ?_, ?_⟩
    · exact ite_eq_or_eq _ _ _
    · simp [exec_write, takeWrite, serveWrite, hp, hs]
  | none =>
    cases hl : (s.arrived f).landFault f.address f.add f.payload f.mask with
    | some c => exact ⟨c, _, .inr rfl, by simp [exec_write, takeWrite, serveWrite, hp, hs, hl]⟩
    | none => exact absurd ⟨hs, hl⟩ h

theorem landFrame_uncounted {s : State} {f : Frame} (h : f.arrive = false) :
    s.landFrame f = (s.landBytes f.partition f.epoch f.address f.add f.payload f.mask).returnFor f := by
  unfold landFrame
  dsimp only
  split
  next _ ha => rw [h] at ha; cases ha
  next => rfl

end State

/-- Settles O34: a served write is the store of its payload, a credit, a release and perhaps the end of a rotation, of which the store alone reaches memory. -/
theorem hostWritesStoreTheirBytes : Obligations.HostWritesStoreTheirBytes := by
  unfold Obligations.HostWritesStoreTheirBytes
  intro s f hsrc hpkg hadd hmask harr hcxl
  have hserved : (s.arrived f).serveFault f = none ∧ (s.arrived f).landFault f.address f.add f.payload f.mask = none
      ↔ s.serveFault f = none ∧ s.writeFault f.address f.payload.length = none := by
    simp [State.landFault_eq_none_iff, State.serveFault_arrived, State.writeFault_arrived, hadd, hmask]
  by_cases h : s.serveFault f = none ∧ s.writeFault f.address f.payload.length = none
  · obtain ⟨hs, hl⟩ := hserved.2 h
    refine ⟨_, State.exec_write_lands hpkg hs hl, fun _ b => ?_, fun hn => absurd h hn⟩
    have hmem : ((((s.arrived f).landFrame f).writeLanded f).endRotation f.partition).mem
        = ((s.arrived f).landBytes f.partition f.epoch f.address 0xFF f.payload []).mem := by
      rw [State.endRotation_mem, State.writeLanded_mem _ hsrc, State.landFrame_uncounted harr, State.returnFor_mem, hadd, hmask]
    rw [State.byteAt_of_mem hmem, State.byteAt_landBytes_plain _ hcxl, State.byteAt_of_mem (State.arrived_mem s f)]
  · obtain ⟨c, u, hu, he⟩ := State.exec_write_refused hpkg (mt hserved.1 h)
    refine ⟨_, he, fun hp => absurd hp h, fun _ b => State.byteAt_of_mem ?_ b⟩
    rw [State.send_mem]
    rcases hu with rfl | rfl
    · exact State.arrived_mem s f
    · rw [State.returnFor_mem, State.arrived_mem]

namespace State

/-! ## Reads at their targets -/

/-- What the media report of a read strikes the bytes that it names before it is served (R146). -/
def struckBy (s : State) (f : Frame) : Media → State
  | .good => s
  | .corrected k => s.strikeOne (.memory (f.address + min k (f.count - 1)) false)
  | .uncorrectable k => s.strikeOne (.memory (f.address + min k (f.count - 1)) true)

theorem serveRead_of_served {s : State} {f : Frame} (h : s.serveFault f = none) (m : Media) :
    s.serveRead f m = (((((s.struckBy f m).meet f.address f.count).readFault f.address f.count).elim
      (.ok (((s.struckBy f m).meet f.address f.count).readBytes f.partition f.epoch f.address f.count)) .error), (s.struckBy f m).meet f.address f.count) := by
  unfold serveRead
  rw [h]
  cases m <;> simp only [struckBy, strike, List.foldl] <;> split <;> simp [*]

theorem exec_readRequest (f : Frame) (m : Media) (s : State) : exec (.readRequest f m) s = .next (s.takeRead f m) := rfl

section
variable {s : State} {f : Frame} {m : Media}

theorem exec_readRequest_ok (hp : f.package = 256) (hs : (s.arrived f).serveFault f = none)
    (hr : (((s.arrived f).struckBy f m).meet f.address f.count).readFault f.address f.count = none) :
    exec (.readRequest f m) s = .next ((((s.arrived f).struckBy f m).meet f.address f.count).send
      { f with kind := 2, payload := (((s.arrived f).struckBy f m).meet f.address f.count).readBytes f.partition f.epoch f.address f.count }) := by
  simp [exec_readRequest, takeRead, hp, serveRead_of_served hs, hr]

theorem exec_readRequest_error (hp : f.package = 256) (hs : (s.arrived f).serveFault f = none) {c : Nat}
    (hr : (((s.arrived f).struckBy f m).meet f.address f.count).readFault f.address f.count = some c) :
    exec (.readRequest f m) s = .next ((((s.arrived f).struckBy f m).meet f.address f.count).send (errorFrame f c)) := by
  simp [exec_readRequest, takeRead, hp, serveRead_of_served hs, hr]

theorem exec_readRequest_unserved (hp : f.package = 256) {c : Nat} (hs : (s.arrived f).serveFault f = some c) :
    exec (.readRequest f m) s = .next ((s.arrived f).send (errorFrame f c)) := by
  simp [exec_readRequest, takeRead, serveRead, hp, hs]

theorem exec_readRequest_peer (hp : f.package ≠ 256) {n : Nat} (hn : (s.arrived f).routeLink f.partition f.package f.address = some n) :
    exec (.readRequest f m) s = .next (((s.arrived f).setLink n { (s.arrived f).link n with reads := ((s.arrived f).link n).reads ++ [f] }).linkSend n f) := by
  simp [exec_readRequest, takeRead, hp, hn]

theorem exec_readRequest_unrouted (hp : f.package ≠ 256) (hn : (s.arrived f).routeLink f.partition f.package f.address = none) :
    exec (.readRequest f m) s = .next ((s.arrived f).send (errorFrame f E.noRoute)) := by
  simp [exec_readRequest, takeRead, hp, hn]

/-- A read request ends in one of three ways: its bytes are read and something is sent, something is sent at once, or it leaves on a link. -/
theorem exec_readRequest_cases (s : State) (f : Frame) (m : Media) :
    (∃ g, exec (.readRequest f m) s = .next ((((s.arrived f).struckBy f m).meet f.address f.count).send g))
    ∨ (∃ g, exec (.readRequest f m) s = .next ((s.arrived f).send g))
    ∨ ∃ n l, exec (.readRequest f m) s = .next (((s.arrived f).setLink n l).linkSend n f) := by
  by_cases hp : f.package = 256
  · cases hs : (s.arrived f).serveFault f with
    | some c => exact .inr (.inl ⟨_, exec_readRequest_unserved hp hs⟩)
    | none =>
      cases hr : (((s.arrived f).struckBy f m).meet f.address f.count).readFault f.address f.count with
      | none => exact .inl ⟨_, exec_readRequest_ok hp hs hr⟩
      | some c => exact .inl ⟨_, exec_readRequest_error hp hs hr⟩
  · cases hn : (s.arrived f).routeLink f.partition f.package f.address with
    | none => exact .inr (.inl ⟨_, exec_readRequest_unrouted hp hn⟩)
    | some n => exact .inr (.inr ⟨n, _, exec_readRequest_peer hp hn⟩)

end

/-! ## What the errors that a read meets leave alone -/

section
variable {β : Type} (g : State → β) (hrf : ∀ s r hi lo v, g (s.setRf r hi lo v) = g s)
include hrf

theorem noteEcc_keeps (s : State) (a : Nat) (ue : Bool) : g (s.noteEcc a ue) = g s := by
  unfold noteEcc
  split
  case h_3 => rfl
  all_goals
    cases ue
    · exact ((hrf _ _ _ _ _).trans (hrf _ _ _ _ _)).trans ((hrf _ _ _ _ _).trans (hrf _ _ _ _ _))
    · exact (hrf _ _ _ _ _).trans ((hrf _ _ _ _ _).trans (hrf _ _ _ _ _))

variable (hlog : ∀ s e, g (s.logErr e) = g s) (hlh : ∀ s v, g (s.setLh v) = g s)

omit hrf in
include hlog hlh in
theorem mapRow_keeps (s : State) (base bank row : Nat) : g (s.mapRow base bank row) = g s := by
  unfold mapRow
  exact ite_keeps g rfl (ite_keeps g (hlog _ _) ((hlog _ _).trans (hlh _ _)))

variable (hpoison : ∀ s v, g (s.setPoison v) = g s)
include hlog hlh hpoison

theorem spoil_keeps (s : State) (a : Nat) : g (s.spoil a) = g s := by
  have hadd : ∀ n, g (if s.poison.contains (a / n * n, n) then s else s.setPoison (s.poison ++ [(a / n * n, n)])) = g s :=
    fun n => ite_keeps g rfl (hpoison _ _)
  unfold spoil
  dsimp only
  split
  next => exact (mapRow_keeps g hlog hlh _ _ _ _).trans ((noteEcc_keeps g hrf _ _ _).trans (hadd 16))
  next => exact (mapRow_keeps g hlog hlh _ _ _ _).trans ((noteEcc_keeps g hrf _ _ _).trans (hadd 16))
  next => exact ite_keeps g (hadd 64) ((hrf _ _ _ _ _).trans ((hlh _ _).trans (hadd 64)))
  next => exact (hrf _ _ _ _ _).trans (hadd 64)
  next => rfl

theorem meet_keeps (hstruck : ∀ s v, g (s.setStruck v) = g s) (s : State) (a n : Nat) : g (s.meet a n) = g s := by
  unfold meet
  split
  next => rfl
  next =>
    exact (foldl_keeps g _ (fun t e => ite_keeps g (spoil_keeps g hrf hlog hlh hpoison _ _) (noteEcc_keeps g hrf _ _ _)) _ _).trans (hstruck _ _)

end

theorem struckBy_keeps {β : Type} (g : State → β) (hstruck : ∀ s v, g (s.setStruck v) = g s) (s : State) (f : Frame) (m : Media) :
    g (s.struckBy f m) = g s := by
  have hone : ∀ a ue, g (s.strikeOne (.memory a ue)) = g s := by
    intro a ue
    unfold strikeOne
    exact ite_keeps g rfl (hstruck _ _)
  cases m with
  | good => rfl
  | corrected k => exact hone _ _
  | uncorrectable k => exact hone _ _

/-- A frame that is no grant leaves on a link, waits there or is discarded: no credit goes back (R45, R376). -/
theorem linkSend_keeps {β : Type} (g : State → β) (hlink : ∀ s n v, g (s.setLink n v) = g s) (hrf : ∀ s r hi lo v, g (s.setRf r hi lo v) = g s)
    (hemit : ∀ s o, g (s.emit o) = g s) (s : State) (n : Nat) {f : Frame} (hk : f.kind ≠ 4) : g (s.linkSend n f) = g s := by
  unfold linkSend linkPut
  dsimp only
  have hgrant : ¬ (f.kind == 4) = true := by simpa using hk
  rw [if_neg hgrant]
  exact ite_keeps g (ite_keeps g (hlink _ _ _) ((hemit _ _).trans ((hrf _ _ _ _ _).trans (hlink _ _ _)))) rfl

/-! ## What a read leaves alone -/

/-- The fields that no read request changes: bytes and seals, the tasks and all that their programs see, arrivals, pools and keys. -/
def readFrame (s : State) :=
  (s.mem, s.seals, s.tasks, s.engs, s.rings, s.chans, s.arrays, s.landed, s.pools, s.trust)

theorem readFrame_eq_iff (s t : State) : t.readFrame = s.readFrame ↔ t.mem = s.mem ∧ t.seals = s.seals ∧ t.tasks = s.tasks ∧ t.engs = s.engs
    ∧ t.rings = s.rings ∧ t.chans = s.chans ∧ t.arrays = s.arrays ∧ t.landed = s.landed ∧ t.pools = s.pools ∧ t.trust = s.trust := by
  simp only [readFrame, Prod.mk.injEq]

theorem arrived_readFrame (s : State) (f : Frame) : (s.arrived f).readFrame = s.readFrame := by simp [readFrame]
theorem send_readFrame (s : State) (f : Frame) : (s.send f).readFrame = s.readFrame := by simp [readFrame]
theorem logErr_readFrame (s : State) (e : ErrInfo) : (s.logErr e).readFrame = s.readFrame := by simp [readFrame]

theorem meet_readFrame (s : State) (a n : Nat) : (s.meet a n).readFrame = s.readFrame :=
  meet_keeps readFrame (fun _ _ _ _ _ => rfl) logErr_readFrame (fun _ _ => rfl) (fun _ _ => rfl) (fun _ _ => rfl) s a n

theorem struckBy_readFrame (s : State) (f : Frame) (m : Media) : (s.struckBy f m).readFrame = s.readFrame :=
  struckBy_keeps readFrame (fun _ _ => rfl) s f m

theorem linkSend_readFrame (s : State) (n : Nat) {f : Frame} (hk : f.kind ≠ 4) : (s.linkSend n f).readFrame = s.readFrame :=
  linkSend_keeps readFrame (fun _ _ _ => rfl) (fun _ _ _ _ _ => rfl) (fun _ _ => rfl) s n hk

/-! ## Poison only grows at a read, and only by an uncorrectable error -/

theorem noteEcc_poison (s : State) (a : Nat) (ue : Bool) : (s.noteEcc a ue).poison = s.poison := noteEcc_keeps (·.poison) setRf_poison s a ue

theorem mem_spoil_poison {s : State} {e : Nat × Nat} (h : e ∈ s.poison) (a : Nat) : e ∈ (s.spoil a).poison := by
  have hadd : ∀ n, e ∈ (if s.poison.contains (a / n * n, n) then s else s.setPoison (s.poison ++ [(a / n * n, n)])).poison :=
    fun n => iteInduction (motive := fun t : State => e ∈ t.poison) (fun _ => h) fun _ => List.mem_append_left _ h
  have hmap : ∀ (t : State) (b k r : Nat), (t.mapRow b k r).poison = t.poison := mapRow_keeps (·.poison) logErr_poison setLh_poison
  unfold spoil
  dsimp only
  split
  next => rw [hmap, noteEcc_poison]; exact hadd 16
  next => rw [hmap, noteEcc_poison]; exact hadd 16
  next => rw [ite_keeps (·.poison) rfl ((setRf_poison _ _ _ _ _).trans (setLh_poison _ _))]; exact hadd 64
  next => rw [satRf_poison]; exact hadd 64
  next => exact h

theorem mem_meet_poison {s : State} {e : Nat × Nat} (h : e ∈ s.poison) (a n : Nat) : e ∈ (s.meet a n).poison := by
  unfold meet
  split
  next => exact h
  next =>
    refine List.foldlRecOn (motive := fun t : State => e ∈ t.poison) _ _ h fun t ht k _ => ?_
    split
    · exact mem_spoil_poison ht _
    · rw [noteEcc_poison]; exact ht

theorem meet_poison_of_corrected {s : State} {a n : Nat} (h : ∀ e ∈ s.struck, e.2 = true → meets a n e = false) : (s.meet a n).poison = s.poison := by
  unfold meet
  split
  next => rfl
  next =>
    refine List.foldlRecOn (motive := fun t : State => t.poison = s.poison) _ _ rfl fun t ht k hk => ?_
    obtain ⟨hmem, hmet⟩ := List.mem_filter.1 hk
    have hc : k.2 = false := by
      by_contra hu
      rw [h k hmem (by simpa using hu)] at hmet
      cases hmet
    rw [hc, if_neg Bool.false_ne_true, noteEcc_poison, ht]

theorem mem_struckBy_struck {s : State} {f : Frame} {m : Media} (hm : ∀ k, m ≠ .uncorrectable k) {e : Nat × Bool} (he : e ∈ (s.struckBy f m).struck)
    (hu : e.2 = true) : e ∈ s.struck := by
  cases m with
  | good => exact he
  | uncorrectable k => exact absurd rfl (hm k)
  | corrected k =>
    simp only [struckBy, strikeOne] at he
    split at he
    · exact he
    · rcases List.mem_append.1 he with he | he
      · exact he
      · rw [List.mem_singleton.1 he] at hu; cases hu

end State

/-- Settles O35: of the three ends of a read request none reaches those fields, and only a spoilt segment adds to the poison. -/
theorem readsLeaveMemory : Obligations.ReadsLeaveMemory := by
  unfold Obligations.ReadsLeaveMemory
  intro s f m hk
  have hpoison : ∀ u : State, u.poison = s.poison → ((∀ k, m ≠ .uncorrectable k) →
      (∀ e ∈ s.struck, e.2 = true → meets f.address f.count e = false) → u.poison = s.poison) ∧ ∀ e ∈ s.poison, e ∈ u.poison := fun u hu => ⟨fun _ _ => hu, fun e he => hu ▸ he⟩
  suffices h : ∃ t, exec (.readRequest f m) s = .next t ∧ t.readFrame = s.readFrame ∧ ((∀ k, m ≠ .uncorrectable k) →
      (∀ e ∈ s.struck, e.2 = true → meets f.address f.count e = false) → t.poison = s.poison) ∧ ∀ e ∈ s.poison, e ∈ t.poison by
    simpa only [State.readFrame_eq_iff, and_assoc] using h
  rcases State.exec_readRequest_cases s f m with ⟨g, h⟩ | ⟨g, h⟩ | ⟨n, l, h⟩
  · have hbefore : ((s.arrived f).struckBy f m).poison = s.poison :=
      (State.struckBy_keeps (·.poison) State.setStruck_poison _ _ _).trans (State.arrived_poison s f)
    refine ⟨_, h, ?_, fun hm hs => ?_, fun e he => ?_⟩
    · rw [State.send_readFrame, State.meet_readFrame, State.struckBy_readFrame, State.arrived_readFrame]
    · rw [State.send_poison, State.meet_poison_of_corrected, hbefore]
      intro e he hu
      exact hs e (State.arrived_struck s f ▸ State.mem_struckBy_struck hm he hu) hu
    · rw [State.send_poison]
      exact State.mem_meet_poison (hbefore ▸ he) _ _
  · exact ⟨_, h, (State.send_readFrame _ _).trans (State.arrived_readFrame s f), hpoison _ ((State.send_poison _ _).trans (State.arrived_poison s f))⟩
  · have hk4 : f.kind ≠ 4 := by omega
    refine ⟨_, h, (State.linkSend_readFrame _ _ hk4).trans (State.arrived_readFrame s f), hpoison _ ?_⟩
    exact (State.linkSend_keeps (·.poison) State.setLink_poison State.setRf_poison State.emit_poison _ _ hk4).trans (State.arrived_poison s f)

/-- Settles O31: each clause is the frame's own end with its tests decided. -/
theorem transfersComplete : Obligations.TransfersComplete := by
  unfold Obligations.TransfersComplete
  intro s f
  refine ⟨fun hp hs hw hr => ?_, fun n hp hn => ?_, fun hp hs m k => ?_, fun n m hp hn => ?_, fun h => ?_, fun h => ?_⟩
  · exact State.exec_write_lands hp hs ((State.landFault_eq_none_iff _ _ _ _ _).2 ⟨hw, hr⟩)
  · simp [State.exec_write, State.takeWrite, State.outboundWrite, hp, hn]
  · rintro at' u (rfl | rfl | rfl)
    · exact ⟨State.exec_readRequest_ok (m := .good) hp hs, fun c => State.exec_readRequest_error (m := .good) hp hs⟩
    · exact ⟨State.exec_readRequest_ok (m := .corrected k) hp hs, fun c => State.exec_readRequest_error (m := .corrected k) hp hs⟩
    · exact ⟨State.exec_readRequest_ok (m := .uncorrectable k) hp hs, fun c => State.exec_readRequest_error (m := .uncorrectable k) hp hs⟩
  · exact State.exec_readRequest_peer hp hn
  · exact congrArg Host.Outcome.next (if_pos h)
  · have hs : ¬ f.source < 384 := by omega
    exact congrArg Host.Outcome.next ((if_neg hs).trans (if_pos h))

theorem exec_creditGrant (f : Frame) (s : State) : exec (.creditGrant f) s = .next (s.takeGrant f) := rfl
theorem exec_creditReturn (f : Frame) (s : State) :
    exec (.creditReturn f) s = .next ((s.arrived f).returnCredits f.partition f.target f.gen f.count) := rfl
theorem exec_signal (f : Frame) (s : State) : exec (.signal f) s = .next (s.takeSignal f) := rfl
theorem exec_channelWrite (f : Frame) (s : State) : exec (.channelWrite f) s = .next (s.takeWords f) := rfl

/-- Settles O32: each clause is the frame's own end with its tests decided; a return's generation test is the pool's. -/
theorem creditsMove : Obligations.CreditsMove := by
  unfold Obligations.CreditsMove
  intro s f
  refine ⟨rfl, fun t id v hsrc ht hab htag hx => ?_, fun t i g hsrc ht hab htag hb => ?_, fun w hlo hhi hw => ?_, fun h => ?_, ?_, fun g o hg => ⟨?_, ?_⟩⟩
  · simp [exec_creditGrant, State.takeGrant, State.grantEngine, hsrc, ht, hab, htag, hx]
  · simp [exec_creditGrant, State.takeGrant, State.grantEngine, hsrc, ht, hab, htag, hb]
  · simp only [exec_creditGrant, State.takeGrant, if_neg (Nat.not_lt.2 hlo), if_pos hhi, hw]
  · have hs : ¬ f.source < 384 := by omega
    exact congrArg Host.Outcome.next ((if_neg hs).trans (if_neg (Nat.not_lt.2 h)))
  · by_cases hgen : f.gen = ((s.arrived f).pool f.partition f.target).gen <;> simp [exec_creditReturn, State.returnCredits, hgen]
  · simp [exec_signal, State.takeSignal, hg]
  · simp [exec_channelWrite, State.takeWords, hg]

namespace State

/-! ## Lanes of the Causeway (R368, R369) -/

theorem failCauseway_of_up {s : State} (h : s.pkg.causewayFailed = false) :
    s.failCauseway = (((s.setPkg { s.pkg with causewayFailed := true, swaps := [] }).setRf cwStatus 63 62 2).forAll (List.range 8)
      fun s p => s.forAll (List.range 24) fun s t => s.resetPool p t).loseBacklog.manage { code := E.cwFailed, severity := 2, kind := 7 } 4 11 0 true := by
  simp [failCauseway, h]

theorem laneFails_of_up {s : State} (h : s.pkg.causewayFailed = false) (dir lane : Nat) :
    s.laneFails dir lane = if s.spares dir = 0 then s.failCauseway
      else (s.setPkg { s.pkg with swaps := s.pkg.swaps ++ [(dir, lane)] }).setRf cwStatus 62 62 1 := by
  simp [laneFails, h]

/-- The state in which a lane's bits travel on the spare that was trained, and its direction has sent again what is not acknowledged. -/
def laneMapped (s : State) (dir : Nat) (w : Nat × Nat) : State :=
  let left := s.rf cwStatus (spareBit dir + 3) (spareBit dir)
  let s := (s.setPkg { s.pkg with swaps := s.pkg.swaps.erase w }).setRf cwStatus (spareBit dir + 3) (spareBit dir) (left - 1)
  let s := s.setRf cwStatus 62 62 (b2n (!s.pkg.swaps.isEmpty))
  let s := (s.setRf ⟨.cwSparemap, 0, dir⟩ (8 * (4 - left) + 7) (8 * (4 - left)) (0x80 + w.2 % 128)).sendWaiting
  s.satRf ⟨.cwErr, 0, dir⟩ 63 32 (s.hop causewayHop dir).buffer.length

theorem laneMapped_pkg (s : State) (dir : Nat) (w : Nat × Nat) : (s.laneMapped dir w).pkg = { s.pkg with swaps := s.pkg.swaps.erase w } := by simp [laneMapped]
theorem laneMapped_mem (s : State) (dir : Nat) (w : Nat × Nat) : (s.laneMapped dir w).mem = s.mem := by simp [laneMapped]
theorem laneMapped_tasks (s : State) (dir : Nat) (w : Nat × Nat) : (s.laneMapped dir w).tasks = s.tasks := by simp [laneMapped]
theorem laneMapped_out (s : State) (dir : Nat) (w : Nat × Nat) : (s.laneMapped dir w).out = s.out := by simp [laneMapped]

theorem laneSwapped_trained {s : State} {dir : Nat} {w : Nat × Nat} (h : (s.pkg.swaps.find? fun w => w.1 == dir) = some w) :
    s.laneSwapped dir true = if s.rf cwStatus (spareBit dir + 3) (spareBit dir) = 1 then
        (s.laneMapped dir w).manage { code := E.cwLaneSpared, severity := 2, kind := 7, detail := w.2 } 2 7 0 false
      else (s.laneMapped dir w).logErr { code := E.cwLaneSpared, severity := 0, kind := 7, detail := w.2 } := by
  simp [laneSwapped, laneMapped, h]

theorem laneSwapped_untrained {s : State} {dir : Nat} {w : Nat × Nat} (h : (s.pkg.swaps.find? fun w => w.1 == dir) = some w) :
    s.laneSwapped dir false = s.failCauseway := by
  simp [laneSwapped, h]

end State

/-- Settles O41: the state that a trained swap leaves is `State.laneMapped`. -/
theorem lanesHopsAndTowersComplete : Obligations.LanesHopsAndTowersComplete := by
  unfold Obligations.LanesHopsAndTowersComplete
  intro s dir lane
  refine ⟨fun h => ⟨?_, ?_⟩, fun w hw => ⟨?_, s.laneMapped dir w, ?_, ?_, ?_, ?_, ?_⟩, fun shore hop => ⟨rfl, rfl⟩, fun t => ⟨rfl, rfl⟩⟩
  · exact congrArg Host.Outcome.next (State.laneFails_of_up h dir lane)
  · exact congrArg Host.Outcome.next (State.failCauseway_of_up h)
  · exact congrArg Host.Outcome.next (State.laneSwapped_untrained hw)
  · rw [State.laneMapped_pkg]
  · exact congrArg Host.Outcome.next (State.laneSwapped_trained hw)
  · exact State.laneMapped_mem s dir w
  · exact State.laneMapped_tasks s dir w
  · exact State.laneMapped_out s dir w

end Sys2Proof.Machine
end

section
/-! PROOFS of the family 02_handshake_timing: what the retirement of a command that reaches registers alone leaves unchanged (R60, R61, R306, R318), and
what the Lighthouse's own commands do (R58, R63, R402, R453, R465). -/

namespace Sys2Proof.Machine

/-! ## The context of an engine that retires an instruction outside every body -/

namespace EngCtx

theorem settle_outside {c : EngCtx} (h : c.frames = []) (n : Nat) : settle n c = c := by
  cases n <;> simp [settle, h]

theorem consume_outside {c : EngCtx} (h : c.frames = []) (n : Nat) : c.consume n = { c with queue := c.queue.drop n } := by
  simp [consume, fromQueue, advance, h]

/-- The end of a stream marks its engine ended and empties its queue and its bodies (R324): nothing else. -/
theorem endOfStream_keeps {β : Type} (g : EngCtx → β) (hg : ∀ c : EngCtx, g { c with ended := true, queue := [], frames := [] } = g c)
    (c : EngCtx) (t : Task) (e : Nat) : g (c.endOfStream t e) = g c :=
  iteInduction (motive := fun d : EngCtx => g d = g c) (fun _ => hg c) fun _ => rfl

/-- An instruction's change of the operand registers alone. -/
def withParams (p : List Nat → List Nat) (c : EngCtx) : EngCtx := { c with params := p c.params }

/-- The context that a retirement leaves (State.retireWord). -/
def afterRetire (c : EngCtx) (t : Task) (e n : Nat) (upd : EngCtx → EngCtx) : EngCtx :=
  let d := { upd (c.consume n) with blocked := none, retired := c.retired + 1 }
  (d.settle (d.frames.length + 1)).endOfStream t e

section
variable {c : EngCtx} (h : c.frames = []) (t : Task) (e n : Nat) (p : List Nat → List Nat)
include h

/-- Outside every body an instruction that changes operand registers alone leaves the rest of its context to the queue and the end of the stream. -/
theorem afterRetire_outside : c.afterRetire t e n (withParams p)
    = endOfStream { c with queue := c.queue.drop n, params := p c.params, blocked := none, retired := c.retired + 1 } t e := by
  simp [afterRetire, withParams, consume_outside h, settle_outside, h]

theorem afterRetire_retired : (c.afterRetire t e n (withParams p)).retired = c.retired + 1 := by
  rw [afterRetire_outside h]; exact endOfStream_keeps (·.retired) (fun _ => rfl) _ t e

theorem afterRetire_blocked : (c.afterRetire t e n (withParams p)).blocked = none := by
  rw [afterRetire_outside h]; exact endOfStream_keeps (·.blocked) (fun _ => rfl) _ t e

theorem afterRetire_params : (c.afterRetire t e n (withParams p)).params = p c.params := by
  rw [afterRetire_outside h]; exact endOfStream_keeps (·.params) (fun _ => rfl) _ t e

theorem afterRetire_zeros : (c.afterRetire t e n (withParams p)).zeros = c.zeros := by
  rw [afterRetire_outside h]; exact endOfStream_keeps (·.zeros) (fun _ => rfl) _ t e

end
end EngCtx

namespace State

/-! ## What follows on a retirement, where nothing waits for it -/

theorem allEnded_of_running {s : State} {t : Task} {y : EngRef} (hslot : y.slot = t.slot) (hcore : y.core ∈ t.cores) (heng : y.eng < 8)
    (h : (s.eng y).ended = false) : s.allEnded t = false := by
  rw [← Bool.not_eq_true]
  intro hall
  simp only [allEnded, List.all_eq_true, Bool.and_eq_true] at hall
  have hy := ((hall y.core hcore).2 y.eng (List.mem_range.2 heng)).1
  rw [← hslot, h] at hy
  exact absurd hy (by decide)

theorem tryDone_of_running {s : State} {core slot : Nat} {t : Task} (ht : s.taskAt core slot = some t) (h : s.allEnded t = false) :
    s.tryDone core slot = s := by
  simp [tryDone, ht, h]

theorem admitHeld_of_noneHeld {s : State} (hw : (s.port .w).heldWords = []) (he : (s.port .e).heldWords = []) : s.admitHeld = s := by
  simp [admitHeld, admitPort, hw, he]

theorem giveZeros_of_noneOwed {s : State} {core slot : Nat} (h : (s.eng ⟨core, slot, 7⟩).zeros = 0) : s.giveZeros core slot = s := by
  cases ht : s.taskAt core slot <;> simp [giveZeros, ht, h]

theorem pumpItems_of_noList {s : State} {core : Nat} (h : (s.disp (core / 32)).running = false) (n : Nat) : s.pumpItems core n = s := by
  cases n <;> simp [pumpItems, dispChannel, h]

theorem pumpEnds_of_noList {s : State} {d : Nat} (h : (s.disp d).running = false) (n : Nat) : s.pumpEnds d n = s := by
  cases n <;> simp [pumpEnds, h]

theorem pump_of_noList {s : State} {core : Nat} (hd : (s.disp (core / 32)).running = false) (hz : ∀ n, n < 4 → (s.eng ⟨core, n, 7⟩).zeros = 0) :
    s.pump core = s := by
  have hgive : (s.forAll (List.range 4) fun s n => s.giveZeros core n) = s := by
    simp [forAll, List.range_succ, giveZeros_of_noneOwed, hz]
  rw [pump, hgive, pumpItems_of_noList hd, pumpEnds_of_noList hd]

/-- Where nothing waits for what it frees, a retirement is its engine's context and its counts. -/
theorem retire_of_quiet {s : State} {x : EngRef} {t : Task} (ht : s.taskAt x.core x.slot = some t) (hq : Quiet s x t) (hf : (s.eng x).frames = [])
    (i : Instr) (p : List Nat → List Nat) :
    s.retire x t i (EngCtx.withParams p)
      = (s.setEng x ((s.eng x).afterRetire t x.eng (wordsOf i) (EngCtx.withParams p))).countRetired x := by
  obtain ⟨hw, he, hd, hz, y, hne, hslot, hcore, heng, hrun⟩ := hq
  set c := (s.eng x).afterRetire t x.eng (wordsOf i) (EngCtx.withParams p) with hc
  set u := (s.setEng x c).countRetired x with hu
  have hother : ∀ z, z ≠ x → u.eng z = s.eng z := fun z hz => eng_setEng_other s x c z hz
  have hzeros : ∀ n, n < 4 → (u.eng ⟨x.core, n, 7⟩).zeros = 0 := by
    intro n hn
    by_cases hx : (⟨x.core, n, 7⟩ : EngRef) = x
    · have hself : u.eng x = c := eng_setEng_self s x c
      rw [hx, hself, hc, EngCtx.afterRetire_zeros hf, ← hx]
      exact hz n hn
    · rw [hother _ hx, hz n hn]
  have hword : s.retireWord x t i (EngCtx.withParams p) = u :=
    tryDone_of_running (s := u) ht (allEnded_of_running hslot hcore heng (by rw [hother y hne, hrun]))
  rw [retire, hword, admitHeld_of_noneHeld (s := u) hw he, pump_of_noList (s := u) hd hzeros]

/-! ## What a retirement's counts and an instruction's beginning leave alone -/

/-- The state without the registers, the engines' contexts, the slots' turns and the counter of free values. -/
def besideCounts (s : State) : State := { s with regs := [], engs := [], turns := [], free := 0 }

/-- Whatever does not look at those four is the same in two states that agree beside them. -/
theorem eq_of_besideCounts {s u : State} (h : u.besideCounts = s.besideCounts) {β : Type} (g : State → β)
    (hg : ∀ s : State, g s.besideCounts = g s := by exact fun _ => rfl) : g u = g s :=
  (hg u).symm.trans ((congrArg g h).trans (hg s))

theorem countRetired_besideCounts (s : State) (x : EngRef) : (s.countRetired x).besideCounts = s.besideCounts := rfl

theorem countRetired_eng (s : State) (x y : EngRef) : (s.countRetired x).eng y = s.eng y := rfl

theorem countRetired_reg (s : State) {x : EngRef} {r : RegId} (h : retireReg x r = false) : (s.countRetired x).reg r = s.reg r := by
  simp only [retireReg, Bool.or_eq_false_iff, beq_eq_false_iff_ne] at h
  obtain ⟨⟨hq, hp⟩, hh⟩ := h
  calc (s.countRetired x).reg r
    _ = ((s.addRf ⟨.pilQcount, x.core, x.eng⟩ 47 0 1).addRf (progressReg x.core x.eng) 47 0 _).reg r := reg_setRf_other _ _ _ _ hh
    _ = (s.addRf ⟨.pilQcount, x.core, x.eng⟩ 47 0 1).reg r := reg_setRf_other _ _ _ _ hp
    _ = s.reg r := reg_setRf_other _ _ _ _ hq

theorem ne_progressReg {r : RegId} (h : r.name = .pilLc ∨ r.name = .pilQcount) (core eng : Nat) : r ≠ progressReg core eng := by
  unfold progressReg
  split <;> (rintro rfl; simp at h)

theorem retireReg_lcReg (x : EngRef) (core eng n : Nat) : retireReg x (lcReg core eng n) = false := by
  simp only [retireReg, Bool.or_eq_false_iff, beq_eq_false_iff_ne]
  exact ⟨⟨by simp [lcReg], ne_progressReg (.inl rfl) _ _⟩, by simp [lcReg]⟩

theorem countRetired_qcount (s : State) (x : EngRef) :
    (s.countRetired x).rf ⟨.pilQcount, x.core, x.eng⟩ 47 0 = (s.rf ⟨.pilQcount, x.core, x.eng⟩ 47 0 + 1) % 2 ^ 48 := by
  have hh : (⟨.pilQcount, x.core, x.eng⟩ : RegId) ≠ ⟨.pilHscount, x.core, 4 * x.eng + x.slot⟩ := by simp
  have hp : (⟨.pilQcount, x.core, x.eng⟩ : RegId) ≠ progressReg x.core x.eng := ne_progressReg (.inr rfl) _ _
  calc (s.countRetired x).rf ⟨.pilQcount, x.core, x.eng⟩ 47 0
    _ = ((s.addRf ⟨.pilQcount, x.core, x.eng⟩ 47 0 1).addRf (progressReg x.core x.eng) 47 0 _).rf ⟨.pilQcount, x.core, x.eng⟩ 47 0 :=
      rf_setRf_other _ _ _ _ _ _ hh
    _ = (s.addRf ⟨.pilQcount, x.core, x.eng⟩ 47 0 1).rf ⟨.pilQcount, x.core, x.eng⟩ 47 0 := rf_setRf_other _ _ _ _ _ _ hp
    _ = (s.rf ⟨.pilQcount, x.core, x.eng⟩ 47 0 + 1) % 2 ^ 48 := rf_setRf_self s _ _ (by decide) (by decide)

end State

/-- What NOP, SETLC and PARAM change before they retire: loop registers of their engine, turns and free values. -/
structure LoopRegsOnly (x : EngRef) (s b : State) : Prop where
  engs : b.engs = s.engs
  rest : b.besideCounts = s.besideCounts
  regs : ∀ r, (∀ lc, lc < 8 → r ≠ lcReg x.core x.eng lc) → b.reg r = s.reg r

namespace LoopRegsOnly

variable {x : EngRef} {s b : State}

theorem setReg {lc : Nat} (h : LoopRegsOnly x s b) (hlc : lc < 8) (w : Word) : LoopRegsOnly x s (b.setReg (lcReg x.core x.eng lc) w) :=
  ⟨h.engs, h.rest, fun r hr => (State.reg_setReg_other _ _ (hr lc hlc)).trans (h.regs r hr)⟩

theorem clear (h : LoopRegsOnly x s b) {l : List Nat} (hl : ∀ lc ∈ l, lc < 8) :
    LoopRegsOnly x s (b.forAll l fun s lc => s.setReg (lcReg x.core x.eng lc) 0) := by
  induction l generalizing b with
  | nil => exact h
  | cons lc l ih => exact ih (h.setReg (hl lc List.mem_cons_self) 0) fun k hk => hl k (List.mem_cons_of_mem _ hk)

theorem begin' (x : EngRef) (s : State) : LoopRegsOnly x s (s.begin' x) := by
  have hturn : LoopRegsOnly x s (s.setTurn x ((x.slot + 1) % 4)) := ⟨rfl, rfl, fun _ _ => rfl⟩
  unfold State.begin'
  dsimp only
  split
  case isTrue => exact ⟨rfl, rfl, fun _ _ => rfl⟩
  case isFalse =>
    split
    case isTrue => exact hturn.clear fun _ => List.mem_range.1
    case isFalse => exact hturn

theorem eng (h : LoopRegsOnly x s b) (y : EngRef) : b.eng y = s.eng y := congrArg (Tab.get EngCtx.idle · y) h.engs

theorem taskAt (h : LoopRegsOnly x s b) (core slot : Nat) : b.taskAt core slot = s.taskAt core slot :=
  State.eq_of_besideCounts h.rest (·.taskAt core slot)

theorem port (h : LoopRegsOnly x s b) (p : Port) : b.port p = s.port p := by
  cases p <;> exact State.eq_of_besideCounts h.rest (State.port · _)

theorem disp (h : LoopRegsOnly x s b) (d : Nat) : b.disp d = s.disp d := State.eq_of_besideCounts h.rest (·.disp d)

theorem quiet (h : LoopRegsOnly x s b) {t : Task} (hq : Quiet s x t) : Quiet b x t := by
  simpa only [Quiet, h.eng, h.port, h.disp] using hq

end LoopRegsOnly

/-! ## NOP, SETLC and PARAM -/

section
variable {x : EngRef} {s : State} {t : Task}

theorem exec_nop (h : Runs s allEngines x (.nop x) t) : exec (.nop x) s = .next ((s.begin' x).retire x t (.nop x)) :=
  congrArg Host.Outcome.next (State.issue_of_runs _ h)

theorem exec_setlc {lc n v : Nat} {f : Bool} (h : Runs s allEngines x (.setlc x lc f n v) t) :
    exec (.setlc x lc f n v) s
      = .next (((s.begin' x).setReg (lcReg x.core x.eng lc)
          (BitVec.ofNat 64 (if f then (s.begin' x).rf ⟨.pilShape, x.core, 16 * x.slot + n⟩ 31 0 else v % 2 ^ 32))).retire x t (.setlc x lc f n v)) :=
  congrArg Host.Outcome.next (State.issue_of_runs _ h)

theorem exec_param {p v : Nat} (h : Runs s allEngines x (.param x p v) t) :
    exec (.param x p v) s = .next ((s.begin' x).retire x t (.param x p v) fun c => { c with params := c.params.set p (v % 2 ^ 48) }) :=
  congrArg Host.Outcome.next (State.issue_of_runs _ h)

/-- Each of the three sets loop registers of its engine and retires, with a change of the operand registers. -/
theorem exec_registerCommand {i : Instr} (hi : i = .nop x ∨ (∃ lc f n v, lc < 8 ∧ i = .setlc x lc f n v) ∨ ∃ p v, p < 4 ∧ i = .param x p v)
    (h : Runs s allEngines x i t) :
    ∃ (b : State) (p : List Nat → List Nat), LoopRegsOnly x s b ∧ exec i s = .next (b.retire x t i (EngCtx.withParams p))
      ∧ (∀ lc n v, i = .setlc x lc false n v → b.reg (lcReg x.core x.eng lc) = BitVec.ofNat 64 (v % 2 ^ 32))
      ∧ ∀ q v, i = .param x q v → ∀ ps, p ps = ps.set q (v % 2 ^ 48) := by
  have hbegin := LoopRegsOnly.begin' x s
  rcases hi with rfl | ⟨lc, f, n, v, hlc, rfl⟩ | ⟨q, v, hq, rfl⟩
  case inl => exact ⟨_, id, hbegin, exec_nop h, nofun, nofun⟩
  case inr.inl =>
    refine ⟨_, id, hbegin.setReg hlc _, exec_setlc h, ?_, nofun⟩
    rintro _ _ _ ⟨⟩
    exact State.reg_setReg_self _ _ _
  case inr.inr =>
    refine ⟨_, (·.set q (v % 2 ^ 48)), hbegin, exec_param h, nofun, ?_⟩
    rintro _ _ ⟨⟩ _
    rfl

end

/-- Settles O10: each of the three commands is a change of loop registers and a quiet retirement, which is the engine's context and its counts. -/
theorem registerCommandsFrame : Obligations.RegisterCommandsFrame := by
  unfold Obligations.RegisterCommandsFrame
  intro x s t i hi hruns hq hf
  obtain ⟨b, p, hb, hexec, hset, hpar⟩ := exec_registerCommand hi hruns
  rw [← hb.eng x] at hf
  rw [State.retire_of_quiet ((hb.taskAt _ _).trans hruns.1) (hb.quiet hq) hf] at hexec
  set c := (b.eng x).afterRetire t x.eng (wordsOf i) (EngCtx.withParams p) with hc
  set u := (b.setEng x c).countRetired x with hu
  have hself : u.eng x = c := State.eng_setEng_self b x c
  have hkeep {β : Type} (g : State → β) (hg : ∀ s : State, g s.besideCounts = g s := by exact fun _ => rfl) : g u = g s :=
    State.eq_of_besideCounts ((State.countRetired_besideCounts (b.setEng x c) x).trans hb.rest) g hg
  refine ⟨u, hexec, ?retired, ?blocked, ?count, ?loop, ?params, ?engines, ?regs, ?bytes, ?_⟩
  case retired => rw [hself, hc, EngCtx.afterRetire_retired hf, hb.eng]
  case blocked => rw [hself, hc, EngCtx.afterRetire_blocked hf]
  case count =>
    have hreg : b.reg ⟨.pilQcount, x.core, x.eng⟩ = s.reg ⟨.pilQcount, x.core, x.eng⟩ := hb.regs _ fun lc _ => by simp [lcReg]
    rw [hu, State.countRetired_qcount, State.rf, State.reg_setEng, hreg, State.rf]
  case loop =>
    intro lc n v h
    rw [hu, State.countRetired_reg _ (State.retireReg_lcReg x _ _ lc), State.reg_setEng, hset lc n v h]
  case params =>
    intro q v h
    rw [hself, hc, EngCtx.afterRetire_params hf, hpar q v h, hb.eng]
  case engines =>
    intro y hy
    rw [hu, State.countRetired_eng, State.eng_setEng_other _ _ _ _ hy, hb.eng]
  case regs =>
    intro r hr hlc
    rw [hu, State.countRetired_reg _ hr, State.reg_setEng, hb.regs r hlc]
  case bytes => exact fun a => hkeep (·.byteAt a)
  exact ⟨hkeep (·.poison), hkeep (·.struck), hkeep (·.seals), hkeep (·.backlog), hkeep (·.tasks), hkeep (·.frames),
    hkeep (·.rings), hkeep (·.chans), hkeep (·.arrays), hkeep (·.pools), hkeep (·.landed), hkeep (·.disps),
    hkeep (·.hops), hkeep (·.links), hkeep (·.cxls), hkeep (·.ports), hkeep (·.pkg), hkeep (·.lh),
    hkeep (·.sessions), hkeep (·.phases), hkeep (·.trust), hkeep (·.out)⟩

/-! ## The Lighthouse's own commands -/

namespace State

variable {s : State}

theorem setStale_of_controlled (hsplit : s.pkg.split = false) (hcontrol : s.pkg.control ≠ 0) (hgap : s.gapMs ≠ 0) :
    s.setStale = s.setRf lhHoststat 59 59 1 := by
  simp [setStale, hsplit, hcontrol, hgap]

theorem spanStep_of_gating {d : Nat} (h : Tab.get 0 s.lh.gating d ≠ 0) :
    s.spanStep d = s.setLh { s.lh with spans := Tab.put id 0 s.lh.spans d ((Tab.get 0 s.lh.spans d + 1) % 16) } :=
  if_neg h

/-- The state in which a recovery's domain is rebuilt, its record free and its end logged (R453). -/
def recovered (s : State) (n : Nat) (r : Recovery) : State :=
  let u := ((s.endDrains r).rebuild r).dropRecovery n
  let u := (u.setLh { u.lh with runs := u.lh.runs.filter (fun v => !inDomain r 1 (v.1 / 8)), due := u.lh.due.filter fun k => !inDomain r 1 (k / 8) }).bringUpAgain r
  ((u.logErr { code := E.recoveryDone, severity := 0, kind := r.kind, unit := r.unit, cause := some r.first }).newGeneration).retryScrubs

theorem endRecovery_of_record {n : Nat} {r : Recovery} (hr : s.lh.recoveries.find? (fun e => e.1 == n) = some (n, r)) (hhalt : s.pkg.halted = false) :
    s.endRecovery n =
      let u := s.recovered n r
      ((if r.level == 4 && u.pkg.causewayFailed && !u.pkg.split then u.enterSplit else u).startWaiting 8).sendWaiting.admitHeld.examineClaims := by
  rw [endRecovery, hr]
  exact if_neg (ne_true_of_eq_false hhalt)

end State

/-- Settles O42: each clause decides the one test of its command. -/
theorem lighthouseWorkCompletes : Obligations.LighthouseWorkCompletes := by
  unfold Obligations.LighthouseWorkCompletes
  refine fun s => ⟨fun hrun => ⟨fun env => ?sample, ?fault⟩, fun g e h => ?hung, fun hsplit hcontrol hgap => ?stale, fun d h => ?span,
    fun n r hr hhalt => ?done⟩
  case sample => exact congrArg Host.Outcome.next (if_pos hrun)
  case fault => exact congrArg Host.Outcome.next (if_pos hrun)
  case hung => exact congrArg Host.Outcome.next (if_pos h)
  case stale => exact congrArg Host.Outcome.next (State.setStale_of_controlled hsplit hcontrol hgap)
  case span => exact congrArg Host.Outcome.next (State.spanStep_of_gating h)
  case done => exact congrArg Host.Outcome.next (State.endRecovery_of_record hr hhalt)

end Sys2Proof.Machine
end

section
/-! PROOFS of the family 05_scratchpads_and_memory_tiers: the address map names every place once (R156, R157), and what a write that enables a ring or
makes a window valid does, as its check decides (R131, R143, R145). -/

namespace Sys2Proof.Machine

/-! ## The address map -/

namespace Place

/-- The address that names a place; R156 and R157 give each kind of place its slots. -/
def address : Place → Nat
  | .tower t o => t * 0x1800000000 + o
  | .lagoon d o => dieBase d + o
  | .cove g o => coveBase g + o
  | .cxl p o => cxlBase + p * 0x40000000000 + o
  | .control o => 0xF000000000000 + o
  | .reserved => 0

/-- Whether the numbers of a place are those of a unit of the module and of an offset in its slot. -/
def InSlot : Place → Prop
  | .tower t o => t < 8 ∧ o < 0x1800000000
  | .lagoon d o => d < 12 ∧ o < 0x4000000
  | .cove g o => g < 384 ∧ o < 0x10000000
  | .cxl p o => p < 4 ∧ o < 0x40000000000
  | .control _ => True
  | .reserved => True

end Place

/-- In a die's slot an address is told by its quotient and its remainder. -/
theorem dieBase_add_offset {a : Nat} (h : 0x10000000000 ≤ a) :
    dieBase ((a - 0x10000000000) / 0x1000000000) + (a - 0x10000000000) % 0x1000000000 = a := by
  unfold dieBase; omega

/-- In the range of a die's Coves an address is told by its die, its core and its remainder. -/
theorem coveBase_add_offset {d o : Nat} (hlo : 0x800000000 ≤ o) (hhi : o < 0xA00000000) :
    coveBase (32 * d + (o - 0x800000000) / 0x10000000) + (o - 0x800000000) % 0x10000000 = dieBase d + o := by
  have hdie : (32 * d + (o - 0x800000000) / 0x10000000) / 32 = d := by omega
  have hcore : (32 * d + (o - 0x800000000) / 0x10000000) % 32 = (o - 0x800000000) / 0x10000000 := by omega
  unfold coveBase
  rw [hdie, hcore]
  omega

/-- What the map says of an address: nothing, or a place in a slot of a unit, which gives the address back. -/
theorem placeOf_cases (a : Nat) : placeOf a = .reserved ∨ (placeOf a).InSlot ∧ (placeOf a).address = a := by
  unfold placeOf
  dsimp only
  split_ifs with htower _ hdie hlagoon _ hcove _ hcxl
  · refine .inr ⟨⟨by omega, by omega⟩, ?_⟩
    simp only [Place.address]
    omega
  · exact .inl rfl
  · exact .inr ⟨⟨by omega, hlagoon⟩, dieBase_add_offset (by omega)⟩
  · exact .inl rfl
  · exact .inr ⟨⟨by omega, Nat.mod_lt _ (by decide)⟩, (coveBase_add_offset (by omega) hcove).trans (dieBase_add_offset (by omega))⟩
  · exact .inl rfl
  · exact .inl rfl
  · unfold cxlBase at *
    refine .inr ⟨⟨by omega, by omega⟩, ?_⟩
    simp only [Place.address, cxlBase]
    omega
  · exact .inl rfl
  · refine .inr ⟨trivial, ?_⟩
    simp only [Place.address]
    omega

theorem address_placeOf {a : Nat} (h : placeOf a ≠ .reserved) : (placeOf a).address = a :=
  ((placeOf_cases a).resolve_left h).2

theorem inSlot_of_placeOf {a : Nat} {p : Place} (h : placeOf a = p) : p.InSlot := by
  rcases placeOf_cases a with hr | ⟨hslot, -⟩
  · rw [← h, hr]; trivial
  · exact h ▸ hslot

/-- Settles O24: the place gives its address back, so that two addresses of one place are the same. -/
theorem addressesNameOnePlace : Obligations.AddressesNameOnePlace := by
  unfold Obligations.AddressesNameOnePlace
  refine ⟨fun a b _ _ hab ha => ?_, fun _ _ _ => inSlot_of_placeOf, fun _ _ _ => inSlot_of_placeOf, fun _ _ _ => inSlot_of_placeOf,
    fun _ _ _ => inSlot_of_placeOf⟩
  calc a
    _ = (placeOf a).address := (address_placeOf ha).symm
    _ = (placeOf b).address := congrArg Place.address hab
    _ = b := address_placeOf (hab ▸ ha)

/-! ## Fields of a written value -/

theorem wfld_ofNat {v : Nat} (h : v < 2 ^ 64) (hi lo : Nat) : wfld (BitVec.ofNat 64 v) hi lo = fld v hi lo := by
  rw [wfld, BitVec.toNat_ofNat, Nat.mod_eq_of_lt h]

theorem wbit_eq_bitOf (w : Word) (i : Nat) : wbit w i = bitOf w.toNat i := (bitOf_eq_testBit _ _).symm

theorem wbit_ofNat {v : Nat} (h : v < 2 ^ 64) (i : Nat) : wbit (BitVec.ofNat 64 v) i = bitOf v i := by
  rw [wbit_eq_bitOf, BitVec.toNat_ofNat, Nat.mod_eq_of_lt h]

/-- A bit is its field of width 1. -/
theorem wbit_eq_wfld (w : Word) (i : Nat) : wbit w i = (wfld w i i == 1) := by
  rw [wbit_eq_bitOf, wfld, fld, bitOf, Nat.add_sub_cancel_left, Nat.pow_one]

namespace State

variable {s : State} {a : Agent} {r : RegId} {v : Word}

/-! ## A write to a block that is not busy (R13, R495) -/

theorem noteModified_reg_other (s : State) (r : RegId) (old : Word) {r' : RegId} (h : r'.name ≠ .lhStrataStatus) :
    (s.noteModified r old).reg r' = s.reg r' := by
  rcases s.noteModified_cases r old with hs | ⟨p, -, hs⟩
  · rw [hs]
  · rw [hs, reg_setRf_other s 61 61 1 (by rintro rfl; exact h rfl)]

theorem noteModified_rings (s : State) (r : RegId) (old : Word) : (s.noteModified r old).rings = s.rings := by
  rcases s.noteModified_cases r old with hs | ⟨p, -, hs⟩ <;> simp [hs]

theorem store_free (hb : s.busy a r v = false) :
    s.store a r v = (s.setReg r (BitVec.ofNat 64 (r.name.info.after false (s.reg r).toNat v.toNat))).noteModified r (s.reg r) := by
  simp [store, hb]

theorem store_free_lh (hb : s.busy a r v = false) : (s.store a r v).lh = s.lh := by
  rw [store_lh, hb]; rfl

theorem store_free_rings (hb : s.busy a r v = false) : (s.store a r v).rings = s.rings := by
  rw [store_free hb, noteModified_rings, setReg_rings]

theorem store_free_reg_other (hb : s.busy a r v = false) {r' : RegId} (hr : r' ≠ r) (h : r'.name ≠ .lhStrataStatus) :
    (s.store a r v).reg r' = s.reg r' := by
  rw [store_free hb, noteModified_reg_other _ _ _ h, reg_setReg_other _ _ hr]

/-- A field that is written only while its block is not busy takes the written value then. -/
theorem store_free_rf (hb : s.busy a r v = false) {f : RegField} (hf : f ∈ r.name.info.fields) (hq : f.cls = .quiet) :
    (s.store a r v).rf r f.hi f.lo = wfld v f.hi f.lo := by
  have hlt : r.name.info.after false (s.reg r).toNat v.toNat < 2 ^ 64 :=
    putFields_lt (info_fieldsApart r.name).1 (s.reg r).isLt
  rw [rf, store_reg_self, hb, wfld_ofNat hlt, fld_after hf, RegField.after_quiet hq]
  rfl

theorem rb_of_rf {i : Nat} (h : s.rf r i i = wfld v i i) : s.rb r i = wbit v i := by
  rw [rb, wbit_eq_wfld, wbit_eq_wfld, ← h, rf]

/-! ## The entry of a notice in a log (R445) -/

theorem logOne_reg_other (s : State) (n : Nat) (b : Bool) (e : ErrInfo) (h : r.name ≠ .hbErrsum) : (s.logOne n b e).reg r = s.reg r :=
  (reg_setReg_other _ _ (by rintro rfl; exact h rfl)).trans (reg_setLh _ _ _)

theorem fireVector_reg_other (s : State) (p : Port) (n : Nat) (h : r.name ≠ .msixPba) : (s.fireVector p n).reg r = s.reg r := by
  unfold fireVector
  split
  · exact reg_setReg_other _ _ (by rintro rfl; exact h rfl)
  · rfl

/-- An entry reaches HB_ERRSUM, and where it signals a management entry the pending bits; no other register. -/
theorem logErr_reg_other (s : State) (e : ErrInfo) (hsum : r.name ≠ .hbErrsum) (hpba : r.name ≠ .msixPba) : (s.logErr e).reg r = s.reg r := by
  unfold logErr
  dsimp only
  split <;> split <;> simp only [fireVector_reg_other _ _ _ hpba, reg_setPkg, logOne_reg_other _ _ _ _ hsum]

/-- The enable or valid bit that a failed check takes back reads 0, whatever the check enters in the logs. -/
theorem rb_failed (s : State) (e : ErrInfo) (hsum : r.name ≠ .hbErrsum) (hpba : r.name ≠ .msixPba) : ((s.setRf r 63 63 0).logErr e).rb r 63 = false := by
  rw [rb, logErr_reg_other _ _ hsum hpba]
  exact rb_setRf_self s r 0 (by decide) (by decide) (by decide)

end State

/-! ## Rings (R130, R131) -/

namespace State

variable {s : State} {a : Agent} {core n : Nat} {v : Word}

/-- The check of R131 fails for a ring of this base, slots and slotsize, beside the other enabled rings of its Rockpool. -/
def RingFails (s : State) (core n base slots size : Nat) : Prop :=
  slots < 2 ∨ 1024 < base + (slots + 1) * size ∨ ∃ m, m / 8 = n / 8 ∧ m ≠ n ∧ s.rb ⟨.rpCfg, core, m⟩ 63 = true
    ∧ base < s.rf ⟨.rpCfg, core, m⟩ 9 0 + (s.rf ⟨.rpCfg, core, m⟩ 47 44 + 1) * s.rf ⟨.rpCfg, core, m⟩ 26 16
    ∧ s.rf ⟨.rpCfg, core, m⟩ 9 0 < base + (slots + 1) * size

theorem ringOk_iff (s : State) (core n : Nat) (w : Word) :
    s.ringOk core n w = true ↔ ¬ s.RingFails core n (wfld w 9 0) (wfld w 47 44) (wfld w 26 16) := by
  simp only [ringOk, RingFails, rb, rf, Bool.and_eq_true, Bool.or_eq_true, Bool.not_eq_true', beq_iff_eq, decide_eq_true_eq, List.all_eq_true,
    List.mem_range, not_or, not_exists, not_and_or, not_not, Bool.not_eq_true, Nat.not_lt, and_assoc, or_assoc]
  refine and_congr_right' (and_congr_right' ⟨fun h m => or_iff_not_imp_left.2 fun hm => ?_, fun h k hk => (h _).resolve_left (not_not_intro ?_)⟩)
  · have hk : 8 * (n / 8) + m % 8 = m := by omega
    have hbeside := h (m % 8) (Nat.mod_lt _ (by decide))
    rwa [hk] at hbeside
  · omega

theorem RingFails.congr {s u : State} {core n : Nat} (h : ∀ m, m ≠ n → u.reg ⟨.rpCfg, core, m⟩ = s.reg ⟨.rpCfg, core, m⟩) (base slots size : Nat) :
    u.RingFails core n base slots size ↔ s.RingFails core n base slots size := by
  refine or_congr_right (or_congr_right (exists_congr fun m => and_congr_right' (and_congr_right fun hm => ?_)))
  simp only [rb, rf, h m hm]

section
variable (hb : s.busy a ⟨.rpCfg, core, n⟩ v = false)
include hb

/-- Every field of RP_CFGn is one that a write to an idle core sets. -/
theorem store_ring_fields : let u := s.store a ⟨.rpCfg, core, n⟩ v
    u.rf ⟨.rpCfg, core, n⟩ 63 63 = wfld v 63 63 ∧ u.rf ⟨.rpCfg, core, n⟩ 55 52 = wfld v 55 52 ∧ u.rf ⟨.rpCfg, core, n⟩ 47 44 = wfld v 47 44
      ∧ u.rf ⟨.rpCfg, core, n⟩ 26 16 = wfld v 26 16 ∧ u.rf ⟨.rpCfg, core, n⟩ 9 0 = wfld v 9 0 := by
  have hquiet : ∀ f ∈ RegName.rpCfg.info.fields, f.cls = .quiet := by decide
  simpa [RegName.info] using fun f (hf : f ∈ RegName.rpCfg.info.fields) => store_free_rf hb hf (hquiet f hf)

/-- The check of the ring as it is stored is the check of the written fields beside the rings as they were. -/
theorem ringOk_stored : let u := s.store a ⟨.rpCfg, core, n⟩ v
    u.ringOk core n (u.reg ⟨.rpCfg, core, n⟩) = true ↔ ¬ s.RingFails core n (wfld v 9 0) (wfld v 47 44) (wfld v 26 16) := by
  obtain ⟨-, -, hslots, hsize, hbase⟩ := store_ring_fields hb
  have hother : ∀ m, m ≠ n → (s.store a ⟨.rpCfg, core, n⟩ v).reg ⟨.rpCfg, core, m⟩ = s.reg ⟨.rpCfg, core, m⟩ :=
    fun m hm => store_free_reg_other hb (by simp [hm]) (by simp)
  intro u
  rw [ringOk_iff, ← hslots, ← hsize, ← hbase]
  exact not_congr (RingFails.congr hother _ _ _)

variable (hv : wbit v 63 = true)
include hv

theorem writeRing_enable_fails (hf : s.RingFails core n (wfld v 9 0) (wfld v 47 44) (wfld v 26 16)) :
    s.writeRing a core n v = ((s.store a ⟨.rpCfg, core, n⟩ v).setRf ⟨.rpCfg, core, n⟩ 63 63 0).logErr (RegId.notice ⟨.rpCfg, core, n⟩ E.ringConfig) := by
  have hok := (ringOk_stored hb).not.2 (not_not_intro hf)
  simp only [writeRing, hb, hv, hok, Bool.not_true, Bool.or_false, Bool.false_eq_true, if_false]

theorem writeRing_enable_passes (hf : ¬ s.RingFails core n (wfld v 9 0) (wfld v 47 44) (wfld v 26 16)) :
    s.writeRing a core n v = (s.store a ⟨.rpCfg, core, n⟩ v).setRing core n Ring.empty := by
  have hok := (ringOk_stored hb).2 hf
  simp only [writeRing, hb, hv, hok, Bool.not_true, Bool.or_false, Bool.false_eq_true, if_false, if_true]

end

theorem exec_ringEnable_open {value : Nat} (hg : s.gate a false ⟨.rpCfg, core, n⟩ = none) :
    exec (.ringEnable a core n value) s = .next (s.writeRing a core n (BitVec.ofNat 64 value)) :=
  congrArg Host.Outcome.next (access_open hg)

end State

/-- Settles O54: the check of the written fields beside the other rings decides which of the two ends of the write it takes. -/
theorem ringsEnable : Obligations.RingsEnable := by
  unfold Obligations.RingsEnable
  intro s a core n value _ hvalue r base slots size other overlap fails hg hidle hset
  set v := BitVec.ofNat 64 value
  have hfld : ∀ hi lo, wfld v hi lo = fld value hi lo := wfld_ofNat hvalue
  have hv : wbit v 63 = true := (wbit_ofNat hvalue 63).trans hset
  have hb : s.busy a r v = false := hidle
  have hfails : s.RingFails core n (wfld v 9 0) (wfld v 47 44) (wfld v 26 16) ↔ fails := by
    simp only [hfld]
    rfl
  obtain ⟨henable, hproducer, hslots, hsize, hbase⟩ := State.store_ring_fields hb
  rw [State.exec_ringEnable_open hg]
  refine ⟨fun hf => ⟨(s.store a r v).setRf r 63 63 0, ?_, ?_, ?_, ?_⟩,
    fun hf => ⟨(s.store a r v).setRing core n Ring.empty, ?_, ?_, ?_, ?_, ?_, ?_, ?_, ?_⟩⟩
  · exact congrArg _ (State.writeRing_enable_fails hb hv (hfails.2 hf))
  · exact State.rb_failed _ _ (by simp [r]) (by simp [r])
  · exact (State.setRf_lh _ _ _ _ _).trans (State.store_free_lh hb)
  · exact (State.setRf_rings _ _ _ _ _).trans (State.store_free_rings hb)
  · exact congrArg _ (State.writeRing_enable_passes hb hv (hfails.not.2 hf))
  · exact (State.rb_of_rf henable).trans hv
  · exact hbase.trans (hfld 9 0)
  · exact hslots.trans (hfld 47 44)
  · exact hsize.trans (hfld 26 16)
  · exact hproducer.trans (hfld 55 52)
  · exact State.ring_setRing_self _ _ _ _
  · exact State.store_free_lh hb

/-! ## Windows (R142, R143, R145) -/

namespace State

variable {s : State} {a : Agent} {core n : Nat} {v : Word}

/-- The check of R143 fails for a window of this base and limit, beside the other valid windows of its core. -/
def WindowFails (s : State) (core n base limit : Nat) : Prop :=
  ¬ base < limit ∨ s.rf ⟨.cvSize, core, 0⟩ 9 0 < limit ∨ ∃ m, m < 4 ∧ m ≠ n ∧ s.rb ⟨.cvBound, core, m⟩ 63 = true
    ∧ s.rf ⟨.cvBase, core, m⟩ 9 0 < limit ∧ base < s.rf ⟨.cvBound, core, m⟩ 9 0

theorem windowOk_iff (s : State) (core n : Nat) :
    s.windowOk core n = true ↔ ¬ s.WindowFails core n (s.rf ⟨.cvBase, core, n⟩ 9 0) (s.rf ⟨.cvBound, core, n⟩ 9 0) := by
  unfold windowOk
  dsimp only [cvWindow]
  simp only [WindowFails, Bool.and_eq_true, Bool.or_eq_true, Bool.not_eq_true', beq_iff_eq, decide_eq_true_eq, List.all_eq_true, List.mem_range,
    not_or, not_exists, not_and_or, not_not, Bool.not_eq_true, Nat.not_lt, and_assoc, or_assoc, imp_iff_not_or]
  exact and_congr_left' Nat.not_le.symm

theorem WindowFails.congr {s u : State} {core n : Nat} (hsize : u.reg ⟨.cvSize, core, 0⟩ = s.reg ⟨.cvSize, core, 0⟩)
    (hbase : ∀ m, u.reg ⟨.cvBase, core, m⟩ = s.reg ⟨.cvBase, core, m⟩)
    (hbound : ∀ m, m ≠ n → u.reg ⟨.cvBound, core, m⟩ = s.reg ⟨.cvBound, core, m⟩) (base limit : Nat) :
    u.WindowFails core n base limit ↔ s.WindowFails core n base limit := by
  simp only [WindowFails, rf, rb, hsize]
  refine or_congr_right (or_congr_right (exists_congr fun m => and_congr_right' (and_congr_right fun hm => ?_)))
  rw [hbase m, hbound m hm]

/-- A Pilot's write of valid does not act before the Cove has passed to the die's partition (R145; log entry 116). -/
theorem writeWindow_waits (hv : wbit v 63 = true) (ho : s.ownerOf (coveBase core) ≠ s.dieOwner (core / 32)) :
    s.writeWindow .pilot ⟨.cvBound, core, n⟩ v = s :=
  if_pos ⟨rfl, rfl, hv, ho⟩

/-- The agent's write of valid does not wait for the Cove's scrub (R145; log entry 116). -/
def ScrubDone (s : State) (a : Agent) (core : Nat) : Prop := a = .pilot → s.ownerOf (coveBase core) = s.dieOwner (core / 32)

/-- What a write that waits for no scrub does to the window of an idle slot. -/
theorem writeWindow_acts {r : RegId} (h : r.name = .cvBase ∨ s.ScrubDone a r.unit) (hb : s.busy a r v = false) :
    s.writeWindow a r v =
      if (s.cvWindow r.unit r.idx).2.2 && wfld v 9 0 != s.rf r 9 0 then s.logErr (r.notice E.cvWindow)
      else if r.name != .cvBound || !wbit v 63 then s.store a r v
      else if (s.store a r v).windowOk r.unit r.idx then s.store a r v
      else ((s.store a r v).setRf r 63 63 0).logErr (r.notice E.cvWindow) := by
  unfold writeWindow
  rw [if_neg, hb]
  · simp
  · rintro ⟨rfl, hname, -, howner⟩
    rcases h with h | h
    · rw [h] at hname; cases hname
    · exact howner (h rfl)

section
variable (hb : s.busy a ⟨.cvBound, core, n⟩ v = false)
include hb

theorem store_bound_fields : let u := s.store a ⟨.cvBound, core, n⟩ v
    u.rf ⟨.cvBound, core, n⟩ 63 63 = wfld v 63 63 ∧ u.rf ⟨.cvBound, core, n⟩ 62 62 = wfld v 62 62 ∧ u.rf ⟨.cvBound, core, n⟩ 9 0 = wfld v 9 0 := by
  have hquiet : ∀ f ∈ RegName.cvBound.info.fields, f.cls = .quiet := by decide
  simpa [RegName.info] using fun f (hf : f ∈ RegName.cvBound.info.fields) => store_free_rf hb hf (hquiet f hf)

/-- The check of the window as it is stored is the check of the written limit beside the windows as they were. -/
theorem windowOk_stored : (s.store a ⟨.cvBound, core, n⟩ v).windowOk core n = true
    ↔ ¬ s.WindowFails core n (s.rf ⟨.cvBase, core, n⟩ 9 0) (wfld v 9 0) := by
  obtain ⟨-, -, hlimit⟩ := store_bound_fields hb
  have hsize : (s.store a ⟨.cvBound, core, n⟩ v).reg ⟨.cvSize, core, 0⟩ = s.reg ⟨.cvSize, core, 0⟩ :=
    store_free_reg_other hb (by simp) (by simp)
  have hbase : ∀ m, (s.store a ⟨.cvBound, core, n⟩ v).reg ⟨.cvBase, core, m⟩ = s.reg ⟨.cvBase, core, m⟩ :=
    fun m => store_free_reg_other hb (by simp) (by simp)
  have hbound : ∀ m, m ≠ n → (s.store a ⟨.cvBound, core, n⟩ v).reg ⟨.cvBound, core, m⟩ = s.reg ⟨.cvBound, core, m⟩ :=
    fun m hm => store_free_reg_other hb (by simp [hm]) (by simp)
  rw [windowOk_iff, ← hlimit, rf, hbase n]
  exact not_congr (WindowFails.congr hsize hbase hbound _ _)

end

/-- A write that would move a valid window is ignored and logged. -/
theorem writeWindow_moves {r : RegId} (hr : r.name = .cvBase ∨ s.ScrubDone a r.unit) (hb : s.busy a r v = false)
    (hvalid : s.rb ⟨.cvBound, r.unit, r.idx⟩ 63 = true) (hm : wfld v 9 0 ≠ s.rf r 9 0) : s.writeWindow a r v = s.logErr (r.notice E.cvWindow) := by
  rw [writeWindow_acts hr hb]
  exact if_pos (by simpa [cvWindow] using ⟨hvalid, hm⟩)

section
variable (hs : s.ScrubDone a core) (hb : s.busy a ⟨.cvBound, core, n⟩ v = false) (hv : wbit v 63 = true)
  (hstays : s.rb ⟨.cvBound, core, n⟩ 63 = true → wfld v 9 0 = s.rf ⟨.cvBound, core, n⟩ 9 0)
include hs hb hv hstays

/-- A write of valid = 1 that leaves a valid window where it is: the check of the written limit decides. -/
theorem writeWindow_valid : s.writeWindow a ⟨.cvBound, core, n⟩ v =
    if (s.store a ⟨.cvBound, core, n⟩ v).windowOk core n then s.store a ⟨.cvBound, core, n⟩ v
    else ((s.store a ⟨.cvBound, core, n⟩ v).setRf ⟨.cvBound, core, n⟩ 63 63 0).logErr (RegId.notice ⟨.cvBound, core, n⟩ E.cvWindow) := by
  rw [writeWindow_acts (r := ⟨.cvBound, core, n⟩) (.inr hs) hb, if_neg, if_neg]
  · simp [hv]
  · simpa [cvWindow] using hstays

theorem writeWindow_valid_fails (hf : s.WindowFails core n (s.rf ⟨.cvBase, core, n⟩ 9 0) (wfld v 9 0)) :
    s.writeWindow a ⟨.cvBound, core, n⟩ v
      = ((s.store a ⟨.cvBound, core, n⟩ v).setRf ⟨.cvBound, core, n⟩ 63 63 0).logErr (RegId.notice ⟨.cvBound, core, n⟩ E.cvWindow) :=
  (writeWindow_valid hs hb hv hstays).trans (if_neg ((windowOk_stored hb).not.2 (not_not_intro hf)))

theorem writeWindow_valid_passes (hf : ¬ s.WindowFails core n (s.rf ⟨.cvBase, core, n⟩ 9 0) (wfld v 9 0)) :
    s.writeWindow a ⟨.cvBound, core, n⟩ v = s.store a ⟨.cvBound, core, n⟩ v :=
  (writeWindow_valid hs hb hv hstays).trans (if_pos ((windowOk_stored hb).2 hf))

end

theorem exec_windowValid_open {value : Nat} (hg : s.gate a false ⟨.cvBound, core, n⟩ = none) :
    exec (.windowValid a core n value) s = .next (s.writeWindow a ⟨.cvBound, core, n⟩ (BitVec.ofNat 64 value)) :=
  congrArg Host.Outcome.next (access_open hg)

end State

/-- Settles O55: a valid window that would move stays, and for one that stays in place the check of the written limit decides. -/
theorem windowsValid : Obligations.WindowsValid := by
  unfold Obligations.WindowsValid
  intro s a core n value _ hvalue rb r base limit notice overlap fails hg hb
  set v := BitVec.ofNat 64 value
  have hfld : ∀ hi lo, wfld v hi lo = fld value hi lo := wfld_ofNat hvalue
  have hbit : wbit v 63 = bitOf value 63 := wbit_ofNat hvalue 63
  have hfails : s.WindowFails core n base (wfld v 9 0) ↔ fails := by rw [hfld]; rfl
  rw [State.exec_windowValid_open hg]
  refine ⟨?waits, fun hs => ⟨fun hvalid hm => ?limit, fun hvalid hm => ?base, fun hstays hset => ?check⟩⟩
  case waits =>
    rintro rfl hset ho
    exact congrArg _ (State.writeWindow_waits (hbit.trans hset) ho)
  case limit => exact congrArg _ (State.writeWindow_moves (.inr hs) hb hvalid (by rwa [hfld]))
  case base => exact State.writeWindow_moves (.inl rfl) hb hvalid (by rw [hfld]; exact hm.symm)
  case check =>
    have hset' : wbit v 63 = true := hbit.trans hset
    have hstays' : s.rb r 63 = true → wfld v 9 0 = s.rf r 9 0 := by rwa [hfld]
    obtain ⟨hvalid, hretain, hlimit⟩ := State.store_bound_fields hb
    refine ⟨fun hf => ⟨(s.store a r v).setRf r 63 63 0, ?_, ?_, ?_⟩, fun hf => ⟨s.store a r v, ?_, ?_, ?_, ?_, ?_, ?_⟩⟩
    · exact congrArg _ (State.writeWindow_valid_fails hs hb hset' hstays' (hfails.2 hf))
    · exact State.rb_failed _ _ (by simp [r]) (by simp [r])
    · exact (State.setRf_lh _ _ _ _ _).trans (State.store_free_lh hb)
    · exact congrArg _ (State.writeWindow_valid_passes hs hb hset' hstays' (hfails.not.2 hf))
    · exact (State.rb_of_rf hvalid).trans hset'
    · exact hlimit.trans (hfld 9 0)
    · exact hretain.trans (hfld 62 62)
    · exact State.store_free_lh hb
    · exact State.store_free_reg_other hb (by simp [r, rb]) (by simp [rb])

end Sys2Proof.Machine
end

section
/-! PROOFS of the family 06_stream_engines: what MOVE, MOVE_COMPLETE, ISECT, MERGE and PACK do where nothing holds them back (R172, R226, R240, R253,
R291), and how drains, truncation points and completion queues end their waits (R178, R334, R395, R397). -/

namespace Sys2Proof.Machine
namespace State

variable {s u : State} {x : EngRef} {t : Task}

/-! ## MOVE (R160, R172, R291) -/

/-- A MOVE retires when no visit has failed, its task lives, its last visit is planned, and, for a ring, nothing is left to commit. -/
theorem goMove_planned {i : Instr} {e : MoveEnv} {id : Nat} {m : MoveSt} (hplan : s.planRun x t e id (e.total + 1) = (u, none))
    (hlive : u.live t.id = true) (hm : u.move x id = some m)
    (hlast : ¬ (m.next < m.total ∨ (e.sr.dst.ring = true ∧ (m.units ≠ [] ∨ (u.eng x).outbuf ≠ [])))) :
    s.goMove x t i e id = (u.updMove x id fun m => { m with ring := none }).retire x t i := by
  have hwait : (decide (m.next < m.total) || (e.sr.dst.ring && (!m.units.isEmpty || !(u.eng x).outbuf.isEmpty))) = false := by
    rw [← Bool.not_eq_true]
    simpa using hlast
  simp [goMove, hplan, hlive, hm, hwait]

/-- A MOVE that its engine's earlier ones allow, and that no ring has stopped before, begins its own record and goes on with it. -/
theorem moveInstr_begins {o : MoveOps} {e : MoveEnv} (he : s.moveEnv x t o = .ok e) (hring : (s.eng x).blocked ≠ some (.ring (.move x o)))
    (horder : orderOk (s.eng x) e.sr.overlap = true) :
    s.moveInstr x t o =
      (s.updEng x fun c => { c with blocked := none, nextId := c.nextId + 1, moves := c.moves ++ [s.newMove x e c.nextId] }).goMove x t (.move x o) e
        (s.eng x).nextId := by
  simp [moveInstr, he, hring, horder]

theorem moveInstr_done {o : MoveOps} (h : moveDone s x t o = some u) : s.moveInstr x t o = u.retire x t (.move x o) := by
  unfold moveDone at h
  split at h
  · cases h
  next e he =>
  dsimp only at h
  split at h
  · cases h
  next hfree =>
  obtain ⟨hring, horder⟩ : (s.eng x).blocked ≠ some (.ring (.move x o)) ∧ orderOk (s.eng x) e.sr.overlap = true := by simpa using hfree
  rw [moveInstr_begins he hring horder]
  split at h
  · cases h
  next v hplan =>
  split at h
  next m hlive hm =>
    split at h
    · cases h
    next hlast =>
    cases h
    exact goMove_planned hplan hlive hm hlast
  · cases h

theorem completeMove_of_done {m : MoveSt} (h : (s.eng x).moves.find? MoveSt.isDone = some m) :
    s.completeMove x = ((s.updEng x fun c => { c with moves := c.moves.filter fun n => n.id != m.id }).resumeSync x).tryDone x.core x.slot := by
  simp only [completeMove, h]

/-! ## ISECT (R238, R240), MERGE (R251, R253) and PACK (R225, R226): begun, or gone on with where they waited -/

theorem isectInstr_done {o : IsectOps} {e : IsectEnv} {r : IsectRun} (hout : o.dest = true ∨ o.out = 0xFFF) (he : s.isectEnv x t o = .ok e)
    (hrun : (s.eng x).run = .isect r ∨ (∀ q, (s.eng x).run ≠ .isect q) ∧ r = ⟨0, 0, 0, none, 0, [], []⟩)
    (hgo : slGo e (2 * e.count + 8) s r = .done u) : s.isectInstr x t o = u.retire x t (.isect x o) := by
  have hspelled : ¬ (!o.dest && o.out != 0xFFF) = true := by simpa [or_iff_not_imp_left] using hout
  simp only [isectInstr, if_neg hspelled, he]
  rcases hrun with hrun | ⟨hfresh, rfl⟩
  · simp only [hrun, hgo, endRun]
  · split
    next q hq => exact absurd hq (hfresh q)
    next => simp only [hgo, endRun]

theorem mergeInstr_done {n : Nat} {e : MergeEnv} {r : MergeRun}
    (hrun : (s.eng x).run = .merge r ∨ (∀ q, (s.eng x).run ≠ .merge q) ∧ ∃ bs, s.readTable x t n = .ok bs ∧ r = ⟨bs, 0, [], 0, [], 0, [], none⟩)
    (he : s.mergeEnv x t n r.table = .ok e) (hgo : mergeGo e (mtGroups r.table + mtTiles r.table + 2 ^ 12) s r = .done u) :
    s.mergeInstr x t n = u.retire x t (.merge x n) := by
  unfold mergeInstr
  rcases hrun with hrun | ⟨hfresh, bs, htable, rfl⟩
  · simp only [hrun, he, hgo, endRun]
  · split
    next q hq => exact absurd hq (hfresh q)
    next => simp only [htable, Except.map, he, hgo, endRun]

theorem packInstr_done {o : PackOps} {e : PackEnv} {r : PackRun} (harena : o.append = true ∨ o.arena = 0xFFF) (he : s.packEnv x t o = .ok e)
    (hrun : (s.eng x).run = .pack r ∨ (∀ q, (s.eng x).run ≠ .pack q) ∧ r = ⟨0, e.low⟩)
    (hgo : packGo e (min (o.tiles - r.tile) (8 * 1024) + 1) s r = .done u) : s.packInstr x t o = u.retire x t (.pack x o) := by
  have hspelled : ¬ (!o.append && o.arena != 0xFFF) = true := by simpa [or_iff_not_imp_left] using harena
  simp only [packInstr, if_neg hspelled, he]
  rcases hrun with hrun | ⟨hfresh, rfl⟩
  · simp only [hrun, hgo, endRun]
  · split
    next q hq => exact absurd hq (hfresh q)
    next => simp only [hgo, endRun]

end State

/-- Settles O18: an instruction that runs takes its unit's own effect, which is its retirement where the unit's run is done. -/
theorem dataUnitsComplete : Obligations.DataUnitsComplete := by
  unfold Obligations.DataUnitsComplete
  refine fun x s u t => ⟨fun o hruns hdone => ?move, fun m hm => ?complete, fun o e r hruns hout he hrun hgo => ?isect,
    fun n r e hruns hrun he hgo => ?merge, fun o e r hruns harena he hrun hgo => ?pack⟩
  case move => exact congrArg Host.Outcome.next ((State.issue_of_runs _ hruns).trans (State.moveInstr_done hdone))
  case complete => exact congrArg (Host.Outcome.next ·.admitHeld) (State.completeMove_of_done hm)
  case isect => exact congrArg Host.Outcome.next ((State.issue_of_runs _ hruns).trans (State.isectInstr_done hout he hrun hgo))
  case merge => exact congrArg Host.Outcome.next ((State.issue_of_runs _ hruns).trans (State.mergeInstr_done hrun he hgo))
  case pack => exact congrArg Host.Outcome.next ((State.issue_of_runs _ hruns).trans (State.packInstr_done harena he hrun hgo))

namespace State

variable {s : State} {t : Task} {core slot : Nat}

/-! ## Drains and truncation points (R178, R334) -/

theorem exec_drainEnd_of_drained (ht : s.taskAt core slot = some t) (hdrains : t.state = 3) (hdone : s.drained t = true) :
    exec (.drainEnd core slot) s = .next (s.endDrain t).admitHeld := by
  change execDrainEnd core slot s = _
  simp [execDrainEnd, ht, hdrains, hdone]

/-- A task that has not reached its truncation point ends without reports. -/
theorem endDrain_untruncated (htrunc : t.truncated = false) (ht : s.taskId t.id = some t) : s.endDrain t = s.finish t (if t.aborting then 5 else 4) := by
  simp [endDrain, htrunc, ht]

/-- A truncated task ends as its reports leave it: one that fails makes it abort. -/
theorem endDrain_truncated {v : Task} (htrunc : t.truncated = true) (hv : (s.writeReports t).taskId t.id = some v) :
    s.endDrain t = (s.writeReports t).finish v (if v.aborting then 5 else 4) := by
  simp [endDrain, htrunc, hv]

theorem exec_truncationPoint_reached (ht : s.taskAt core slot = some t) (hruns : t.state = 2) (hstarted : t.started.contains core = true)
    (hpoint : s.atTruncation ⟨core, slot, t.truncEngine⟩ t = true) : exec (.truncationPoint core slot) s = .next (s.truncateTask t) := by
  change execTruncationPoint core slot s = _
  have hreached : (t.state == 2 && t.started.contains core && s.atTruncation ⟨core, slot, t.truncEngine⟩ t) = true := by
    rw [hruns, hstarted, hpoint]; rfl
  simp only [execTruncationPoint, ht, if_pos hreached]

/-! ## Completion queues (R395, R397) -/

theorem exec_heldCompletionWrite_open {p : Port} {q : Nat} {h : Nat × List Byte} (hheld : (s.port p).held.find? (fun h => h.1 == q) = some h)
    (hopen : s.cqOpen p q = true) :
    exec (.heldCompletionWrite p q) s
      = .next (((s.setPort p { s.port p with held := (s.port p).held.erase h }).writeEntry p q h.2).fireCq p q) := by
  change execHeldCompletionWrite p q s = _
  simp only [execHeldCompletionWrite, hheld, if_pos hopen]

theorem writeCqcfg_enables {a : Agent} {h q : Nat} {v : Word} (hv : wbit v 63 = true) :
    s.writeCqcfg a h q v = ((s.store a ⟨.hbCqcfg, h, q⟩ v).setRf ⟨.hbCqstat, h, q⟩ 15 0 0).setRf ⟨.hbCqstat, h, q⟩ 62 62 1 :=
  if_pos hv

end State

/-- Settles O29: each clause is its command with its tests decided. -/
theorem taskEndsComplete : Obligations.TaskEndsComplete := by
  unfold Obligations.TaskEndsComplete
  refine fun s t core slot p q => ⟨fun ht hdrains hdone htrunc hid => ?drained, fun v ht hdrains hdone htrunc hv => ?reported,
    fun ht hruns hstarted _ hpoint => ?truncated, fun h hheld hopen => ?held, fun v hgate hv => ?enabled⟩
  case drained => rw [State.exec_drainEnd_of_drained ht hdrains hdone, State.endDrain_untruncated htrunc hid]
  case reported => rw [State.exec_drainEnd_of_drained ht hdrains hdone, State.endDrain_truncated htrunc hv]
  case truncated => exact State.exec_truncationPoint_reached ht hruns hstarted hpoint
  case held => exact State.exec_heldCompletionWrite_open hheld hopen
  case enabled => exact congrArg Host.Outcome.next ((State.access_open hgate).trans (State.writeCqcfg_enables hv))

end Sys2Proof.Machine
end

section
/-! PROOFS of the family 07_matrix_arrays: what a partial of integers comes to (R182, R212, R215), and what the instructions of the arrays do where their
rings hold what they ask (R183 to R199, R230 to R233). -/

namespace Sys2Proof.Machine

/-! ## Values of an INT32 accumulator (R215) -/

/-- The values that an INT32 accumulator holds (R215). -/
def AccRange (z : Int) : Prop := -(2 ^ 31 - 1) ≤ z ∧ z ≤ 2 ^ 31 - 1

section
variable {z : Int}

theorem not_accRange_iff : ¬ AccRange z ↔ z < -(2 ^ 31 - 1) ∨ 2 ^ 31 - 1 < z := by
  unfold AccRange; omega

theorem accInt_of_accRange (h : AccRange z) : accInt z = wrap 32 z := if_neg (not_accRange_iff.not.1 (not_not_intro h))

theorem accInt_of_not_accRange (h : ¬ AccRange z) : accInt z = intInf := if_pos (not_accRange_iff.1 h)

theorem accInt_lt (h : AccRange z) : accInt z < 2 ^ 32 := by
  rw [accInt_of_accRange h, wrap]; omega

theorem accInt_ne_intInf (h : AccRange z) : accInt z ≠ intInf := by
  rw [accInt_of_accRange h, wrap, intInf]
  unfold AccRange at h
  omega

theorem sext_accInt (h : AccRange z) : sext 32 (accInt z) = z := by
  rw [accInt_of_accRange h, wrap, sext]
  unfold AccRange at h
  split <;> omega

theorem iaddInt_accInt (h : AccRange z) (y : Int) : iaddInt (accInt z) y = accInt (z + y) := by
  rw [iaddInt, beq_false_of_ne (accInt_ne_intInf h), sext_accInt h]
  rfl

theorem iaddInt_intInf (y : Int) : iaddInt intInf y = intInf := rfl

end

/-! ## Partials of integers, product by product (R182, R212) -/

section
variable {ca cb : Nat} {l : List (Cell × Cell)}

theorem exactSum_snoc (l : List (Cell × Cell)) (p : Cell × Cell) :
    exactSum ca cb (l ++ [p]) = exactSum ca cb l + if p.1.on && p.2.on then eltInt ca p.1.v * eltInt cb p.2.v else 0 := by
  simp [exactSum]

theorem dot_snoc (l : List (Cell × Cell)) (p : Cell × Cell) :
    dot 1 ca cb (l ++ [p])
      = if p.1.on && p.2.on then iaddInt (dot 1 ca cb l) (eltInt ca p.1.v * eltInt cb p.2.v) else dot 1 ca cb l :=
  List.foldl_concat ..

/-- While every sum before the last product is in range, a partial is its exact sum, or integer infinity where the last product leaves the range. -/
theorem dot_eq_accInt (h : ∀ n < l.length, AccRange (exactSum ca cb (l.take n))) : dot 1 ca cb l = accInt (exactSum ca cb l) := by
  induction l using List.reverseRecOn with
  | nil => rfl
  | append_singleton l p ih =>
    have hfirst : ∀ n ≤ l.length, AccRange (exactSum ca cb (l.take n)) := fun n hn => by
      simpa [List.take_append_of_le_length hn] using h n (by simp; omega)
    have hl : AccRange (exactSum ca cb l) := by simpa using hfirst l.length le_rfl
    rw [dot_snoc, exactSum_snoc, ih fun n hn => hfirst n hn.le]
    split
    · exact iaddInt_accInt hl _
    · rw [add_zero]

/-- Integer infinity stays, whatever follows. -/
theorem dot_append_of_intInf (h : dot 1 ca cb l = intInf) (r : List (Cell × Cell)) : dot 1 ca cb (l ++ r) = intInf := by
  induction r using List.reverseRecOn with
  | nil => rwa [List.append_nil]
  | append_singleton r p ih => rw [← List.append_assoc, dot_snoc, ih, iaddInt_intInf, ite_self]

/-- The first sum that leaves the range makes the partial integer infinity. -/
theorem dot_eq_intInf (h : ∃ n, ¬ AccRange (exactSum ca cb (l.take n))) : dot 1 ca cb l = intInf := by
  classical
  have hbefore : ∀ m < (l.take (Nat.find h)).length, AccRange (exactSum ca cb ((l.take (Nat.find h)).take m)) := fun m hm => by
    have hm : m < Nat.find h := hm.trans_le (List.length_take_le _ _)
    rw [List.take_take, min_eq_left hm.le]
    exact not_not.1 (Nat.find_min h hm)
  have hinf : dot 1 ca cb (l.take (Nat.find h)) = intInf := (dot_eq_accInt hbefore).trans (accInt_of_not_accRange (Nat.find_spec h))
  rw [← List.take_append_drop (Nat.find h) l]
  exact dot_append_of_intInf hinf _

end

/-- Settles O20: up to its first sum out of range a partial is its exact sum, and integer infinity stays. -/
theorem integerPartials : Obligations.IntegerPartials := by
  unfold Obligations.IntegerPartials
  refine fun ca cb l => ⟨fun h => ?exact, fun ⟨n, hn⟩ => ?infinite⟩
  case exact =>
    have hall : AccRange (exactSum ca cb l) := by simpa [AccRange] using h l.length
    rw [dot_eq_accInt fun n _ => h n]
    exact ⟨accInt_lt hall, sext_accInt hall⟩
  case infinite => exact dot_eq_intInf ⟨n, not_accRange_iff.2 hn⟩

/-! ## MMA, SPMM and LOOKOUT (R180, R183, R186, R190, R191, R195, R230) -/

section
variable {x : EngRef} {s u : State} {t : Task} {mode : ArrayMode} {o : MmaOps} {look : LookoutOps}

/-- The run that an instruction of an array takes is the one that arrayDone names. -/
theorem arrayDone_eq_some (h : arrayDone s x t mode o look = some u) :
    ∃ e b q v r, s.arrayEnv x t mode o look = .ok e ∧ s.arrayRun x e = .ok (b, q) ∧ State.arrayGo e (State.arrayFuel e) b q = .done v r
      ∧ v.arrayEnd e r = u := by
  unfold arrayDone at h
  split at h
  · cases h
  next e he =>
  split at h
  · cases h
  next b q hrun =>
  split at h
  next v r hgo => exact ⟨e, b, q, v, r, he, hrun, hgo, Option.some.inj h⟩
  · cases h

theorem State.arrayInstr_done (self : Instr) (h : arrayDone s x t mode o look = some u) : s.arrayInstr x t self mode o look = u.retire x t self := by
  obtain ⟨e, b, q, v, r, he, hrun, hgo, rfl⟩ := arrayDone_eq_some h
  simp only [arrayInstr, he, hrun, hgo]

/-- An instruction of an array that can issue retires in the state that its run leaves. -/
theorem issue_arrayInstr (i : Instr) (hruns : Runs s [0, 1] x i t) (hdone : arrayDone (s.begin' x) x t mode o look = some u) :
    Host.Outcome.next (ρ := Refusal) (φ := Fault) (s.issue [0, 1] x i fun s t => s.arrayInstr x t i mode o look) = .next (u.retire x t i) :=
  congrArg Host.Outcome.next ((State.issue_of_runs _ hruns).trans (State.arrayInstr_done i hdone))

end

/-- Settles O17: each of the six issues with its own mode. -/
theorem arrayCommandsComplete : Obligations.ArrayCommandsComplete := by
  unfold Obligations.ArrayCommandsComplete
  refine fun x s u t o l => ⟨?dense, ?sliding, ?transposed, ?plane, ?sparse, ?lookout⟩
  case dense => exact issue_arrayInstr (.mmaDense x o)
  case sliding => exact issue_arrayInstr (.mmaSliding x o)
  case transposed => exact issue_arrayInstr (.mmaTransposed x o)
  case plane => exact issue_arrayInstr (.mmaPlane x o)
  case sparse => exact issue_arrayInstr (.spmm x o)
  case lookout => exact issue_arrayInstr (.lookout x l)

end Sys2Proof.Machine
end

section
/-! PROOFS of the family 08_accumulation_ebb_chain_and_packer: what an addition of an integer accumulator gives (R215). -/

namespace Sys2Proof.Machine

/-! ## One addition of an integer accumulator (R215) -/

section
variable {a b : Nat}

theorem accAdd_int_intInf_left (b : Nat) : accAdd 1 intInf b = intInf := ite_self intInf

theorem accAdd_int_intInf_right (a : Nat) : accAdd 1 a intInf = intInf := rfl

/-- Where neither operand is integer infinity, an addition is the check of the exact sum. -/
theorem accAdd_int_of_ne (ha : a ≠ intInf) (hb : b ≠ intInf) : accAdd 1 a b = accInt (sext 32 a + sext 32 b) := by
  simp only [accAdd, iadd, iaddInt, beq_iff_eq, if_neg ha, if_neg hb]

theorem accAdd_int_of_not_accRange (h : ¬ AccRange (sext 32 a + sext 32 b)) : accAdd 1 a b = intInf := by
  by_cases ha : a = intInf
  · rw [ha, accAdd_int_intInf_left]
  by_cases hb : b = intInf
  · rw [hb, accAdd_int_intInf_right]
  · rw [accAdd_int_of_ne ha hb, accInt_of_not_accRange h]

end

/-- Settles O19: integer infinity absorbs, and any other sum is the check of the exact sum. -/
theorem integerAccumulation : Obligations.IntegerAccumulation := by
  unfold Obligations.IntegerAccumulation
  refine fun a b _ _ => ⟨?infinite, fun ha hb hlow hhigh => ?exact⟩
  case infinite =>
    rintro (rfl | rfl | hout)
    · exact accAdd_int_intInf_left b
    · exact accAdd_int_intInf_right a
    · exact accAdd_int_of_not_accRange (not_accRange_iff.2 hout)
  case exact =>
    have hsum : AccRange (sext 32 a + sext 32 b) := ⟨hlow, hhigh⟩
    rw [accAdd_int_of_ne ha hb]
    exact ⟨accInt_lt hsum, accInt_ne_intInf hsum, sext_accInt hsum⟩

end Sys2Proof.Machine
end

section
/-! PROOFS of the family 09_sluice_and_estuary: coordinate mode finds the common indices whatever its windows and gallops are (R242, R245), the keys of
a merged group ascend (R256), and the tree over the ports with replace keeps the highest-numbered one (R254, R255). -/

namespace Sys2Proof.Machine

/-! ## Common indices of two lists (R242) -/

/-- The indices of the entries ascend strictly, as coordinate mode takes them. -/
def IndicesAscend (l : List (Nat × Nat)) : Prop := l.Pairwise fun p q => p.1 < q.1

/-- The entries of A whose index B holds, each with its places in both lists. -/
def commonEntries (as bs : List (Nat × Nat)) : List (Nat × Nat × Nat) :=
  as.filterMap fun p => (bs.find? fun q => q.1 == p.1).map fun q => (p.1, p.2, q.2)

/-- The entries of a list whose index is at most t. -/
def upTo (t : Nat) (l : List (Nat × Nat)) : List (Nat × Nat) := l.filter fun p => decide (p.1 ≤ t)

/-- The entries of a list whose index is greater than t. -/
def beyond (t : Nat) (l : List (Nat × Nat)) : List (Nat × Nat) := l.filter fun p => decide (t < p.1)

/-- The last index of a window. -/
def lastIndex (l : List (Nat × Nat)) : Nat := (l.getLast?.map (·.1)).getD 0

/-- The index t up to which a handshake consumes both windows (R242). -/
def windowEnd (as bs : List (Nat × Nat)) : Nat := min (lastIndex (as.take 8)) (lastIndex (bs.take 8))

/-- The entries that a gallop up to index v passes over: whole windows of those below it. -/
def gallopLen (l : List (Nat × Nat)) (v : Nat) : Nat := (l.takeWhile fun p => decide (p.1 < v)).length / 8 * 8

section
variable {as bs l : List (Nat × Nat)} {p a0 b0 : Nat × Nat} {t k v n : Nat}

@[simp] theorem commonEntries_nil_left (bs : List (Nat × Nat)) : commonEntries [] bs = [] := rfl

@[simp] theorem commonEntries_nil_right (as : List (Nat × Nat)) : commonEntries as [] = [] := by
  simp [commonEntries]

theorem commonEntries_append_left (as as' bs : List (Nat × Nat)) :
    commonEntries (as ++ as') bs = commonEntries as bs ++ commonEntries as' bs := List.filterMap_append

theorem commonEntries_eq_nil (h : ∀ p ∈ as, ∀ q ∈ bs, p.1 ≠ q.1) : commonEntries as bs = [] := by
  simpa [commonEntries] using fun i o hp j o' hq => (h (i, o) hp (j, o') hq).symm

theorem commonEntries_filter_right {keep : Nat × Nat → Bool} (h : ∀ p ∈ as, ∀ q ∈ bs, q.1 = p.1 → keep q = true) :
    commonEntries as (bs.filter keep) = commonEntries as bs := by
  refine List.filterMap_congr fun p hp => ?_
  rw [List.find?_filter]
  refine congrArg _ (List.find?_congr fun q hq => ?_)
  by_cases hqp : q.1 = p.1
  · simp [hqp, h p hp q hq hqp]
  · simp [hqp]

theorem commonEntries_drop_left (h : ∀ p ∈ as.take k, ∀ q ∈ bs, p.1 ≠ q.1) : commonEntries (as.drop k) bs = commonEntries as bs := by
  conv_rhs => rw [← List.take_append_drop k as, commonEntries_append_left, commonEntries_eq_nil h, List.nil_append]

theorem commonEntries_drop_right (h : ∀ p ∈ as, ∀ q ∈ bs.take k, p.1 ≠ q.1) : commonEntries as (bs.drop k) = commonEntries as bs := by
  refine List.filterMap_congr fun p hp => ?_
  have hnone : (bs.take k).find? (fun q => q.1 == p.1) = none := by simpa using fun j o hq => (h p hp (j, o) hq).symm
  conv_rhs => rw [← List.take_append_drop k bs, List.find?_append, hnone, Option.none_or]

/-! ## A list cut at an index -/

theorem mem_upTo : p ∈ upTo t l ↔ p ∈ l ∧ p.1 ≤ t := by simp [upTo]

theorem mem_beyond : p ∈ beyond t l ↔ p ∈ l ∧ t < p.1 := by simp [beyond]

theorem upTo_eq_nil (h : ∀ p ∈ l, t < p.1) : upTo t l = [] := by simpa [upTo] using fun i o hp => h (i, o) hp

theorem beyond_eq_nil (h : ∀ p ∈ l, p.1 ≤ t) : beyond t l = [] := by simpa [beyond] using fun i o hp => h (i, o) hp

theorem beyond_eq_self (h : ∀ p ∈ l, t < p.1) : beyond t l = l := by simpa [beyond] using fun i o hp => h (i, o) hp

theorem lastIndex_mem (h : l ≠ []) : ∃ p ∈ l, lastIndex l = p.1 :=
  ⟨l.getLast h, List.getLast_mem h, by simp [lastIndex, List.getLast?_eq_some_getLast h]⟩

theorem windowEnd_le_left (as bs : List (Nat × Nat)) : windowEnd as bs ≤ lastIndex (as.take 8) := min_le_left _ _

theorem windowEnd_le_right (as bs : List (Nat × Nat)) : windowEnd as bs ≤ lastIndex (bs.take 8) := min_le_right _ _

theorem windowEnd_choice (as bs : List (Nat × Nat)) : windowEnd as bs = lastIndex (as.take 8) ∨ windowEnd as bs = lastIndex (bs.take 8) :=
  min_choice _ _

theorem upTo_lastIndex_length_pos (h : l ≠ []) : 0 < (upTo (lastIndex l) l).length := by
  obtain ⟨p, hp, hlast⟩ := lastIndex_mem h
  exact List.length_pos_of_mem (mem_upTo.2 ⟨hp, hlast.ge⟩)

/-- A handshake consumes an entry. -/
theorem handshake_consumes (ha : as ≠ []) (hb : bs ≠ []) :
    0 < (upTo (windowEnd as bs) (as.take 8)).length + (upTo (windowEnd as bs) (bs.take 8)).length := by
  rcases windowEnd_choice as bs with hend | hend <;> rw [hend]
  · exact Nat.add_pos_left (upTo_lastIndex_length_pos (by simpa using ha)) _
  · exact Nat.add_pos_right _ (upTo_lastIndex_length_pos (by simpa using hb))

theorem lt_of_mem_take_gallopLen (hp : p ∈ l.take (gallopLen l v)) : p.1 < v := by
  have hle : gallopLen l v ≤ (l.takeWhile fun p => decide (p.1 < v)).length := Nat.div_mul_le_self _ _
  generalize gallopLen l v = k at hp hle
  rw [← List.takeWhile_append_dropWhile (p := fun p => decide (p.1 < v)) (l := l), List.take_append_of_le_length hle] at hp
  simpa using List.mem_takeWhile_imp (List.mem_of_mem_take hp)

namespace IndicesAscend

theorem take (h : IndicesAscend l) (n : Nat) : IndicesAscend (l.take n) := List.Pairwise.sublist (List.take_sublist n l) h

theorem drop (h : IndicesAscend l) (n : Nat) : IndicesAscend (l.drop n) := List.Pairwise.sublist (List.drop_sublist n l) h

theorem head_le (h : IndicesAscend (a0 :: as)) (hp : p ∈ a0 :: as) : a0.1 ≤ p.1 := by
  rcases List.mem_cons.1 hp with rfl | hp
  · exact le_rfl
  · exact (List.rel_of_pairwise_cons h hp).le

theorem le_lastIndex (h : IndicesAscend l) (hp : p ∈ l) : p.1 ≤ lastIndex l := by
  induction l using List.reverseRecOn with
  | nil => cases hp
  | append_singleton l a _ =>
    rcases List.mem_append.1 hp with hp | hp
    · simpa [lastIndex] using ((List.pairwise_append.1 h).2.2 p hp a (List.mem_singleton_self a)).le
    · simp [lastIndex, List.mem_singleton.1 hp]

theorem lastIndex_take_lt (h : IndicesAscend l) (hn : n ≠ 0) (hp : p ∈ l.drop n) : lastIndex (l.take n) < p.1 := by
  have hne : l.take n ≠ [] := by
    rw [Ne, List.take_eq_nil_iff]
    rintro (h0 | rfl)
    · exact hn h0
    · simp at hp
  obtain ⟨q, hq, hlast⟩ := lastIndex_mem hne
  rw [← List.take_append_drop n l] at h
  exact hlast ▸ (List.pairwise_append.1 h).2.2 q hq p hp

theorem upTo_append_beyond (h : IndicesAscend l) (t : Nat) : upTo t l ++ beyond t l = l := by
  induction l with
  | nil => rfl
  | cons a l ih =>
    by_cases ha : a.1 ≤ t
    · simpa [upTo, beyond, ha] using ih h.of_cons
    · have hall : ∀ p ∈ a :: l, t < p.1 := fun p hp => (not_le.1 ha).trans_le (h.head_le hp)
      rw [upTo_eq_nil hall, beyond_eq_self hall, List.nil_append]

theorem drop_upTo (h : IndicesAscend l) (t : Nat) : l.drop (upTo t l).length = beyond t l := by
  simpa only [h.upTo_append_beyond] using List.drop_left (l₁ := upTo t l) (l₂ := beyond t l)

/-- The matches lie on the same side of a cut in both lists. -/
theorem commonEntries_cut (h : IndicesAscend as) (bs : List (Nat × Nat)) (t : Nat) :
    commonEntries as bs = commonEntries (upTo t as) (upTo t bs) ++ commonEntries (beyond t as) (beyond t bs) := by
  have hlow : commonEntries (upTo t as) (upTo t bs) = commonEntries (upTo t as) bs :=
    commonEntries_filter_right fun p hp q _ hqp => decide_eq_true (hqp.trans_le (mem_upTo.1 hp).2)
  have hhigh : commonEntries (beyond t as) (beyond t bs) = commonEntries (beyond t as) bs :=
    commonEntries_filter_right fun p hp q _ hqp => decide_eq_true (hqp ▸ (mem_beyond.1 hp).2)
  rw [hlow, hhigh, ← commonEntries_append_left, h.upTo_append_beyond]

/-- A handshake consumes from a window all that the list holds up to a cut at or before the window's last index. -/
theorem upTo_take (h : IndicesAscend l) (hn : n ≠ 0) (ht : t ≤ lastIndex (l.take n)) : upTo t (l.take n) = upTo t l := by
  have hrest : upTo t (l.drop n) = [] := upTo_eq_nil fun p hp => ht.trans_lt (h.lastIndex_take_lt hn hp)
  calc upTo t (l.take n) = upTo t (l.take n) ++ upTo t (l.drop n) := by rw [hrest, List.append_nil]
    _ = upTo t (l.take n ++ l.drop n) := List.filter_append .. |>.symm
    _ = upTo t l := by rw [List.take_append_drop]

theorem drop_upTo_take (h : IndicesAscend l) (hn : n ≠ 0) (ht : t ≤ lastIndex (l.take n)) :
    l.drop (upTo t (l.take n)).length = beyond t l := by
  rw [h.upTo_take hn ht, h.drop_upTo]

/-! ## The handshakes of coordinate mode -/

/-- What the windows have in common are the common entries up to the windows' end. -/
theorem commonEntries_windows (ha : IndicesAscend as) (hb : IndicesAscend bs) :
    commonEntries (as.take 8) (bs.take 8) = commonEntries (upTo (windowEnd as bs) as) (upTo (windowEnd as bs) bs) := by
  have hrest : commonEntries (beyond (windowEnd as bs) (as.take 8)) (beyond (windowEnd as bs) (bs.take 8)) = [] := by
    rcases windowEnd_choice as bs with hend | hend <;> rw [hend]
    · rw [beyond_eq_nil (l := as.take 8) fun p => (ha.take 8).le_lastIndex, commonEntries_nil_left]
    · rw [beyond_eq_nil (l := bs.take 8) fun p => (hb.take 8).le_lastIndex, commonEntries_nil_right]
  rw [(ha.take 8).commonEntries_cut _ (windowEnd as bs), hrest, List.append_nil, ha.upTo_take (by decide) (windowEnd_le_left as bs),
    hb.upTo_take (by decide) (windowEnd_le_right as bs)]

theorem commonEntries_handshake (ha : IndicesAscend as) (hb : IndicesAscend bs) :
    commonEntries (as.take 8) (bs.take 8) ++ commonEntries (as.drop (upTo (windowEnd as bs) (as.take 8)).length)
      (bs.drop (upTo (windowEnd as bs) (bs.take 8)).length) = commonEntries as bs := by
  rw [ha.drop_upTo_take (by decide) (windowEnd_le_left as bs), hb.drop_upTo_take (by decide) (windowEnd_le_right as bs),
    ha.commonEntries_windows hb, ← ha.commonEntries_cut]

/-- A gallop of A up to the smallest index of B passes over no match. -/
theorem commonEntries_gallopA (hb : IndicesAscend (b0 :: bs)) (as : List (Nat × Nat)) :
    commonEntries (as.drop (gallopLen as b0.1)) (b0 :: bs) = commonEntries as (b0 :: bs) :=
  commonEntries_drop_left fun _ hp _ hq => ((lt_of_mem_take_gallopLen hp).trans_le (hb.head_le hq)).ne

/-- A gallop of B up to the smallest index of A passes over no match. -/
theorem commonEntries_gallopB (ha : IndicesAscend (a0 :: as)) (bs : List (Nat × Nat)) :
    commonEntries (a0 :: as) (bs.drop (gallopLen bs a0.1)) = commonEntries (a0 :: as) bs :=
  commonEntries_drop_right fun _ hp _ hq => ((lt_of_mem_take_gallopLen hq).trans_le (ha.head_le hp)).ne'

end IndicesAscend

/-- A side's count of handshakes that took its whole window without a match while the other side took nothing. -/
def runOn (quiet : Bool) (ka kb g : Nat) : Nat := if quiet && ka == 8 && kb == 0 then g + 1 else 0

section
variable {fuel ga gb : Nat}

theorem matchRuns_nil_left (fuel : Nat) (bs : List (Nat × Nat)) (ga gb : Nat) : (matchRuns fuel [] bs ga gb).1 = [] := by
  cases fuel <;> rfl

theorem matchRuns_nil_right (fuel : Nat) (as : List (Nat × Nat)) (ga gb : Nat) : (matchRuns fuel as [] ga gb).1 = [] := by
  cases fuel <;> cases as <;> rfl

theorem matchRuns_gallopA (h : 2 ≤ ga) : (matchRuns (fuel + 1) (a0 :: as) (b0 :: bs) ga gb).1
    = (matchRuns fuel ((a0 :: as).drop (gallopLen (a0 :: as) b0.1)) (b0 :: bs) 0 0).1 := by
  simp only [matchRuns, if_pos h, gallopLen]

theorem matchRuns_gallopB (ha : ¬ 2 ≤ ga) (hb : 2 ≤ gb) : (matchRuns (fuel + 1) (a0 :: as) (b0 :: bs) ga gb).1
    = (matchRuns fuel (a0 :: as) ((b0 :: bs).drop (gallopLen (b0 :: bs) a0.1)) 0 0).1 := by
  simp only [matchRuns, if_neg ha, if_pos hb, gallopLen]

/-- One comparison of two windows. -/
theorem matchRuns_compare (ha : ¬ 2 ≤ ga) (hb : ¬ 2 ≤ gb) : (matchRuns (fuel + 1) (a0 :: as) (b0 :: bs) ga gb).1
    = let wa := (a0 :: as).take 8
      let wb := (b0 :: bs).take 8
      let ka := (upTo (windowEnd (a0 :: as) (b0 :: bs)) wa).length
      let kb := (upTo (windowEnd (a0 :: as) (b0 :: bs)) wb).length
      let quiet := (commonEntries wa wb).isEmpty
      commonEntries wa wb ++ (matchRuns fuel ((a0 :: as).drop ka) ((b0 :: bs).drop kb) (runOn quiet ka kb ga) (runOn quiet kb ka gb)).1 := by
  simp only [matchRuns, if_neg ha, if_neg hb]
  rfl

/-- A count rises only for a whole window taken, so what is left of the lists and the counts falls with every handshake. -/
theorem runOn_add_runOn_lt (quiet : Bool) {ka kb : Nat} (h : 0 < ka + kb) (ga gb : Nat) :
    runOn quiet ka kb ga + runOn quiet kb ka gb < ka + kb + (ga + gb) := by
  simp only [runOn, Bool.and_eq_true, beq_iff_eq]
  split_ifs <;> omega

/-- The fuel bounds what is left of the lists with the counts, of which a gallop resets 2 at least. -/
theorem matchRuns_eq_commonEntries (fuel : Nat) {as bs : List (Nat × Nat)} {ga gb : Nat} (ha : IndicesAscend as) (hb : IndicesAscend bs)
    (hfuel : as.length + bs.length + (ga + gb) ≤ fuel) : (matchRuns fuel as bs ga gb).1 = commonEntries as bs := by
  induction fuel generalizing as bs ga gb with
  | zero =>
    obtain rfl : as = [] := List.length_eq_zero_iff.1 (by omega)
    rfl
  | succ fuel ih =>
    rcases as with _ | ⟨a0, as⟩
    · rw [matchRuns_nil_left, commonEntries_nil_left]
    rcases bs with _ | ⟨b0, bs⟩
    · rw [matchRuns_nil_right, commonEntries_nil_right]
    by_cases hga : 2 ≤ ga
    · have hshort := (List.drop_sublist (gallopLen (a0 :: as) b0.1) (a0 :: as)).length_le
      rw [matchRuns_gallopA hga, ih (ha.drop _) hb (by omega), hb.commonEntries_gallopA]
    by_cases hgb : 2 ≤ gb
    · have hshort := (List.drop_sublist (gallopLen (b0 :: bs) a0.1) (b0 :: bs)).length_le
      rw [matchRuns_gallopB hga hgb, ih ha (hb.drop _) (by omega), ha.commonEntries_gallopB]
    · have hpos := handshake_consumes (List.cons_ne_nil a0 as) (List.cons_ne_nil b0 bs)
      rw [matchRuns_compare hga hgb]
      extract_lets wa wb ka kb quiet
      have hka : ka ≤ (a0 :: as).length := (List.filter_sublist.trans (List.take_sublist _ _)).length_le
      have hkb : kb ≤ (b0 :: bs).length := (List.filter_sublist.trans (List.take_sublist _ _)).length_le
      have hfalls : runOn quiet ka kb ga + runOn quiet kb ka gb < ka + kb + (ga + gb) := runOn_add_runOn_lt quiet hpos ga gb
      rw [ih (ha.drop ka) (hb.drop kb) (by rw [List.length_drop, List.length_drop]; omega), ha.commonEntries_handshake hb]

end

end

/-- Settles O21: every handshake yields the common entries up to its windows' end, and a gallop passes over none. -/
theorem coordinateMatching : Obligations.CoordinateMatching := by
  unfold Obligations.CoordinateMatching
  exact fun as bs ha hb => matchRuns_eq_commonEntries _ ha hb (by omega)

/-! ## The keys of a merged group (R256) -/

section
variable {k x : Nat} {l : List Nat}

theorem mem_insertKey : x ∈ insertKey k l ↔ x = k ∨ x ∈ l := by
  induction l with
  | nil => simp [insertKey]
  | cons a l ih =>
    rw [insertKey]
    split_ifs with hlt heq
    · exact List.mem_cons
    · simp [heq]
    · simp [ih, or_left_comm]

theorem insertKey_pairwise_lt (h : l.Pairwise (· < ·)) : (insertKey k l).Pairwise (· < ·) := by
  induction l with
  | nil => exact List.pairwise_singleton _ k
  | cons a l ih =>
    obtain ⟨hhead, htail⟩ := List.pairwise_cons.1 h
    rw [insertKey]
    split_ifs with hlt heq
    · refine List.pairwise_cons.2 ⟨fun x hx => ?_, h⟩
      rcases List.mem_cons.1 hx with rfl | hx
      · exact hlt
      · exact hlt.trans (hhead x hx)
    · exact h
    · refine List.pairwise_cons.2 ⟨fun x hx => ?_, ih htail⟩
      rcases mem_insertKey.1 hx with rfl | hx
      · omega
      · exact hhead x hx

theorem mergeKeys_append_singleton (l : List Nat) (k : Nat) : mergeKeys (l ++ [k]) = insertKey k (mergeKeys l) := by
  simp [mergeKeys]

theorem mergeKeys_pairwise_lt (l : List Nat) : (mergeKeys l).Pairwise (· < ·) := by
  induction l using List.reverseRecOn with
  | nil => exact .nil
  | append_singleton l k ih =>
    rw [mergeKeys_append_singleton]
    exact insertKey_pairwise_lt ih

theorem mem_mergeKeys : x ∈ mergeKeys l ↔ x ∈ l := by
  induction l using List.reverseRecOn with
  | nil => rfl
  | append_singleton l k ih => rw [mergeKeys_append_singleton, mem_insertKey, ih, List.mem_append, List.mem_singleton, or_comm]

end

/-- Settles O22: inserting a key keeps the order and adds that key alone. -/
theorem mergedKeysAscend : Obligations.MergedKeysAscend := by
  unfold Obligations.MergedKeysAscend
  exact fun l => ⟨mergeKeys_pairwise_lt l, fun _ => mem_mergeKeys⟩

/-! ## The tree over the ports with replace (R254, R255) -/

/-- The last output of some ports. -/
def lastOutput (v : List (Option Nat)) : Option Nat := (v.filterMap id).getLast?

theorem lastOutput_cons (a : Option Nat) (v : List (Option Nat)) : lastOutput (a :: v) = (lastOutput v).or a := by
  cases a with
  | none => exact Option.or_none.symm
  | some x =>
    rw [lastOutput, lastOutput, List.filterMap_cons_some (id_eq (some x)), List.getLast?_cons]
    cases (v.filterMap id).getLast? <;> rfl

/-- With replace a pair of ports gives the output of the higher-numbered one, if it has any. -/
theorem treeLevel_replace_cons (work : Nat) (a b : Option Nat) (v : List (Option Nat)) :
    treeLevel 3 work (a :: b :: v) = b.or a :: treeLevel 3 work v := by
  cases a <;> cases b <;> rfl

theorem lastOutput_treeLevel_replace (work : Nat) : ∀ v : List (Option Nat), lastOutput (treeLevel 3 work v) = lastOutput v
  | [] => rfl
  | [_] => rfl
  | a :: b :: v => by
    rw [treeLevel_replace_cons, lastOutput_cons, lastOutput_treeLevel_replace work v, lastOutput_cons, lastOutput_cons, Option.or_assoc]

theorem treeLevel_length (op work : Nat) : ∀ v : List (Option Nat), (treeLevel op work v).length = (v.length + 1) / 2
  | [] => rfl
  | [_] => by simp [treeLevel]
  | a :: b :: v => by
    have ih := treeLevel_length op work v
    simp only [treeLevel, List.length_cons, ih]
    omega

theorem headD_eq_lastOutput {v : List (Option Nat)} (h : v.length = 1) : v.headD none = lastOutput v := by
  obtain ⟨a, rfl⟩ := List.length_eq_one_iff.1 h
  cases a <;> rfl

/-- Settles O23: four levels, each keeping the last output, leave one of 16. -/
theorem replaceKeepsTheHighestPort : Obligations.ReplaceKeepsTheHighestPort := by
  unfold Obligations.ReplaceKeepsTheHighestPort
  intro work v hlen
  rw [portTree, headD_eq_lastOutput (by simp [treeLevel_length, hlen])]
  simp only [lastOutput_treeLevel_replace]
  rfl

end Sys2Proof.Machine
end

section
/-! PROOFS of the family 10_row_dispenser_and_channels: signals and words that engines send (R276, R306, R309, R310), reads of channels (R277, R278), what
writes of their registers and of CH_DATA do (R278, R279, R281), and how the row dispenser starts lists and issues items (R264, R265, R266, R270, R274). -/

namespace Sys2Proof.Machine

/-! ## Numbers as little-endian bytes (R9) -/

theorem leNat_leBytes (n v : Nat) : leNat (leBytes n v) = v % 256 ^ n := by
  induction n generalizing v with
  | zero => rw [Nat.pow_zero, Nat.mod_one]; rfl
  | succ n ih => rw [leBytes, leNat, ih, BitVec.toNat_ofNat, Nat.pow_succ' (m := 256), Nat.mod_mul]

theorem bitOf_b2n (b : Bool) : bitOf (b2n b) 0 = b := by cases b <;> rfl

/-- The payload of one word with its end mark in the amount reads back as that word (R276). -/
theorem words_of_payload (d : Nat) (m : Bool) :
    (chunksOf 8 8 (leBytes 8 d)).mapIdx (fun k b => (leNat b, bitOf (b2n m) k)) = [(d % 2 ^ 64, m)] := by
  have hchunks : chunksOf 8 8 (leBytes 8 d) = [leBytes 8 d] := rfl
  rw [hchunks, List.mapIdx_cons, List.mapIdx_nil, leNat_leBytes, bitOf_b2n, show 256 ^ 8 = 2 ^ 64 from rfl]

/-! ## SIGNAL and CHSEND (R306, R309, R310) -/

namespace State

variable {s : State} {x : EngRef} {t : Task} {i : Instr} {core g n k : Nat}

/-- The core field of a SIGNAL or CHSEND, which is in range, names core g. -/
def NamesCore (s : State) (x : EngRef) (t : Task) (core g : Nat) : Prop := ¬ (384 ≤ core ∧ core ≠ 0x1FF) ∧ s.syncTarget x t core = .ok g

theorem namesCore_own (s : State) (x : EngRef) (t : Task) : s.NamesCore x t 0x1FF x.core := ⟨fun h => h.2 rfl, rfl⟩

theorem namesCore_other (hg : g < 384) (hon : s.enabled g = true) (hmine : t.cores.contains g = true) : s.NamesCore x t g g := by
  have hfield : g ≠ 0x1FF := by omega
  refine ⟨by omega, ?_⟩
  simp only [syncTarget, if_neg hfield, hon, hmine, Bool.not_true, Bool.false_eq_true, if_false, if_true]

theorem signalInstr_of_namesCore {post : Bool} (h : s.NamesCore x t core g) (hn : n < if post then 16 else 64) :
    s.signalInstr x t i post core n k = s.startSync x t i { coreFrame x t 6 (coveBase g) with counter := n, post := post, amount := k } := by
  obtain ⟨hfield, htarget⟩ := h
  simp only [signalInstr, if_neg hfield, htarget, if_neg (Nat.not_le.2 hn)]

section
variable {f : Frame} {o : Nat} (hm : (s.eng x).moves = []) (hf : placeOf f.address = .cove x.core o)
include hm hf

theorem startSync_own_signal (hk : f.kind = 6) :
    s.startSync x t i f = (s.retire x t i).incr x.core x.slot f.post f.counter f.amount x.core x.eng := by
  rw [startSync_own hm hf, hk, if_pos (by decide)]

theorem startSync_own_word (hk : f.kind = 7) {d : Nat} {m : Bool} (hp : f.payload = leBytes 8 d) (ha : f.amount = b2n m) :
    s.startSync x t i f = (s.retire x t i).pushWords x.core f.counter [(d % 2 ^ 64, m)] := by
  rw [startSync_own hm hf, hk, if_neg (by decide), hp, ha, words_of_payload]

end
end State

section
variable {s : State} {x : EngRef} {t : Task} {core g n k d : Nat} {m : Bool}

theorem exec_signalAdd (h : Runs s allEngines x (.signalAdd x core n k) t) (hg : (s.begin' x).NamesCore x t core g) (hn : n < 64) :
    exec (.signalAdd x core n k) s = .next ((s.begin' x).startSync x t (.signalAdd x core n k)
      { coreFrame x t 6 (coveBase g) with counter := n, amount := k }) :=
  congrArg Host.Outcome.next ((State.issue_of_runs _ h).trans (State.signalInstr_of_namesCore (post := false) hg hn))

theorem exec_signalPost (h : Runs s allEngines x (.signalPost x core n k) t) (hg : (s.begin' x).NamesCore x t core g) (hn : n < 16) :
    exec (.signalPost x core n k) s = .next ((s.begin' x).startSync x t (.signalPost x core n k)
      { coreFrame x t 6 (coveBase g) with counter := n, post := true, amount := k }) :=
  congrArg Host.Outcome.next ((State.issue_of_runs _ h).trans (State.signalInstr_of_namesCore (post := true) hg hn))

theorem exec_chsend (h : Runs s allEngines x (.chsend x n m core d) t) (hg : (s.begin' x).NamesCore x t core g) :
    exec (.chsend x n m core d) s = .next ((s.begin' x).startSync x t (.chsend x n m core d)
      { coreFrame x t 7 (coveBase g) with counter := n, payload := leBytes 8 d, amount := b2n m }) := by
  obtain ⟨hfield, htarget⟩ := hg
  refine congrArg Host.Outcome.next ((State.issue_of_runs _ h).trans ?_)
  simp only [if_neg hfield, htarget]

end

/-- Settles O13: the frame that leaves, or takes effect on the own core, is the one of `exec_signalAdd`, `exec_signalPost` and `exec_chsend`. -/
theorem signalsComplete : Obligations.SignalsComplete := by
  unfold Obligations.SignalsComplete
  intro x s t g n k d m hcore hmoves b other
  have hm : (b.eng x).moves = [] := by rw [State.begin'_eng, hmoves]
  have hown : placeOf (coveBase x.core) = .cove x.core 0 := placeOf_coveBase hcore
  have hname : b.NamesCore x t 0x1FF x.core := State.namesCore_own b x t
  have hplace : other → placeOf (coveBase g) = .cove g 0 := fun h => placeOf_coveBase h.1
  have hother : other → b.NamesCore x t g g := fun ⟨hg, _, _, hon, hmine⟩ => State.namesCore_other hg ((State.begin'_enabled s x g).trans hon) hmine
  refine ⟨fun hn h => ?_, fun hn h => ?_, fun h => ?_, fun ho hn h => ?_, fun ho hn h => ?_, fun ho h => ?_⟩
  · exact (exec_signalAdd h hname hn).trans (congrArg Host.Outcome.next (State.startSync_own_signal hm hown rfl))
  · exact (exec_signalPost h hname hn).trans (congrArg Host.Outcome.next (State.startSync_own_signal hm hown rfl))
  · exact (exec_chsend h hname).trans (congrArg Host.Outcome.next (State.startSync_own_word hm hown rfl rfl rfl))
  · rw [exec_signalAdd h (hother ho) hn, State.startSync_die hm (hplace ho) ho.2.1 ho.2.2.1]
  · rw [exec_signalPost h (hother ho) hn, State.startSync_die hm (hplace ho) ho.2.1 ho.2.2.1]
  · rw [exec_chsend h (hother ho), State.startSync_die hm (hplace ho) ho.2.1 ho.2.2.1]

/-! ## Reads of a channel (R277, R278) -/

namespace State

theorem popWord_cons {s : State} {core ch : Nat} {w : Nat × Bool} {rest : List (Nat × Bool)} (hd : s.dispChannel core ch = false)
    (hw : (s.chan core ch).words = w :: rest) :
    s.popWord core ch = (some w, s.setChan core ch { s.chan core ch with words := rest }) := by
  simp [popWord, hw, hd]

theorem popWord_nil {s : State} {core ch : Nat} (hw : (s.chan core ch).words = []) : s.popWord core ch = (none, s) := by
  simp [popWord, hw]

end State

section
variable {s : State} {x : EngRef} {t : Task} {c lc tlc : Nat} {tg : Bool}

theorem exec_chrecv_word (h : Runs s allEngines x (.chrecv x c lc tg tlc) t) {w : Nat} {m : Bool} {u : State}
    (hpop : (s.begin' x).popWord x.core c = (some (w, m), u)) :
    exec (.chrecv x c lc tg tlc) s = .next (((u.deliver x t (.chrecv x c lc tg tlc) lc tg tlc w true m).admitHeld).pump x.core) := by
  refine congrArg Host.Outcome.next ((State.issue_of_runs _ h).trans ?_)
  simp only [hpop]

theorem exec_chrecv_tagged (h : Runs s allEngines x (.chrecv x c lc tg tlc) t) {u : State} (hpop : (s.begin' x).popWord x.core c = (none, u))
    (htagged : u.rb ⟨.chCfg, x.core, c⟩ 0 = true) :
    exec (.chrecv x c lc tg tlc) s = .next (((u.deliver x t (.chrecv x c lc tg tlc) lc tg tlc 0 false false).admitHeld).pump x.core) := by
  refine congrArg Host.Outcome.next ((State.issue_of_runs _ h).trans ?_)
  simp only [hpop, htagged, if_true]

end

/-- Settles O14: what `State.deliver` gives of the word that leaves the channel, and of a TAGGED channel's answer. -/
theorem chrecvCompletes : Obligations.ChrecvCompletes := by
  unfold Obligations.ChrecvCompletes
  intro x s t c lc tlc tg hruns b hdisp
  refine ⟨fun w m rest hwords => ?_, fun hwords htagged => ?_⟩
  · rw [exec_chrecv_word hruns (State.popWord_cons hdisp hwords)]
    simp [State.deliver, State.retire, endPacket, b2n, b]
  · rw [exec_chrecv_tagged hruns (State.popWord_nil hwords) htagged]
    simp [State.deliver, State.retire, b2n, b]

/-! ## What a write that reaches its register leaves alone (R13, R356, R495) -/

namespace State

theorem store_keeps {β : Type} (p : State → β) (hreg : ∀ s r w, p (setReg s r w) = p s) (hlog : ∀ s e, p (logErr s e) = p s)
    (s : State) (a : Agent) (r : RegId) (v : Word) : p (s.store a r v) = p s := by
  have hnote : ∀ u old, p (noteModified u r old) = p u := by
    intro u old
    rcases u.noteModified_cases r old with h | ⟨q, -, h⟩
    · rw [h]
    · rw [h, setRf, hreg]
  simp only [store, hnote, hreg]
  exact ite_keeps p (hlog _ _) rfl

section
variable (s : State) (a : Agent) (r : RegId) (v : Word)

@[simp] theorem store_mem : (s.store a r v).mem = s.mem := store_keeps (·.mem) setReg_mem logErr_mem s a r v
@[simp] theorem store_tasks : (s.store a r v).tasks = s.tasks := store_keeps (·.tasks) setReg_tasks logErr_tasks s a r v
@[simp] theorem store_engs : (s.store a r v).engs = s.engs := store_keeps (·.engs) setReg_engs logErr_engs s a r v
@[simp] theorem store_chans : (s.store a r v).chans = s.chans := store_keeps (·.chans) setReg_chans logErr_chans s a r v
@[simp] theorem store_disps : (s.store a r v).disps = s.disps := store_keeps (·.disps) setReg_disps logErr_disps s a r v
theorem store_chan (core n : Nat) : (s.store a r v).chan core n = s.chan core n := congrArg (Tab.get Chan.empty · (core, n)) (s.store_chans a r v)
theorem store_disp (d : Nat) : (s.store a r v).disp d = s.disp d := congrArg (Tab.get Disp.idle · d) (s.store_disps a r v)

end

/-- A field that takes every write reads as it was written. -/
theorem store_live_rf (s : State) (a : Agent) {r : RegId} {f : RegField} (hf : f ∈ r.name.info.fields) (hl : f.cls = .live) (v : Word) :
    (s.store a r v).rf r f.hi f.lo = wfld v f.hi f.lo := by
  have hlt : r.name.info.after (s.busy a r v) (s.reg r).toNat v.toNat < 2 ^ 64 :=
    putFields_lt (info_fieldsApart r.name).1 (s.reg r).isLt
  rw [rf, store_reg_self, wfld_ofNat hlt, fld_after hf, RegField.after_direct (.inl hl)]
  rfl

end State

/-! ## The row dispenser starts a list (R265, R273, R274) -/

namespace State

section
variable {s : State} {d : Nat} {by' : Option Nat}

theorem startList_passes (h : s.dispOk d = true) :
    s.startList d by' = (((s.setDisp d { s.disp d with
        running := true, base := s.rf ⟨.dspListbase, d, 0⟩ 51 5 * 32, count := s.rf ⟨.dspListctl, d, 0⟩ 31 0, next := 0, head := none,
        partition := s.rf ⟨.dspListctl, d, 0⟩ 58 56, slot := s.rf ⟨.dspListctl, d, 0⟩ 33 32, sent := [], ended := [], task := by' }).setReg
      ⟨.dspStatus, d, 0⟩ 0).setRf ⟨.dspFault, d, 0⟩ 63 63 0).pumpEnds d 3 := by
  simp only [startList, h, Bool.not_true, Bool.false_eq_true, if_false]

theorem startList_aborts (h : s.dispOk d = false) {t : Task}
    (ht : (s.tasks.find? fun t => t.active && s.namesList t d by' (s.rf ⟨.dspListctl, d, 0⟩ 58 56) (s.rf ⟨.dspListctl, d, 0⟩ 33 32)) = some t) :
    s.startList d by' = s.abortWith t { code := E.dspConfig, severity := 1, kind := 2, unit := d } := by
  simp only [startList, h, Bool.not_false, if_true, ht]

theorem startList_logs (h : s.dispOk d = false)
    (ht : (s.tasks.find? fun t => t.active && s.namesList t d by' (s.rf ⟨.dspListctl, d, 0⟩ 58 56) (s.rf ⟨.dspListctl, d, 0⟩ 33 32)) = none) :
    s.startList d by' = s.logErr { code := E.dspConfig, severity := 0, kind := 2, unit := d, partition := some (s.rf ⟨.dspListctl, d, 0⟩ 58 56) } := by
  simp only [startList, h, Bool.not_false, if_true, ht]

end

/-- A write of start = 1 to an idle dispenser is stored, and starts the list of what it wrote. -/
theorem writeListctl_starts {s : State} {a : Agent} {d : Nat} {v : Word} (hidle : (s.disp d).running = false) (hv : wbit v 63 = true) :
    s.writeListctl a d v = ((s.store a ⟨.dspListctl, d, 0⟩ v).setRf ⟨.dspListctl, d, 0⟩ 63 63 0).startList d none := by
  have hbusy : s.busy a ⟨.dspListctl, d, 0⟩ v = false := hidle
  simp only [writeListctl, hbusy, hv, Bool.not_true, Bool.or_self, Bool.false_eq_true, if_false]

/-! ## The row dispenser issues an item (R264, R266, R270) -/

/-- The dispenser runs its list, an item is left, core c can take one, and the head item h passes R264 or has passed it before. -/
structure Issues (s : State) (d c : Nat) (h : WorkItem) : Prop where
  running : (s.disp d).running = true
  left : (s.disp d).next ≠ (s.disp d).count ∨ (s.disp d).head ≠ none
  core : s.nextCore d = some c
  item : s.headItem d = .ok h
  good : (s.disp d).head ≠ none ∨ s.itemBad d h = false

/-- The state in which the dispenser has given its head item to core c, with what splitting leaves at the head. -/
def itemTaken (s : State) (d c : Nat) (rest : Option WorkItem) : State :=
  let v := s.disp d
  let u := (s.setDisp d { v with head := rest, next := if rest.isSome then v.next else v.next + 1, lastServed := c }).satRf ⟨.dspStatus, d, 0⟩ 31 0 1
  if rest.isSome then u.satRf ⟨.dspStatus, d, 0⟩ 55 32 1 else u

theorem issueItem_issues {s : State} {d c : Nat} {h : WorkItem} (hi : s.Issues d c h) :
    let q := s.splitItem d h
    let u := s.itemTaken d c q.2
    let ws := itemWords q.1
    s.issueItem d = (u.pushWords (32 * d + c) (u.rf ⟨.dspCfg, d, 0⟩ 34 32)
      [(ws.getD 0 0, false), (ws.getD 1 0, false), (ws.getD 2 0, false), (ws.getD 3 0, true)] true).pumpEnds d 3 := by
  obtain ⟨hrun, hleft, hcore, hitem, hgood⟩ := hi
  have hsome : ((s.disp d).next == (s.disp d).count && (s.disp d).head.isNone) = false := by
    rw [Bool.and_eq_false_iff, beq_eq_false_iff_ne, Option.isNone_eq_false_iff, ← Option.ne_none_iff_isSome]
    exact hleft
  have hpass : ((s.disp d).head.isNone && s.itemBad d h) = false := by
    rw [Bool.and_eq_false_iff, Option.isNone_eq_false_iff, ← Option.ne_none_iff_isSome]
    exact hgood
  rcases hq : s.splitItem d h with ⟨out, rest⟩
  simp only [issueItem, hrun, hsome, hcore, hitem, hpass, hq, itemTaken, Bool.not_true, Bool.or_self, Bool.false_eq_true, if_false]

end State

/-- Settles O40: a start is `State.startList` of the stored word, an issue `State.issueItem_issues`. -/
theorem dispensersComplete : Obligations.DispensersComplete := by
  unfold Obligations.DispensersComplete
  intro s d v
  have hstart : ∀ (a : Agent) (value : Nat), s.gate a false ⟨.dspListctl, d, 0⟩ = none → v.running = false → wbit (BitVec.ofNat 64 value) 63 = true →
      exec (.dspListctlStart a d value) s = .next
        (((s.store a ⟨.dspListctl, d, 0⟩ (BitVec.ofNat 64 value)).setRf ⟨.dspListctl, d, 0⟩ 63 63 0).startList d none) := fun a value hg hidle hv =>
    congrArg Host.Outcome.next ((State.access_open hg).trans (State.writeListctl_starts hidle hv))
  refine ⟨fun a value => ?_, fun a value => ?_, fun c h hrun hleft hcore hitem hgood => ?_⟩
  · intro r w u hg hidle hv hok
    have hdisp : u.disp d = v := (State.disp_setRf _ _ _ _ _ _).trans (s.store_disp a r w d)
    rw [hstart a value hg hidle hv, State.startList_passes hok, hdisp]
  · intro r w u hg hidle hv hok
    rw [hstart a value hg hidle hv]
    split
    next t ht => rw [State.startList_aborts hok ht]
    next hn => rw [State.startList_logs hok hn]
  · exact congrArg Host.Outcome.next (State.issueItem_issues ⟨hrun, hleft, hcore, hitem, hgood⟩)

/-! ## A channel that nothing waits on (R277 to R281) -/

namespace Tab

variable {K V : Type} [DecidableEq K] {t : List (K × V)} {k : K}

theorem erase_of_notMem (h : ∀ e ∈ t, e.1 ≠ k) : erase t k = t := by
  induction t with
  | nil => rfl
  | cons e t ih =>
    rw [List.forall_mem_cons] at h
    rw [erase, if_neg h.1, ih h.2]

theorem erase_insert (num : K → Nat) (v : V) (h : ∀ e ∈ t, e.1 ≠ k) : erase (insert num t k v) k = t := by
  induction t with
  | nil => rw [insert, erase, if_pos rfl, erase]
  | cons e t ih =>
    have hself := erase_of_notMem h
    rw [List.forall_mem_cons] at h
    by_cases hn : num k < num e.1
    · rw [insert, if_pos hn, erase, if_pos rfl, hself]
    · rw [insert, if_neg hn, erase, if_neg h.1, ih h.2]

/-- Of two writes of one key the last one counts. -/
theorem put_put_self [DecidableEq V] (num : K → Nat) (d : V) (t : List (K × V)) (k : K) (v w : V) :
    put num d (put num d t k v) k w = put num d t k w := by
  have herase : erase (put num d t k v) k = erase t k := by
    by_cases hv : v = d
    · rw [put, if_pos hv, erase_of_notMem ne_of_mem_erase]
    · rw [put, if_neg hv, erase_insert num v ne_of_mem_erase]
  rw [put, herase, put]

end Tab

namespace State

theorem setChan_setChan_self (s : State) (core n : Nat) (q q' : Chan) : (s.setChan core n q).setChan core n q' = s.setChan core n q' :=
  congrArg (fun c => { s with chans := c }) (Tab.put_put_self _ _ _ _ _ _)

theorem forAll_of_fixed {s : State} {l : List Nat} {f : State → Nat → State} (h : ∀ a ∈ l, f s a = s) : s.forAll l f = s := by
  induction l with
  | nil => rfl
  | cons a l ih =>
    rw [List.forall_mem_cons] at h
    rw [forAll, List.foldl_cons, h.1]
    exact ih h.2

/-- No engine of a core stands at a CHRECV. -/
def NoneReads (s : State) (core : Nat) : Prop := ∀ slot e ch lc tagen tlc, (s.eng ⟨core, slot, e⟩).blocked ≠ some (.chrecv ch lc tagen tlc)

theorem NoneReads.of_engs {s u : State} {core : Nat} (h : s.NoneReads core) (hu : u.engs = s.engs) : u.NoneReads core := by
  intro slot e ch lc tagen tlc
  rw [eng, hu]
  exact h slot e ch lc tagen tlc

theorem serveRecvs_of_noneReads {s : State} {core : Nat} (h : s.NoneReads core) : s.serveRecvs core = s := by
  refine forAll_of_fixed fun slot _ => forAll_of_fixed fun e _ => ?_
  unfold serveRecv
  dsimp only
  split
  next hb _ => exact absurd hb (h _ _ _ _ _ _)
  next => rfl

theorem tagStalled_of_noneReads {s : State} {core : Nat} (h : s.NoneReads core) (n : Nat) : s.tagStalled core n = s := by
  refine forAll_of_fixed fun slot _ => forAll_of_fixed fun e _ => ?_
  dsimp only
  split
  next hb _ => exact absurd hb (h _ _ _ _ _ _)
  next => rfl

/-- No list runs on a core's die, and its Pilot owes no end of a list without items. -/
structure PilotIdle (s : State) (core : Nat) : Prop where
  noList : (s.disp (core / 32)).running = false
  owesNone : ∀ slot, slot < 4 → (s.eng ⟨core, slot, 7⟩).zeros = 0

section
variable {s : State} {core : Nat}

theorem PilotIdle.dispChannel (h : s.PilotIdle core) (n : Nat) : s.dispChannel core n = false := by simp [State.dispChannel, h.noList]

theorem PilotIdle.pump_setChan (h : s.PilotIdle core) (g n : Nat) (q : Chan) : (s.setChan g n q).pump core = s.setChan g n q :=
  pump_of_noList h.noList h.owesNone

theorem PilotIdle.pushWords_fits {n : Nat} {ws : List (Nat × Bool)} (h : s.PilotIdle core) (hr : s.NoneReads core)
    (hfit : (s.chan core n).words.length + ws.length ≤ 64) :
    s.pushWords core n ws = s.setChan core n { s.chan core n with words := (s.chan core n).words ++ ws } := by
  have hserve := serveRecvs_of_noneReads (hr.of_engs (s.setChan_engs core n { s.chan core n with words := (s.chan core n).words ++ ws }))
  simp only [pushWords, h.dispChannel, Bool.and_false, Bool.false_eq_true, if_false, if_neg (Nat.not_lt.2 hfit), hserve, h.pump_setChan]

theorem PilotIdle.pushWords_overruns {n : Nat} {ws : List (Nat × Bool)} (h : s.PilotIdle core)
    (hfull : 64 < (s.chan core n).words.length + ws.length) (hfirst : (s.chan core n).overrun = false) :
    s.pushWords core n ws = (s.setChan core n { s.chan core n with overrun := true }).chanError core E.chOverrun n := by
  simp only [pushWords, h.dispChannel, Bool.and_false, Bool.false_eq_true, if_false, if_pos hfull, hfirst]

/-! ## Writes of CH_CFGn (R279, R281) -/

theorem writeChan_mode (s : State) (a : Agent) (core n : Nat) (tagged : Bool) :
    s.writeChan a core n (BitVec.ofNat 64 (b2n tagged)) =
      if tagged then (s.store a ⟨.chCfg, core, n⟩ 1).tagStalled core n else s.store a ⟨.chCfg, core, n⟩ 0 := by
  have hflush : wbit (BitVec.ofNat 64 (b2n tagged)) 1 = false := by cases tagged <;> decide
  have hmode : wbit (BitVec.ofNat 64 (b2n tagged)) 0 = tagged := by cases tagged <;> decide
  simp only [writeChan, hflush, hmode, Bool.false_eq_true, if_false]
  cases tagged <;> simp [b2n]

/-- A flush writes the mode that the register holds; a read that is stalled meets it only on a TAGGED channel. -/
theorem PilotIdle.writeChan_flush (h : s.PilotIdle core) (a : Agent) (n : Nat) (hr : s.NoneReads core ∨ s.rf ⟨.chCfg, core, n⟩ 0 0 = 0) :
    s.writeChan a core n (BitVec.ofNat 64 (2 + s.rf ⟨.chCfg, core, n⟩ 0 0)) =
      (s.setChan core n { s.chan core n with words := [] }).store a ⟨.chCfg, core, n⟩ (BitVec.ofNat 64 (s.rf ⟨.chCfg, core, n⟩ 0 0)) := by
  have hlt : s.rf ⟨.chCfg, core, n⟩ 0 0 < 2 := fld_lt_two_pow _ 0 0
  generalize s.rf ⟨.chCfg, core, n⟩ 0 0 = mode at hr hlt ⊢
  have hflush : wbit (BitVec.ofNat 64 (2 + mode)) 1 = true := by interval_cases mode <;> decide
  have hmode : wbit (BitVec.ofNat 64 (2 + mode)) 0 = (mode == 1) := by interval_cases mode <;> decide
  have hword : b2n (mode == 1) = mode := by interval_cases mode <;> rfl
  simp only [writeChan, hflush, hmode, hword, if_true, flushChan, h.pump_setChan]
  rcases hr with hr | hr
  · rw [tagStalled_of_noneReads (hr.of_engs (by rw [store_engs, setChan_engs])), ite_self]
  · rw [hr, if_neg (by decide)]

end
end State

/-! ## Host reads and pushes (R278) -/

section
variable {s : State} {p : Port} {core n off size : Nat}

theorem exec_hostChannelRead_word (hup : (s.port p).linkUp = true) (hsplit : s.pkg.split = false) (hon : s.enabled core = true) {w : Nat × Bool} {u : State}
    (hpop : s.popWord core n = (some w, u)) :
    exec (.hostChannelRead p core ⟨n, off, size⟩) s = .next (((u.setChan core n { u.chan core n with lvalid := true, lend := w.2 }).pump core).emit
      (.readData p (partOf off size (leBytes 8 w.1)))) := by
  refine congrArg Host.Outcome.next ?_
  simp [hup, hsplit, hon, hpop]

theorem exec_hostChannelRead_empty (hup : (s.port p).linkUp = true) (hsplit : s.pkg.split = false) (hon : s.enabled core = true) {u : State}
    (hpop : s.popWord core n = (none, u)) :
    exec (.hostChannelRead p core ⟨n, off, size⟩) s
      = .next ((u.setChan core n { u.chan core n with lvalid := false, lend := false }).emit (.readData p (zeros size))) := by
  refine congrArg Host.Outcome.next ?_
  simp [hup, hsplit, hon, hpop]

end

/-- Settles O56: with an idle Pilot a flush is `State.PilotIdle.writeChan_flush`, a mode change `State.writeChan_mode`, a read `State.popWord_cons` or
`State.popWord_nil`, a push `State.PilotIdle.pushWords_fits` or `State.PilotIdle.pushWords_overruns`. -/
theorem channelsComplete : Obligations.ChannelsComplete := by
  unfold Obligations.ChannelsComplete
  intro s a p core n hlist hzeros r q still
  have hidle : s.PilotIdle core := ⟨hlist, hzeros⟩
  refine ⟨fun hg => ⟨fun hr => ?_, ?_, ?_, fun hr => ?_⟩, fun hup hsplit hon off size => ⟨fun w b rest hw => ?_, fun hw => ?_⟩,
    fun d hr hroom => ⟨fun hg => ?_, fun hg => ?_⟩, fun d hfull hfirst hg => ?_⟩
  · refine ⟨_, congrArg Host.Outcome.next ((State.access_open hg).trans (hidle.writeChan_flush a n hr)), ?_, ?_, fun m hm => ?_, ?_, ?_, ?_⟩
    · rw [State.store_chan, State.chan_setChan_self]
    · have hmode : s.rf r 0 0 < 2 := fld_lt_two_pow _ 0 0
      refine (State.store_live_rf _ a (f := ⟨"mode", 0, 0, .live, 0⟩) (by simp [RegName.info]) rfl _).trans ?_
      rw [wfld_ofNat (hmode.trans (by decide)), fld, Nat.pow_zero, Nat.div_one]
      exact Nat.mod_eq_of_lt hmode
    · rw [State.store_chan, State.chan_setChan_other _ _ _ _ _ _ (fun h => hm (Prod.mk.inj h).2)]
    · simp
    · simp
    · simp
  · exact congrArg Host.Outcome.next ((State.access_open hg).trans (State.writeChan_mode s a core n false))
  · exact congrArg Host.Outcome.next ((State.access_open hg).trans (State.writeChan_mode s a core n true))
  · exact State.tagStalled_of_noneReads (State.NoneReads.of_engs hr (s.store_engs a r 1)) n
  · rw [exec_hostChannelRead_word hup hsplit hon (State.popWord_cons (hidle.dispChannel n) hw), State.setChan_setChan_self, hidle.pump_setChan,
      State.chan_setChan_self]
    rfl
  · rw [exec_hostChannelRead_empty hup hsplit hon (State.popWord_nil hw)]
  · exact congrArg Host.Outcome.next ((State.access_open hg).trans (hidle.pushWords_fits hr hroom))
  · exact congrArg Host.Outcome.next ((State.access_open hg).trans (hidle.pushWords_fits hr hroom))
  · exact congrArg Host.Outcome.next ((State.access_open hg).trans (hidle.pushWords_overruns (Nat.lt_succ_of_le hfull.ge) hfirst))

end Sys2Proof.Machine
end

section
/-! PROOFS of the family 11_krerok_instruction_set: increments of Tidemarks and semaphores, with the abort of one that overflows (R178, R308, R313, R394),
the start of a task on a core (R287), and the completion of control words, waits, loops, lists and chain settings (R294, R297 to R307, R311, R312, R318). -/

namespace Sys2Proof.Machine

/-! ## Increments of counters (R308, R313) -/

namespace State

section
variable {s : State} {core slot n k : Nat} (g e : Nat)

theorem incr_tidemark_fits (hn : n < 64) (hfit : s.rf (tmReg core slot n) 31 0 + k < 2 ^ 32) :
    s.incr core slot false n k g e = (s.setRf (tmReg core slot n) 31 0 (s.rf (tmReg core slot n) 31 0 + k)).serveWaits core slot := by
  simp only [incr, Bool.false_eq_true, if_false, if_neg (Nat.not_le.2 hn), if_neg (Nat.not_le.2 hfit)]

theorem incr_semaphore_fits (hn : n < 16) (hfit : s.rf (semReg core slot n) 15 0 + k < 2 ^ 16) :
    s.incr core slot true n k g e = (s.setRf (semReg core slot n) 15 0 (s.rf (semReg core slot n) 15 0 + k)).serveWaits core slot := by
  simp only [incr, if_true, if_neg (Nat.not_le.2 hn), if_neg (Nat.not_le.2 hfit)]

variable {t : Task} (ht : s.taskAt core slot = some t)
include ht

theorem incr_tidemark_overflows (hn : n < 64) (hover : 2 ^ 32 ≤ s.rf (tmReg core slot n) 31 0 + k) :
    s.incr core slot false n k g e = s.failTask t g e { code := E.tidemarkOvf, detail := n } := by
  simp only [incr, Bool.false_eq_true, if_false, if_neg (Nat.not_le.2 hn), if_pos hover, ht]

theorem incr_semaphore_overflows (hn : n < 16) (hover : 2 ^ 16 ≤ s.rf (semReg core slot n) 15 0 + k) :
    s.incr core slot true n k g e = s.failTask t g e { code := E.semaOvf, detail := n } := by
  simp only [incr, if_true, if_neg (Nat.not_le.2 hn), if_pos hover, ht]

end

/-- A field that takes a value of its width reads as that value. -/
theorem rf_setRf_fits (s : State) (r : RegId) {hi lo x : Nat} (h : lo ≤ hi + 1) (h' : hi < 64) (hx : x < 2 ^ (hi + 1 - lo)) :
    (s.setRf r hi lo x).rf r hi lo = x := by
  rw [rf_setRf_self s r x h h', Nat.mod_eq_of_lt hx]

end State

/-- Settles O12: the state whose waits are tested is the write of the sum. -/
theorem incrementsOfCounters : Obligations.IncrementsOfCounters := by
  unfold Obligations.IncrementsOfCounters
  refine fun s core slot n k e => ⟨fun hn hfit => ⟨_, State.incr_tidemark_fits core e hn hfit, ?_, fun r hr => State.reg_setRf_other s 31 0 _ hr⟩,
    fun hn hfit => ⟨_, State.incr_semaphore_fits core e hn hfit, ?_, fun r hr => State.reg_setRf_other s 15 0 _ hr⟩⟩
  · exact State.rf_setRf_fits s _ (by decide) (by decide) hfit
  · exact State.rf_setRf_fits s _ (by decide) (by decide) hfit

/-! ## What an abort leaves alone (R178, R394, R449) -/

/-- The registers of Tidemarks and semaphores (R308). -/
def RegId.IsCounter (r : RegId) : Prop := r.name = .pilTm ∨ r.name = .pilSem

theorem tmReg_isCounter (core slot n : Nat) : (tmReg core slot n).IsCounter := .inl rfl

theorem semReg_isCounter (core slot n : Nat) : (semReg core slot n).IsCounter := .inr rfl

namespace State

theorem forAll_keeps {β : Type} (p : State → β) {f : State → Nat → State} (h : ∀ s a, p (f s a) = p s) (l : List Nat) (s : State) :
    p (s.forAll l f) = p s := foldl_keeps p f h l s

/-- A register and the tasks: what the effects of an abort on engines, rings, lists, logs and queues leave alone when the register is a counter. -/
def regAndTasks (r : RegId) (s : State) : Word × List Task := (s.reg r, s.tasks)

section
variable {r : RegId}

theorem regAndTasks_setPort (s : State) (p : Port) (v : HostPort) : (s.setPort p v).regAndTasks r = s.regAndTasks r := by cases p <;> rfl

theorem regAndTasks_returnCredits (s : State) (p t gen n : Nat) : (s.returnCredits p t gen n).regAndTasks r = s.regAndTasks r :=
  returnCredits_keeps (regAndTasks r) (fun _ _ _ _ => rfl) (fun s f => Prod.ext (by simp [regAndTasks, reg]) (send_tasks s f)) p t gen n s

theorem regAndTasks_clearArrays (s : State) (t : Task) : (s.clearArrays t).regAndTasks r = s.regAndTasks r :=
  forAll_keeps _ (fun s _ => forAll_keeps _ (fun _ _ => by exact ite_keeps _ rfl rfl) _ s) _ s

theorem regAndTasks_updEngines (s : State) (t : Task) (f : EngCtx → EngCtx) : (s.updEngines t f).regAndTasks r = s.regAndTasks r :=
  forAll_keeps _ (fun s _ => forAll_keeps _ (fun _ _ => by rfl) _ s) _ s

theorem regAndTasks_returnLanded (s : State) (g slot : Nat) : (s.returnLanded g slot).regAndTasks r = s.regAndTasks r :=
  foldl_keeps _ _ (fun s _ => regAndTasks_returnCredits s _ _ _ _) _ _

variable (hr : r.IsCounter)
include hr

theorem regAndTasks_setReg (s : State) (q : RegId) (w : Word) (hq : ¬ q.IsCounter := by simp [RegId.IsCounter]) :
    (s.setReg q w).regAndTasks r = s.regAndTasks r :=
  Prod.ext (reg_setReg_other _ _ (by rintro rfl; exact hq hr)) rfl

theorem regAndTasks_setRf (s : State) (q : RegId) (hi lo v : Nat) (hq : ¬ q.IsCounter := by simp [RegId.IsCounter]) :
    (s.setRf q hi lo v).regAndTasks r = s.regAndTasks r :=
  regAndTasks_setReg hr s q _ hq

theorem regAndTasks_fireVector (s : State) (p : Port) (v : Nat) : (s.fireVector p v).regAndTasks r = s.regAndTasks r :=
  ite_keeps _ (regAndTasks_setReg hr s _ _) rfl

theorem regAndTasks_logErr (s : State) (e : ErrInfo) : (s.logErr e).regAndTasks r = s.regAndTasks r := by
  have hname : r.name ≠ .hbErrsum ∧ r.name ≠ .msixPba := by rcases hr with h | h <;> simp [h]
  exact Prod.ext (logErr_reg_other s e hname.1 hname.2) (logErr_tasks s e)

/-! ### What stops (R178, R268) -/

theorem regAndTasks_stopEngines (s : State) (t : Task) : (s.stopEngines t).regAndTasks r = s.regAndTasks r := by
  refine forAll_keeps _ (fun s g => forAll_keeps _ (fun s e => ?_) _ s) _ s
  have hreturn (l : List Xact) (s : State) : (l.foldl (fun s v => s.returnCredits t.partition v.target v.gen 1) s).regAndTasks r = s.regAndTasks r :=
    foldl_keeps _ _ (fun s v => regAndTasks_returnCredits s _ _ _ _) l s
  exact ite_keeps _ ((regAndTasks_setRf hr _ _ _ _ _).trans (hreturn _ _)) (hreturn _ _)

theorem regAndTasks_stopDispenser (s : State) (d : Nat) : (s.stopDispenser d).regAndTasks r = s.regAndTasks r :=
  ite_keeps _ rfl ((regAndTasks_setRf hr _ _ _ _ _).trans (forAll_keeps (regAndTasks r) (fun _ _ => by rfl) _ s))

theorem regAndTasks_stopLists (s : State) (t : Task) : (s.stopLists t).regAndTasks r = s.regAndTasks r :=
  forAll_keeps _ (fun s d => ite_keeps _ (regAndTasks_stopDispenser hr s d) rfl) _ s

/-! ### A task's final state (R134, R144, R394 to R397) -/

theorem regAndTasks_endRing (s : State) (t : Task) (g n : Nat) : (s.endRing t g n).regAndTasks r = s.regAndTasks r :=
  ite_keeps _ rfl (ite_keeps _ rfl (ite_keeps _ rfl (ite_keeps _ rfl (regAndTasks_logErr hr _ _))))

theorem regAndTasks_endWindow (s : State) (t : Task) (g : Nat) : (s.endWindow t g).regAndTasks r = s.regAndTasks r :=
  ite_keeps _ rfl (regAndTasks_setRf hr _ _ _ _ _)

theorem regAndTasks_fireCq (s : State) (p : Port) (q : Nat) : (s.fireCq p q).regAndTasks r = s.regAndTasks r :=
  ite_keeps _ ((regAndTasks_fireVector hr _ _ _).trans (regAndTasks_setPort _ _ _)) rfl

theorem regAndTasks_writeEntry (s : State) (p : Port) (q : Nat) (e : List Byte) : (s.writeEntry p q e).regAndTasks r = s.regAndTasks r := by
  unfold writeEntry
  dsimp only
  split
  · exact (regAndTasks_setRf hr _ _ _ _ _).trans ((regAndTasks_setRf hr _ _ _ _ _).trans (regAndTasks_setPort _ _ _))
  · exact (regAndTasks_setRf hr _ _ _ _ _).trans (regAndTasks_setPort _ _ _)

theorem regAndTasks_complete (s : State) (p : Port) (q : Nat) (e : List Byte) : (s.complete p q e).regAndTasks r = s.regAndTasks r :=
  ite_keeps _ ((regAndTasks_fireCq hr _ _ _).trans (regAndTasks_writeEntry hr _ _ _ _)) (regAndTasks_setPort _ _ _)

/-- What a task's final state changes of the tasks is its record. -/
theorem regAndTasks_finish (s : State) (t : Task) (state : Nat) :
    (s.finish t state).regAndTasks r = (s.updTask t.id fun t => { t with state := state }).regAndTasks r := by
  have hcore (s : State) (g : Nat) : (((s.forAll (List.range 72) fun s n => s.endRing t g n).endWindow t g).returnLanded g t.slot).regAndTasks r
      = s.regAndTasks r :=
    (regAndTasks_returnLanded _ _ _).trans ((regAndTasks_endWindow hr _ _ _).trans (forAll_keeps _ (fun s n => regAndTasks_endRing hr s t g n) _ s))
  unfold finish
  dsimp only
  split <;> simp only [regAndTasks_fireCq hr, regAndTasks_complete hr, regAndTasks_setPort, regAndTasks_updEngines] <;>
    exact forAll_keeps _ hcore _ _

/-! ### The record of a fault -/

theorem regAndTasks_noteFault (s : State) (t : Task) (core eng : Nat) (f : Fail) : (s.noteFault t core eng f).regAndTasks r = s.regAndTasks r := by
  unfold noteFault
  split
  next => rfl
  next =>
    split
    next => exact regAndTasks_setReg hr _ _ _
    next => exact regAndTasks_setReg hr _ _ _
    next => exact (regAndTasks_setReg hr _ _ _).trans ((regAndTasks_setReg hr _ _ _).trans (regAndTasks_setReg hr _ _ _))
    next => exact (regAndTasks_setReg hr _ _ _).trans (regAndTasks_setReg hr _ _ _)
    next => exact (regAndTasks_setReg hr _ _ _).trans (regAndTasks_setReg hr _ _ _)
    next => rfl

end

/-! ### The task's record -/

theorem regAndTasks_reg {s u : State} {r : RegId} (h : u.regAndTasks r = s.regAndTasks r) : u.reg r = s.reg r := congrArg Prod.fst h

theorem regAndTasks_tasks {s u : State} {r : RegId} (h : u.regAndTasks r = s.regAndTasks r) : u.tasks = s.tasks := congrArg Prod.snd h

theorem reg_updTask (s : State) (id : Nat) (f : Task → Task) (r : RegId) : (s.updTask id f).reg r = s.reg r := rfl

theorem taskId_of_tasks {s u : State} (h : u.tasks = s.tasks) (id : Nat) : u.taskId id = s.taskId id := by rw [taskId, h, taskId]

theorem active_of_taskAt {s : State} {core slot : Nat} {t : Task} (h : s.taskAt core slot = some t) : t.state = 1 ∨ t.state = 2 ∨ t.state = 3 := by
  have hactive := List.find?_some h
  simp only [Task.active, Bool.and_eq_true, Bool.or_eq_true, beq_iff_eq] at hactive
  tauto

theorem taskId_updTask {s : State} {t : Task} {id : Nat} (h : s.taskId id = some t) {f : Task → Task} (hf : ∀ t, (f t).id = t.id) :
    (s.updTask id f).taskId id = some (f t) := by
  have ht : (t.id == id) = true := List.find?_some (p := fun v : Task => v.id == id) h
  have hid : (fun v : Task => v.id == id) ∘ (fun v => if v.id == id then f v else v) = fun v => v.id == id := by
    funext v
    by_cases hv : (v.id == id) = true
    · rw [Function.comp_apply, if_pos hv, hf]
    · rw [Function.comp_apply, if_neg hv]
  calc (s.updTask id f).taskId id
    _ = (s.taskId id).map fun v => if v.id == id then f v else v := by rw [taskId, taskId, updTask, setTasks, List.find?_map, hid]
    _ = some (f t) := by rw [h, Option.map_some, if_pos ht]

end State

/-- A task's record after an error (R394): its first one. -/
def Task.noted (t : Task) (code core seq : Nat) : Task :=
  if t.error == 0 then { t with logged := true, error := code, errCore := core, errSeq := seq } else { t with logged := true }

/-- A task's record after an abort (R178, R285): a queued task is ABORTED, another drains. -/
def Task.aborted (t : Task) : Task :=
  if t.state = 1 then { t with aborting := true, state := 5 } else { t with state := 3, aborting := true }

namespace Task

variable (t : Task) (code core seq : Nat)

theorem noted_id : (t.noted code core seq).id = t.id := by unfold noted; split <;> rfl

theorem noted_state : (t.noted code core seq).state = t.state := by unfold noted; split <;> rfl

theorem noted_logged : (t.noted code core seq).logged = true := by unfold noted; split <;> rfl

theorem noted_error : (t.noted code core seq).error = if t.error = 0 then code else t.error := by
  unfold noted
  by_cases h : t.error = 0 <;> simp [h]

theorem aborted_error : t.aborted.error = t.error := by unfold aborted; split <;> rfl

theorem aborted_logged : t.aborted.logged = t.logged := by unfold aborted; split <;> rfl

end Task

namespace State

section
variable {s : State} {t : Task} {r : RegId} (hr : r.IsCounter) (hid : s.taskId t.id = some t) (hactive : t.state = 1 ∨ t.state = 2 ∨ t.state = 3)
include hr hid hactive

/-- An abort changes the record of its task, and no counter. -/
theorem abortTask_record : (s.abortTask t.id).reg r = s.reg r ∧ (s.abortTask t.id).taskId t.id = some t.aborted := by
  by_cases hqueued : t.state = 1
  case pos =>
    set u := s.updTask t.id fun t => { t with aborting := true } with hu
    set w := u.stopLists t with hw
    have habort : s.abortTask t.id = w.finish { t with aborting := true } 5 := by simp [abortTask, hid, hqueued, hu, hw]
    have hstop : w.regAndTasks r = u.regAndTasks r := regAndTasks_stopLists hr u t
    have hfinish := regAndTasks_finish hr w { t with aborting := true } 5
    have hrecord : w.taskId t.id = some { t with aborting := true } :=
      (taskId_of_tasks (regAndTasks_tasks hstop) _).trans (taskId_updTask hid fun _ => rfl)
    have hfinal : (w.updTask t.id fun t => { t with state := 5 }).taskId t.id = some { t with aborting := true, state := 5 } :=
      taskId_updTask hrecord fun _ => rfl
    rw [habort, Task.aborted, if_pos hqueued, regAndTasks_reg hfinish, reg_updTask, regAndTasks_reg hstop, hu, reg_updTask]
    exact ⟨rfl, (taskId_of_tasks (regAndTasks_tasks hfinish) _).trans hfinal⟩
  case neg =>
    set u := s.updTask t.id fun t => { t with state := 3, aborting := true } with hu
    have habort : s.abortTask t.id = ((u.stopEngines t).stopLists t).clearArrays t := by
      have hstarted : t.state = 2 ∨ t.state = 3 := hactive.resolve_left hqueued
      simp [abortTask, hid, hqueued, hstarted, hu]
    have hstop : (((u.stopEngines t).stopLists t).clearArrays t).regAndTasks r = u.regAndTasks r :=
      (regAndTasks_clearArrays _ t).trans ((regAndTasks_stopLists hr _ t).trans (regAndTasks_stopEngines hr u t))
    rw [habort, Task.aborted, if_neg hqueued, regAndTasks_reg hstop]
    exact ⟨reg_updTask _ _ _ _, (taskId_of_tasks (regAndTasks_tasks hstop) _).trans (taskId_updTask hid fun _ => rfl)⟩

/-- An error that no read of memory met changes the record of the task that it aborts, and no counter. -/
theorem failTask_record {core eng : Nat} {f : Fail} (hmet : f.met = none) :
    (s.failTask t core eng f).reg r = s.reg r ∧ ∃ seq, (s.failTask t core eng f).taskId t.id = some (t.noted f.code core seq).aborted := by
  set e : ErrInfo := { coreError core eng (some t) f.code 1 (if f.detail == 0 then f.visit else f.detail) with cause := causeOf t } with he
  set u := (s.logErr e).noteFault t core eng f with hu
  set n := t.noted f.code core (s.seqOf e) with hn
  have hfail : s.failTask t core eng f = (u.noteError t.id f.code core (s.seqOf e)).abortTask t.id := by
    simp [failTask, meetFail, hmet, hid, he, hu]
  have hlogged : u.regAndTasks r = s.regAndTasks r := (regAndTasks_noteFault hr _ t core eng f).trans (regAndTasks_logErr hr s e)
  have hnote : (u.noteError t.id f.code core (s.seqOf e)).reg r = u.reg r := reg_updTask _ _ _ _
  have hnoted : (u.noteError t.id f.code core (s.seqOf e)).taskId n.id = some n := by
    rw [hn, Task.noted_id]
    exact taskId_updTask ((taskId_of_tasks (regAndTasks_tasks hlogged) _).trans hid) fun v => v.noted_id _ _ _
  obtain ⟨hreg, hrecord⟩ := abortTask_record hr hnoted (by rw [hn, Task.noted_state]; exact hactive)
  rw [hn, Task.noted_id] at hreg hrecord
  rw [hfail]
  exact ⟨hreg.trans (hnote.trans (regAndTasks_reg hlogged)), s.seqOf e, hrecord⟩

end
end State

/-- Settles O53: the abort of `State.failTask_record`, whose register is the counter itself. -/
theorem overflowAborts : Obligations.OverflowAborts := by
  unfold Obligations.OverflowAborts
  intro s core slot n k g e sem t r hi code hn hover ht hid u
  have hr : r.IsCounter := by cases sem <;> simp [r, tmReg_isCounter, semReg_isCounter]
  have hu : u = s.failTask t g e { code := code, detail := n } := by
    cases sem
    case false => exact State.incr_tidemark_overflows g e ht hn hover
    case true => exact State.incr_semaphore_overflows g e ht hn hover
  have hactive := State.active_of_taskAt ht
  obtain ⟨hreg, seq, hrecord⟩ := State.failTask_record (core := g) (eng := e) (f := { code := code, detail := n }) hr hid hactive rfl
  rw [← hu] at hreg hrecord
  refine ⟨hu, hreg, _, hrecord, fun hqueued => ?_, fun hstarted => ?_, ?_, ?_⟩
  · rw [Task.aborted, if_pos (by rw [Task.noted_state, hqueued])]
  · rw [Task.aborted, if_neg (by rw [Task.noted_state]; exact hstarted)]
    exact ⟨rfl, rfl⟩
  · rw [Task.aborted_error, Task.noted_error]
  · rw [Task.aborted_logged, Task.noted_logged]

/-! ## What a start on a core writes (R287) -/

namespace State

/-- Registers that take the values of a function, one after another. -/
def setRegs (s : State) (l : List RegId) (f : RegId → Word) : State := l.foldl (fun s r => s.setReg r (f r)) s

theorem reg_setRegs (s : State) (l : List RegId) (f : RegId → Word) (r : RegId) : (s.setRegs l f).reg r = if r ∈ l then f r else s.reg r := by
  induction l generalizing s with
  | nil => rfl
  | cons q l ih =>
    refine (ih (s.setReg q (f q))).trans ?_
    by_cases hq : r = q
    · rw [hq, reg_setReg_self, ite_self, if_pos List.mem_cons_self]
    · rw [reg_setReg_other _ _ hq]
      simp only [List.mem_cons, hq, false_or]

theorem setRegs_keeps {β : Type} (p : State → β) (hp : ∀ s r w, p (setReg s r w) = p s) (s : State) (l : List RegId) (f : RegId → Word) :
    p (s.setRegs l f) = p s := foldl_keeps p _ (fun _ _ => by exact hp _ _ _) l s

end State

/-- The registers of steps 2 and 3. -/
def windowRegs (slot g : Nat) : List RegId :=
  [⟨.cvBase, g, slot⟩, ⟨.cvBound, g, slot⟩, ⟨.pilSrSeed, g, 0⟩] ++ (List.range 16).map fun i => ⟨.pilShape, g, 16 * slot + i⟩

/-- The registers of step 5. -/
def slotRegs (slot g : Nat) : List RegId :=
  (List.range 64).map (tmReg g slot) ++ (List.range 16).map (semReg g slot) ++ ((List.range 8).map fun e => ⟨.pilHscount, g, 4 * e + slot⟩)
  ++ [⟨.pilOob, g, slot⟩, ⟨.pkCount, g, slot⟩, ⟨.slCount, g, slot⟩, ⟨.esCount, g, slot⟩]

/-- What a register takes at the start of a task. -/
def Task.startValue (t : Task) (r : RegId) : Word :=
  match r.name with
  | .cvBase => BitVec.ofNat 64 t.cvbase
  | .cvBound => BitVec.ofNat 64 (2 ^ 63 + b2n t.retain * 2 ^ 62 + t.cvlimit)
  | .pilSrSeed => BitVec.ofNat 64 t.seed
  | .pilShape => BitVec.ofNat 64 (t.shape (r.idx - 16 * t.slot))
  | _ => 0

namespace State

variable (s : State) (t : Task) (g : Nat)

theorem setWindow_eq_setRegs : s.setWindow t g = s.setRegs (windowRegs t.slot g) t.startValue := by
  simp only [setRegs, windowRegs, List.foldl_append, List.foldl_map, List.foldl_cons, List.foldl_nil, Task.startValue, Nat.add_sub_cancel_left]
  rfl

/-- Beside the registers that it clears, step 5 changes engines' contexts alone. -/
theorem clearSlot_keeps {β : Type} (p : State → β) (hp : ∀ s x c, p (setEng s x c) = p s) :
    p (s.clearSlot t g) = p (s.setRegs (slotRegs t.slot g) t.startValue) := by
  simp only [setRegs, slotRegs, List.foldl_append, List.foldl_map, List.foldl_cons, List.foldl_nil]
  exact foldl_keeps p _ (fun s e => hp _ _ _) _ _

theorem start_keeps {β : Type} (p : State → β) (hp : ∀ s x c, p (setEng s x c) = p s) :
    p ((s.setWindow t g).clearSlot t g) = p (s.setRegs (windowRegs t.slot g ++ slotRegs t.slot g) t.startValue) := by
  rw [clearSlot_keeps _ _ _ p hp, setWindow_eq_setRegs, setRegs, setRegs, setRegs, List.foldl_append]

theorem reg_start (r : RegId) : ((s.setWindow t g).clearSlot t g).reg r
    = if r ∈ windowRegs t.slot g ++ slotRegs t.slot g then t.startValue r else s.reg r :=
  (start_keeps s t g (·.reg r) fun _ _ _ => rfl).trans (reg_setRegs s _ _ r)

end State

theorem unit_of_mem_startRegs {slot g : Nat} {r : RegId} (h : r ∈ windowRegs slot g ++ slotRegs slot g) : r.unit = g := by
  simp only [windowRegs, slotRegs, List.mem_append, List.mem_map, List.mem_cons, List.not_mem_nil, or_false] at h
  rcases h with ((rfl | rfl | rfl) | ⟨_, _, rfl⟩) | (((⟨_, _, rfl⟩ | ⟨_, _, rfl⟩) | ⟨_, _, rfl⟩) | rfl | rfl | rfl | rfl) <;> rfl

/-- Settles O28: `State.reg_start` says which registers are written and with what. -/
theorem startSetsTheSlot : Obligations.StartSetsTheSlot := by
  unfold Obligations.StartSetsTheSlot
  intro s t g hslot u
  have hset {r : RegId} (h : r ∈ windowRegs t.slot g ++ slotRegs t.slot g) : u.reg r = t.startValue r := (s.reg_start t g r).trans (if_pos h)
  have hkeep {r : RegId} (h : r ∉ windowRegs t.slot g ++ slotRegs t.slot g) : u.reg r = s.reg r := (s.reg_start t g r).trans (if_neg h)
  refine ⟨?base, ?bound, ?seed, fun i hi => ?shape, fun k hk => ?tidemark, fun k hk => ?semaphore, fun e he => ?handshakes, ?oob, ?packer, ?sluice, ?estuary,
    fun r hr => ?core, fun slot hother hin k => ⟨fun hk => ?otherTidemark, fun hk => ?otherSemaphore, fun hk => ?otherShape⟩, ?mem, ?tasks⟩
  case base => exact hset (by simp [windowRegs])
  case bound => exact hset (by simp [windowRegs])
  case seed => exact hset (by simp [windowRegs])
  case shape => exact (hset (by simp [windowRegs, hi])).trans (by simp [Task.startValue])
  case tidemark => exact hset (by simp [slotRegs, tmReg, hk])
  case semaphore => exact hset (by simp [slotRegs, semReg, hk])
  case handshakes => exact hset (by simp [slotRegs, he])
  case oob => exact hset (by simp [slotRegs])
  case packer => exact hset (by simp [slotRegs])
  case sluice => exact hset (by simp [slotRegs])
  case estuary => exact hset (by simp [slotRegs])
  case core => exact hkeep (mt unit_of_mem_startRegs hr)
  case otherTidemark => exact hkeep (by simp [windowRegs, slotRegs, tmReg, semReg]; omega)
  case otherSemaphore => exact hkeep (by simp [windowRegs, slotRegs, tmReg, semReg]; omega)
  case otherShape => exact hkeep (by simp [windowRegs, slotRegs, tmReg, semReg]; omega)
  case mem => exact (State.start_keeps s t g (·.mem) fun _ _ _ => rfl).trans (State.setRegs_keeps (·.mem) (fun _ _ _ => rfl) s _ _)
  case tasks => exact (State.start_keeps s t g (·.tasks) fun _ _ _ => rfl).trans (State.setRegs_keeps (·.tasks) (fun _ _ _ => rfl) s _ _)

/-! ## The start of a task on a core (R285, R287, R332, R333) -/

namespace State

variable {s : State} {t : Task} {g : Nat}

theorem exec_taskStart_free {slot : Nat} (ht : s.taskAt g slot = some t) (hnew : t.started.contains g = false) (hlive : t.state ≠ 3)
    (hpackage : s.pkg.halted = false)
    (hfirst : t.state = 1 → s.strataState t.partition = 0 ∧ ∀ c ∈ t.cores, s.fenced 1 c = false ∧ s.ownerOf (coveBase c) = t.partition) :
    exec (.taskStart g slot) s = .next (s.startTask t g).admitHeld := by
  have hgo : (t.started.contains g || t.state == 3 || s.pkg.halted) = false := by rw [hnew, hpackage, beq_false_of_ne hlive]; rfl
  have hfree : (t.state == 1 && (s.strataState t.partition != 0 || t.cores.any (s.fenced 1)
      || t.cores.any fun g => s.ownerOf (coveBase g) != t.partition)) = false := by
    rw [Bool.and_eq_false_imp]
    intro h1
    obtain ⟨hflows, hcores⟩ := hfirst (beq_iff_eq.1 h1)
    have hfenced : t.cores.any (s.fenced 1) = false := List.any_eq_false.2 fun c hc => by simp [(hcores c hc).1]
    have howned : (t.cores.any fun g => s.ownerOf (coveBase g) != t.partition) = false := List.any_eq_false.2 fun c hc => by simp [(hcores c hc).2]
    rw [hflows, hfenced, howned]
    rfl
  change execTaskStart g slot s = _
  simp only [execTaskStart, ht, hgo, hfree, Bool.false_eq_true, if_false]

theorem openWindow_opens (hstays : s.windowMoves t g = false) (hok : (s.setWindow t g).windowOk g t.slot = true) : s.openWindow t g = (s.setWindow t g, true) := by
  simp only [openWindow, hstays, hok, Bool.false_eq_true, if_false, if_true]

/-- Run-time extents that are not zero and stay within their plan pass step 4. -/
theorem extents_pass {u : Task} (h : ∀ i, i < 16 → u.plan i ≠ 0 → u.shape i ≠ 0 ∧ u.shape i ≤ u.plan i) :
    (((List.range 16).filter fun i => u.plan i != 0).find? fun i => decide (u.plan i < u.shape i)) = none
    ∧ ((List.range 16).filter fun i => u.plan i != 0).any (fun i => u.shape i == 0) = false := by
  have hused : ∀ i ∈ (List.range 16).filter fun i => u.plan i != 0, u.shape i ≠ 0 ∧ u.shape i ≤ u.plan i := by
    intro i hi
    obtain ⟨hin, hplan⟩ := List.mem_filter.1 hi
    exact h i (List.mem_range.1 hin) (bne_iff_ne.1 hplan)
  exact ⟨List.find?_eq_none.2 fun i hi => by simpa using (hused i hi).2, List.any_eq_false.2 fun i hi => by simpa using (hused i hi).1⟩

end State

/-- Settles O27: with every check of the start passed it comes to its last step. -/
theorem taskStartCompletes : Obligations.TaskStartCompletes := by
  unfold Obligations.TaskStartCompletes
  intro s t g slot lr ht hnew hlive hpackage hfirst hfetch u a b hdebug hgood hstays hwindow hextents hnests
  rw [State.exec_taskStart_free ht hnew hlive hpackage hfirst]
  refine congrArg (fun v : State => Host.Outcome.next v.admitHeld) ?_
  have hsession : (u.debug && (a.session t.partition).state != 0) = false := by
    rw [Bool.and_eq_false_imp]
    exact fun h => by rw [hdebug h]; rfl
  have hopen : b.openWindow u g = (b.setWindow u g, true) := State.openWindow_opens hstays hwindow
  obtain ⟨hplan, hshape⟩ := State.extents_pass hextents
  simp only [State.startTask, hfetch]
  refine (if_neg (ne_true_of_eq_false hsession)).trans ((if_neg (ne_true_of_eq_false hgood)).trans ?_)
  dsimp only [u, a, b] at hopen hplan hshape hnests ⊢
  simp only [hopen, hplan, hshape, hnests, Bool.not_true, Bool.false_eq_true, if_false]

/-! ## END and RELEASE (R283, R306) -/

section
variable {x : EngRef} {s : State} {t : Task}

theorem exec_endSeq (h : Runs s allEngines x (.endSeq x) t) :
    exec (.endSeq x) s = .next ((s.begin' x).retire x t (.endSeq x) fun c => { c with ended := true, frames := [] }) :=
  congrArg Host.Outcome.next (State.issue_of_runs _ h)

theorem exec_release (h : Runs s [7] x (.release x) t) :
    exec (.release x) s = .next (((s.begin' x).updTask t.id fun t => { t with release := true }).retire x t (.release x)) :=
  congrArg Host.Outcome.next (State.issue_of_runs _ h)

end

/-- Settles O9: each command's one effect, by its own equation. -/
theorem engineControlCompletes : Obligations.EngineControlCompletes := by
  unfold Obligations.EngineControlCompletes
  exact fun x s t => ⟨exec_nop, exec_endSeq, fun _ _ _ => exec_setlc, fun _ _ _ => exec_setlc, fun _ _ => exec_param, exec_release⟩

/-! ## Waits whose counter is there (R311, R312) -/

namespace State

variable {s : State} {x : EngRef} {t : Task} {n v : Nat} (ht : s.taskAt x.core x.slot = some t)
include ht

theorem serveGe_reached (hwait : (s.eng x).blocked = some (.ge n v)) (hv : v ≤ s.rf (tmReg x.core x.slot n) 31 0) :
    s.serveGe x.core x.slot x.eng = s.retire x t (.waitGe x n v) := by
  simp only [serveGe, hwait, ht, if_pos hv]

theorem serveTake_tidemark (hwait : (s.eng x).blocked = some (.take n v)) (hv : v ≤ s.rf (tmReg x.core x.slot n) 31 0) :
    s.serveTake x.core x.slot x.eng = (s.doTake x t n v).setRotation x.core ((x.eng + 1) % 8) := by
  simp only [serveTake, hwait, ht, if_pos hv]

theorem serveTake_semaphore (hwait : (s.eng x).blocked = some (.acq n v)) (hv : v ≤ s.rf (semReg x.core x.slot n) 15 0) :
    s.serveTake x.core x.slot x.eng = (s.doAcq x t n v).setRotation x.core ((x.eng + 1) % 8) := by
  simp only [serveTake, hwait, ht, if_pos hv]

end State

section
variable {x : EngRef} {s : State} {t : Task} {n v : Nat}

theorem exec_waitGe (h : Runs s allEngines x (.waitGe x n v) t) (hn : n < 64) :
    exec (.waitGe x n v) s = .next (((s.begin' x).stall x (.ge n v)).serveGe x.core x.slot x.eng) :=
  congrArg Host.Outcome.next ((State.issue_of_runs _ h).trans (if_neg (Nat.not_le.2 hn)))

theorem exec_waitTake (h : Runs s allEngines x (.waitTake x n v) t) (hn : n < 64) :
    exec (.waitTake x n v) s = .next (((s.begin' x).stall x (.take n v)).serveTake x.core x.slot x.eng) :=
  congrArg Host.Outcome.next ((State.issue_of_runs _ h).trans (if_neg (Nat.not_le.2 hn)))

theorem exec_waitAcq (h : Runs s allEngines x (.waitAcq x n v) t) (hn : n < 16) :
    exec (.waitAcq x n v) s = .next (((s.begin' x).stall x (.acq n v)).serveTake x.core x.slot x.eng) :=
  congrArg Host.Outcome.next ((State.issue_of_runs _ h).trans (if_neg (Nat.not_le.2 hn)))

end

/-- Settles O11: the wait stalls its engine, which leaves the counters alone, and the test that follows is met. -/
theorem waitsComplete : Obligations.WaitsComplete := by
  unfold Obligations.WaitsComplete
  intro x s t n v b
  have hblocked (w : Stall) : ((b.stall x w).eng x).blocked = some w := by rw [State.eng_stall_self]
  have htask {i : Instr} (h : Runs s allEngines x i t) (w : Stall) : (b.stall x w).taskAt x.core x.slot = some t := by
    rw [State.taskAt_stall, State.begin'_taskAt, h.1]
  refine ⟨fun h hn hv => ?ge, fun h hn hv => ?take, fun h hn hv => ?acq⟩
  case ge => rw [exec_waitGe h hn, State.serveGe_reached (htask h _) (hblocked _) (by rwa [State.rf_stall_tm])]
  case take =>
    rw [exec_waitTake h hn, State.serveTake_tidemark (htask h _) (hblocked _) (by rwa [State.rf_stall_tm]), State.doTake, State.rf_stall_tm]
  case acq =>
    rw [exec_waitAcq h hn, State.serveTake_semaphore (htask h _) (hblocked _) (by rwa [State.rf_stall_sem]), State.doAcq, State.rf_stall_sem]

/-! ## LOOP and NEST (R297 to R304) -/

section
variable {x : EngRef} {s : State} {t : Task} {lc n body : Nat}

theorem exec_loop_skipped (h : Runs s allEngines x (.loop x lc body) t) (hok : bodyFault ((s.begin' x).eng x) body = none)
    (hzero : (s.begin' x).rf (lcReg x.core x.eng lc) 31 0 = 0) :
    exec (.loop x lc body) s = .next ((s.begin' x).retire x t (.loop x lc body) fun c => c.drop body) := by
  refine congrArg Host.Outcome.next ((State.issue_of_runs _ h).trans ?_)
  simp only [hok, if_pos hzero]

theorem exec_loop_entered (h : Runs s allEngines x (.loop x lc body) t) (hok : bodyFault ((s.begin' x).eng x) body = none)
    (hpasses : (s.begin' x).rf (lcReg x.core x.eng lc) 31 0 ≠ 0) :
    exec (.loop x lc body) s
      = .next ((s.begin' x).enterBody x t (.loop x lc body) ⟨body, 0, (s.begin' x).rf (lcReg x.core x.eng lc) 31 0 - 1, true, none, []⟩) := by
  refine congrArg Host.Outcome.next ((State.issue_of_runs _ h).trans ?_)
  simp only [hok, if_neg hpasses]

variable (h : Runs s allEngines x (.nest x n body) t) (hok : bodyFault ((s.begin' x).eng x) body = none) (hout : inNest ((s.begin' x).eng x) = false)
  (hn : n < t.nests) {e : NestEntry} (he : (s.begin' x).nestEntry t x.core n = .ok e)
include h hok hout hn he

theorem exec_nest_points (hpoints : e.items = false) :
    exec (.nest x n body) s
      = .next ((s.begin' x).enterBody x t (.nest x n body) ⟨body, 0, e.points - 1, true, some ⟨n, e.points, false, none⟩, []⟩) := by
  refine congrArg Host.Outcome.next ((State.issue_of_runs _ h).trans ?_)
  simp only [if_neg (Nat.not_le.2 hn), hout, hok, he, hpoints, Bool.not_false, Bool.false_eq_true, if_true, if_false]

theorem exec_nest_items (hitems : e.items = true) (hmine : bitOf e.engines x.eng = true) :
    exec (.nest x n body) s
      = .next ((s.begin' x).enterBody x t (.nest x n body) ⟨body, body, 0, true, some ⟨n, e.points, true, none⟩, []⟩) := by
  refine congrArg Host.Outcome.next ((State.issue_of_runs _ h).trans ?_)
  simp only [if_neg (Nat.not_le.2 hn), hout, hok, he, hitems, hmine, Bool.not_true, Bool.false_eq_true, if_false]

end

/-- Settles O15: a body that is entered takes its words as `State.enterBody` says. -/
theorem loopsComplete : Obligations.LoopsComplete := by
  unfold Obligations.LoopsComplete
  intro x s t lc n body b
  refine ⟨fun h hok => ⟨fun hzero => ?skipped, fun hpasses => ?entered⟩,
    fun h hok hout hn e he => ⟨fun hpoints => ?points, fun hitems hmine => ?items⟩⟩
  case skipped => exact exec_loop_skipped h hok hzero
  case entered => exact exec_loop_entered h hok hpasses
  case points => exact exec_nest_points h hok hout hn he hpoints
  case items => exact exec_nest_items h hok hout hn he hitems hmine

/-! ## LIST, EBB SETIMM and EBB SETVEC (R294, R307) -/

section
variable {x : EngRef} {s : State} {t : Task} {k h : Nat}

theorem exec_list_elsewhere (hruns : Runs s [7] x (.list x k h) t) (hk : x.core % 32 ≠ k) :
    exec (.list x k h) s = .next ((s.begin' x).retire x t (.list x k h)) :=
  congrArg Host.Outcome.next ((State.issue_of_runs _ hruns).trans (if_pos hk))

/-- On the starter, whose element for the die reads, the list's count decides. -/
theorem exec_list_starter (hruns : Runs s [7] x (.list x k h) t) (hk : x.core % 32 = k) {ws : List Window} (hws : (s.begin' x).windowTable t = .ok ws)
    {a n : Nat} (hlist : (s.begin' x).listEntry t ws x.core h (x.core / 32) = .ok (a, n)) :
    exec (.list x k h) s = .next
      (let u := (s.begin' x).retire x t (.list x k h)
       if n = 0 then u.endItems t (x.core / 32)
       else (u.store .pilot ⟨.dspListbase, x.core / 32, 0⟩ (BitVec.ofNat 64 a)).writeListctl .pilot (x.core / 32)
          (BitVec.ofNat 64 (2 ^ 63 + t.partition * 2 ^ 56 + t.slot * 2 ^ 32 + n % 2 ^ 32)) (some t.id)) := by
  refine congrArg Host.Outcome.next ((State.issue_of_runs _ hruns).trans ?_)
  simp only [if_neg (not_not_intro hk), hws, hlist]

theorem exec_ebbSetimm {i j : Nat} (hruns : Runs s [0, 1] x (.ebbSetimm x k i j) t) :
    exec (.ebbSetimm x k i j) s = .next (((s.begin' x).setReg ⟨.ebImm, x.core, 8 * x.eng + k⟩
      (BitVec.ofNat 64 (i % 2 ^ 32 + j % 2 ^ 32 * 2 ^ 32))).retire x t (.ebbSetimm x k i j)) :=
  congrArg Host.Outcome.next (State.issue_of_runs _ hruns)

theorem exec_ebbSetvec (hruns : Runs s [0, 1] x (.ebbSetvec x k h) t) :
    exec (.ebbSetvec x k h) s = .next (((s.begin' x).setRf ⟨.ebOp, x.core, 8 * x.eng + k⟩ 51 40 h).retire x t (.ebbSetvec x k h)) :=
  congrArg Host.Outcome.next (State.issue_of_runs _ hruns)

end

/-- Settles O16: on the starter the count of `exec_list_starter` is 0 or not; the low 32 bits of it are written (log entry 64), and an end waits for a core that
runs no nest yet (log entry 114). -/
theorem listAndChainComplete : Obligations.ListAndChainComplete := by
  unfold Obligations.ListAndChainComplete
  intro x s t k h i j ws a n b d
  refine ⟨exec_list_elsewhere, fun hruns hk hws hlist => ⟨fun hn => ?none, fun hn => ?some⟩, exec_ebbSetimm, exec_ebbSetvec⟩
  case none => exact (exec_list_starter hruns hk hws hlist).trans (congrArg Host.Outcome.next (if_pos hn))
  case some => exact (exec_list_starter hruns hk hws hlist).trans (congrArg Host.Outcome.next (if_neg hn))

end Sys2Proof.Machine
end

section
/-! PROOFS of the family 12_native_code_loader_and_verifier: words that arrive in an engine's queue, from a block of a stream in host memory (R324) and from
a write to an express window (R325). -/

namespace Sys2Proof.Machine

/-! ## Blocks of a stream (R324) -/

/-- A block of host memory, whose receivers have room for it, is delivered padded to its length (R324). -/
theorem State.fetchBlock_delivers {s : State} {t : Task} {core slot e n : Nat} (ht : s.taskAt core slot = some t) (hlive : t.state ≠ 3)
    (hexpress : mapExpress t.map e = false) (hhost : mapDpa t.map e = false)
    (hn : n = min 32 (mapCount t.map e - ((s.eng ⟨core, slot, e⟩).position + (s.eng ⟨core, slot, e⟩).early.length)))
    (hsome : n ≠ 0) (hroom : ∀ g ∈ t.cores, (s.eng ⟨g, slot, e⟩).words + n ≤ 256) (ws : List Nat) :
    s.fetchBlock core slot e (some ws) = s.deliverWords t e ((ws ++ List.replicate n 0).take n) := by
  have hfits : t.cores.any (fun g => decide (256 < (s.eng ⟨g, slot, e⟩).words + n)) = false :=
    List.any_eq_false.2 fun g hg => by simpa using hroom g hg
  have hgo : (t.state == 3 || mapExpress t.map e || n == 0 || t.cores.any fun g => decide (256 < (s.eng ⟨g, slot, e⟩).words + n)) = false := by
    rw [hfits, hexpress, beq_false_of_ne hlive, beq_false_of_ne hsome]
    rfl
  simp only [fetchBlock, ht, ← hn, hgo, hhost, Bool.false_eq_true, if_false]

/-! ## Writes to the express windows (R325) -/

section
variable {core slot e k o : Nat} (ho : o = core * 0x20000 + slot * 0x8000 + e * 0x1000 + k)
include ho

/-- An offset in BAR2 names the engine in whose region it lies. -/
theorem expressRegion_engine (hslot : slot < 4) (he : e < 8) (hk : k < 0x1000) :
    (⟨o / 0x20000, o % 0x20000 / 0x8000, o % 0x8000 / 0x1000⟩ : EngRef) = ⟨core, slot, e⟩ := by
  rw [EngRef.mk.injEq]
  omega

/-- Whole words that stay within one region have the form that R325 asks for. -/
theorem expressRegion_wholeWords {data : List Byte} (hinside : k + data.length ≤ 0x1000) (haligned : k % 8 = 0) (hwhole : data.length % 8 = 0) (hsome : data ≠ [])
    (hlong : data.length ≤ 256) :
    ¬ (o % 8 ≠ 0 ∨ data.length % 8 ≠ 0 ∨ data.isEmpty ∨ 256 < data.length ∨ 0x1000 < o % 0x1000 + data.length) := by
  have hlength : 0 < data.length := List.length_pos_iff.2 hsome
  rw [List.isEmpty_iff_length_eq_zero]
  omega

end

/-- Words of that form enter one by one, where the link is up, the core is enabled and served by the port, and the engine's sequence is express. -/
theorem State.expressWrite_enters {s : State} {t : Task} {x : EngRef} {o : Nat} {p : Port} {data : List Byte}
    (hx : (⟨o / 0x20000, o % 0x20000 / 0x8000, o % 0x8000 / 0x1000⟩ : EngRef) = x) (hlink : (s.port p).linkUp = true)
    (hform : ¬ (o % 8 ≠ 0 ∨ data.length % 8 ≠ 0 ∨ data.isEmpty ∨ 256 < data.length ∨ 0x1000 < o % 0x1000 + data.length))
    (hcore : s.enabled x.core = true) (hserved : (s.standby p || (s.pkg.split && x.core / 192 != p.shore)) = false)
    (ht : s.taskAt x.core x.slot = some t) (hopen : (t.state == 3 || !mapExpress t.map x.eng) = false) :
    s.expressWrite p o data = ((chunksOf 8 32 data).map leNat).foldl (fun s w => s.expressWord p x w) s := by
  subst hx
  simp only [expressWrite, hlink, if_neg hform, hcore, hserved, ht, hopen, Bool.not_true, Bool.false_eq_true, if_false]

/-- Settles O26: with its tests decided a block comes to its delivery, and an express write to its words. -/
theorem streamWordsArrive : Obligations.StreamWordsArrive := by
  unfold Obligations.StreamWordsArrive
  intro s t core slot e ht hlive
  refine ⟨?block, ?express⟩
  case block =>
    intro ws n hexpress hhost hsome hroom
    exact congrArg Host.Outcome.next (State.fetchBlock_delivers ht hlive hexpress hhost rfl hsome hroom ws)
  case express =>
    intro p k data o hslot he hinside haligned hwhole hsome hlong hlink hcore hactive hsplit hexpress
    have hserved : (s.standby p || (s.pkg.split && core / 192 != p.shore)) = false := by
      rw [hactive, Bool.false_or, Bool.and_eq_false_imp]
      exact fun h => bne_eq_false_iff_eq.2 (hsplit h)
    have hopen : (t.state == 3 || !mapExpress t.map e) = false := by
      rw [beq_false_of_ne hlive, hexpress]
      rfl
    have hlength : 0 < data.length := List.length_pos_iff.2 hsome
    exact congrArg Host.Outcome.next (State.expressWrite_enters (expressRegion_engine rfl hslot he (by omega)) hlink
      (expressRegion_wholeWords rfl hinside haligned hwhole hsome hlong) hcore hserved ht hopen)

end Sys2Proof.Machine
end

section
/-! PROOFS of the families 00_scope and 95_what_each_step_holds: a step is the command at the front of the queue, every command answers a later state
(Safety.Later), and the invariants that this gives; and what the state after reset holds. -/

namespace Sys2Proof.Machine

/-! ## One step -/

theorem step_cons {s : State} {c : Instr} {rest : List Instr} (h : s.pending = c :: rest) : step s = exec c (s.setPending rest) := by simp only [step, h]

theorem step_nil {s : State} (h : s.pending = []) : step s = .next s := by simp only [step, h]

/-- Settles O1. -/
theorem stepRunsTheFrontCommand : Obligations.StepRunsTheFrontCommand := fun _ _ _ => step_cons

/-- Settles O2. -/
theorem emptyQueueIdles : Obligations.EmptyQueueIdles := fun _ => step_nil

/-! ## Every command answers a later state -/

theorem exec_later (s : State) : ∀ i : Instr, ∃ t, exec i s = .next t ∧ Later s t
  | .nop _ => execNop_later (.refl s)
  | .endSeq _ => execEndSeq_later (.refl s)
  | .setlc _ _ _ _ _ => execSetlc_later (.refl s)
  | .list _ _ _ => execList_later (.refl s)
  | .release _ => execRelease_later (.refl s)
  | .chsend _ _ _ _ _ => execChsend_later (.refl s)
  | .chrecv _ _ _ _ _ => execChrecv_later (.refl s)
  | .param _ _ _ => execParam_later (.refl s)
  | .move _ _ => execMove_later (.refl s)
  | .moveComplete _ => execMoveComplete_later (.refl s)
  | .mmaDense _ _ => execMmaDense_later (.refl s)
  | .mmaSliding _ _ => execMmaSliding_later (.refl s)
  | .mmaTransposed _ _ => execMmaTransposed_later (.refl s)
  | .mmaPlane _ _ => execMmaPlane_later (.refl s)
  | .spmm _ _ => execSpmm_later (.refl s)
  | .lookout _ _ => execLookout_later (.refl s)
  | .ebbSetimm _ _ _ _ => execEbbSetimm_later (.refl s)
  | .ebbSetvec _ _ _ => execEbbSetvec_later (.refl s)
  | .isect _ _ => execIsect_later (.refl s)
  | .merge _ _ => execMerge_later (.refl s)
  | .pack _ _ => execPack_later (.refl s)
  | .signalAdd _ _ _ _ => execSignalAdd_later (.refl s)
  | .signalPost _ _ _ _ => execSignalPost_later (.refl s)
  | .waitGe _ _ _ => execWaitGe_later (.refl s)
  | .waitTake _ _ _ => execWaitTake_later (.refl s)
  | .waitAcq _ _ _ => execWaitAcq_later (.refl s)
  | .loop _ _ _ => execLoop_later (.refl s)
  | .nest _ _ _ => execNest_later (.refl s)
  | .taskQueueDoorbell _ _ _ => execTaskQueueDoorbell_later (.refl s)
  | .taskQueueEntry _ _ _ => execTaskQueueEntry_later (.refl s)
  | .streamBlockFetch _ _ _ _ => execStreamBlockFetch_later (.refl s)
  | .expressWrite _ _ _ => execExpressWrite_later (.refl s)
  | .taskStart _ _ => execTaskStart_later (.refl s)
  | .drainEnd _ _ => execDrainEnd_later (.refl s)
  | .truncationPoint _ _ => execTruncationPoint_later (.refl s)
  | .heldCompletionWrite _ _ => execHeldCompletionWrite_later (.refl s)
  | .workItem _ => execWorkItem_later (.refl s)
  | .dspListctlStart _ _ _ => execDspListctlStart_later (.refl s)
  | .write _ => execWrite_later (.refl s)
  | .readRequest _ _ => execReadRequest_later (.refl s)
  | .readResponse _ => execReadResponse_later (.refl s)
  | .creditRequest _ => execCreditRequest_later (.refl s)
  | .creditGrant _ => execCreditGrant_later (.refl s)
  | .creditReturn _ => execCreditReturn_later (.refl s)
  | .signal _ => execSignal_later (.refl s)
  | .channelWrite _ => execChannelWrite_later (.refl s)
  | .command _ => execCommand_later (.refl s)
  | .completion _ => execCompletion_later (.refl s)
  | .errorResponse _ => execErrorResponse_later (.refl s)
  | .idle _ => execIdle_later (.refl s)
  | .acknowledgement _ _ _ => execAcknowledgement_later (.refl s)
  | .negativeAcknowledgement _ _ _ => execNegativeAcknowledgement_later (.refl s)
  | .linkFrame _ _ => execLinkFrame_later (.refl s)
  | .offer _ _ => execOffer_later (.refl s)
  | .accept _ _ => execAccept_later (.refl s)
  | .confirm _ _ => execConfirm_later (.refl s)
  | .rotateOffer _ _ => execRotateOffer_later (.refl s)
  | .rotateAccept _ _ => execRotateAccept_later (.refl s)
  | .ready _ _ => execReady_later (.refl s)
  | .request _ _ => execRequest_later (.refl s)
  | .abort _ code => execAbort_later (_code := code) (.refl s)
  | .blLinkUp _ _ _ => execBlLinkUp_later (.refl s)
  | .blDown _ _ => execBlDown_later (.refl s)
  | .keyRotationFrameLimit _ => execKeyRotationFrameLimit_later (.refl s)
  | .dataFrameHold _ => execDataFrameHold_later (.refl s)
  | .keyAgree _ _ => execKeyAgree_later (.refl s)
  | .keyRotate _ _ => execKeyRotate_later (.refl s)
  | .keyDrop _ _ => execKeyDrop_later (.refl s)
  | .laneFailing _ _ => execLaneFailing_later (.refl s)
  | .laneSwapDone _ _ => execLaneSwapDone_later (.refl s)
  | .causewayFailed => execCausewayFailed_later (.refl s)
  | .hopReplayLimit _ _ _ => execHopReplayLimit_later (.refl s)
  | .towerRetryLimit _ _ => execTowerRetryLimit_later (.refl s)
  | .sample _ => execSample_later (.refl s)
  | .engineHung _ _ => execEngineHung_later (.refl s)
  | .heartbeatStale => execHeartbeatStale_later (.refl s)
  | .gatingSpan _ => execGatingSpan_later (.refl s)
  | .recoveryDone _ => execRecoveryDone_later (.refl s)
  | .scrubDone _ _ => execScrubDone_later (.refl s)
  | .strataLoad _ _ => execStrataLoad_later (.refl s)
  | .strataLoadDone _ => execStrataLoadDone_later (.refl s)
  | .strataHold _ _ _ => execStrataHold_later (.refl s)
  | .sound _ _ _ => execSound_later (.refl s)
  | .summaryWritten _ _ => execSummaryWritten_later (.refl s)
  | .claim _ => execClaim_later (.refl s)
  | .heartbeat _ _ => execHeartbeat_later (.refl s)
  | .modeRequest _ _ _ => execModeRequest_later (.refl s)
  | .layoutApply _ => execLayoutApply_later (.refl s)
  | .sealRotate _ _ => execSealRotate_later (.refl s)
  | .pageResealed _ _ => execPageResealed_later (.refl s)
  | .commitLh _ => execCommitLh_later (.refl s)
  | .commitHb _ => execCommitHb_later (.refl s)
  | .commitPil _ => execCommitPil_later (.refl s)
  | .lockfuse _ => execLockfuse_later (.refl s)
  | .fullres _ _ => execFullres_later (.refl s)
  | .pilotFwLoad _ _ _ => execPilotFwLoad_later (.refl s)
  | .packageReset _ _ _ => execPackageReset_later (.refl s)
  | .cxlEnable _ _ => execCxlEnable_later (.refl s)
  | .cxlDisable _ _ => execCxlDisable_later (.refl s)
  | .cxlPortUp _ _ => execCxlPortUp_later (.refl s)
  | .cxlDown _ _ => execCxlDown_later (.refl s)
  | .ringEnable _ _ _ _ => execRingEnable_later (.refl s)
  | .windowValid _ _ _ _ => execWindowValid_later (.refl s)
  | .channelFlush _ _ _ => execChannelFlush_later (.refl s)
  | .channelModeChange _ _ _ _ => execChannelModeChange_later (.refl s)
  | .hostChannelRead _ _ _ => execHostChannelRead_later (.refl s)
  | .hostChannelPush _ _ _ _ => execHostChannelPush_later (.refl s)
  | .hostChannelPushEnd _ _ _ _ => execHostChannelPushEnd_later (.refl s)
  | .accDataRead _ _ _ => execAccDataRead_later (.refl s)
  | .errlogHeadWrite _ _ _ => execErrlogHeadWrite_later (.refl s)
  | .cqEnable _ _ _ => execCqEnable_later (.refl s)
  | .registerWrite _ _ _ _ _ => execRegisterWrite_later (.refl s)
  | .bar4Read _ _ _ _ => execBar4Read_later (.refl s)
  | .bar4Write _ _ _ _ => execBar4Write_later (.refl s)
  | .configRequest _ _ => execConfigRequest_later (.refl s)
  | .lockInterface _ _ => execLockInterface_later (.refl s)
  | .startInterface _ _ => execStartInterface_later (.refl s)
  | .stopInterface _ _ => execStopInterface_later (.refl s)
  | .getDeviceInterfaceReport _ _ => execGetDeviceInterfaceReport_later (.refl s)
  | .certificate _ => execCertificate_later (.refl s)
  | .challenge _ _ => execChallenge_later (.refl s)
  | .measurements _ _ => execMeasurements_later (.refl s)
  | .keyExchange _ _ => execKeyExchange_later (.refl s)
  | .signatureReady => execSignatureReady_later (.refl s)
  | .pldmFirmwareUpdate _ => execPldmFirmwareUpdate_later (.refl s)
  | .pldmPowerCap _ => execPldmPowerCap_later (.refl s)
  | .pldmSensorRead _ => execPldmSensorRead_later (.refl s)
  | .pldmQuotaWrite _ _ _ => execPldmQuotaWrite_later (.refl s)
  | .pldmReset _ => execPldmReset_later (.refl s)
  | .pldmCommit _ => execPldmCommit_later (.refl s)
  | .testPortInstruction _ => execTestPortInstruction_later (.refl s)
  | .powerOn _ => execPowerOn_later (.refl s)
  | .undervoltageShutdown => execUndervoltageShutdown_later (.refl s)
  | .overvoltageShutdown => execOvervoltageShutdown_later (.refl s)
  | .thermalShutdown => execThermalShutdown_later (.refl s)
  | .resetN _ => execResetN_later (.refl s)
  | .perstDeassert _ _ _ _ => execPerstDeassert_later (.refl s)
  | .hostPortReset _ _ => execHostPortReset_later (.refl s)
  | .hostLinkDown _ => execHostLinkDown_later (.refl s)
  | .hostIdeFail _ _ => execHostIdeFail_later (.refl s)
  | .entropyHealthFail => execEntropyHealthFail_later (.refl s)
  | .resetNRelease _ => execResetNRelease_later (.refl s)
  | .hostLinkUp _ _ _ _ => execHostLinkUp_later (.refl s)
  | .modeChangeApplied => execModeChangeApplied_later (.refl s)
  | .ideKm _ _ => execIdeKm_later (.refl s)
  | .managementProcessorFault => execManagementProcessorFault_later (.refl s)
  | .pldmEventRetrieval => execPldmEventRetrieval_later (.refl s)
  | .endpointIdAssignment _ _ => execEndpointIdAssignment_later (.refl s)

/-- What a step does: it answers a state later than its own, but for the queue, which has lost its first command. -/
theorem step_later (s : State) : ∃ t, step s = .next t ∧ Later (s.setPending s.pending.tail) t := by
  cases h : s.pending with
  | nil =>
    have hsame : s.setPending [] = s := by rw [← h]; rfl
    exact ⟨s, step_nil h, hsame ▸ .refl _⟩
  | cons c rest => exact (exec_later (s.setPending rest) c).imp fun t ht => ⟨(step_cons h).trans ht.1, ht.2⟩

theorem later_of_step {s t : State} (h : step s = .next t) : Later (s.setPending s.pending.tail) t := by
  obtain ⟨u, hu, hlater⟩ := step_later s
  cases hu.symm.trans h
  exact hlater

/-- Settles O3. -/
theorem everyStepAnswersAState : Obligations.EveryStepAnswersAState := fun s => (step_later s).imp fun _ h => ⟨h.1, h.2.queue⟩

/-- Settles O4. -/
theorem memoryStaysCanonical : Obligations.MemoryStaysCanonical := fun _ _ hwf h => (later_of_step h).mem hwf

/-- Settles O5. -/
theorem fusesOnlyBlow : Obligations.FusesOnlyBlow := fun _ _ h => (later_of_step h).trust

/-- Settles O6. -/
theorem flashAndOutputsStay : Obligations.FlashAndOutputsStay := fun _ _ h =>
  have hlater := later_of_step h
  ⟨hlater.flash, hlater.out, hlater.tasks, hlater.free⟩

/-! ## The state after reset -/

theorem getD_replicate_of_lt {n i v d : Nat} (h : i < n) : (List.replicate n v).getD i d = v := by simp [h]

/-- Settles O7: every table of the reset state is empty, and its layout gives each unit to partition 0. -/
theorem resetMeetsTheInvariants : Obligations.ResetMeetsTheInvariants :=
  ⟨rfl, fun _ => rfl, rfl, rfl, rfl, rfl, rfl, rfl, rfl, fun _ => rfl, rfl, rfl,
    fun _ => getD_replicate_of_lt, fun _ => getD_replicate_of_lt, fun _ => getD_replicate_of_lt⟩

end Sys2Proof.Machine
end

section
/-! PROOFS of the family 11_krerok_instruction_set: the native word of every engine instruction decodes to the instruction (R317 to R321). -/

namespace Sys2Proof.Machine

/-! ## Fields of a word -/

theorem b2n_lt_two (b : Bool) : b2n b < 2 := by cases b <;> decide

theorem fld_eq {w hi lo v : Nat} (h : w / 2 ^ lo % 2 ^ (hi + 1 - lo) = v) : fld w hi lo = v := h

theorem bitOf_eq {w i : Nat} {b : Bool} (h : w / 2 ^ i % 2 = b2n b) : bitOf w i = b := by
  rw [bitOf, h]
  cases b <;> rfl

theorem coreField_iff (c : Nat) : coreField c = true ↔ c < 384 ∨ c = 0x1FF := by simp [coreField]

/-! ## The words that every engine decodes (R319) -/

theorem nativeInstr_common {x : EngRef} {t : Task} {w data op : Nat} {ps : List Nat} (h : w / 2 ^ 58 = op) (hop : op < 0x10) :
    nativeInstr x t w data ps = commonWord x t.nests w data := by
  rw [nativeInstr, if_pos (h ▸ hop)]

theorem nativeInstr_engine {x : EngRef} {t : Task} {w data op : Nat} {ps : List Nat} (h : w / 2 ^ 58 = op) (hop : 0x10 ≤ op) :
    nativeInstr x t w data ps = engineWord x t.descriptors w (ps.getD 0 0) (ps.getD 1 0) := by
  rw [nativeInstr, if_neg (by omega)]

section
variable {x : EngRef} (t : Task) {w : Nat}

theorem decodes_nop (hw : 0 = w) : w < 2 ^ 64 ∧ nativeInstr x t w 0 [0, 0] = some (.nop x) := by
  subst hw
  exact ⟨by decide, rfl⟩

theorem decodes_endSeq (hw : 2 ^ 58 = w) : w < 2 ^ 64 ∧ nativeInstr x t w 0 [0, 0] = some (.endSeq x) := by
  subst hw
  exact ⟨by decide, rfl⟩

theorem decodes_setlc {lc : Nat} {fromShape : Bool} {i imm : Nat}
    (hwf : (x.wf && fits 3 lc && fits 4 i && fits 32 imm) = true) (hw : 2 * 2 ^ 58 + lc * 2 ^ 55 + flagAt 54 fromShape + i * 2 ^ 50 + imm = w) :
    w < 2 ^ 64 ∧ nativeInstr x t w 0 [0, 0] = some (.setlc x lc fromShape i imm) := by
  simp only [fits, Bool.and_eq_true, decide_eq_true_eq] at hwf
  obtain ⟨⟨⟨-, hlc⟩, hi⟩, himm⟩ := hwf
  simp only [flagAt] at hw
  have hflag := b2n_lt_two fromShape
  have hop : w / 2 ^ 58 = 2 := by omega
  have hz : fld w 49 32 = 0 := fld_eq (by omega)
  have hlc' : fld w 57 55 = lc := fld_eq (by omega)
  have hfrom : bitOf w 54 = fromShape := bitOf_eq (by omega)
  have hi' : fld w 53 50 = i := fld_eq (by omega)
  have himm' : fld w 31 0 = imm := fld_eq (by omega)
  refine ⟨by omega, ?_⟩
  rw [nativeInstr_common hop (by decide), commonWord, hop]
  simp [hz, hlc', hfrom, hi', himm']

theorem decodes_loop {lc body : Nat}
    (hwf : (x.wf && fits 3 lc && fits 12 body && body != 0) = true) (hw : 3 * 2 ^ 58 + lc * 2 ^ 55 + body * 2 ^ 42 = w) :
    w < 2 ^ 64 ∧ nativeInstr x t w 0 [0, 0] = some (.loop x lc body) := by
  simp only [fits, Bool.and_eq_true, decide_eq_true_eq, bne_iff_ne] at hwf
  obtain ⟨⟨⟨-, hlc⟩, hbody⟩, hsome⟩ := hwf
  have hop : w / 2 ^ 58 = 3 := by omega
  have hz : fld w 54 54 = 0 := fld_eq (by omega)
  have hz' : fld w 41 0 = 0 := fld_eq (by omega)
  have hlc' : fld w 57 55 = lc := fld_eq (by omega)
  have hbody' : fld w 53 42 = body := fld_eq (by omega)
  refine ⟨by omega, ?_⟩
  rw [nativeInstr_common hop (by decide), commonWord, hop]
  simp [hz, hz', hlc', hbody', hsome]

theorem decodes_nest {n body : Nat}
    (hwf : (x.wf && fits 4 n && fits 12 body && body != 0) = true)
    (hw : 4 * 2 ^ 58 + n * 2 ^ 54 + body * 2 ^ 42 = w) (hnamed : decide (n < t.nests) = true) :
    w < 2 ^ 64 ∧ nativeInstr x t w 0 [0, 0] = some (.nest x n body) := by
  simp only [fits, Bool.and_eq_true, decide_eq_true_eq, bne_iff_ne] at hwf
  obtain ⟨⟨⟨-, hn⟩, hbody⟩, hsome⟩ := hwf
  rw [decide_eq_true_eq] at hnamed
  have hop : w / 2 ^ 58 = 4 := by omega
  have hz : fld w 41 0 = 0 := fld_eq (by omega)
  have hn' : fld w 57 54 = n := fld_eq (by omega)
  have hbody' : fld w 53 42 = body := fld_eq (by omega)
  refine ⟨by omega, ?_⟩
  rw [nativeInstr_common hop (by decide), commonWord, hop]
  simp [hz, hn', hbody', hsome, hnamed]

/-- SIGNAL ADD and SIGNAL POST differ in bit 57. -/
theorem commonWord_signal (x : EngRef) (nests data : Nat) {core number amount w : Nat} (post : Bool)
    (hw : w = 5 * 2 ^ 58 + b2n post * 2 ^ 57 + core * 2 ^ 48 + number * 2 ^ 42 + amount) (hcore : coreField core = true) (hnumber : number < 2 ^ 6)
    (hamount : amount < 2 ^ 16) (hsome : amount ≠ 0) :
    w / 2 ^ 58 = 5 ∧ w < 2 ^ 64
      ∧ commonWord x nests w data = some (if post then .signalPost x core number amount else .signalAdd x core number amount) := by
  have hpost := b2n_lt_two post
  have hc := (coreField_iff core).1 hcore
  have hop : w / 2 ^ 58 = 5 := by omega
  have hz : fld w 41 16 = 0 := fld_eq (by omega)
  have hpost' : bitOf w 57 = post := bitOf_eq (by omega)
  have hcore' : fld w 56 48 = core := fld_eq (by omega)
  have hnumber' : fld w 47 42 = number := fld_eq (by omega)
  have hamount' : fld w 15 0 = amount := fld_eq (by omega)
  refine ⟨hop, by omega, ?_⟩
  rw [commonWord, hop]
  simp [hz, hpost', hcore', hnumber', hamount', hsome, hc]
  cases post <;> rfl

theorem decodes_signalAdd {core number amount : Nat}
    (hwf : (x.wf && coreField core && fits 6 number && fits 16 amount && amount != 0) = true)
    (hw : 5 * 2 ^ 58 + core * 2 ^ 48 + number * 2 ^ 42 + amount = w) :
    w < 2 ^ 64 ∧ nativeInstr x t w 0 [0, 0] = some (.signalAdd x core number amount) := by
  simp only [fits, Bool.and_eq_true, decide_eq_true_eq, bne_iff_ne] at hwf
  obtain ⟨⟨⟨⟨-, hcore⟩, hnumber⟩, hamount⟩, hsome⟩ := hwf
  obtain ⟨hop, hlt, h⟩ := commonWord_signal x t.nests 0 false (by simpa [b2n] using hw.symm) hcore hnumber hamount hsome
  exact ⟨hlt, (nativeInstr_common hop (by decide)).trans h⟩

theorem decodes_signalPost {core number amount : Nat}
    (hwf : (x.wf && coreField core && fits 6 number && fits 16 amount && amount != 0) = true)
    (hw : 5 * 2 ^ 58 + 2 ^ 57 + core * 2 ^ 48 + number * 2 ^ 42 + amount = w) :
    w < 2 ^ 64 ∧ nativeInstr x t w 0 [0, 0] = some (.signalPost x core number amount) := by
  simp only [fits, Bool.and_eq_true, decide_eq_true_eq, bne_iff_ne] at hwf
  obtain ⟨⟨⟨⟨-, hcore⟩, hnumber⟩, hamount⟩, hsome⟩ := hwf
  obtain ⟨hop, hlt, h⟩ := commonWord_signal x t.nests 0 true (by simpa [b2n] using hw.symm) hcore hnumber hamount hsome
  exact ⟨hlt, (nativeInstr_common hop (by decide)).trans h⟩

/-- The fields of a WAIT, whose bits 57 and 56 say of what kind it is. -/
theorem wait_fields {kind number value w : Nat} (hw : w = 6 * 2 ^ 58 + kind * 2 ^ 56 + number * 2 ^ 48 + value) (hkind : kind < 3) (hnumber : number < 2 ^ 6)
    (hvalue : value < 2 ^ 32) :
    w / 2 ^ 58 = 6 ∧ w < 2 ^ 64 ∧ fld w 55 54 = 0 ∧ fld w 47 32 = 0 ∧ fld w 57 56 = kind ∧ fld w 53 48 = number ∧ fld w 31 0 = value :=
  ⟨by omega, by omega, fld_eq (by omega), fld_eq (by omega), fld_eq (by omega), fld_eq (by omega), fld_eq (by omega)⟩

theorem decodes_waitGe {number value : Nat}
    (hwf : (x.wf && fits 6 number && fits 32 value) = true) (hw : 6 * 2 ^ 58 + number * 2 ^ 48 + value = w) :
    w < 2 ^ 64 ∧ nativeInstr x t w 0 [0, 0] = some (.waitGe x number value) := by
  simp only [fits, Bool.and_eq_true, decide_eq_true_eq] at hwf
  obtain ⟨⟨-, hnumber⟩, hvalue⟩ := hwf
  obtain ⟨hop, hlt, hz, hz', hkind, hnumber', hvalue'⟩ :=
    wait_fields (kind := 0) (number := number) (value := value) (w := w) (by omega) (by decide) hnumber hvalue
  refine ⟨hlt, ?_⟩
  rw [nativeInstr_common hop (by decide), commonWord, hop]
  simp [hz, hz', hkind, hnumber', hvalue']

theorem decodes_waitTake {number value : Nat}
    (hwf : (x.wf && fits 6 number && fits 32 value) = true) (hw : 6 * 2 ^ 58 + 2 ^ 56 + number * 2 ^ 48 + value = w) :
    w < 2 ^ 64 ∧ nativeInstr x t w 0 [0, 0] = some (.waitTake x number value) := by
  simp only [fits, Bool.and_eq_true, decide_eq_true_eq] at hwf
  obtain ⟨⟨-, hnumber⟩, hvalue⟩ := hwf
  obtain ⟨hop, hlt, hz, hz', hkind, hnumber', hvalue'⟩ :=
    wait_fields (kind := 1) (number := number) (value := value) (w := w) (by omega) (by decide) hnumber hvalue
  refine ⟨hlt, ?_⟩
  rw [nativeInstr_common hop (by decide), commonWord, hop]
  simp [hz, hz', hkind, hnumber', hvalue']

theorem decodes_waitAcq {number value : Nat}
    (hwf : (x.wf && fits 6 number && fits 16 value && value != 0) = true)
    (hw : 6 * 2 ^ 58 + 2 * 2 ^ 56 + number * 2 ^ 48 + value = w) :
    w < 2 ^ 64 ∧ nativeInstr x t w 0 [0, 0] = some (.waitAcq x number value) := by
  simp only [fits, Bool.and_eq_true, decide_eq_true_eq, bne_iff_ne] at hwf
  obtain ⟨⟨⟨-, hnumber⟩, hvalue⟩, hsome⟩ := hwf
  obtain ⟨hop, hlt, hz, hz', hkind, hnumber', hvalue'⟩ :=
    wait_fields (kind := 2) (number := number) (value := value) (w := w) (by omega) (by decide) hnumber (by omega)
  have hrange : 1 ≤ value ∧ value < 65536 := by omega
  refine ⟨hlt, ?_⟩
  rw [nativeInstr_common hop (by decide), commonWord, hop]
  simp [hz, hz', hkind, hnumber', hvalue', hrange]

theorem decodes_chsend {channel : Nat} {endMark : Bool} {core data : Nat}
    (hwf : (x.wf && fits 3 channel && coreField core && isWord data) = true)
    (hw : 7 * 2 ^ 58 + channel * 2 ^ 55 + flagAt 54 endMark + core * 2 ^ 45 = w) :
    w < 2 ^ 64 ∧ nativeInstr x t w data [0, 0] = some (.chsend x channel endMark core data) := by
  simp only [fits, Bool.and_eq_true, decide_eq_true_eq, coreField_iff] at hwf
  obtain ⟨⟨⟨-, hchannel⟩, hcore⟩, -⟩ := hwf
  simp only [flagAt] at hw
  have hmark := b2n_lt_two endMark
  have hop : w / 2 ^ 58 = 7 := by omega
  have hz : fld w 44 0 = 0 := fld_eq (by omega)
  have hchannel' : fld w 57 55 = channel := fld_eq (by omega)
  have hmark' : bitOf w 54 = endMark := bitOf_eq (by omega)
  have hcore' : fld w 53 45 = core := fld_eq (by omega)
  refine ⟨by omega, ?_⟩
  rw [nativeInstr_common hop (by decide), commonWord, hop]
  simp [hz, hchannel', hmark', hcore', hcore]

theorem decodes_chrecv {channel lc : Nat} {tagen : Bool} {tlc : Nat}
    (hwf : (x.wf && fits 3 channel && fits 3 lc && fits 3 tlc) = true)
    (hw : 8 * 2 ^ 58 + channel * 2 ^ 55 + lc * 2 ^ 52 + flagAt 51 tagen + tlc * 2 ^ 48 = w) :
    w < 2 ^ 64 ∧ nativeInstr x t w 0 [0, 0] = some (.chrecv x channel lc tagen tlc) := by
  simp only [fits, Bool.and_eq_true, decide_eq_true_eq] at hwf
  obtain ⟨⟨⟨-, hchannel⟩, hlc⟩, htlc⟩ := hwf
  simp only [flagAt] at hw
  have htag := b2n_lt_two tagen
  have hop : w / 2 ^ 58 = 8 := by omega
  have hz : fld w 47 0 = 0 := fld_eq (by omega)
  have hchannel' : fld w 57 55 = channel := fld_eq (by omega)
  have hlc' : fld w 54 52 = lc := fld_eq (by omega)
  have htag' : bitOf w 51 = tagen := bitOf_eq (by omega)
  have htlc' : fld w 50 48 = tlc := fld_eq (by omega)
  refine ⟨by omega, ?_⟩
  rw [nativeInstr_common hop (by decide), commonWord, hop]
  simp [hz, hchannel', hlc', htag', htlc']

theorem decodes_param {p value : Nat}
    (hwf : (x.wf && fits 2 p && fits 48 value) = true) (hw : 9 * 2 ^ 58 + p * 2 ^ 56 + value = w) :
    w < 2 ^ 64 ∧ nativeInstr x t w 0 [0, 0] = some (.param x p value) := by
  simp only [fits, Bool.and_eq_true, decide_eq_true_eq] at hwf
  obtain ⟨⟨-, hp⟩, hvalue⟩ := hwf
  have hop : w / 2 ^ 58 = 9 := by omega
  have hz : fld w 55 48 = 0 := fld_eq (by omega)
  have hp' : fld w 57 56 = p := fld_eq (by omega)
  have hvalue' : fld w 47 0 = value := fld_eq (by omega)
  refine ⟨by omega, ?_⟩
  rw [nativeInstr_common hop (by decide), commonWord, hop]
  simp [hz, hp', hvalue']

/-! ## The words of one engine (R320) -/

theorem EngRef.isOf_eng {codes : List Nat} {x : EngRef} (h : x.isOf codes = true) : x.eng ∈ codes := by
  simpa using (Bool.and_eq_true_iff.1 h).2

theorem decodes_move (o : MoveOps)
    (hwf : (x.isOf [5, 6] && o.wf) = true) (hw : 16 * 2 ^ 58 + o.stream * 2 ^ 46 + o.bmask * 2 ^ 42 + flagAt 41 o.bind = w) :
    w < 2 ^ 64 ∧ nativeInstr x t w 0 [0, 0] = some (.move x o) := by
  simp only [MoveOps.wf, fits, Bool.and_eq_true, decide_eq_true_eq] at hwf
  obtain ⟨hx, hstream, hbmask⟩ := hwf
  have heng : x.eng = 5 ∨ x.eng = 6 := by simpa using EngRef.isOf_eng hx
  simp only [flagAt] at hw
  have hbind := b2n_lt_two o.bind
  have hop : w / 2 ^ 58 = 16 := by omega
  have hz : fld w 40 0 = 0 := fld_eq (by omega)
  have hstream' : fld w 57 46 = o.stream := fld_eq (by omega)
  have hbmask' : fld w 45 42 = o.bmask := fld_eq (by omega)
  have hbind' : bitOf w 41 = o.bind := bitOf_eq (by omega)
  refine ⟨by omega, ?_⟩
  rw [nativeInstr_engine hop (by decide), engineWord, hop]
  simp [heng, hz, hstream', hbmask', hbind']

theorem decodes_merge {table : Nat}
    (hwf : (x.isOf [3] && fits 12 table) = true) (hw : 16 * 2 ^ 58 + table = w) (hhandles : [table].all (handleOk t.descriptors) = true) :
    w < 2 ^ 64 ∧ nativeInstr x t w 0 [0, 0] = some (.merge x table) := by
  simp only [fits, Bool.and_eq_true, decide_eq_true_eq] at hwf
  obtain ⟨hx, htable⟩ := hwf
  have heng : x.eng = 3 := by simpa using EngRef.isOf_eng hx
  have hhandle : handleOk t.descriptors table = true := by simpa using hhandles
  have hop : w / 2 ^ 58 = 16 := by omega
  have hz : fld w 57 12 = 0 := fld_eq (by omega)
  have htable' : fld w 11 0 = table := fld_eq (by omega)
  refine ⟨by omega, ?_⟩
  rw [nativeInstr_engine hop (by decide), engineWord, hop]
  simp [heng, hz, htable', hhandle]

theorem decodes_list {starter dir : Nat}
    (hwf : (x.isOf [7] && fits 5 starter && fits 12 dir) = true) (hw : 16 * 2 ^ 58 + starter * 2 ^ 53 + dir = w) (hhandles : [dir].all (handleOk t.descriptors) = true) :
    w < 2 ^ 64 ∧ nativeInstr x t w 0 [0, 0] = some (.list x starter dir) := by
  simp only [fits, Bool.and_eq_true, decide_eq_true_eq] at hwf
  obtain ⟨⟨hx, hstarter⟩, hdir⟩ := hwf
  have heng : x.eng = 7 := by simpa using EngRef.isOf_eng hx
  have hhandle : handleOk t.descriptors dir = true := by simpa using hhandles
  have hop : w / 2 ^ 58 = 16 := by omega
  have hz : fld w 52 12 = 0 := fld_eq (by omega)
  have hstarter' : fld w 57 53 = starter := fld_eq (by omega)
  have hdir' : fld w 11 0 = dir := fld_eq (by omega)
  refine ⟨by omega, ?_⟩
  rw [nativeInstr_engine hop (by decide), engineWord, hop]
  simp [heng, hz, hstarter', hdir', hhandle]

theorem decodes_release (hwf : x.isOf [7] = true) (hw : 17 * 2 ^ 58 = w) : w < 2 ^ 64 ∧ nativeInstr x t w 0 [0, 0] = some (.release x) := by
  have heng : x.eng = 7 := by simpa using EngRef.isOf_eng hwf
  subst hw
  refine ⟨by decide, ?_⟩
  rw [nativeInstr_engine rfl (by decide), engineWord]
  simp [heng, fld]

theorem decodes_isect (o : IsectOps)
    (hwf : (x.isOf [2] && o.wf) = true)
    (hw : 16 * 2 ^ 58 + o.akind * 2 ^ 55 + o.bkind * 2 ^ 52 + o.form * 2 ^ 50 + flagAt 49 o.rowKey + flagAt 48 o.fp64 + flagAt 47 o.dest
      + flagAt 46 o.avals + flagAt 45 o.bvals + o.bmask * 2 ^ 41 + flagAt 40 o.bind = w)
    (hhandles : [o.out, o.bh, o.ah].all (handleOk t.descriptors) = true) :
    w < 2 ^ 64 ∧ nativeInstr x t w 0 [o.out * 2 ^ 24 + o.bh * 2 ^ 12 + o.ah, o.r0] = some (.isect x o) := by
  simp only [IsectOps.wf, fits, Bool.and_eq_true, Bool.or_eq_true, beq_iff_eq, decide_eq_true_eq] at hwf
  obtain ⟨hx, ⟨⟨⟨⟨⟨⟨⟨hakind, hbkind⟩, hform⟩, hout⟩, hbh⟩, hah⟩, hdest⟩, hr0⟩, hbmask⟩ := hwf
  have heng : x.eng = 2 := by simpa using EngRef.isOf_eng hx
  simp only [flagAt] at hw
  obtain ⟨hok, hok', hok''⟩ : handleOk t.descriptors o.out = true ∧ handleOk t.descriptors o.bh = true ∧ handleOk t.descriptors o.ah = true := by
    simpa [handlesOf] using hhandles
  have hrow := b2n_lt_two o.rowKey
  have hfp := b2n_lt_two o.fp64
  have hde := b2n_lt_two o.dest
  have hav := b2n_lt_two o.avals
  have hbv := b2n_lt_two o.bvals
  have hbi := b2n_lt_two o.bind
  have hop : w / 2 ^ 58 = 16 := by omega
  have hz : fld w 39 0 = 0 := fld_eq (by omega)
  have hakind' : fld w 57 55 = o.akind := fld_eq (by omega)
  have hbkind' : fld w 54 52 = o.bkind := fld_eq (by omega)
  have hform' : fld w 51 50 = o.form := fld_eq (by omega)
  have hrow' : bitOf w 49 = o.rowKey := bitOf_eq (by omega)
  have hfp' : bitOf w 48 = o.fp64 := bitOf_eq (by omega)
  have hde' : bitOf w 47 = o.dest := bitOf_eq (by omega)
  have hav' : bitOf w 46 = o.avals := bitOf_eq (by omega)
  have hbv' : bitOf w 45 = o.bvals := bitOf_eq (by omega)
  have hbmask' : fld w 44 41 = o.bmask := fld_eq (by omega)
  have hbi' : bitOf w 40 = o.bind := bitOf_eq (by omega)
  have hp : (o.out * 2 ^ 24 + o.bh * 2 ^ 12 + o.ah) / 2 ^ 36 = 0 := by omega
  have hout' : fld (o.out * 2 ^ 24 + o.bh * 2 ^ 12 + o.ah) 35 24 = o.out := fld_eq (by omega)
  have hbh' : fld (o.out * 2 ^ 24 + o.bh * 2 ^ 12 + o.ah) 23 12 = o.bh := fld_eq (by omega)
  have hah' : fld (o.out * 2 ^ 24 + o.bh * 2 ^ 12 + o.ah) 11 0 = o.ah := fld_eq (by omega)
  have hthree : o.form ≠ 3 := by omega
  have hr : o.r0 / 2 ^ 31 = 0 := by omega
  have hr' : o.r0 ≠ 0x7FFFFFFF := by omega
  refine ⟨by omega, ?_⟩
  rw [nativeInstr_engine hop (by decide), engineWord, hop]
  simp only [List.getD_cons_zero, List.getD_cons_succ, heng, hz, hakind', hbkind', hform', hrow', hfp', hde', hav', hbv',
    hbmask', hbi', hp, hout', hbh', hah', hr, hok, hok', hok'']
  simp [hakind, hbkind, hthree, hr', hdest]

theorem decodes_pack (o : PackOps)
    (hwf : (x.isOf [4] && o.wf) = true)
    (hw : 16 * 2 ^ 58 + o.fmt * 2 ^ 55 + flagAt 54 o.append + o.ring * 2 ^ 51 + o.dest * 2 ^ 39 + o.arena * 2 ^ 27 + o.bmask * 2 ^ 23 + flagAt 22 o.bind = w)
    (hhandles : [o.dest, o.arena].all (handleOk t.descriptors) = true) :
    w < 2 ^ 64 ∧ nativeInstr x t w 0 [o.tiles, o.first] = some (.pack x o) := by
  simp only [PackOps.wf, fits, Bool.and_eq_true, Bool.or_eq_true, beq_iff_eq, bne_iff_ne, decide_eq_true_eq] at hwf
  obtain ⟨hx, ⟨⟨⟨⟨⟨⟨⟨hfmt, hring⟩, hdest⟩, harena⟩, happend⟩, htiles⟩, hsome⟩, hfirst⟩, hbmask⟩ := hwf
  have heng : x.eng = 4 := by simpa using EngRef.isOf_eng hx
  simp only [flagAt] at hw
  obtain ⟨hok, hok'⟩ : handleOk t.descriptors o.dest = true ∧ handleOk t.descriptors o.arena = true := by simpa using hhandles
  have hap := b2n_lt_two o.append
  have hbi := b2n_lt_two o.bind
  have hop : w / 2 ^ 58 = 16 := by omega
  have hz : fld w 21 0 = 0 := fld_eq (by omega)
  have hfmt' : fld w 57 55 = o.fmt := fld_eq (by omega)
  have hap' : bitOf w 54 = o.append := bitOf_eq (by omega)
  have hring' : fld w 53 51 = o.ring := fld_eq (by omega)
  have hdest' : fld w 50 39 = o.dest := fld_eq (by omega)
  have harena' : fld w 38 27 = o.arena := fld_eq (by omega)
  have hbmask' : fld w 26 23 = o.bmask := fld_eq (by omega)
  have hbi' : bitOf w 22 = o.bind := bitOf_eq (by omega)
  have ht : o.tiles / 2 ^ 32 = 0 := by omega
  have hf : o.first / 2 ^ 32 = 0 := by omega
  refine ⟨by omega, ?_⟩
  rw [nativeInstr_engine hop (by decide), engineWord, hop]
  simp only [List.getD_cons_zero, List.getD_cons_succ, heng, hz, hfmt', hap', hring', hdest', harena', hbmask', hbi', ht, hf,
    hok, hok']
  simp [hfmt, hsome, happend]

/-! ## The words of a Matrix Array (R320) -/

/-- The shared fields of an MMA, SPMM or LOOKOUT word lie below bit 56. -/
theorem mmaFields_word {o : MmaOps} (ho : o.wf = true) {c w : Nat} (hw : w = c * 2 ^ 56 + mmaOpsWord o) :
    mmaFields w (mmaP0 o.mask o.b o.a) = o ∧ fld w 23 0 = 0 ∧ w / 2 ^ 56 = c ∧ mmaP0 o.mask o.b o.a / 2 ^ 36 = 0 := by
  simp only [MmaOps.wf, fits, Bool.and_eq_true, decide_eq_true_eq] at ho
  obtain ⟨⟨⟨⟨⟨⟨⟨⟨⟨hm, hn⟩, hk⟩, haring⟩, hbring⟩, hacc⟩, hmask⟩, hb⟩, ha⟩, hbmask⟩ := ho
  simp only [mmaOpsWord, mmaWord, flagAt] at hw
  have hkeep := b2n_lt_two o.keep
  have hdrain := b2n_lt_two o.drain
  have hzero := b2n_lt_two o.zero
  have hbind := b2n_lt_two o.bind
  have hfields : mmaFields w (mmaP0 o.mask o.b o.a) = ⟨o.m, o.n, o.k, o.aring, o.bring, o.keep, o.drain, o.zero, o.acc, o.mask, o.b, o.a, o.bmask, o.bind⟩ := by
    rw [mmaFields, mmaP0, MmaOps.mk.injEq]
    exact ⟨fld_eq (by omega), fld_eq (by omega), fld_eq (by omega), fld_eq (by omega), fld_eq (by omega), bitOf_eq (by omega), bitOf_eq (by omega),
      bitOf_eq (by omega), fld_eq (by omega), fld_eq (by omega), fld_eq (by omega), fld_eq (by omega), fld_eq (by omega), bitOf_eq (by omega)⟩
  exact ⟨hfields, fld_eq (by omega), by omega, by rw [mmaP0]; omega⟩

theorem EngRef.isOf_array {x : EngRef} (h : x.isOf [0, 1] = true) : ¬ (x.eng = 5 ∨ x.eng = 6) ∧ (x.eng = 0 ∨ x.eng = 1) := by
  have heng : x.eng = 0 ∨ x.eng = 1 := by simpa using EngRef.isOf_eng h
  omega

theorem mmaWord_head {c w : Nat} (h : w / 2 ^ 56 = c) : w / 2 ^ 58 = c / 4 ∧ fld w 57 56 = c % 4 :=
  ⟨by omega, fld_eq (by omega)⟩

theorem decodes_ebbSetimm {chainSlot imm0 imm1 : Nat} (hwf : (x.isOf [0, 1] && fits 3 chainSlot && fits 32 imm0 && fits 32 imm1) = true)
    (hw : 19 * 2 ^ 58 + chainSlot * 2 ^ 55 + imm0 = w) :
    w < 2 ^ 64 ∧ nativeInstr x t w 0 [imm1, 0] = some (.ebbSetimm x chainSlot imm0 imm1) := by
  simp only [fits, Bool.and_eq_true, decide_eq_true_eq] at hwf
  obtain ⟨⟨⟨hx, hslot⟩, himm0⟩, himm1⟩ := hwf
  obtain ⟨hmove, heng⟩ := EngRef.isOf_array hx
  have hop : w / 2 ^ 58 = 19 := by omega
  have hz : fld w 54 32 = 0 := fld_eq (by omega)
  have hslot' : fld w 57 55 = chainSlot := fld_eq (by omega)
  have himm0' : fld w 31 0 = imm0 := fld_eq (by omega)
  have himm1' : imm1 / 2 ^ 32 = 0 := by omega
  refine ⟨by omega, ?_⟩
  rw [nativeInstr_engine hop (by decide), engineWord, hop]
  simp only [List.getD_cons_zero, himm1']
  simp [hmove, heng, hz, hslot', himm0']

theorem decodes_ebbSetvec {chainSlot handle : Nat} (hwf : (x.isOf [0, 1] && fits 3 chainSlot && fits 12 handle) = true)
    (hw : 20 * 2 ^ 58 + chainSlot * 2 ^ 55 + handle = w) (hhandles : [handle].all (handleOk t.descriptors) = true) :
    w < 2 ^ 64 ∧ nativeInstr x t w 0 [0, 0] = some (.ebbSetvec x chainSlot handle) := by
  simp only [fits, Bool.and_eq_true, decide_eq_true_eq] at hwf
  obtain ⟨⟨hx, hslot⟩, hhandle⟩ := hwf
  obtain ⟨hmove, heng⟩ := EngRef.isOf_array hx
  have hok : handleOk t.descriptors handle = true := by simpa using hhandles
  have hop : w / 2 ^ 58 = 20 := by omega
  have hz : fld w 54 12 = 0 := fld_eq (by omega)
  have hslot' : fld w 57 55 = chainSlot := fld_eq (by omega)
  have hhandle' : fld w 11 0 = handle := fld_eq (by omega)
  refine ⟨by omega, ?_⟩
  rw [nativeInstr_engine hop (by decide), engineWord, hop]
  simp [hmove, heng, hz, hslot', hhandle', hok]

/-- The MMA and SPMM instructions by the eight bits of their opcode and mode. -/
def arrayInstr (x : EngRef) (o : MmaOps) : Nat → Instr
  | 64 => .mmaDense x o
  | 65 => .mmaSliding x o
  | 66 => .mmaTransposed x o
  | 67 => .mmaPlane x o
  | _ => .spmm x o

theorem decodes_arrayInstr {o : MmaOps} {c : Nat} (hc : 64 ≤ c ∧ c ≤ 68) (hwf : (x.isOf [0, 1] && o.wf) = true) (hw : c * 2 ^ 56 + mmaOpsWord o = w)
    (hhandles : [o.mask, o.b, o.a].all (handleOk t.descriptors) = true) :
    w < 2 ^ 64 ∧ nativeInstr x t w 0 [mmaP0 o.mask o.b o.a, 0] = some (arrayInstr x o c) := by
  obtain ⟨hx, ho⟩ := Bool.and_eq_true_iff.1 hwf
  obtain ⟨hmove, heng⟩ := EngRef.isOf_array hx
  obtain ⟨hok, hok', hok''⟩ : handleOk t.descriptors o.mask = true ∧ handleOk t.descriptors o.b = true ∧ handleOk t.descriptors o.a = true := by
    simpa using hhandles
  obtain ⟨hfields, hz, htop, hp⟩ := mmaFields_word ho hw.symm
  obtain ⟨hop, hmode⟩ := mmaWord_head htop
  refine ⟨by omega, ?_⟩
  rw [nativeInstr_engine hop (by omega), engineWord, hop]
  obtain ⟨hlo, hhi⟩ := hc
  simp only [List.getD_cons_zero, hfields, hz, hp, hok, hok', hok'', hmode]
  interval_cases c <;> simp [hmove, heng, arrayInstr]

/-- The operands that a LOOKOUT shares with an MMA, as they lie in its word. -/
def lookoutShared (o : LookoutOps) : MmaOps :=
  ⟨o.m, o.n, o.k, o.aring, o.bring, o.topk, bitOf o.planes 1, bitOf o.planes 0, o.acc, o.mask, o.b, o.a, o.bmask, o.bind⟩

theorem b2n_bits_of_lt_four {v : Nat} (h : v ≤ 3) : 2 * b2n (bitOf v 1) + b2n (bitOf v 0) = v := by
  interval_cases v <;> rfl

theorem decodes_lookout (o : LookoutOps) (hwf : (x.isOf [0, 1] && o.wf) = true)
    (hw : 18 * 2 ^ 58 + flagAt 56 o.absolute + mmaOpsWord (lookoutShared o) = w) (hhandles : [o.mask, o.b, o.a].all (handleOk t.descriptors) = true) :
    w < 2 ^ 64 ∧ nativeInstr x t w 0 [mmaP0 o.mask o.b o.a, o.param] = some (.lookout x o) := by
  simp only [LookoutOps.wf, fits, Bool.and_eq_true, decide_eq_true_eq, bne_iff_ne] at hwf
  obtain ⟨hx, ⟨⟨⟨⟨⟨⟨⟨⟨⟨⟨⟨⟨hm, hn⟩, hk⟩, haring⟩, hbring⟩, hone⟩, hthree⟩, hacc⟩, hmask⟩, hsome⟩, hb⟩, ha⟩, hparam⟩, hbmask⟩ := hwf
  have ho : (lookoutShared o).wf = true := by
    simp only [MmaOps.wf, fits, Bool.and_eq_true, decide_eq_true_eq]
    simp only [lookoutShared]
    omega
  obtain ⟨hmove, heng⟩ := EngRef.isOf_array hx
  obtain ⟨hok, hok', hok''⟩ : handleOk t.descriptors o.mask = true ∧ handleOk t.descriptors o.b = true ∧ handleOk t.descriptors o.a = true := by
    simpa using hhandles
  have habs := b2n_lt_two o.absolute
  obtain ⟨hfields, hz, htop, hp⟩ := mmaFields_word (c := 72 + b2n o.absolute) (w := w) ho (by rw [flagAt] at hw; omega)
  have hop : w / 2 ^ 58 = 18 := by omega
  have hz' : fld w 57 57 = 0 := fld_eq (by omega)
  have habs' : bitOf w 56 = o.absolute := bitOf_eq (by omega)
  have hplanes := b2n_bits_of_lt_four hthree
  have hparam' : o.param / 2 ^ 32 = 0 := by omega
  refine ⟨by omega, ?_⟩
  rw [nativeInstr_engine hop (by decide), engineWord, hop]
  simp only [List.getD_cons_zero, List.getD_cons_succ, show mmaFields w (mmaP0 o.mask o.b o.a) = lookoutShared o from hfields, lookoutShared, hz, hz', habs', hplanes,
    show mmaP0 o.mask o.b o.a / 2 ^ 36 = 0 from hp, hok, hok', hok'', hparam']
  simp [hmove, heng, hsome, Nat.pos_iff_ne_zero.1 hone]

end

/-- Settles O8: each native word by its own lemma; no other command has one. -/
theorem nativeWordsDecode : Obligations.NativeWordsDecode := by
  unfold Obligations.NativeWordsDecode
  intro i t w hwf henc hhandles hnamed
  cases i with
  | nop x => exact decodes_nop t (Option.some.inj henc)
  | endSeq x => exact decodes_endSeq t (Option.some.inj henc)
  | setlc x lc fromShape i imm => exact decodes_setlc t hwf (Option.some.inj henc)
  | loop x lc body => exact decodes_loop t hwf (Option.some.inj henc)
  | nest x n body => exact decodes_nest t hwf (Option.some.inj henc) hnamed
  | signalAdd x core number amount => exact decodes_signalAdd t hwf (Option.some.inj henc)
  | signalPost x core number amount => exact decodes_signalPost t hwf (Option.some.inj henc)
  | waitGe x number value => exact decodes_waitGe t hwf (Option.some.inj henc)
  | waitTake x number value => exact decodes_waitTake t hwf (Option.some.inj henc)
  | waitAcq x number value => exact decodes_waitAcq t hwf (Option.some.inj henc)
  | chsend x channel endMark core data => exact decodes_chsend t hwf (Option.some.inj henc)
  | chrecv x channel lc tagen tlc => exact decodes_chrecv t hwf (Option.some.inj henc)
  | param x p value => exact decodes_param t hwf (Option.some.inj henc)
  | move x o => exact decodes_move t o hwf (Option.some.inj henc)
  | mmaDense x o => exact decodes_arrayInstr t (c := 64) (by decide) hwf (Option.some.inj henc) hhandles
  | mmaSliding x o => exact decodes_arrayInstr t (c := 65) (by decide) hwf (Option.some.inj henc) hhandles
  | mmaTransposed x o => exact decodes_arrayInstr t (c := 66) (by decide) hwf (Option.some.inj henc) hhandles
  | mmaPlane x o => exact decodes_arrayInstr t (c := 67) (by decide) hwf (Option.some.inj henc) hhandles
  | spmm x o => exact decodes_arrayInstr t (c := 68) (by decide) hwf (Option.some.inj henc) hhandles
  | lookout x o => exact decodes_lookout t o hwf (Option.some.inj henc) hhandles
  | ebbSetimm x chainSlot imm0 imm1 => exact decodes_ebbSetimm t hwf (Option.some.inj henc)
  | ebbSetvec x chainSlot handle => exact decodes_ebbSetvec t hwf (Option.some.inj henc) hhandles
  | isect x o => exact decodes_isect t o hwf (Option.some.inj henc) hhandles
  | merge x table => exact decodes_merge t hwf (Option.some.inj henc) hhandles
  | pack x o => exact decodes_pack t o hwf (Option.some.inj henc) hhandles
  | list x starter dir => exact decodes_list t hwf (Option.some.inj henc) hhandles
  | release x => exact decodes_release t hwf (Option.some.inj henc)
  | _ => cases henc

end Sys2Proof.Machine
end

section
/-! PROOFS of the family 13_strata_images_and_phases: the strata image's checksum is the CRC-32C that R340 describes. -/

namespace Sys2Proof.Machine

/-! ## CRC-32C, bit by bit (R340) -/

/-- The bits of a byte, the least significant first. -/
def crcBits (b : Byte) : List Bool := (List.range 8).map b.toNat.testBit

/-- One bit enters the register that shifts left. -/
def crcShift (c : Nat) (b : Bool) : Nat := if c.testBit 31 != b then c * 2 % 2 ^ 32 ^^^ 0x1EDC6F41 else c * 2 % 2 ^ 32

/-- One bit enters the register that shifts right, which holds the bits of the other reversed. -/
def crcShiftRight (c : Nat) (b : Bool) : Nat := if c.testBit 0 != b then c / 2 ^^^ 0x82F63B78 else c / 2

/-- The 32 bits of a register reversed. -/
def crcReflect (c : Nat) : Nat := (List.range 32).foldl (fun v i => 2 * v + (c.testBit i).toNat) 0

theorem testBit_foldl_bits (f : Nat → Bool) (n j : Nat) :
    ((List.range n).foldl (fun v i => 2 * v + (f i).toNat) 0).testBit j = (decide (j < n) && f (n - 1 - j)) := by
  induction n generalizing j with
  | zero => simp
  | succ n ih =>
    rw [List.range_succ, List.foldl_append, List.foldl_cons, List.foldl_nil, ← Nat.bit_val]
    cases j with
    | zero => simp
    | succ j =>
      rw [Nat.testBit_bit_succ, ih]
      simp [Nat.sub_sub, Nat.add_comm]

theorem testBit_crcReflect (c j : Nat) : (crcReflect c).testBit j = (decide (j < 32) && c.testBit (31 - j)) := testBit_foldl_bits c.testBit 32 j

/-- The two polynomials are each other's reversal. -/
theorem crcPolynomial_reversed : ∀ j, j < 32 → Nat.testBit 0x1EDC6F41 (31 - j) = Nat.testBit 0x82F63B78 j := by decide

theorem testBit_crcReflect_div_two (c j : Nat) (hj : j < 32) : (crcReflect c / 2).testBit j = (c * 2 % 2 ^ 32).testBit (31 - j) := by
  rw [← Nat.testBit_succ, testBit_crcReflect, Nat.testBit_mod_two_pow, show c * 2 = c * 2 ^ 1 from rfl, Nat.testBit_mul_two_pow]
  rcases Nat.lt_or_eq_of_le (Nat.le_of_lt_succ hj) with h | rfl
  · rw [decide_eq_true (show 31 - j < 32 by omega), decide_eq_true (show j + 1 < 32 by omega), decide_eq_true (show 1 ≤ 31 - j by omega),
      show 31 - (j + 1) = 31 - j - 1 by omega]
    rfl
  · rfl

theorem crcReflect_div_two_lt (c : Nat) : crcReflect c / 2 < 2 ^ 32 := by
  have : crcReflect c < 2 ^ 32 := Nat.lt_pow_two_of_testBit _ fun j hj => by rw [testBit_crcReflect, decide_eq_false (by omega)]; rfl
  omega

/-- Shifting left on the reversed bits is shifting right. -/
theorem crcReflect_crcShift (c : Nat) (b : Bool) : crcReflect (crcShift c b) = crcShiftRight (crcReflect c) b := by
  have hlow : (crcReflect c).testBit 0 = c.testBit 31 := by rw [testBit_crcReflect]; rfl
  have hlt : crcShiftRight (crcReflect c) b < 2 ^ 32 := by
    unfold crcShiftRight
    split
    · exact Nat.xor_lt_two_pow (crcReflect_div_two_lt c) (by decide)
    · exact crcReflect_div_two_lt c
  apply Nat.eq_of_testBit_eq
  intro j
  rw [testBit_crcReflect]
  by_cases hj : j < 32
  · rw [decide_eq_true hj, Bool.true_and, crcShift, crcShiftRight, hlow]
    split
    · rw [Nat.testBit_xor, Nat.testBit_xor, testBit_crcReflect_div_two c j hj, crcPolynomial_reversed j hj]
    · exact (testBit_crcReflect_div_two c j hj).symm
  · rw [decide_eq_false hj, Bool.false_and, Nat.testBit_lt_two_pow (Nat.lt_of_lt_of_le hlt (Nat.pow_le_pow_right (by decide) (by omega)))]

/-- A byte that is XORed onto the register at once enters it as its bits one by one. -/
theorem crc32cBits_xor (n c x : Nat) (hx : x < 2 ^ n) : crc32cBits n (c ^^^ x) = ((List.range n).map x.testBit).foldl crcShiftRight c := by
  induction n generalizing c x with
  | zero => simp [crc32cBits, show x = 0 by omega]
  | succ n ih =>
    have hstep : (if (c ^^^ x) % 2 == 1 then (c ^^^ x) / 2 ^^^ 0x82F63B78 else (c ^^^ x) / 2) = crcShiftRight c (x.testBit 0) ^^^ x / 2 := by
      have hodd : ((c ^^^ x) % 2 == 1) = (c.testBit 0 != x.testBit 0) :=
        (beq_eq_decide _ _).trans ((Nat.testBit_zero _).symm.trans (Nat.testBit_xor c x 0))
      rw [hodd, crcShiftRight, Nat.xor_div_two]
      split
      · rw [Nat.xor_assoc, Nat.xor_assoc, Nat.xor_comm (x / 2)]
      · rfl
    have htail : (fun i => x.testBit (i + 1)) = (x / 2).testBit := funext fun i => Nat.testBit_succ x i
    rw [crc32cBits, hstep, ih _ _ (by omega), List.range_succ_eq_map, List.map_cons, List.foldl_cons, List.map_map]
    exact congrArg (fun f => ((List.range n).map f).foldl crcShiftRight (crcShiftRight c (x.testBit 0))) htail.symm

theorem crc32c_fold (bs : List Byte) (c : Nat) :
    bs.foldl (fun c b => crc32cBits 8 (c ^^^ b.toNat)) (crcReflect c) = crcReflect ((bs.flatMap crcBits).foldl crcShift c) := by
  have hbits (l : List Bool) (c : Nat) : l.foldl crcShiftRight (crcReflect c) = crcReflect (l.foldl crcShift c) := by
    induction l generalizing c with
    | nil => rfl
    | cons b l ih => rw [List.foldl_cons, List.foldl_cons, ← crcReflect_crcShift, ih]
  induction bs generalizing c with
  | nil => rfl
  | cons b bs ih =>
    rw [List.foldl_cons, List.flatMap_cons, List.foldl_append, crc32cBits_xor _ _ _ b.isLt,
      show (List.range 8).map b.toNat.testBit = crcBits b from rfl, hbits, ih]

/-- Settles O57: the register of the model holds the bits of the one that R340 describes reversed. -/
theorem checksumsAreCrc32c : Obligations.ChecksumsAreCrc32c :=
  ⟨fun bs => congrArg (· ^^^ 0xFFFFFFFF) (crc32c_fold bs 0xFFFFFFFF), by decide +kernel⟩

end Sys2Proof.Machine
end

section
/-! PROOFS of the family 14_causeway_and_bangeby_links: pool credits, the frames and acknowledgements of hops and links, key agreement, and the links'
coming up and going down. -/

namespace Sys2Proof.Machine
namespace State

/-! ## Serving a pool (R361) -/

theorem pool_send (s : State) (f : Frame) (p t : Nat) : (s.send f).pool p t = s.pool p t := by
  unfold pool; rw [send_pools]

theorem pool_arrived (s : State) (f : Frame) (p t : Nat) : (s.arrived f).pool p t = s.pool p t := by
  unfold pool; rw [arrived_pools]

theorem serve_of_empty {s : State} {p t : Nat} (h : (s.pool p t).queue = []) : s.serve p t = s := by
  unfold serve; rw [h]; rfl

theorem serve_one {s : State} {p t : Nat} {f : Frame} (h : (s.pool p t).queue = [f]) :
    s.serve p t = (let v := s.pool p t
      let n := min f.count v.size
      if n = 0 ∨ v.avail < n then s
      else (s.setPool p t { v with avail := v.avail - n, queue := [] }).send (grantFrame f n v.gen)) := by
  unfold serve
  rw [h, List.length_singleton, grantPool]
  dsimp only
  rw [h]
  rfl

/-- A request that finds an empty queue is the one that is served. -/
theorem takeRequest_alone {s : State} {f : Frame} (hfence : (s.arrived f).targetFenced f.target = false)
    (hqueue : (s.pool f.partition f.target).queue = []) :
    s.takeRequest f = ((s.arrived f).setPool f.partition f.target { s.pool f.partition f.target with queue := [f] }).serve f.partition f.target := by
  unfold takeRequest
  dsimp only
  rw [hfence, pool_arrived, hqueue, List.nil_append]
  rfl

theorem takeRequest_granted {s : State} {f : Frame} (hfence : (s.arrived f).targetFenced f.target = false)
    (hqueue : (s.pool f.partition f.target).queue = []) (hsome : min f.count (s.pool f.partition f.target).size ≠ 0)
    (hcover : min f.count (s.pool f.partition f.target).size ≤ (s.pool f.partition f.target).avail) :
    s.takeRequest f = (((s.arrived f).setPool f.partition f.target { s.pool f.partition f.target with queue := [f] }).setPool f.partition f.target
      { s.pool f.partition f.target with
        avail := (s.pool f.partition f.target).avail - min f.count (s.pool f.partition f.target).size, queue := [] }).send
      (grantFrame f (min f.count (s.pool f.partition f.target).size) (s.pool f.partition f.target).gen) := by
  rw [takeRequest_alone hfence hqueue, serve_one (f := f) (by rw [pool_setPool_self])]
  dsimp only
  rw [pool_setPool_self]
  dsimp only
  rw [if_neg (by omega)]

theorem takeRequest_waits {s : State} {f : Frame} (hfence : (s.arrived f).targetFenced f.target = false)
    (hqueue : (s.pool f.partition f.target).queue = []) (hshort : (s.pool f.partition f.target).avail < min f.count (s.pool f.partition f.target).size) :
    s.takeRequest f = (s.arrived f).setPool f.partition f.target { s.pool f.partition f.target with queue := [f] } := by
  rw [takeRequest_alone hfence hqueue, serve_one (f := f) (by rw [pool_setPool_self])]
  dsimp only
  rw [pool_setPool_self]
  exact if_pos (Or.inr hshort)

theorem maySend_setPool (s : State) (p t : Nat) (v : Pool) (f : Frame) : (s.setPool p t v).maySend f = s.maySend f := rfl

/-! ## Returning credits (R363) -/

theorem returnOne_of_no_quota {s : State} {p t : Nat} (h : s.quotaLimit p 2 = none) :
    s.returnOne p t = s.setPool p t { s.pool p t with avail := (s.pool p t).avail + 1 } := by
  have hover : s.overQuota p = false := by unfold overQuota; rw [h]
  unfold returnOne
  rw [hover]
  rfl

theorem returnMany_of_no_quota {s : State} {p t : Nat} (h : s.quotaLimit p 2 = none) (n : Nat) :
    (s.returnMany p t n).pool p t = { s.pool p t with avail := (s.pool p t).avail + n } := by
  induction n generalizing s with
  | zero => rfl
  | succ n ih =>
    rw [returnMany, returnOne_of_no_quota h, ih (s := s.setPool p t _) h, pool_setPool_self, Nat.add_assoc, Nat.add_comm 1 n]

theorem returnMany_frames (s : State) (p t n : Nat) : (s.returnMany p t n).frames = s.frames := returnMany_keeps (·.frames) setPool_frames p t n s

theorem quotaLimit_arrived (s : State) (f : Frame) (p k : Nat) : (s.arrived f).quotaLimit p k = s.quotaLimit p k := by
  unfold quotaLimit rf reg; rw [arrived_regs]

/-- A return under the pool's generation that no request waits for and no quota retires. -/
theorem returnCredits_adds {s : State} {p t gen n : Nat} (hgen : gen = (s.pool p t).gen) (hqueue : (s.pool p t).queue = [])
    (hquota : s.quotaLimit p 2 = none) :
    (s.returnCredits p t gen n).pool p t = { s.pool p t with avail := (s.pool p t).avail + n } ∧ (s.returnCredits p t gen n).frames = s.frames := by
  have hpool := returnMany_of_no_quota (t := t) hquota n
  have heq : s.returnCredits p t gen n = s.returnMany p t n := by
    unfold returnCredits
    rw [hgen, bne_self_eq_false, if_neg Bool.false_ne_true, serve_of_empty (by rw [hpool]; exact hqueue)]
  rw [heq]
  exact ⟨hpool, returnMany_frames s p t n⟩

/-- A return of another generation is discarded (R364). -/
theorem returnCredits_of_other_gen {s : State} {p t gen n : Nat} (h : gen ≠ (s.pool p t).gen) : s.returnCredits p t gen n = s := by
  unfold returnCredits
  rw [bne_iff_ne.mpr h, if_pos rfl]

/-- What a frame that is sent does to the frames on the fabric and to those that wait. -/
theorem send_places (s : State) (f : Frame) :
    (s.maySend f = true → (s.send f).frames = s.frames ++ [f] ∧ (s.send f).backlog = s.backlog)
    ∧ (s.maySend f = false → (s.send f).frames = s.frames ∧ (s.send f).backlog = s.backlog ++ [f]) := by
  unfold send
  constructor <;> intro h <;> rw [h]
  · exact ⟨launch_frames s f, launch_backlog s f⟩
  · exact ⟨rfl, rfl⟩

end State

theorem exec_creditRequest (f : Frame) (s : State) : exec (.creditRequest f) s = .next (s.takeRequest f) := rfl

/-- Settles O36, by the one step that serving an empty queue's newcomer takes, and by induction on the credits that return. -/
theorem creditsAreConserved : Obligations.CreditsAreConserved := by
  intro s f a v n
  refine ⟨fun hfence hqueue hsome hcover => ?_, fun hfence hqueue hshort => ?_, fun hgen hqueue hquota => ?_, fun hgen => ?_⟩
  · refine ⟨_, (exec_creditRequest f s).trans (congrArg Host.Outcome.next (State.takeRequest_granted hfence hqueue hsome hcover)), ?_⟩
    have hplaces := State.send_places (((s.arrived f).setPool f.partition f.target { v with queue := [f] }).setPool f.partition f.target
      { v with avail := v.avail - n, queue := [] }) (State.grantFrame f n v.gen)
    rw [State.maySend_setPool, State.maySend_setPool, State.setPool_frames, State.setPool_frames, State.setPool_backlog, State.setPool_backlog] at hplaces
    refine ⟨?_, hplaces.1, hplaces.2, fun p q hne => ?_⟩
    · rw [State.pool_send, State.pool_setPool_self]
      exact congrArg (fun q => ({ v with avail := v.avail - n, queue := q } : Pool)) hqueue.symm
    · rw [State.pool_send, State.pool_setPool_other _ _ _ _ _ _ hne, State.pool_setPool_other _ _ _ _ _ _ hne, State.pool_arrived]
  · exact ⟨_, (exec_creditRequest f s).trans (congrArg Host.Outcome.next (State.takeRequest_waits hfence hqueue hshort)), State.pool_setPool_self _ _ _ _, rfl⟩
  · have hadds := State.returnCredits_adds (s := a) (n := f.count) (hgen.trans (by rw [State.pool_arrived])) (by rw [State.pool_arrived]; exact hqueue)
      ((State.quotaLimit_arrived s f _ _).trans hquota)
    rw [State.pool_arrived] at hadds
    exact ⟨_, exec_creditReturn f s, hadds⟩
  · refine ⟨_, exec_creditReturn f s, ?_⟩
    rw [State.returnCredits_of_other_gen (by rw [State.pool_arrived]; exact hgen)]
    exact ⟨State.arrived_pools s f, rfl⟩

end Sys2Proof.Machine
end

section
namespace Sys2Proof.Machine
namespace State

/-! ## Link frames that fail the first checks (R373) -/

/-- The counts of a link's errors after a frame's codewords: those that cannot be corrected are counted. -/
def countFec (s : State) (n : Nat) (f : LinkFrame) : State := if f.fecOk then s else s.satRf (blReg .blErr n) 47 32 1

/-- The acknowledgement of a frame that fails the codewords, the CRC or the counter. -/
def badAck (s : State) (n : Nat) (f : LinkFrame) : OutEvent :=
  if f.fecOk = true ∧ f.crcOk = true ∧ f.counter < (s.link n).expected then .linkAck n true ((s.link n).expected - 1) else .linkAck n false (s.link n).expected

theorem takeLinkFrame_bad {s : State} {n : Nat} {f : LinkFrame} (hup : s.linkUp n = true)
    (hbad : ¬ (f.fecOk = true ∧ f.crcOk = true ∧ f.counter = (s.link n).expected)) : s.takeLinkFrame n f = (s.countFec n f).emit (s.badAck n f) := by
  unfold takeLinkFrame countFec badAck
  cases hfec : f.fecOk
  case false => simp [hup, linkNak, satRf, setRf]
  case true =>
    cases hcrc : f.crcOk
    case false => simp [hup, linkNak]
    case true =>
      rcases Nat.lt_trichotomy f.counter (s.link n).expected with h | h | h
      · simp [hup, h]
      · exact absurd ⟨hfec, hcrc, h⟩ hbad
      · simp [hup, linkNak, h, Nat.not_lt_of_lt h]

theorem countFec_keeps {β : Type} (g : State → β) (hreg : ∀ s r w, g (setReg s r w) = g s) (s : State) (n : Nat) (f : LinkFrame) :
    g (s.countFec n f) = g s := ite_keeps g rfl (hreg _ _ _)

theorem reg_countFec (s : State) (n : Nat) (f : LinkFrame) {r : RegId} (h : r ≠ blReg .blErr n) : (s.countFec n f).reg r = s.reg r :=
  ite_keeps (·.reg r) rfl (reg_setRf_other s _ _ _ h)

end State

theorem exec_linkFrame (n : Nat) (f : LinkFrame) (s : State) : exec (.linkFrame n f) s = .next (s.takeLinkFrame n f) := rfl

/-- Settles O39: the frame leaves its acknowledgement and, at most, a count of codewords. -/
theorem badLinkFramesChangeNothing : Obligations.BadLinkFramesChangeNothing := by
  intro s n f hup hbad
  have keeps {β : Type} (g : State → β) (hreg : ∀ s r w, g (State.setReg s r w) = g s) : g (s.countFec n f) = g s := State.countFec_keeps g hreg s n f
  exact ⟨_, (exec_linkFrame n f s).trans (congrArg Host.Outcome.next (State.takeLinkFrame_bad hup hbad)),
    keeps (·.link n) fun _ _ _ => rfl, keeps (·.links) State.setReg_links, keeps (·.mem) State.setReg_mem, keeps (·.tasks) State.setReg_tasks,
    keeps (·.engs) State.setReg_engs, keeps (·.pools) State.setReg_pools, keeps (·.chans) State.setReg_chans, keeps (·.frames) State.setReg_frames,
    keeps (·.lh) State.setReg_lh, fun r hr => State.reg_countFec s n f hr,
    congrArg (· ++ [s.badAck n f]) (keeps (·.out) State.setReg_out)⟩

end Sys2Proof.Machine
end

section
namespace Sys2Proof.Machine
namespace State

/-! ## Key agreement, message by message (R377, R378) -/

theorem drawKey_of_ok {s : State} (h : s.trust.entropyOk = true) :
    s.drawKey = (some (s.trust.draws + 1), s.setTrust { s.trust with draws := s.trust.draws + 1 }) := by
  unfold drawKey; rw [h]; rfl

/-- An agreement or a rotation can be answered at the follower before it has begun, or once the follower has asked for it. -/
theorem stage_open {k : Nat} (h : k = 0 ∨ k = 4) : (k == 0 || k == 4) = true := by rcases h with rfl | rfl <;> rfl

theorem takeOffer_expected {s : State} {n : Nat} {m : KeyMessage} (hup : s.linkUp n = true) (hfollow : s.leads n = false) (hkeys : s.linkKeyed n = false)
    (hstage : (s.link n).stage = 0 ∨ (s.link n).stage = 4) (hrandom : s.trust.entropyOk = true) :
    s.takeOffer n m = (
      if Config.chainVerify (messageChain m.body) then
        let d := s.trust.draws + 1
        let ct := Config.kemEncaps (messageKem m.body) d
        let tr := m.body ++ (leBytes 1 s.packageNumber ++ leBytes 1 n ++ zeros 2 ++ nonceOf d ++ leBytes 2 Config.certChain.length ++ Config.certChain ++ ct)
        ((s.setTrust { s.trust with draws := d }).setLink n
          { s.link n with stage := 8, transcript := tr, secret := secretOf (messageKem m.body) d }).askSignature .smbus 4 (sha256 tr) n
      else s.keyFail n true) := by
  unfold takeOffer
  cases hchain : Config.chainVerify (messageChain m.body)
  case false => simp [hup]
  case true =>
    simp only [hup, hfollow, hkeys, stage_open hstage, drawKey_of_ok hrandom]
    rfl

theorem takeAccept_expected {s : State} {n : Nat} {m : KeyMessage} (hup : s.linkUp n = true) (hstage : (s.link n).stage = 1) :
    s.takeAccept n m = (
      if Config.chainVerify (messageChain m.body)
          && Config.slhVerify (Config.chainKey (messageChain m.body)) (sha256 ((s.link n).transcript ++ m.body)) m.signature then
        let tr := (s.link n).transcript ++ m.body ++ m.signature
        (s.setLink n { s.link n with stage := 9, transcript := tr, secret := secretOf (messageKem m.body) (s.link n).secret }).askSignature .smbus 4 (sha256 tr) n
      else s.keyFail n true) := by
  unfold takeAccept
  cases hchain : Config.chainVerify (messageChain m.body)
  case false => simp [hup, hchain]
  case true =>
    cases hsign : Config.slhVerify (Config.chainKey (messageChain m.body)) (sha256 ((s.link n).transcript ++ m.body)) m.signature <;>
      simp only [hup, hstage, hchain, hsign] <;> rfl

theorem takeConfirm_expected {s : State} {n : Nat} {m : KeyMessage} (hup : s.linkUp n = true) (hstage : (s.link n).stage = 2) :
    s.takeConfirm n m = (
      if Config.slhVerify (Config.chainKey (messageChain (s.link n).transcript)) (sha256 (s.link n).transcript) m.signature then
        s.installKeys n ((s.link n).transcript ++ m.signature)
      else s.keyFail n true) := by
  unfold takeConfirm
  cases hsign : Config.slhVerify (Config.chainKey (messageChain (s.link n).transcript)) (sha256 (s.link n).transcript) m.signature <;>
    simp [hup, hstage, hsign]

/-! ## Key rotation, message by message (R379) -/

theorem takeRotateOffer_expected {s : State} {n : Nat} {m : KeyMessage} (hup : s.linkUp n = true) (hfollow : s.leads n = false) (hkeys : s.linkKeyed n = true)
    (hstage : (s.link n).stage = 0 ∨ (s.link n).stage = 4) (hrandom : s.trust.entropyOk = true) :
    s.takeRotateOffer n m = ((((s.setTrust { s.trust with draws := s.trust.draws + 1 }).setRf (linkStat n) 60 60 1).setLink n
      { s.link n with readySent := false, peerReady := false }).linkMessage n 5 (Config.kemEncaps m.body (s.trust.draws + 1))).installNext n
        (secretOf m.body (s.trust.draws + 1)) := by
  unfold takeRotateOffer
  simp only [hup, hfollow, hkeys, stage_open hstage, drawKey_of_ok hrandom]
  rfl

theorem takeRotateAccept_expected {s : State} {n : Nat} {m : KeyMessage} (hup : s.linkUp n = true) (hstage : (s.link n).stage = 5) :
    s.takeRotateAccept n m = (s.installNext n (secretOf m.body (s.link n).secret)).trySwitch n := by
  unfold takeRotateAccept
  simp only [hup, hstage]
  rfl

theorem takeReady_expected {s : State} {n : Nat} (hup : s.linkUp n = true) (hrotating : s.linkRotating n = true) (hpeer : (s.link n).peerReady = false)
    (hstage : (s.link n).stage = 5 ∨ (s.link n).stage = 7) :
    s.takeReady n (1 - s.linkEpoch n) = (s.setLink n { s.link n with peerReady := true }).trySwitch n := by
  unfold takeReady
  rcases hstage with h | h <;> simp [hup, hrotating, hpeer, h]

/-! ## What begins an exchange -/

theorem startAgree_idle {s : State} {n : Nat} (hup : s.linkUp n = true) (hkeys : s.linkKeyed n = false) (hstage : (s.link n).stage = 0) :
    s.startAgree n = if s.leads n then s.sendOffer n else (s.setLink n { s.link n with stage := 4 }).linkMessage n 7 (leBytes 4 1) := by
  unfold startAgree
  simp [hup, hkeys, hstage]

/-- A rotation that begins: the leader draws and offers, the follower asks for it. -/
theorem startRotation_idle {s : State} {n : Nat} (hup : s.linkUp n = true) (hkeys : s.linkKeyed n = true) (hrotating : s.linkRotating n = false)
    (hstage : (s.link n).stage = 0) (hrandom : s.trust.entropyOk = true) :
    s.startRotation n = if s.leads n then
        (((s.setTrust { s.trust with draws := s.trust.draws + 1 }).setRf (linkStat n) 60 60 1).setLink n
          { s.link n with stage := 5, secret := s.trust.draws + 1, readySent := false, peerReady := false }).linkMessage n 4 (Config.kemKey (s.trust.draws + 1))
      else ((s.setRf (linkStat n) 60 60 1).setLink n { s.link n with stage := 4, readySent := false, peerReady := false }).linkMessage n 7 (leBytes 4 2) := by
  unfold startRotation
  simp [hup, hkeys, hrotating, hstage, drawKey_of_ok hrandom]

theorem takeLinkRequest_agree {s : State} {n : Nat} (hup : s.linkUp n = true) (hlead : s.leads n = true) (hkeys : s.linkKeyed n = false)
    (hstage : (s.link n).stage = 0) : s.takeLinkRequest n 1 = s.sendOffer n := by
  unfold takeLinkRequest
  simp only [hup, hlead, startAgree_idle hup hkeys hstage]
  rfl

theorem takeLinkRequest_rotate {s : State} {n : Nat} (hup : s.linkUp n = true) (hlead : s.leads n = true) (hkeys : s.linkKeyed n = true)
    (hrotating : s.linkRotating n = false) (hstage : (s.link n).stage = 0) (hrandom : s.trust.entropyOk = true) :
    s.takeLinkRequest n 2 = (((s.setTrust { s.trust with draws := s.trust.draws + 1 }).setRf (linkStat n) 60 60 1).setLink n
      { s.link n with stage := 5, secret := s.trust.draws + 1, readySent := false, peerReady := false }).linkMessage n 4 (Config.kemKey (s.trust.draws + 1)) := by
  unfold takeLinkRequest
  simp only [hup, hlead, startRotation_idle hup hkeys hrotating hstage hrandom]
  rfl

theorem takeAbort_expected {s : State} {n : Nat} (hup : s.linkUp n = true) (h : (s.link n).stage ≠ 0 ∨ s.linkRotating n = true) :
    s.takeAbort n = s.keyFail n false := by
  unfold takeAbort
  rcases h with h | h <;> simp [hup, h]

/-! ## Links that come up and go down (R376, R377), and frames that pass (R373) -/

theorem takeLinkFrame_good {s : State} {n : Nat} {f : LinkFrame} (hup : s.linkUp n = true) (hfec : f.fecOk = true) (hcrc : f.crcOk = true)
    (hcounter : f.counter = (s.link n).expected)
    (hkey : ((s.link n).recvKeys.1 = none ∧ (s.link n).recvKeys.2 = none ∧ f.kind = 11 ∧ f.subtype ≠ 0)
      ∨ ((slotOf (s.link n).recvKeys f.epoch).isSome = true ∧ f.authentic = true ∧ f.toPackage = s.packageNumber ∧ f.toLink = n)) :
    s.takeLinkFrame n f = s.acceptFrame n f := by
  unfold takeLinkFrame
  rcases hkey with ⟨hfirst, hsecond, hkind, hsubtype⟩ | ⟨hkey, hauthentic, hpackage, hlink⟩
  · simp [hup, hfec, hcrc, hcounter, hfirst, hsecond, hkind, hsubtype]
  · have hsome : (slotOf (s.link n).recvKeys f.epoch).isNone = false := by rw [← Option.not_isSome, hkey]; rfl
    simp [hup, hfec, hcrc, hcounter, hsome, hauthentic, hpackage, hlink]

end State

theorem exec_offer (n : Nat) (m : KeyMessage) (s : State) : exec (.offer n m) s = .next (s.takeOffer n m) := rfl
theorem exec_accept (n : Nat) (m : KeyMessage) (s : State) : exec (.accept n m) s = .next (s.takeAccept n m) := rfl
theorem exec_confirm (n : Nat) (m : KeyMessage) (s : State) : exec (.confirm n m) s = .next (s.takeConfirm n m) := rfl
theorem exec_rotateOffer (n : Nat) (m : KeyMessage) (s : State) : exec (.rotateOffer n m) s = .next (s.takeRotateOffer n m) := rfl
theorem exec_rotateAccept (n : Nat) (m : KeyMessage) (s : State) : exec (.rotateAccept n m) s = .next (s.takeRotateAccept n m) := rfl
theorem exec_ready (n epoch : Nat) (s : State) : exec (.ready n epoch) s = .next (s.takeReady n epoch) := rfl
theorem exec_request (n what : Nat) (s : State) : exec (.request n what) s = .next (s.takeLinkRequest n what) := rfl
theorem exec_abort (n code : Nat) (s : State) : exec (.abort n code) s = .next (s.takeAbort n) := rfl

theorem exec_blLinkUp {s : State} {n : Nat} (pk pl : Nat) (henabled : s.rb (blReg .blCfg n) 63 = true) (hcable : (s.link n).cable = true)
    (hdown : s.linkUp n = false) (hfence : s.fenced 5 n = false) :
    exec (.blLinkUp n pk pl) s = .next (if pk = s.packageNumber then s.logErr (State.linkError n E.blPackage 0)
      else ((s.setReg (State.linkStat n) (BitVec.ofNat 64 (2 ^ 63 + pk % 256 * 2 ^ 40 + pl % 64 * 2 ^ 34))).setLink n
        { Link.down with cable := true, peerGen := (s.link n).peerGen }).startAgree n) := by
  show execBlLinkUp n pk pl s = _
  unfold execBlLinkUp
  simp [henabled, hcable, hdown, hfence]

theorem exec_blDown {s : State} {n : Nat} (hup : s.linkUp n = true) (cause : BlDownCause) :
    exec (.blDown n cause) s = .next (match cause with
      | .training => s.downLink n false
      | .authentication => s.downLink n true
      | .keysDropped => s.downLink n true
      | .keyFail => s.keyFail n false) := by
  show execBlDown n cause s = _
  unfold execBlDown
  rw [hup]
  rfl

theorem exec_dataFrameHold {s : State} {n : Nat} (hup : s.linkUp n = true) (hkeys : s.linkKeyed n = true) :
    exec (.dataFrameHold n) s = .next (if 2 ^ 40 + 2 ^ 32 ≤ (s.link n).sentUnder then s.setRf (State.linkStat n) 59 59 1 else s) := by
  show execDataFrameHold n s = _
  unfold execDataFrameHold
  simp [hup, hkeys]

theorem exec_keyDrop {s : State} {n : Nat} {p : Port} (hup : s.linkUp n = true) (hgate : s.gate (.host p) true (blReg .blKeyctl n) = none) :
    exec (.keyDrop p n) s = .next (s.downLink n true) := by
  show execKeyDrop p n s = _
  unfold execKeyDrop
  rw [State.access_open hgate, if_pos hup]

theorem exec_keyRotationFrameLimit (n : Nat) (s : State) :
    exec (.keyRotationFrameLimit n) s = .next (if 2 ^ 40 ≤ max (s.link n).sentUnder (s.link n).recvUnder then s.startRotation n else s) := rfl

theorem exec_keyRotate {s : State} {n : Nat} {p : Port} (hgate : s.gate (.host p) true (blReg .blKeyctl n) = none) (hstage : (s.link n).stage = 0)
    (hrotating : s.linkRotating n = false) : exec (.keyRotate p n) s = .next (s.startRotation n) :=
  congrArg Host.Outcome.next (State.keyAction_ready hgate (State.keyctl_ready hstage hrotating (.inl (by decide))))

theorem exec_keyAgree {s : State} {n : Nat} {p : Port} (hgate : s.gate (.host p) true (blReg .blKeyctl n) = none) (hstage : (s.link n).stage = 0)
    (hrotating : s.linkRotating n = false) (hkeys : s.linkKeyed n = false) : exec (.keyAgree p n) s = .next (s.startAgree n) :=
  congrArg Host.Outcome.next (State.keyAction_ready hgate (State.keyctl_ready hstage hrotating (.inr hkeys)))

/-- Settles O37, message by message. -/
theorem keyMessagesComplete : Obligations.KeyMessagesComplete := by
  intro s n m hup
  refine ⟨fun hfollow hkeys hstage hrandom => ?_, fun hstage => ?_, fun hstage => ?_, fun hfollow hkeys hstage hrandom => ?_, fun hstage => ?_,
    fun hrotating hpeer hstage => ?_, fun hlead hstage hrandom => ⟨fun hkeys => ?_, fun hkeys hrotating => ?_⟩, fun code hstage => ?_⟩
  · rw [exec_offer, State.takeOffer_expected hup hfollow hkeys hstage hrandom]
  · rw [exec_accept, State.takeAccept_expected hup hstage]
  · rw [exec_confirm, State.takeConfirm_expected hup hstage]
  · rw [exec_rotateOffer, State.takeRotateOffer_expected hup hfollow hkeys hstage hrandom]
  · rw [exec_rotateAccept, State.takeRotateAccept_expected hup hstage]
  · rw [exec_ready, State.takeReady_expected hup hrotating hpeer hstage]
  · rw [exec_request, State.takeLinkRequest_agree hup hlead hkeys hstage]
  · rw [exec_request, State.takeLinkRequest_rotate hup hlead hkeys hrotating hstage hrandom]
  · rw [exec_abort, State.takeAbort_expected hup hstage]

/-- Settles O38: each command reaches its one branch. -/
theorem linkControlComplete : Obligations.LinkControlComplete := by
  intro s n
  refine ⟨fun pk pl henabled hcable hdown hfence => exec_blLinkUp pk pl henabled hcable hdown hfence, fun hup => ?_,
    fun hup hstage hrotating hrandom => ⟨fun hkeys => ?_, fun p hkeys hgate => ?_⟩, fun f hup hfec hcrc hcounter hkey => ?_⟩
  · exact ⟨exec_blDown hup _, exec_blDown hup _, exec_blDown hup _, exec_blDown hup _, exec_dataFrameHold hup, fun p hgate => exec_keyDrop hup hgate⟩
  · have hstart := State.startRotation_idle hup hkeys hrotating hstage hrandom
    exact ⟨by rw [exec_keyRotationFrameLimit, hstart], fun p hgate => by rw [exec_keyRotate hgate hstage hrotating, hstart]⟩
  · rw [exec_keyAgree hgate hstage hrotating hkeys, State.startAgree_idle hup hkeys hstage]
  · exact congrArg Host.Outcome.next (State.takeLinkFrame_good hup hfec hcrc hcounter hkey)

end Sys2Proof.Machine
end

section
namespace Sys2Proof.Machine
namespace State

/-! ## Error responses (R364, R387) -/

theorem takeError_peer {s : State} {f : Frame} (h : 512 ≤ f.source) : s.takeError f = (s.arrived f).linkSend (f.source - 512) f := by
  unfold takeError
  exact if_pos h

theorem takeError_port {s : State} {f : Frame} (hport : 384 ≤ f.source) (hlink : f.source < 512) :
    s.takeError f = ((s.arrived f).releaseWrite (framePort f) f.tag).logErr
      { portNotice (framePort f) E.memwinFault with partition := some f.partition, detail := f.address % 2 ^ 48 } := by
  unfold takeError
  simp only [if_neg (Nat.not_le_of_lt hlink), if_pos hport]

theorem takeError_engine {s : State} {f : Frame} (h : f.source < 384) :
    s.takeError f = (let code := if f.amount == 0 then E.targetRecovering else f.amount
      if f.tag = syncTag then (s.arrived f).fail (frameEngine f) { code := code, addr := f.address }
      else (s.arrived f).xactError (frameEngine f) f.tag code f.asks) := by
  unfold takeError
  simp only [if_neg (show ¬ 512 ≤ f.source by omega), if_neg (Nat.not_le_of_lt h), beq_iff_eq]

/-! ## Acknowledgements and replays (R360, R373) -/

theorem acknowledge_hop {s : State} {hop : Nat} (h : hop < 100) (dir seq : Nat) :
    s.acknowledge hop dir seq = ((s.setHop hop dir { s.hop hop dir with
      buffer := (s.hop hop dir).buffer.filter fun g => !seqLe g.1 seq, replays := 0 }).accepts (hop, dir) seq).sendWaiting := by
  unfold acknowledge
  exact if_neg (Nat.not_le_of_lt h)

/-- A hop whose receiver names a frame: those before it leave the replay buffer, and the replays of one frame are counted. -/
def hopRewound (s : State) (hop dir seq : Nat) : State :=
  (s.setHop hop dir { s.hop hop dir with
    buffer := (s.hop hop dir).buffer.filter fun g => seqLe seq g.1
    replays := if (s.hop hop dir).buffer.head?.map (·.1) = some seq then (s.hop hop dir).replays + 1 else 1 }).sendWaiting

theorem replay_hop {s : State} {hop : Nat} (h : hop < 100) (hcauseway : hop ≠ causewayHop) (dir seq : Nat) :
    s.replay hop dir seq = s.hopRewound hop dir seq := by
  unfold replay hopRewound
  rw [if_neg (Nat.not_le_of_lt h)]
  simp only [beq_iff_eq, hcauseway, if_false]

theorem replay_causeway (s : State) (dir seq : Nat) :
    s.replay causewayHop dir seq = (let u := s.hopRewound causewayHop dir seq
      let w := (u.fresh.2.satRf ⟨.cwErr, 0, dir⟩ 63 32 ((s.hop causewayHop dir).buffer.filter fun g => seqLe seq g.1).length).satRf ⟨.cwErr, 0, dir⟩ 31 0 (u.fresh.1 % 2)
      if 32 ≤ (if (s.hop causewayHop dir).buffer.head?.map (·.1) = some seq then (s.hop causewayHop dir).replays + 1 else 1) then w.failCauseway else w) := by
  unfold replay hopRewound
  rw [if_neg (show ¬ 100 ≤ causewayHop by decide)]
  simp only [beq_iff_eq, BEq.rfl, if_true]

theorem acknowledge_link_found {s : State} {n seq k : Nat} (h : ((s.link n).replay.findIdx? fun g => g.counter == seq) = some k) (dir : Nat) :
    s.acknowledge (100 + n) dir seq = s.linkAcked n (k + 1) := by
  unfold acknowledge
  rw [if_pos (Nat.le_add_right 100 n), Nat.add_sub_cancel_left, h]

theorem acknowledge_link_unknown {s : State} {n seq : Nat} (h : ((s.link n).replay.findIdx? fun g => g.counter == seq) = none) (dir : Nat) :
    s.acknowledge (100 + n) dir seq = s := by
  unfold acknowledge
  rw [if_pos (Nat.le_add_right 100 n), Nat.add_sub_cancel_left, h]

theorem replay_link (s : State) (n dir seq : Nat) : s.replay (100 + n) dir seq = s.linkReplay n seq := by
  unfold replay
  rw [if_pos (Nat.le_add_right 100 n), Nat.add_sub_cancel_left]

theorem linkReplay_found {s : State} {n seq k : Nat} (h : ((s.link n).replay.findIdx? fun g => g.counter == seq) = some k) :
    s.linkReplay n seq = ((s.link n).replay.drop k).foldl (fun s g => s.emit (.linkFrame n g))
      (((s.linkAcked n k).satRf (blReg .blErr n) 31 0 ((s.link n).replay.drop k).length).emit (.linkReplay n seq ((s.link n).replay.drop k).length)) := by
  unfold linkReplay
  dsimp only
  rw [h]
  rfl

theorem linkReplay_unknown {s : State} {n seq : Nat} (h : ((s.link n).replay.findIdx? fun g => g.counter == seq) = none)
    (hnext : seq ≠ (s.link n).sendCounter) : s.linkReplay n seq = s := by
  unfold linkReplay
  dsimp only
  rw [h, beq_eq_false_iff_ne.mpr hnext]

end State

theorem exec_errorResponse (f : Frame) (s : State) : exec (.errorResponse f) s = .next (s.takeError f) := rfl
theorem exec_acknowledgement (hop dir seq : Nat) (s : State) : exec (.acknowledgement hop dir seq) s = .next (s.acknowledge hop dir seq) := rfl
theorem exec_negativeAcknowledgement (hop dir seq : Nat) (s : State) : exec (.negativeAcknowledgement hop dir seq) s = .next (s.replay hop dir seq) := rfl

/-- Settles O33: each kind of frame and each kind of hop has its own branch. -/
theorem hopsAdvance : Obligations.HopsAdvance := by
  intro s f hop dir seq n
  refine ⟨rfl, rfl, rfl, fun hpeer => ?_, fun hport hlink => ?_, fun heng => ?_, fun hhop => ?_, fun hhop hcauseway => ?_, ?_, fun k hfound => ⟨?_, ?_⟩,
    fun hunknown hnext => ⟨?_, ?_⟩⟩
  · rw [exec_errorResponse, State.takeError_peer hpeer]
  · rw [exec_errorResponse, State.takeError_port hport hlink]
  · rw [exec_errorResponse, State.takeError_engine heng]
  · rw [exec_acknowledgement, State.acknowledge_hop hhop]
  · rw [exec_negativeAcknowledgement, State.replay_hop hhop hcauseway]; rfl
  · rintro rfl
    rw [exec_negativeAcknowledgement, State.replay_causeway]; rfl
  · rw [exec_acknowledgement, State.acknowledge_link_found hfound]
  · rw [exec_negativeAcknowledgement, State.replay_link, State.linkReplay_found hfound]
  · rw [exec_acknowledgement, State.acknowledge_link_unknown hunknown]
  · rw [exec_negativeAcknowledgement, State.replay_link, State.linkReplay_unknown hunknown hnext]

end Sys2Proof.Machine
end

section
/-! PROOFS of the family 15_host_ports_and_cxl: completion entries, task queues, host control, host ports and CXL ports. -/

namespace Sys2Proof.Machine

/-! ## The bytes of a completion entry (R394) -/

theorem length_leBytes (n v : Nat) : (leBytes n v).length = n := by
  induction n generalizing v with
  | zero => rfl
  | succ n ih => rw [leBytes, List.length_cons, ih]

/-- A field that follows the first bytes of a list. -/
theorem fieldAt_append {front back : List Byte} {off : Nat} (h : front.length = off) (n v : Nat) :
    fieldAt (front ++ (leBytes n v ++ back)) off n = v % 256 ^ n := by
  unfold fieldAt
  rw [List.drop_left' h, List.take_left' (length_leBytes n v), leNat_leBytes]

/-- A completion entry with the queue's phase and the port's sequence number in their places (R394, R395). -/
def stamped (e : List Byte) (phase seq : Nat) : List Byte :=
  e.take 11 ++ leBytes 1 (fieldAt e 11 1 % 128 + 128 * phase) ++ (e.drop 12).take 4 ++ leBytes 8 seq ++ e.drop 24

section
variable {e : List Byte} (hlen : e.length = 32) (phase seq : Nat)
include hlen

theorem length_stamped : (stamped e phase seq).length = 32 := by
  simp only [stamped, List.length_append, List.length_take, List.length_drop, length_leBytes, hlen]
  rfl

/-- Every byte but the eleventh and the eight of the sequence number is the entry's own. -/
theorem getElem?_stamped {k : Nat} (hphase : k ≠ 11) (hseq : ¬ (16 ≤ k ∧ k < 24)) : (stamped e phase seq)[k]? = e[k]? := by
  simp only [stamped, List.getElem?_append, List.length_append, List.length_take, List.length_drop, length_leBytes, hlen, List.getElem?_take,
    List.getElem?_drop]
  split_ifs
  all_goals first | rfl | omega | exact congrArg (e[·]?) (by omega)

theorem fieldAt_stamped_phase (hbit : phase < 2) : fieldAt (stamped e phase seq) 11 1 = fieldAt e 11 1 % 128 + 128 * phase := by
  unfold stamped
  rw [List.append_assoc, List.append_assoc, List.append_assoc, fieldAt_append (by rw [List.length_take, hlen]; rfl)]
  omega

theorem fieldAt_stamped_seq : fieldAt (stamped e phase seq) 16 8 = seq % 2 ^ 64 := by
  unfold stamped
  rw [List.append_assoc _ (leBytes 8 seq), fieldAt_append]
  · rfl
  · simp only [List.length_append, List.length_take, List.length_drop, length_leBytes, hlen]
    rfl

end

namespace State

theorem setRf_keeps {β : Type} (g : State → β) (h : ∀ s r w, g (setReg s r w) = g s) (s : State) (r : RegId) (hi lo v : Nat) :
    g (s.setRf r hi lo v) = g s := h _ _ _

/-- The state after a completion entry has gone and before the queue's phase is looked at. -/
def entrySent (s : State) (p : Port) (q : Nat) (e : List Byte) : State :=
  let h := p.harbour
  let tail := s.rf ⟨.hbCqstat, h, q⟩ 15 0
  ((s.emit (.completion p q tail (stamped e (s.rf ⟨.hbCqstat, h, q⟩ 62 62) (s.port p).seq))).setPort p
    { s.port p with seq := (s.port p).seq + 1, sinceFired := Tab.put id 0 (s.port p).sinceFired q (Tab.get 0 (s.port p).sinceFired q + 1) }).setRf
      ⟨.hbCqstat, h, q⟩ 15 0 ((tail + 1) % queueSize (s.rf ⟨.hbCqcfg, h, q⟩ 3 0))

theorem writeEntry_eq (s : State) (p : Port) (q : Nat) (e : List Byte) :
    s.writeEntry p q e = if s.rf ⟨.hbCqstat, p.harbour, q⟩ 15 0 + 1 = queueSize (s.rf ⟨.hbCqcfg, p.harbour, q⟩ 3 0) then
      (s.entrySent p q e).setRf ⟨.hbCqstat, p.harbour, q⟩ 62 62 (1 - s.rf ⟨.hbCqstat, p.harbour, q⟩ 62 62) else s.entrySent p q e := rfl

theorem writeEntry_keeps {β : Type} (g : State → β) (hreg : ∀ s r w, g (setReg s r w) = g s) (s : State) (p : Port) (q : Nat) (e : List Byte) :
    g (s.writeEntry p q e) = g (s.entrySent p q e) := by
  rw [writeEntry_eq]
  exact ite_keeps g (setRf_keeps g hreg _ _ _ _ _) rfl

theorem queueSize_le (k : Nat) : queueSize k ≤ 2 ^ 16 := Nat.pow_le_pow_right (by decide) (by omega)
theorem queueSize_pos (k : Nat) : 0 < queueSize k := Nat.two_pow_pos _

theorem rf_entrySent_tail (s : State) (p : Port) (q : Nat) (e : List Byte) :
    (s.entrySent p q e).rf ⟨.hbCqstat, p.harbour, q⟩ 15 0
      = (s.rf ⟨.hbCqstat, p.harbour, q⟩ 15 0 + 1) % queueSize (s.rf ⟨.hbCqcfg, p.harbour, q⟩ 3 0) := by
  unfold entrySent
  dsimp only
  rw [rf_setRf_self _ _ _ (by decide) (by decide), Nat.mod_eq_of_lt]
  exact Nat.lt_of_lt_of_le (Nat.mod_lt _ (queueSize_pos _)) (queueSize_le _)

theorem rf_entrySent_phase (s : State) (p : Port) (q : Nat) (e : List Byte) :
    (s.entrySent p q e).rf ⟨.hbCqstat, p.harbour, q⟩ 62 62 = s.rf ⟨.hbCqstat, p.harbour, q⟩ 62 62 := by
  unfold entrySent
  dsimp only
  rw [rf_setRf_field _ _ _ (by decide) (by decide) (by decide)]
  unfold rf
  rw [reg_setPort, reg_emit]

theorem reg_entrySent_other (s : State) (p : Port) (q : Nat) (e : List Byte) {r : RegId} (h : r ≠ ⟨.hbCqstat, p.harbour, q⟩) :
    (s.entrySent p q e).reg r = s.reg r :=
  (reg_setRf_other _ _ _ _ h).trans (by rw [reg_setPort, reg_emit])

end State

/-- Settles O30: the entry that leaves, then the tail, the phase and the frame of the registers. -/
theorem completionEntriesAdvance : Obligations.CompletionEntriesAdvance := by
  intro s p q e hlen st tail phase size u
  have hbit : phase < 2 := fld_lt_two_pow _ 62 62
  have hwrite : u = _ := State.writeEntry_eq s p q e
  refine ⟨⟨stamped e phase (s.port p).seq, ?_, length_stamped hlen _ _, fun k _ => getElem?_stamped hlen _ _, fieldAt_stamped_phase hlen _ _ hbit,
    fieldAt_stamped_seq hlen _ _⟩, fun _ => ?_, ?_, ?_, fun r hr => ?_, ?_, ?_⟩
  · refine (State.writeEntry_keeps (·.out) State.setReg_out s p q e).trans ?_
    simp [State.entrySent, st, tail, phase]
  · rw [hwrite]
    refine State.ite_keeps (·.rf st 15 0) ?_ (State.rf_entrySent_tail s p q e)
    exact (State.rf_setRf_field _ _ _ (by decide) (by decide) (by decide)).trans (State.rf_entrySent_tail s p q e)
  · rw [hwrite]
    split
    · exact (State.rf_setRf_self _ _ _ (by decide) (by decide)).trans (Nat.mod_eq_of_lt (show 1 - phase < 2 ^ 1 by omega))
    · exact State.rf_entrySent_phase s p q e
  · rw [State.writeEntry_keeps (·.port p) (fun _ _ _ => rfl)]
    simp [State.entrySent]
  · rw [hwrite]
    have hsent := State.reg_entrySent_other s p q e hr
    exact State.ite_keeps (·.reg r) ((State.reg_setRf_other _ _ _ _ hr).trans hsent) hsent
  · exact (State.writeEntry_keeps (·.mem) State.setReg_mem s p q e).trans (by simp [State.entrySent])
  · exact (State.writeEntry_keeps (·.tasks) State.setReg_tasks s p q e).trans (by simp [State.entrySent])

end Sys2Proof.Machine
end

section
namespace Sys2Proof.Machine
namespace State

/-! ## Taking an entry of a task queue (R392, R393) -/

/-- The task that an entry of a queue asks for, with its launch record. -/
def entryTask (s : State) (p : Port) (q : Nat) (f : QueueFetch) (lr : List Byte) : Task :=
  { id := s.nextTask, number := fieldAt lr 0 4, partition := s.rf ⟨.hbTqcfg, p.harbour, q⟩ 61 59, slot := fld (fieldAt lr 4 1) 5 4, port := p, tq := q,
    cq := s.rf ⟨.hbTqcfg, p.harbour, q⟩ 53 48, tag := fieldAt f.entry 16 4, cores := launchCores lr, state := 1, launchAt := fieldAt f.entry 0 8, launch := lr,
    map := f.map, started := [], release := false, skip := s.rb ⟨.lhIntake, 0, 0⟩ (s.rf ⟨.hbTqcfg, p.harbour, q⟩ 61 59), aborting := false, truncated := false,
    logged := false, error := 0, errCore := 0x1FF, errSeq := 2 ^ 64 - 1, discarded := false }

/-- No earlier task of the queue holds off an entry that is to wait for them. -/
theorem no_earlier {ts : List Task} {b : Bool} {p : Port} {q : Nat} (h : b = false ∨ ∀ t ∈ ts, t.active = true → t.port = p → t.tq ≠ q) :
    (b && ts.any fun t => t.active && decide (t.port = p) && t.tq == q) = false := by
  rcases h with h | h
  · rw [h, Bool.false_and]
  · rw [Bool.and_eq_false_iff, List.any_eq_false]
    exact .inr fun t ht => by simpa using h t ht

theorem takeEntry_taken {s : State} {p : Port} {q : Nat} {f : QueueFetch} {lr : List Byte}
    (hearlier : bitOf (fieldAt f.entry 20 1) 0 = false ∨ ∀ t ∈ s.tasks, t.active = true → t.port = p → t.tq ≠ q) (hgood : entryBad f.entry f.map = false)
    (hfetch : s.fetch (s.rf ⟨.hbTqcfg, p.harbour, q⟩ 61 59) (fieldAt f.entry 0 8) 256 = .ok lr)
    (hpart : fieldAt lr 4 1 % 8 = s.rf ⟨.hbTqcfg, p.harbour, q⟩ 61 59)
    (hcores : ∀ g ∈ launchCores lr, s.dieOwner (g / 32) = s.rf ⟨.hbTqcfg, p.harbour, q⟩ 61 59 ∧ s.fenced 1 g = false)
    (hslot : ∀ t ∈ s.tasks, t.active = true → t.slot = fld (fieldAt lr 4 1) 5 4 → ∀ g ∈ t.cores, g ∉ launchCores lr)
    (htakes : s.takesTasks (s.rf ⟨.hbTqcfg, p.harbour, q⟩ 61 59) = true) :
    s.takeEntry p q f.entry f.map = (((((s.setTasks (s.tasks ++ [s.entryTask p q f lr])).setNextTask (s.nextTask + 1)).setRf ⟨.hbTqstat, p.harbour, q⟩ 15 0
      ((s.rf ⟨.hbTqstat, p.harbour, q⟩ 15 0 + 1) % queueSize (s.rf ⟨.hbTqcfg, p.harbour, q⟩ 3 0))).setRf ⟨.hbTqstat, p.harbour, q⟩ 62 62 0).setPort p
        { s.port p with lastQueue := q }) := by
  have howner : (launchCores lr).any (fun g => s.dieOwner (g / 32) != s.rf ⟨.hbTqcfg, p.harbour, q⟩ 61 59) = false :=
    List.any_eq_false.mpr fun g hg => by simpa using (hcores g hg).1
  have hfence : (launchCores lr).any (s.fenced 1) = false := List.any_eq_false.mpr fun g hg => by simpa using (hcores g hg).2
  have hfree : s.tasks.any (fun t => t.active && t.slot == fld (fieldAt lr 4 1) 5 4 && t.cores.any (launchCores lr).contains) = false :=
    List.any_eq_false.mpr fun t ht => by simpa using hslot t ht
  unfold takeEntry
  simp only [no_earlier hearlier, hgood, hfetch, hpart, howner, hfree, hfence, htakes, ne_eq, not_true, Bool.false_eq_true, or_self, if_false, Bool.or_self, Bool.not_true]
  rfl

end State

theorem exec_taskQueueEntry {s : State} {p : Port} {q : Nat} (h : s.queueServed p q = true) (f : QueueFetch) :
    exec (.taskQueueEntry p q (some f)) s = .next (s.takeEntry p q f.entry f.map) := by
  show execTaskQueueEntry p q (some f) s = _
  unfold execTaskQueueEntry
  rw [h]
  rfl

theorem exec_taskQueueEntry_fault {s : State} {p : Port} {q : Nat} (h : s.queueServed p q = true) :
    exec (.taskQueueEntry p q none) s = .next (s.queueFetchFault p q) := by
  show execTaskQueueEntry p q none s = _
  unfold execTaskQueueEntry
  rw [h]
  rfl

theorem exec_taskQueueDoorbell {s : State} {p : Port} {q tail : Nat} (hgate : s.gate (.host p) true ⟨.hbTqdb, p.harbour, q⟩ = none)
    (hready : s.rb ⟨.hbPortstat, p.harbour, 0⟩ 63 = true) (hsize : tail < State.queueSize (s.rf ⟨.hbTqcfg, p.harbour, q⟩ 3 0))
    (hheld : (s.port p).heldWrites = []) : exec (.taskQueueDoorbell p q tail) s = .next (s.setRf ⟨.hbTqdb, p.harbour, q⟩ 15 0 tail) := by
  refine congrArg Host.Outcome.next ((State.access_open hgate).trans ?_)
  unfold State.doorbell
  dsimp only
  rw [hready, hheld]
  exact if_neg (Nat.not_le_of_lt hsize)

/-- Settles O25: the entry that is taken becomes a task, and its queue's status is the one register that changes. -/
theorem taskQueuesComplete : Obligations.TaskQueuesComplete := by
  intro s p q
  refine ⟨fun tail hgate hready hsize hheld => exec_taskQueueDoorbell hgate hready hsize hheld,
    fun f lr hserved hearlier hgood hfetch hpart hcores hslot htakes => ?_, fun hserved => exec_taskQueueEntry_fault hserved⟩
  refine ⟨_, s.entryTask p q f lr, (exec_taskQueueEntry hserved f).trans (congrArg Host.Outcome.next
    (State.takeEntry_taken hearlier hgood hfetch hpart hcores hslot htakes)), State.setPort_tasks _ _ _, by simp, rfl, rfl, rfl, rfl, rfl, rfl, rfl, rfl, rfl,
    rfl, ?_, ?_, fun r hr => ?_, by simp, by simp⟩
  · unfold State.rf
    rw [State.reg_setPort]
    refine (State.rf_setRf_field _ _ _ (by decide) (by decide) (by decide)).trans (State.rf_setRf_self _ _ _ (by decide) (by decide))
  · unfold State.rb
    rw [State.reg_setPort]
    exact State.rb_setRf_self _ _ _ (by decide) (by decide) (by decide)
  · rw [State.reg_setPort, State.reg_setRf_other _ _ _ _ hr, State.reg_setRf_other _ _ _ _ hr]
    rfl

end Sys2Proof.Machine
end

section
namespace Sys2Proof.Machine

/-! ## A request in LH_HOSTCTL (R400) -/

theorem modeWord_bits {x y gap : Nat} (hx : x < 2) (hy : y < 2) (hgap : gap < 1024) :
    (2 ^ 63 + x * 2 ^ 62 + y * 2 ^ 61 + gap) / 2 ^ 63 % 2 = 1 ∧ (2 ^ 63 + x * 2 ^ 62 + y * 2 ^ 61 + gap) / 2 ^ 62 % 2 = x
      ∧ (2 ^ 63 + x * 2 ^ 62 + y * 2 ^ 61 + gap) / 2 ^ 61 % 2 = y := by omega

/-- The image that a mode request writes: the request bit, the mode, the port, and the gap as it is. -/
theorem wbit_modeWord (split toE : Bool) {gap : Nat} (hgap : gap < 1024) :
    let w : Word := BitVec.ofNat 64 (2 ^ 63 + b2n split * 2 ^ 62 + b2n toE * 2 ^ 61 + gap)
    wbit w 63 = true ∧ wbit w 62 = split ∧ wbit w 61 = toE := by
  have hbit (n i : Nat) (hi : i < 64) : wbit (BitVec.ofNat 64 n) i = decide (n / 2 ^ i % 2 = 1) := by
    rw [wbit, BitVec.getLsbD_ofNat, decide_eq_true hi, Bool.true_and, Nat.testBit_eq_decide_div_mod_eq]
  have hone (b : Bool) : decide (b2n b = 1) = b := by cases b <;> rfl
  obtain ⟨hsixtythree, hsixtytwo, hsixtyone⟩ := modeWord_bits (b2n_lt_two split) (b2n_lt_two toE) hgap
  exact ⟨by rw [hbit _ 63 (by decide), hsixtythree]; rfl, by rw [hbit _ 62 (by decide), hsixtytwo, hone],
    by rw [hbit _ 61 (by decide), hsixtyone, hone]⟩

namespace State

theorem requestMode_controlled {s : State} {p : Port} {split toE : Bool} (hmay : s.modeMay split = true) (hunified : s.pkg.split = false)
    (hcontrol : s.pkg.control ≠ 0) : s.requestMode p split toE = s.setPkg { s.pkg with changing := some (split, toE), requests := [] } := by
  unfold requestMode
  simp [hmay, hunified, hcontrol]

theorem no_single_port {s : State} (h : s.pkg.split = true ∨ s.pkg.control = 0) : (!s.pkg.split && s.pkg.control != 0) = false := by
  rcases h with h | h <;> simp [h]

theorem requestMode_first {s : State} {p : Port} {split toE : Bool} (hmay : s.modeMay split = true) (hboth : s.pkg.split = true ∨ s.pkg.control = 0)
    (hother : ∀ r ∈ s.pkg.requests, r.1 = p) : s.requestMode p split toE = s.setPkg { s.pkg with requests := [(p, split, toE)] } := by
  have hnone : (s.pkg.requests.filter fun r => decide (r.1 ≠ p)) = [] := List.filter_eq_nil_iff.mpr fun r hr => by simp [hother r hr]
  unfold requestMode
  rw [hmay, no_single_port hboth]
  dsimp only
  rw [hnone]
  simp

theorem requestMode_second {s : State} {p : Port} {split toE : Bool} (hmay : s.modeMay split = true) (hboth : s.pkg.split = true ∨ s.pkg.control = 0)
    (hother : s.pkg.requests = [(p.other, split, toE)]) :
    s.requestMode p split toE = s.setPkg { s.pkg with changing := some (split, toE), requests := [] } := by
  have hne : p.other ≠ p := by cases p <;> decide
  have hone : (s.pkg.requests.filter fun r => decide (r.1 ≠ p)) = [(p.other, split, toE)] := by simp [hother, hne]
  unfold requestMode
  rw [hmay, no_single_port hboth]
  dsimp only
  rw [hone]
  simp

theorem applyMode_changing {s : State} {split toE : Bool} (h : s.pkg.changing = some (split, toE)) :
    s.applyMode = if s.allSlack then if split then s.enterSplit else s.enterUnified toE else (s.setPkg { s.pkg with changing := none }).refuseMode := by
  unfold applyMode
  rw [h]
  cases s.allSlack <;> simp

/-- A heartbeat stores its value, ends the silence and the staleness, and leaves the rest (R402). -/
theorem beat_effect (s : State) (v : Word) :
    (s.beat v).reg ⟨.lhHeartbeat, 0, 0⟩ = v ∧ (s.beat v).rb lhHoststat 59 = false ∧ (s.beat v).lh.silence = 0 ∧ (s.beat v).mem = s.mem
      ∧ (s.beat v).pkg = s.pkg ∧ (s.beat v).tasks = s.tasks ∧ (s.beat v).out = s.out := by
  unfold beat rb
  have hstale := rb_setRf_self (s.setReg ⟨.lhHeartbeat, 0, 0⟩ v) lhHoststat (hi := 59) (lo := 59) (i := 59) 0 (by decide) (by decide) (by decide)
  have hvalue := reg_setRf_other (s.setReg ⟨.lhHeartbeat, 0, 0⟩ v) 59 59 0 (show (⟨.lhHeartbeat, 0, 0⟩ : RegId) ≠ lhHoststat by decide)
  exact ⟨by rw [reg_setLh, hvalue, reg_setReg_self], by rw [reg_setLh]; exact hstale, by simp, by simp, by simp, by simp, by simp⟩

end State

theorem exec_claim {s : State} {p : Port} (hgate : s.gate (.host p) true lhClaim = none) :
    exec (.claim p) s = .next (if p ∈ s.pkg.claims then s else s.setPkg { s.pkg with claims := s.pkg.claims ++ [p] }) := by
  refine congrArg Host.Outcome.next ((State.access_open hgate).trans ?_)
  unfold State.addClaim
  simp

theorem exec_heartbeat {s : State} {p : Port} (v : Nat) (hgate : s.gate (.host p) true ⟨.lhHeartbeat, 0, 0⟩ = none) :
    exec (.heartbeat p v) s = .next (s.beat (BitVec.ofNat 64 v)) := congrArg Host.Outcome.next (State.access_open hgate)

/-- A mode request is what follows once its fields stand in LH_HOSTCTL. -/
theorem exec_modeRequest {s : State} {p : Port} (split toE : Bool) (hgate : s.gate (.host p) true lhHostctl = none) :
    exec (.modeRequest p split toE) s = .next ((s.setReg lhHostctl
      (wput (BitVec.ofNat 64 (2 ^ 63 + b2n split * 2 ^ 62 + b2n toE * 2 ^ 61 + s.rf lhHostctl 9 0)) 63 63 0 &&& 0x60000000000003FF)).requestMode p split toE) := by
  have hgap : s.rf lhHostctl 9 0 < 1024 := fld_lt_two_pow _ 9 0
  obtain ⟨hrequest, hsplit, htoE⟩ := wbit_modeWord split toE hgap
  refine congrArg Host.Outcome.next ((State.access_open hgate).trans ?_)
  unfold State.writeHostctl
  rw [hrequest, hsplit, htoE]
  exact if_pos (Eq.refl true)

theorem exec_modeChangeApplied (s : State) : exec .modeChangeApplied s = .next s.applyMode := rfl

/-- Settles O44: each write reaches its register, and the mode's rule decides. -/
theorem hostControlCompletes : Obligations.HostControlCompletes := by
  intro s p
  refine ⟨exec_claim, fun v hgate => ⟨_, exec_heartbeat v hgate, State.beat_effect s _⟩, fun split toE hgate => ?_,
    fun split toE hchanging => ?_⟩
  · intro u hmay
    have hpkg : u.pkg = s.pkg := State.setReg_pkg _ _ _
    rw [exec_modeRequest split toE hgate, ← hpkg]
    exact ⟨fun hunified hcontrol => congrArg Host.Outcome.next (State.requestMode_controlled hmay hunified hcontrol),
      fun hboth hother => congrArg Host.Outcome.next (State.requestMode_first hmay hboth hother),
      fun hboth hother => congrArg Host.Outcome.next (State.requestMode_second hmay hboth hother)⟩
  · rw [exec_modeChangeApplied, State.applyMode_changing hchanging]

end Sys2Proof.Machine
end

section
namespace Sys2Proof.Machine
namespace State

/-! ## BAR4 accesses that stay inside 256 bytes (R387, R388) -/

theorem bar4Pieces_one {o n : Nat} (k : Nat) (hsome : 0 < n) (hinside : n ≤ 256 - o % 256) : bar4Pieces (k + 2) o n = [(o, n)] := by
  unfold bar4Pieces
  rw [if_neg (Nat.ne_of_gt hsome), Nat.min_eq_left hinside]
  dsimp only
  rw [Nat.sub_self]
  rfl

theorem bar4Read_one {s : State} {p : Port} {t : Bool} {o n q a ep : Nat} (hup : (s.port p).linkUp = true) (htdi : s.tdiRefuses p t o = false) (hsome : 0 < n)
    (hinside : n ≤ 256 - o % 256) (hplace : s.bar4Place p false o = some (q, a, ep)) (hgood : (s.meet a n).readFault a n = none) :
    s.bar4Read p t o n = (s.meet a n).emit (.readData p ((s.meet a n).readBytes q ep a n)) := by
  have hbytes : bar4Bytes p s [(o, n)] = (some ((s.meet a n).readBytes q ep a n), s.meet a n) := by
    simp [bar4Bytes, hplace, hgood]
  unfold bar4Read
  rw [bar4Pieces_one _ hsome hinside, hbytes]
  simp [hup, htdi]

/-- The transaction of a BAR4 write that reaches a place: it stands behind the port's earlier ones under a tag that none of them has. -/
def bar4Frame (s : State) (p : Port) (q a ep : Nat) (data : List Byte) : Frame :=
  { kind := 0, partition := q, arrive := false, address := a, package := 256, payload := data, count := 0, counter := 0, source := 0x1FF, engine := p.shore,
    tag := (s.port p).heldWrites.foldl (fun t w => max t (w.tag + 1)) 0, slot := 0, add := 0xFF, post := false, amount := 0, target := (placeOf a).target,
    gen := 0, epoch := ep }

/-- The state with one more write held at a port. -/
def holdWrite (s : State) (p : Port) (f : Frame) : State := s.setPort p { s.port p with heldWrites := (s.port p).heldWrites ++ [f] }

theorem bar4Piece_placed {s : State} {p : Port} {o q a ep : Nat} (hplace : s.bar4Place p true o = some (q, a, ep)) (data : List Byte) :
    s.bar4Piece p o data = if (s.port p).heldWrites.isEmpty then
      (s.holdWrite p (s.bar4Frame p q a ep data)).send (askFor (s.bar4Frame p q a ep data)) else s.holdWrite p (s.bar4Frame p q a ep data) := by
  unfold bar4Piece
  rw [hplace]
  rfl

theorem bar4Write_one {s : State} {p : Port} {t : Bool} {o q a ep : Nat} {data : List Byte} (hup : (s.port p).linkUp = true)
    (htdi : s.tdiRefuses p t o = false) (hsome : data ≠ []) (hinside : data.length ≤ 256 - o % 256) (hplace : s.bar4Place p true o = some (q, a, ep)) :
    s.bar4Write p t o data = if (s.port p).heldWrites.isEmpty then
      (s.holdWrite p (s.bar4Frame p q a ep data)).send (askFor (s.bar4Frame p q a ep data)) else s.holdWrite p (s.bar4Frame p q a ep data) := by
  unfold bar4Write
  rw [bar4Pieces_one _ (List.length_pos_iff.mpr hsome) hinside, List.foldl_cons, List.foldl_nil, Nat.sub_self, List.drop_zero, List.take_length]
  rw [bar4Piece_placed hplace, hup, htdi]
  exact (if_neg Bool.false_ne_true).trans (if_neg Bool.false_ne_true)

theorem maySend_holdWrite (s : State) (p : Port) (f g : Frame) : (s.holdWrite p f).maySend g = s.maySend g := by cases p <;> rfl
theorem holdWrite_frames (s : State) (p : Port) (f : Frame) : (s.holdWrite p f).frames = s.frames := setPort_frames _ _ _
theorem holdWrite_backlog (s : State) (p : Port) (f : Frame) : (s.holdWrite p f).backlog = s.backlog := setPort_backlog _ _ _
theorem holdWrite_mem (s : State) (p : Port) (f : Frame) : (s.holdWrite p f).mem = s.mem := setPort_mem _ _ _
theorem holdWrite_held (s : State) (p : Port) (f : Frame) : ((s.holdWrite p f).port p).heldWrites = (s.port p).heldWrites ++ [f] := by
  rw [holdWrite, port_setPort_self]

theorem port_send (s : State) (f : Frame) (p : Port) : (s.send f).port p = s.port p := by
  unfold port; rw [send_ports]

/-! ## Links and resets of a host port (R383, R385, R428, R474, R478) -/

theorem portUp_eq (s : State) (p : Port) (rate width : Nat) (flit : Bool) :
    s.portUp p rate width flit = (s.setPort p { s.port p with linkUp := true }).setReg (portstat p) (BitVec.ofNat 64
      (b2n s.portsOpen * 2 ^ 63 + b2n (decide (width < 16 ∨ rate < 5)) * 2 ^ 60 + rate % 16 * 2 ^ 56 + width % 32 * 2 ^ 51 + b2n flit * 2 ^ 50)) := by
  have hopen : (s.setPort p { s.port p with linkUp := true }).portsOpen = s.portsOpen := by cases p <;> rfl
  unfold portUp
  rw [Bool.decide_or, ← hopen]

end State

theorem exec_hostLinkUp {s : State} {p : Port} (rate width : Nat) (flit : Bool) (hperst : (s.port p).perst = false) (hopen : s.portsOpen = true) :
    exec (.hostLinkUp p rate width flit) s = .next (s.portUp p rate width flit) := by
  show execHostLinkUp p rate width flit s = _
  unfold execHostLinkUp
  rw [hperst, hopen]
  rfl

theorem exec_perstDeassert (s : State) (p : Port) (rate width : Nat) (flit : Bool) :
    exec (.perstDeassert p rate width flit) s = .next (let u := s.setPort p { s.port p with perst := false }
      if s.portsOpen then u.portUp p rate width flit else u) := by
  have hopen : (s.setPort p { s.port p with perst := false }).portsOpen = s.portsOpen := by cases p <;> rfl
  show execPerstDeassert p rate width flit s = _
  unfold execPerstDeassert
  rw [← hopen]

theorem exec_configRequest_open {s : State} {p : Port} (r : Option Nat) (hperst : (s.port p).perst = false) (hready : s.rb (portstat p) 63 = true) :
    exec (.configRequest p r) s = .next (let u := r.elim s fun n => s.setPort p { s.port p with bar4 := min 40 (max 30 n) }
      u.emit (.config p (some (configSpace u p)))) := by
  show execConfigRequest p r s = _
  unfold execConfigRequest
  rw [hperst, hready]
  cases r <;> rfl

theorem exec_configRequest_retry {s : State} {p : Port} (r : Option Nat) (h : (s.port p).perst = true ∨ s.rb (portstat p) 63 = false) :
    exec (.configRequest p r) s = .next (s.emit (.config p none)) := by
  show execConfigRequest p r s = _
  unfold execConfigRequest
  rcases h with h | h <;> simp [h]

theorem exec_bar4Read (s : State) (p : Port) (t : Bool) (o n : Nat) : exec (.bar4Read p t o n) s = .next (s.bar4Read p t o n) := rfl
theorem exec_bar4Write (s : State) (p : Port) (t : Bool) (o : Nat) (data : List Byte) : exec (.bar4Write p t o data) s = .next (s.bar4Write p t o data) := rfl

/-- What a BAR4 write leaves: the write is held, and its credit is asked for where none was held before it. -/
theorem bar4Write_holds {s : State} {p : Port} {t : Bool} {o q a ep : Nat} {data : List Byte} (hup : (s.port p).linkUp = true)
    (htdi : s.tdiRefuses p t o = false) (hsome : data ≠ []) (hinside : data.length ≤ 256 - o % 256) (hplace : s.bar4Place p true o = some (q, a, ep)) :
    let u := s.bar4Write p t o data
    let f := s.bar4Frame p q a ep data
    (u.port p).heldWrites = (s.port p).heldWrites ++ [f] ∧ u.mem = s.mem
      ∧ (if (s.port p).heldWrites = [] then
          if s.maySend (State.askFor f) then u.frames = s.frames ++ [State.askFor f] ∧ u.backlog = s.backlog else u.frames = s.frames ∧ u.backlog = s.backlog ++ [State.askFor f]
        else u.frames = s.frames ∧ u.backlog = s.backlog) := by
  intro u f
  have hwrite : u = _ := State.bar4Write_one hup htdi hsome hinside hplace
  by_cases hnone : (s.port p).heldWrites = []
  · rw [if_pos (by rw [hnone]; rfl)] at hwrite
    obtain ⟨hgoes, hwaits⟩ := State.send_places (s.holdWrite p f) (State.askFor f)
    rw [State.maySend_holdWrite, State.holdWrite_frames, State.holdWrite_backlog] at hgoes hwaits
    rw [hwrite, if_pos hnone]
    refine ⟨by rw [State.port_send, State.holdWrite_held], by rw [State.send_mem, State.holdWrite_mem], ?_⟩
    split
    · exact hgoes ‹_›
    · exact hwaits (Bool.eq_false_iff.mpr ‹_›)
  · rw [if_neg (by simpa using hnone)] at hwrite
    rw [hwrite, if_neg hnone]
    exact ⟨State.holdWrite_held s p f, State.holdWrite_mem s p f, State.holdWrite_frames s p f, State.holdWrite_backlog s p f⟩

/-- Settles O45: links, resets and configuration by their branches, BAR4 by its one piece. -/
theorem hostPortsComplete : Obligations.HostPortsComplete := by
  intro s p trained down
  have htrained (s : State) (rate width : Nat) (flit : Bool) : s.portUp p rate width flit = trained s rate width flit := State.portUp_eq s p rate width flit
  refine ⟨fun rate width flit hperst hopen => ?_, rfl, fun rate width flit => ?_, fun k => rfl, fun n hperst hready => ⟨?_, ?_, rfl, rfl, rfl⟩,
    fun r h => exec_configRequest_retry r h, fun t o n q a ep hup htdi hsome hinside hplace => ?_,
    fun t o data q a ep hup htdi hsome hinside hplace => ?_⟩
  · rw [exec_hostLinkUp rate width flit hperst hopen, htrained]
  · rw [exec_perstDeassert]
    dsimp only
    rw [htrained]
  · exact exec_configRequest_open none hperst hready
  · exact exec_configRequest_open (some n) hperst hready
  · intro u hgood
    rw [exec_bar4Read, State.bar4Read_one hup htdi hsome hinside hplace hgood]
  · obtain ⟨hheld, hmem, hsent⟩ := bar4Write_holds hup htdi hsome hinside hplace
    exact ⟨_, s.bar4Frame p q a ep data, exec_bar4Write s p t o data, hheld, rfl, rfl, rfl, rfl, rfl, rfl, rfl, rfl, hmem, hsent⟩

end Sys2Proof.Machine
end

section
/-! PROOFS of the family 16_trust_and_isolation: attestation and management requests, firmware and fuses, TDISP interfaces and sealing keys. -/

namespace Sys2Proof.Machine
namespace State

/-! ## Signatures and messages (R410, R419, R420) -/

theorem signed_oldest {s : State} {m : Medium} {kind : Nat} {bs : List Byte} {n : Nat} {rest : List (Medium × Nat × List Byte × Nat)}
    (h : s.trust.signing = (m, kind, bs, n) :: rest) :
    s.signed = (let u := s.setTrust { s.trust with signing := rest }
      if kind = 4 then u.linkSigned n (Config.slhSign aliasKey bs) else u.emit (.spdm m kind (bs ++ Config.slhSign aliasKey (sha256 bs)))) := by
  unfold signed
  rw [h]
  simp only [beq_iff_eq]

/-! ## The board controller's cap and the reset key (R467, R480) -/

theorem writeCap_eq (s : State) (hi lo w : Nat) :
    s.writeCap hi lo w = (let kept := if w = 0 then 0 else min 3300 (max 1500 w)
      let u := s.setRf lhPowercap hi lo kept
      if kept = w then u else u.logErr { lhNotice E.capRange with detail := w }) := rfl

theorem writeResetctl_eq (s : State) (env : BootEnv) (key : Nat) :
    s.writeResetctl env key = if s.pkg.split = false ∧ key = 0x5AFE then s.packageReset env 1 else s.logErr (lhNotice E.resetRefused) := by
  unfold writeResetctl
  cases s.pkg.split
  · by_cases hkey : key = 0x5AFE
    · rw [hkey]; rfl
    · simp [hkey]
  · rfl

end State

section
variable {s : State} {m : Medium}

theorem exec_certificate (h : s.serves m = true) : exec (.certificate m) s = .next (s.emit (.spdm m 4 Config.certChain)) :=
  congrArg Host.Outcome.next (if_pos h)

theorem exec_challenge (h : s.serves m = true) (nonce : List Byte) :
    exec (.challenge m nonce) s = .next (s.askSigned m 1 (nonce ++ sha256 Config.certChain)) := congrArg Host.Outcome.next (if_pos h)

theorem exec_measurements (h : s.serves m = true) (is : List Nat) :
    exec (.measurements m is) s = .next (s.askSigned m 2 ((is.map s.measurement).flatten)) := congrArg Host.Outcome.next (if_pos h)

theorem exec_keyExchange (h : s.serves m = true) (key : List Byte) :
    exec (.keyExchange m key) s = .next (if s.trust.entropyOk then
      (s.setTrust { s.trust with draws := s.trust.draws + 1 }).askSigned m 3 (Config.kemEncaps key (s.trust.draws + 1)) else s.emit (.spdm m 0 [])) := by
  show execKeyExchange m key s = _
  unfold execKeyExchange State.drawKey
  rw [h]
  cases s.trust.entropyOk <;> rfl

end

theorem exec_signatureReady (s : State) : exec .signatureReady s = .next s.signed := rfl

theorem exec_testPortInstruction (s : State) (code : Nat) :
    exec (.testPortInstruction code) s = .next (let c := if s.trust.lockClosed = true ∧ code ≠ 0 ∧ code ≠ 1 then 0 else code
      (s.setPkg { s.pkg with testInstruction := c }).emit (.testPort c)) := by
  have hcode : (if s.trust.lockClosed && code != 0 && code != 1 then 0 else code) = if s.trust.lockClosed = true ∧ code ≠ 0 ∧ code ≠ 1 then 0 else code := by
    simp only [Bool.and_eq_true, bne_iff_ne, and_assoc]
  exact congrArg (fun c => Host.Outcome.next ((s.setPkg { s.pkg with testInstruction := c }).emit (.testPort c))) hcode

/-- Settles O49: a medium that is served is answered at once or waits for its signature. -/
theorem attestationCompletes : Obligations.AttestationCompletes := by
  intro s m waits
  refine ⟨fun hserves => ⟨exec_certificate hserves, exec_challenge hserves, exec_measurements hserves, exec_keyExchange hserves⟩,
    fun kind bs n rest hsigning => ?_, fun eid => ?_, fun code => exec_testPortInstruction s code⟩
  · intro u
    rw [exec_signatureReady, State.signed_oldest hsigning]
  · cases m with
    | smbus => rfl
    | pcie o => cases o <;> rfl
    | doe o => cases o <;> rfl

section
variable {s : State} (h : s.serves .smbus = true)
include h

theorem exec_pldmPowerCap (w : Nat) : exec (.pldmPowerCap w) s = .next (s.writeCap 47 32 w) := congrArg Host.Outcome.next (if_pos h)

theorem exec_pldmSensorRead (d : Nat) :
    exec (.pldmSensorRead d) s = .next (let w := s.readReg (!s.fullres) ⟨.lhTelem, 0, d⟩
      s.emit (.pldm 2 [wfld w 63 40, wfld w 39 28, wfld w 27 16])) :=
  congrArg Host.Outcome.next (if_neg (by rw [h]; decide))

theorem exec_pldmQuotaWrite (p k limit : Nat) : exec (.pldmQuotaWrite p k limit) s = .next (s.setRf ⟨.lhQuota, 0, 4 * p + k⟩ 31 0 limit) :=
  congrArg Host.Outcome.next (if_pos h)

theorem exec_pldmEventRetrieval {n : Nat} (halerts : s.pkg.alerts = n + 1) :
    exec .pldmEventRetrieval s = .next ((s.setPkg { s.pkg with alerts := n }).emit (.pldm 3 [n])) := by
  show execPldmEventRetrieval s = _
  unfold execPldmEventRetrieval
  rw [h, halerts]
  rfl

theorem exec_pldmReset (env : BootEnv) (hrails : s.pkg.railsOff = false) : exec (.pldmReset env) s = .next (s.packageReset env 2) :=
  congrArg Host.Outcome.next (if_pos (by rw [h, hrails]; rfl))

end

theorem exec_packageReset {s : State} {o : Port} (hgate : s.gate (.host o) true State.lhResetctl = none) (key : Nat) (env : BootEnv) :
    exec (.packageReset o key env) s = .next (s.writeResetctl env key) := congrArg Host.Outcome.next (State.access_open hgate)

/-- Settles O50: what the Lighthouse does for each request while it serves the bus. -/
theorem managementCompletes : Obligations.ManagementCompletes := by
  intro s
  refine ⟨fun hserves => ⟨fun w => ?_, exec_pldmSensorRead hserves, exec_pldmQuotaWrite hserves, fun n => exec_pldmEventRetrieval hserves,
    exec_pldmReset hserves⟩, fun o key env hgate => ?_⟩
  · intro kept u
    rw [exec_pldmPowerCap hserves, State.writeCap_eq]
  · rw [exec_packageReset hgate, State.writeResetctl_eq]

end Sys2Proof.Machine
end

section
namespace Sys2Proof.Machine
namespace State

/-! ## Commits and Pilot loads (R418, R443) -/

/-- A load that every condition allows comes down to the image's verification. -/
theorem pilotLoad_checked {s : State} {p base : Nat} (hslack : s.strataState p = 2) (hout : (s.session p).state = 0)
    (hown : s.ownTower p (base * 4096) 64 = true) (hsize : fieldAt (s.bytes (base * 4096) 64) 8 4 ≤ 0x40000)
    (hwhole : (s.setReg ⟨.lhPilotfw, 0, p⟩ (BitVec.ofNat 64 (base % 2 ^ 40 * 4096))).ownTower p (base * 4096)
      (64 + fieldAt (s.bytes (base * 4096) 64) 8 4 + 7856) = true) :
    let u := s.setReg ⟨.lhPilotfw, 0, p⟩ (BitVec.ofNat 64 (base % 2 ^ 40 * 4096))
    let i := u.imageAt (base * 4096)
    (∀ c, u.fwFault 3 i = some c → s.pilotLoad p base = (u.setRf ⟨.lhPartsec, 0, p⟩ 47 32 c).lhManage c)
    ∧ (u.fwFault 3 i = none → s.pilotLoad p base = (u.setSession p { u.session p with
        pilotDigest := (i.header.drop 16).take 32, pilotSvn := fieldAt i.header 5 1, pilotOk := true }).setRf ⟨.lhPartsec, 0, p⟩ 47 32 0) := by
  unfold pilotLoad
  simp only [hslack, hout, hown, hwhole, Nat.not_lt_of_le hsize, ne_eq, not_true, if_false, Bool.not_true, Bool.false_eq_true, or_self]
  exact ⟨fun c hfault => by rw [hfault], fun hfault => by rw [hfault]⟩

end State

section
variable {s : State} {o : Port} (h : s.gate (.host o) true ⟨.lhSecctl, 0, 0⟩ = none)
include h

theorem exec_commitLh : exec (.commitLh o) s = .next (s.commit 1) := congrArg Host.Outcome.next (State.access_open h)
theorem exec_commitHb : exec (.commitHb o) s = .next (s.commit 2) := congrArg Host.Outcome.next (State.access_open h)
theorem exec_commitPil : exec (.commitPil o) s = .next (s.commit 3) := congrArg Host.Outcome.next (State.access_open h)
theorem exec_lockfuse : exec (.lockfuse o) s = .next (s.setTrust { s.trust with lockBlown := true }) := congrArg Host.Outcome.next (State.access_open h)

end

theorem exec_pldmCommit {s : State} (h : s.serves .smbus = true) (kind : Nat) : exec (.pldmCommit kind) s = .next (s.commit kind) :=
  congrArg Host.Outcome.next (if_pos h)

theorem exec_fullres {s : State} {a : Agent} (on : Bool) (h : s.gate a false ⟨.lhSecctl, 0, 0⟩ = none) :
    exec (.fullres a on) s = .next (if s.trust.lockClosed then (if on then s.logErr (lhNotice E.debugClosed) else s) else s.setRf ⟨.lhSecctl, 0, 0⟩ 63 63 (b2n on)) :=
  congrArg Host.Outcome.next (State.access_open h)

theorem exec_pilotFwLoad {s : State} {o : Port} {p : Nat} (base : Nat) (h : s.gate (.host o) true ⟨.lhPilotfw, 0, p⟩ = none) :
    exec (.pilotFwLoad o p base) s = .next (s.pilotLoad p base) := congrArg Host.Outcome.next (State.access_open h)

/-- The kind that an image is verified as: its own, or a Pilot's where it names none of the package's. -/
def stagedKind (i : FwImage) : Nat := if fwKind i == 1 || fwKind i == 2 then fwKind i else 3

section
variable {s : State} {i : FwImage} (hpower : s.pkg.powered = true) (hheld : s.pkg.heldReset = false)
include hpower hheld

theorem exec_pldmFirmwareUpdate_rejected {c : Nat} (hfault : s.fwFault (stagedKind i) i = some c) :
    exec (.pldmFirmwareUpdate i) s = .next ((s.lhManage c).emit (.pldm 1 [c])) := by
  unfold stagedKind at hfault
  show execPldmFirmwareUpdate i s = _
  unfold execPldmFirmwareUpdate
  rw [hpower, hheld, hfault]
  rfl

theorem exec_pldmFirmwareUpdate_staged (hfault : s.fwFault (stagedKind i) i = none) :
    exec (.pldmFirmwareUpdate i) s
      = .next ((s.setTrust { s.trust with staged := (s.trust.staged.filter fun j => fwKind j != fwKind i) ++ [i] }).emit (.pldm 1 [0])) := by
  unfold stagedKind at hfault
  show execPldmFirmwareUpdate i s = _
  unfold execPldmFirmwareUpdate
  rw [hpower, hheld, hfault]
  rfl

end

/-- Settles O48: commits and the fuse by their branches, loads and staged images by the verdict on the image. -/
theorem firmwareAndFusesComplete : Obligations.FirmwareAndFusesComplete := by
  intro s o up pilots lh hb pil
  refine ⟨fun hgate => ⟨exec_commitLh hgate, exec_commitHb hgate, exec_commitPil hgate, exec_lockfuse hgate⟩,
    fun hserves => ⟨exec_pldmCommit hserves 1, exec_pldmCommit hserves 2, exec_pldmCommit hserves 3⟩,
    fun a on hgate => exec_fullres on hgate, fun p base => ?_, fun i hpower hheld => ?_⟩
  · intro r n u hgate hslack hout hown hsize hwhole
    obtain ⟨hrejected, haccepted⟩ := State.pilotLoad_checked hslack hout hown hsize hwhole
    rw [exec_pilotFwLoad base hgate]
    cases hfault : u.fwFault 3 (u.imageAt (base * 4096)) with
    | none => exact congrArg Host.Outcome.next (haccepted hfault)
    | some c => exact congrArg Host.Outcome.next (hrejected c hfault)
  · cases hfault : s.fwFault (if fwKind i == 1 || fwKind i == 2 then fwKind i else 3) i with
    | none => exact exec_pldmFirmwareUpdate_staged hpower hheld hfault
    | some c => exact exec_pldmFirmwareUpdate_rejected hpower hheld hfault

end Sys2Proof.Machine
end

section
namespace Sys2Proof.Machine
namespace State

/-! ## Entries of a session's log (R422) -/

/-- An entry of a log with room for it changes the log and its chain. -/
theorem sessionEntry_session {s : State} {p : Nat} (h : (s.session p).log.length < 1024) (kind count identity : Nat) (digest : List Byte) :
    ∃ e c, (s.sessionEntry p kind count identity digest).session p = { s.session p with log := (s.session p).log ++ [e], chain := c } := by
  unfold sessionEntry
  rw [if_neg (Nat.not_le_of_lt h)]
  exact ⟨_, _, session_setSession_self _ _ _⟩

theorem sessionEntry_keeps {β : Type} (g : State → β) (h : ∀ s p v, g (setSession s p v) = g s) (s : State) (p kind count identity : Nat) (digest : List Byte) :
    g (s.sessionEntry p kind count identity digest) = g s := ite_keeps g rfl (h _ _ _)

/-- What no entry of a log touches of its session. -/
theorem sessionEntry_rest (s : State) (p kind count identity : Nat) (digest : List Byte) :
    let w := (s.sessionEntry p kind count identity digest).session p
    w.state = (s.session p).state ∧ w.stopping = (s.session p).stopping := by
  unfold sessionEntry
  dsimp only
  split
  · exact ⟨rfl, rfl⟩
  · rw [session_setSession_self]
    exact ⟨rfl, rfl⟩

theorem newGeneration_keeps {β : Type} (g : State → β) (hlh : ∀ s v, g (setLh s v) = g s) (s : State) : g s.newGeneration = g s := hlh _ _

/-! ## The lock of an interface (R424, R425) -/

theorem rekeyPorts_keeps {β : Type} (g : State → β) (hcxl : ∀ s k v, g (setCxl s k v) = g s) (htrust : ∀ s v, g (setTrust s v) = g s) (s : State) (p : Nat) :
    g (s.rekeyPorts p) = g s := by
  refine forAll_keeps g (fun s k => ?_) _ s
  unfold drawKey
  cases s.trust.entropyOk
  · rfl
  · exact (hcxl _ _ _).trans (htrust _ _)

/-- The session that a lock begins, before its first two entries. -/
def lockedSession (s : State) (o : Port) (p : Nat) : Session :=
  { s.session p with state := 1, port := o.shore, log := [], chain := List.replicate 32 0, key0 := some (s.trust.draws + 1), key1 := none, epoch := 0,
                     rotating := false, stopping := false }

/-- The state in which a lock writes its entries: the session has begun, and the CXL ports of the partition have new keys. -/
def lockedState (s : State) (o : Port) (p : Nat) : State :=
  ((((s.setTrust { s.trust with draws := s.trust.draws + 1 }).setSession p (s.lockedSession o p)).setRf ⟨.lhPartsec, 0, p⟩ 31 0 0).setRf
    ⟨.lhSealstat, 0, p⟩ 23 0 0).rekeyPorts p

theorem lockedState_session (s : State) (o : Port) (p : Nat) : (s.lockedState o p).session p = s.lockedSession o p :=
  (rekeyPorts_keeps (·.session p) (fun _ _ _ => rfl) (fun _ _ => rfl) _ _).trans (by rw [session_setRf, session_setRf, session_setSession_self])

theorem lockedState_keeps {β : Type} (g : State → β) (hcxl : ∀ s k v, g (setCxl s k v) = g s) (htrust : ∀ s v, g (setTrust s v) = g s)
    (hsession : ∀ s p v, g (setSession s p v) = g s) (hreg : ∀ s r w, g (setReg s r w) = g s) (s : State) (o : Port) (p : Nat) : g (s.lockedState o p) = g s :=
  (rekeyPorts_keeps g hcxl htrust _ _).trans ((hreg _ _ _).trans ((hreg _ _ _).trans ((hsession _ _ _).trans (htrust _ _))))

/-- The first two entries of a session's log (R422). -/
def lockEntries (s : State) (p : Nat) : State :=
  let u := s.sessionEntry p 1 0 0 (sha256 (s.measurement 2 ++ s.measurement 3 ++ s.measurement 4 ++ s.measurement (0x21 + 4 * p)))
  u.sessionEntry p 2 0 (u.reg ⟨.lhStrataId, 0, p⟩).toNat (sha256 (u.phase p).image)

theorem lockEntries_session {s : State} {p : Nat} (h : (s.session p).log = []) :
    ∃ a b c, (s.lockEntries p).session p = { s.session p with log := [a, b], chain := c } := by
  obtain ⟨a, c, hfirst⟩ := sessionEntry_session (s := s) (p := p) (by rw [h]; exact Nat.zero_lt_succ _) 1 0 0
    (sha256 (s.measurement 2 ++ s.measurement 3 ++ s.measurement 4 ++ s.measurement (0x21 + 4 * p)))
  rw [h] at hfirst
  unfold lockEntries
  dsimp only
  generalize s.sessionEntry p 1 0 0 _ = u at hfirst ⊢
  obtain ⟨b, c', hsecond⟩ := sessionEntry_session (s := u) (p := p) (by rw [hfirst]; exact Nat.lt_of_sub_eq_succ rfl) 2 0 (u.reg ⟨.lhStrataId, 0, p⟩).toNat
    (sha256 (u.phase p).image)
  exact ⟨a, b, c', by rw [hsecond, hfirst]; rfl⟩

theorem lockEntries_keeps {β : Type} (g : State → β) (hsession : ∀ s p v, g (setSession s p v) = g s) (s : State) (p : Nat) : g (s.lockEntries p) = g s := by
  unfold lockEntries
  exact (sessionEntry_keeps g hsession _ _ _ _ _ _).trans (sessionEntry_keeps g hsession _ _ _ _ _ _)

/-- The state that a lock leaves, but for the answer: a page table of an earlier epoch counts as changed (R461). -/
def lockDone (s : State) (o : Port) (p : Nat) : State :=
  if (s.session p).epoch == 0 then (s.lockedState o p).lockEntries p else ((s.lockedState o p).lockEntries p).newGeneration

theorem lockInterface_eq {s : State} (hrandom : s.trust.entropyOk = true) (o : Port) (p : Nat) :
    s.lockInterface o p = (s.lockDone o p).emit (.tdisp o p true) := by
  unfold lockInterface
  rw [drawKey_of_ok hrandom]
  rfl

theorem lockDone_keeps {β : Type} (g : State → β) (hcxl : ∀ s k v, g (setCxl s k v) = g s) (htrust : ∀ s v, g (setTrust s v) = g s)
    (hsession : ∀ s p v, g (setSession s p v) = g s) (hreg : ∀ s r w, g (setReg s r w) = g s) (hlh : ∀ s v, g (setLh s v) = g s) (s : State)
    (o : Port) (p : Nat) : g (s.lockDone o p) = g s := by
  have hentries : g ((s.lockedState o p).lockEntries p) = g s :=
    (lockEntries_keeps g hsession _ p).trans (lockedState_keeps g hcxl htrust hsession hreg s o p)
  unfold lockDone
  generalize (s.lockedState o p).lockEntries p = u at hentries ⊢
  exact ite_keeps g hentries ((newGeneration_keeps g hlh u).trans hentries)

theorem lockInterface_session {s : State} (hrandom : s.trust.entropyOk = true) (o : Port) (p : Nat) :
    ∃ a b c, (s.lockInterface o p).session p = { s.lockedSession o p with log := [a, b], chain := c } := by
  obtain ⟨a, b, c, h⟩ := lockEntries_session (s := s.lockedState o p) (p := p) (by rw [lockedState_session]; rfl)
  rw [lockedState_session] at h
  rw [lockInterface_eq hrandom, session_emit]
  unfold lockDone
  generalize (s.lockedState o p).lockEntries p = u at h ⊢
  exact ⟨a, b, c, ite_keeps (·.session p) h ((newGeneration_keeps (·.session p) (fun _ _ => rfl) u).trans h)⟩

/-! ## The scrub at a session's end (R437, R438) -/

theorem clearCore_keeps {β : Type} (g : State → β) (hrings : ∀ s v, g (setRings s v) = g s) (harray : ∀ s c a v, g (setArray s c a v) = g s)
    (hchan : ∀ s c n v, g (setChan s c n v) = g s) (hreg : ∀ s r w, g (setReg s r w) = g s) (s : State) (core : Nat) : g (s.clearCore core) = g s :=
  (forAll_keeps g (fun _ _ => hreg _ _ _) _ _).trans ((forAll_keeps g (fun _ _ => hreg _ _ _) _ _).trans ((forAll_keeps g (fun _ _ => hchan _ _ _ _) _ _).trans
    ((forAll_keeps g (fun _ _ => harray _ _ _ _) _ _).trans (hrings _ _))))

theorem clearCores_keeps {β : Type} (g : State → β) (hrings : ∀ s v, g (setRings s v) = g s) (harray : ∀ s c a v, g (setArray s c a v) = g s)
    (hchan : ∀ s c n v, g (setChan s c n v) = g s) (hreg : ∀ s r w, g (setReg s r w) = g s) (s : State) (p : Nat) (whole : Bool) (us : List (Nat × Nat × Nat)) :
    g (s.clearCores p whole us) = g s := forAll_keeps g (fun s core => clearCore_keeps g hrings harray hchan hreg s core) _ s

/-- The state in which a scrub without failures makes its entries: the ranges are zero, and the cores are cleared. -/
def scrubbedState (s : State) (p : Nat) : State :=
  let v := s.session p
  let passed := v.units.map fun u => (u.1, u.2.1)
  let w := ((s.scrubRanges (s.sessionRanges p ++ passed) []).unsealRanges passed []).clearCores p true v.units
  w.setLh { w.lh with unowned := w.lh.unowned.filter fun u => !passed.any (fun r => decide (r.1 ≤ u.1) && decide (u.1 < r.1 + r.2)) || [].contains u.1 }

theorem scrubbedState_session (s : State) (p : Nat) : (s.scrubbedState p).session p = s.session p :=
  clearCores_keeps (·.session p) (fun _ _ => rfl) (fun _ _ _ _ => rfl) (fun _ _ _ _ => rfl) (fun _ _ _ => rfl) _ p _ _

theorem scrubbedState_mem (s : State) (p : Nat) :
    (s.scrubbedState p).mem = s.mem.filter fun c => !((s.sessionRanges p ++ (s.session p).units.map fun u => (u.1, u.2.1)).any fun r =>
      decide (r.1 ≤ c.1) && decide (c.1 < r.1 + r.2)) := by
  refine (clearCores_keeps (·.mem) (fun _ _ => rfl) (fun _ _ _ _ => rfl) (fun _ _ _ _ => rfl) (fun _ _ _ => rfl) _ p _ _).trans ?_
  simp [scrubRanges, unsealRanges]

/-- The entries of a scrub at a session's end (R422, R438). -/
def scrubEntries (s : State) (p : Nat) : State :=
  ((s.scrubbedState p).sessionEntry p 3 ((s.sessionRanges p).foldl (fun a r => a + r.2 / 4096) 0) 0 (rangesDigest (s.sessionRanges p))).sessionEntry p 5 0 0
    (zeros 32)

theorem scrubDone_clean {s : State} {p : Nat} (h : (s.session p).scrub = true) :
    s.scrubDone p [] = (let u := s.scrubEntries p
      u.setSession p { u.session p with
        scrub := false, units := [], state := if (s.session p).stopping then 0 else (u.session p).state, stopping := false }) := by
  unfold scrubDone scrubEntries scrubbedState
  dsimp only
  rw [h]
  simp only [Bool.not_true, Bool.false_and, Bool.false_eq_true, if_false, if_true, List.filter_nil, List.map_nil, List.foldl_nil, Bool.true_and]

theorem scrubEntries_rest (s : State) (p : Nat) :
    ((s.scrubEntries p).session p).state = (s.session p).state ∧ (s.scrubEntries p).mem = (s.scrubbedState p).mem := by
  refine ⟨?_, (sessionEntry_mem _ _ _ _ _ _).trans (sessionEntry_mem _ _ _ _ _ _)⟩
  unfold scrubEntries
  rw [(sessionEntry_rest _ _ _ _ _ _).1, (sessionEntry_rest _ _ _ _ _ _).1, scrubbedState_session]

/-! ## Rotation of a sealing key (R433, R434) -/

/-- The session of a partition whose rotation has drawn a key. -/
def rotatedSession (v : Session) (d : Nat) : Session :=
  if v.epoch = 0 then { v with key1 := some d, epoch := 1, rotating := true } else { v with key0 := some d, epoch := 1 - v.epoch, rotating := true }

theorem sealRotate_begins {s : State} {p : Nat} (hin : s.inSession p = true) (hidle : (s.session p).rotating = false) (hrandom : s.trust.entropyOk = true) :
    s.sealRotate p = (let w := (s.setTrust { s.trust with draws := s.trust.draws + 1 }).setSession p (rotatedSession (s.session p) (s.trust.draws + 1))
      ((w.setRf ⟨.lhSealstat, 0, p⟩ 23 0 (w.oldPages p (s.session p).epoch)).newGeneration).endRotation p) := by
  unfold sealRotate rotatedSession
  dsimp only
  rw [hin, hidle, drawKey_of_ok hrandom]
  rcases Nat.eq_zero_or_pos (s.session p).epoch with hzero | hpos
  · simp [hzero]
  · simp [Nat.ne_of_gt hpos, Nat.sub_eq_zero_of_le hpos]

theorem resealPage_free {s : State} {p page a e phys k k' : Nat} (ha : a = wfld (s.reg ⟨.lhPtbase, 0, 3 * p + 1⟩) 51 12 * 4096 + 8 * page)
    (he : e = leNat (s.bytes a 8)) (hphys : phys = fld e 35 0 * 0x10000) (hrotating : (s.session p).rotating = true)
    (hvalid : wbit (s.reg ⟨.lhPtbase, 0, 3 * p + 1⟩) 0 = true) (hentry : bitOf e 63 = true) (hsealed : bitOf e 59 = true)
    (hepoch : fld e 58 58 = 1 - (s.session p).epoch) (hflight : s.pageInFlight p (1 - (s.session p).epoch) phys = false)
    (hold : s.sealKey p (1 - (s.session p).epoch) = some k) (hnew : s.sealKey p (s.session p).epoch = some k') :
    s.resealPage p page = (
      let w := (s.setSeals (s.seals.map fun u => if inPage phys (256 * u.1) && u.2 == k then (u.1, k') else u)).setBytes a (leBytes 8 (putFld e 58 58 (s.session p).epoch))
      let w := w.retranslate p (1 - (s.session p).epoch) (s.session p).epoch phys
      (w.setRf ⟨.lhSealstat, 0, p⟩ 23 0 (w.rf ⟨.lhSealstat, 0, p⟩ 23 0 - 1)).endRotation p) := by
  unfold resealPage
  dsimp only
  rw [← ha, ← he, ← hphys, hrotating, hvalid, hentry, hsealed, hepoch, hflight, hold, hnew, bne_self_eq_false]
  rfl

/-! ## The end of an interface (R424, R425) -/

theorem stopInterface_in_error {s : State} {o : Port} {p : Nat} (hown : s.portOwns o p = true) (h : (s.session p).state = 3) :
    s.stopInterface o p = (s.emit (.tdisp o p true)).setSession p
      (if (s.session p).scrub then { s.session p with stopping := true } else { s.session p with state := 0 }) := by
  unfold stopInterface
  dsimp only
  rw [hown, h]
  cases (s.session p).scrub <;> rfl

theorem stopInterface_in_session {s : State} {o : Port} {p : Nat} (hown : s.portOwns o p = true) (h : (s.session p).state = 1 ∨ (s.session p).state = 2) :
    s.stopInterface o p = (let u := (((s.emit (.tdisp o p true)).tasks.filter fun t => t.active && t.partition == p).foldl
        (fun s t => s.abortTask t.id) (s.emit (.tdisp o p true))).beginScrub p
      u.setSession p { u.session p with stopping := true }) := by
  unfold stopInterface
  rcases h with h | h <;> simp [hown, h]

end State

section
variable {s : State} {o : Port} {p : Nat} (hup : (s.port o).linkUp = true)
include hup

theorem exec_lockInterface (h : s.lockMay o p = true) : exec (.lockInterface o p) s = .next (s.lockInterface o p) := by
  show execLockInterface o p s = _
  unfold execLockInterface
  rw [hup, h]
  rfl

theorem exec_startInterface (hown : s.portOwns o p = true) (hstate : (s.session p).state = 1) (hstopping : (s.session p).stopping = false) :
    exec (.startInterface o p) s = .next ((s.setSession p { s.session p with state := 2 }).emit (.tdisp o p true)) := by
  show execStartInterface o p s = _
  unfold execStartInterface
  simp [hup, hown, hstate, hstopping]

theorem exec_stopInterface : exec (.stopInterface o p) s = .next (s.stopInterface o p) := congrArg Host.Outcome.next (if_pos hup)

theorem exec_report (hown : s.portOwns o p = true) : exec (.getDeviceInterfaceReport o p) s
    = .next (s.emit (.tdispReport o p (s.mmioRanges o p) (s.measurement (0x21 + 4 * p)))) := by
  show execGetDeviceInterfaceReport o p s = _
  unfold execGetDeviceInterfaceReport
  rw [hup, hown]
  rfl

theorem exec_ideKm (h : p ∉ (s.port o).ide) : exec (.ideKm o p) s = .next (s.setPort o { s.port o with ide := (s.port o).ide ++ [p] }) := by
  show execIdeKm o p s = _
  unfold execIdeKm
  simp [hup, h]

end

theorem exec_hostIdeFail (s : State) (o : Port) (p : Nat) :
    exec (.hostIdeFail o p) s = .next (let u := s.setPort o { s.port o with ide := (s.port o).ide.filter fun q => q != p }
      if s.portOwns o p then u.sessionError p 0 0 else u) := by
  have hown : (s.setPort o { s.port o with ide := (s.port o).ide.filter fun q => q != p }).portOwns o p = s.portOwns o p := by cases o <;> rfl
  show execHostIdeFail o p s = _
  unfold execHostIdeFail
  rw [← hown]

theorem exec_sealRotate {s : State} {o : Port} {p : Nat} (hgate : s.gate (.host o) true ⟨.lhSealctl, 0, p⟩ = none) :
    exec (.sealRotate o p) s = .next (s.sealRotate p) := congrArg Host.Outcome.next (State.access_open hgate)

theorem exec_pageResealed (s : State) (p page : Nat) : exec (.pageResealed p page) s = .next (s.resealPage p page) := rfl
theorem exec_scrubDone (s : State) (p : Nat) (failed : List (Nat × Nat)) : exec (.scrubDone p failed) s = .next (s.scrubDone p failed) := rfl

theorem exec_entropyHealthFail {s : State} (h : s.pkg.powered = true) :
    exec .entropyHealthFail s = .next ((s.setTrust { s.trust with entropyOk := false }).lhManage E.entropy) := congrArg Host.Outcome.next (if_pos h)

/-- Settles O47: the lock's session, the ends of a session and of its scrub, and the rotation of its key. -/
theorem interfacesComplete : Obligations.InterfacesComplete := by
  intro s o p v
  refine ⟨fun hup => ⟨fun hmay => ?_, fun hown => ⟨exec_startInterface hup hown, fun hstate => ?_, fun hstate => ?_, exec_report hup hown⟩, exec_ideKm hup⟩,
    exec_hostIdeFail s o p, fun hgate hin hidle hrandom => ?_, fun page k k' => ?_, fun hscrub => ?_, exec_entropyHealthFail⟩
  · have hrandom : s.trust.entropyOk = true := by
      unfold State.lockMay at hmay
      simp only [Bool.and_eq_true] at hmay
      exact hmay.2
    obtain ⟨a, b, c, hsession⟩ := State.lockInterface_session hrandom o p
    refine ⟨_, exec_lockInterface hup hmay, ?_⟩
    rw [hsession]
    refine ⟨rfl, rfl, rfl, rfl, rfl, rfl, ?_, ?_⟩ <;> rw [State.lockInterface_eq hrandom]
    · exact congrArg (· ++ [OutEvent.tdisp o p true]) (State.lockDone_keeps (·.out) State.setCxl_out State.setTrust_out State.setSession_out
        State.setReg_out State.setLh_out s o p)
    · exact State.lockDone_keeps (·.mem) State.setCxl_mem State.setTrust_mem State.setSession_mem State.setReg_mem State.setLh_mem s o p
  · rw [exec_stopInterface hup, State.stopInterface_in_error hown hstate]
  · intro u
    rw [exec_stopInterface hup, State.stopInterface_in_session hown hstate]
  · rw [exec_sealRotate hgate, State.sealRotate_begins hin hidle hrandom]
    rfl
  · intro base a e phys hrotating hvalid hentry hsealed hepoch hflight hold hnew
    rw [exec_pageResealed, State.resealPage_free rfl rfl rfl hrotating hvalid hentry hsealed hepoch hflight hold hnew]
  · obtain ⟨hstate, hmem⟩ := State.scrubEntries_rest s p
    refine ⟨_, (exec_scrubDone s p []).trans (congrArg Host.Outcome.next (State.scrubDone_clean hscrub)), ?_⟩
    rw [State.session_setSession_self, State.setSession_mem, hmem, State.scrubbedState_mem]
    refine ⟨rfl, rfl, rfl, by rw [hstate], fun c hc => ?_⟩
    obtain ⟨hin, hout⟩ := List.mem_filter.mp hc
    refine ⟨hin, fun r hr ⟨hlow, hhigh⟩ => ?_⟩
    simp only [Bool.not_eq_true', List.any_eq_false] at hout
    exact hout r (List.mem_append_left _ hr) (by rw [decide_eq_true hlow, decide_eq_true hhigh]; rfl)

end Sys2Proof.Machine
end

section
/-! PROOFS of the families 17_lighthouse_sounding_and_recovery and 18_power_up_and_reset: the error logs, and what power losses and resets clear and keep. -/

namespace Sys2Proof.Machine

/-! ## The bits of HB_ERRSUM that an entry sets (R450, R451) -/

/-- The bit of an error's class: none where no class has the code. -/
def classBit (e : ErrInfo) : Nat := if 1 ≤ e.code / 256 ∧ e.code / 256 ≤ 8 then 2 ^ (e.code / 256) else 0

/-- The bits of HB_ERRSUM for an entry: its severity, whether it was dropped, and its class. -/
def errBits (e : ErrInfo) (dropped : Bool) : Nat := 2 ^ (61 + e.severity) + b2n dropped * 2 ^ 60 + classBit e

theorem classBit_lt (e : ErrInfo) : classBit e < 2 ^ 60 := by
  unfold classBit
  split
  · exact Nat.pow_lt_pow_right (by decide) (by omega)
  · decide

theorem testBit_errBits (e : ErrInfo) (dropped : Bool) (i : Nat) :
    (errBits e dropped).testBit i = if i < 60 then (classBit e).testBit i else (2 ^ (1 + e.severity) + b2n dropped).testBit (i - 60) := by
  rw [← Nat.testBit_two_pow_mul_add _ (classBit_lt e), errBits, show 61 + e.severity = 60 + (1 + e.severity) by omega, Nat.pow_add 2 60, Nat.mul_add,
    Nat.mul_comm (b2n dropped)]

theorem testBit_errBits_dropped (e : ErrInfo) (dropped : Bool) : (errBits e dropped).testBit 60 = dropped := by
  rw [testBit_errBits, if_neg (Nat.lt_irrefl 60), Nat.sub_self, Nat.testBit_zero, Nat.add_comm 1, Nat.pow_succ]
  cases dropped <;> simp [b2n]

theorem testBit_errBits_severity (e : ErrInfo) (dropped : Bool) : (errBits e dropped).testBit (61 + e.severity) = true := by
  have hsmall : b2n dropped < 2 ^ (1 + e.severity) := Nat.lt_of_lt_of_le (b2n_lt_two dropped) (Nat.pow_le_pow_right (n := 2) (i := 1) (by decide) (Nat.le_add_right 1 _))
  rw [testBit_errBits, if_neg (by omega), show 61 + e.severity - 60 = 1 + e.severity by omega, Nat.testBit_two_pow_add_eq, Nat.testBit_lt_two_pow hsmall]
  rfl

theorem testBit_errBits_class (e : ErrInfo) (dropped : Bool) (h : 1 ≤ e.code / 256) (h' : e.code / 256 ≤ 8) :
    (errBits e dropped).testBit (e.code / 256) = true := by
  rw [testBit_errBits, if_pos (by omega), classBit, if_pos ⟨h, h'⟩, Nat.testBit_two_pow_self]

/-! ## One log (R445, R450) -/

/-- A log with 256 unread entries keeps them all; the lost count rises to its width and stays there. -/
theorem ErrLog.enter_full {l : ErrLog} (h : l.unread = 256) (east both : Bool) (e : ErrInfo) :
    l.enter east both e = { l with seq := l.seq + 1, lost := min (l.lost + 1) 65535 } := by
  unfold ErrLog.enter
  rw [h]
  rfl

theorem ErrLog.enter_free {l : ErrLog} (h : l.unread < 256) (east both : Bool) (e : ErrInfo) :
    l.enter east both e = { l with
      entries := Tab.put id [] l.entries l.tail (e.bytes (b2n east * 2 ^ 63 + l.seq) both), seq := l.seq + 1, tail := (l.tail + 1) % 256, unread := l.unread + 1 } := by
  unfold ErrLog.enter
  rw [beq_eq_false_iff_ne.mpr (Nat.ne_of_lt h)]
  rfl

/-- A sequence number passes, and the head stays, whether or not the log has room. -/
theorem ErrLog.enter_seq_head (l : ErrLog) (east both : Bool) (e : ErrInfo) : (l.enter east both e).seq = l.seq + 1 ∧ (l.enter east both e).head = l.head := by
  unfold ErrLog.enter
  dsimp only
  split <;> exact ⟨rfl, rfl⟩

namespace State

/-- The register that sums up the log of a shore. -/
def errsum (shore : Nat) : RegId := ⟨.hbErrsum, 2 * shore, 0⟩

theorem log_logOne_self (s : State) {h : Nat} (hh : h < 2) (both : Bool) (e : ErrInfo) : (s.logOne h both e).log h = (s.log h).enter (h != 0) both e := by
  obtain rfl | rfl : h = 0 ∨ h = 1 := by omega
  · rfl
  · rfl

theorem log_logOne_other (s : State) {h k : Nat} (hh : h < 2) (hk : k < 2) (hne : h ≠ k) (both : Bool) (e : ErrInfo) : (s.logOne k both e).log h = s.log h := by
  obtain ⟨rfl, rfl⟩ | ⟨rfl, rfl⟩ : h = 0 ∧ k = 1 ∨ h = 1 ∧ k = 0 := by omega
  · rfl
  · rfl

theorem reg_logOne_self (s : State) (h : Nat) (both : Bool) (e : ErrInfo) :
    (s.logOne h both e).reg (errsum h) = s.reg (errsum h) ||| BitVec.ofNat 64 (errBits e ((s.log h).unread == 256)) := reg_setReg_self _ _ _

theorem reg_logOne_other (s : State) {h k : Nat} (hne : h ≠ k) (both : Bool) (e : ErrInfo) : (s.logOne k both e).reg (errsum h) = s.reg (errsum h) :=
  reg_setReg_other _ _ fun heq => hne (by have : 2 * h = 2 * k := congrArg RegId.unit heq; omega)

/-- An entry of management severity is signalled on both ports and to the board controller (R448, R488). -/
def announce (s : State) (e : ErrInfo) : State :=
  if e.severity == 2 then
    let s := s.setPkg { s.pkg with alerts := s.pkg.alerts + 1 }
    (s.fireVector .w (s.rf ⟨.hbPortcfg, 0, 0⟩ 9 0)).fireVector .e (s.rf ⟨.hbPortcfg, 2, 0⟩ 9 0)
  else s

theorem logErr_west {e : ErrInfo} (h : e.where' = 0) (s : State) : s.logErr e = (s.logOne 0 false e).announce e := by
  unfold logErr; rw [h]; rfl

theorem logErr_east {e : ErrInfo} (h : e.where' = 1) (s : State) : s.logErr e = (s.logOne 1 false e).announce e := by
  unfold logErr; rw [h]; rfl

theorem logErr_both {e : ErrInfo} (h : e.where' = 2) (s : State) : s.logErr e = ((s.logOne 0 true e).logOne 1 true e).announce e := by
  unfold logErr; rw [h]; rfl

theorem fireVector_log (s : State) (p : Port) (v h : Nat) : (s.fireVector p v).log h = s.log h := ite_keeps (·.log h) rfl rfl

theorem announce_log (s : State) (e : ErrInfo) (h : Nat) : (s.announce e).log h = s.log h :=
  ite_keeps (·.log h) ((fireVector_log _ _ _ _).trans (fireVector_log _ _ _ _)) rfl

theorem announce_reg (s : State) (e : ErrInfo) (h : Nat) : (s.announce e).reg (errsum h) = s.reg (errsum h) :=
  ite_keeps (·.reg (errsum h)) ((fireVector_reg_other _ _ _ (by simp [errsum])).trans (fireVector_reg_other _ _ _ (by simp [errsum]))) rfl

/-- An error of one shore leaves the log of the other. -/
theorem logErr_elsewhere {e : ErrInfo} {h : Nat} (hh : h < 2) (hwhere : e.where' = 1 - h) (s : State) :
    (s.logErr e).log h = s.log h ∧ (s.logErr e).reg (errsum h) = s.reg (errsum h) := by
  obtain rfl | rfl : h = 0 ∨ h = 1 := by omega
  · rw [logErr_east hwhere, announce_log, announce_reg]
    exact ⟨log_logOne_other s (by decide) (by decide) (by decide) _ _, reg_logOne_other s (by decide) _ _⟩
  · rw [logErr_west hwhere, announce_log, announce_reg]
    exact ⟨log_logOne_other s (by decide) (by decide) (by decide) _ _, reg_logOne_other s (by decide) _ _⟩

/-- An error enters the log of its shore, and one of a unit that both share enters both. -/
theorem logErr_enters {e : ErrInfo} {h : Nat} (hh : h < 2) (hwhere : e.where' = h ∨ e.where' = 2) (s : State) :
    (s.logErr e).log h = (s.log h).enter (h != 0) (decide (e.where' = 2)) e
      ∧ (s.logErr e).reg (errsum h) = s.reg (errsum h) ||| BitVec.ofNat 64 (errBits e ((s.log h).unread == 256)) := by
  rcases hwhere with hwhere | hwhere
  · obtain rfl | rfl : h = 0 ∨ h = 1 := by omega
    · rw [logErr_west hwhere, announce_log, announce_reg, hwhere]
      exact ⟨log_logOne_self s (by decide) _ _, reg_logOne_self s _ _ _⟩
    · rw [logErr_east hwhere, announce_log, announce_reg, hwhere]
      exact ⟨log_logOne_self s (by decide) _ _, reg_logOne_self s _ _ _⟩
  · rw [logErr_both hwhere, announce_log, announce_reg, hwhere]
    obtain rfl | rfl : h = 0 ∨ h = 1 := by omega
    · rw [log_logOne_other _ (by decide) (by decide) (by decide), reg_logOne_other _ (by decide)]
      exact ⟨log_logOne_self s (by decide) _ _, reg_logOne_self s _ _ _⟩
    · rw [log_logOne_self _ (by decide), reg_logOne_self, log_logOne_other _ (by decide) (by decide) (by decide), reg_logOne_other _ (by decide)]
      exact ⟨rfl, rfl⟩

end State

theorem wbit_or_ofNat (w : Word) (n : Nat) {i : Nat} (h : i < 64) : wbit (w ||| BitVec.ofNat 64 n) i = (wbit w i || n.testBit i) := by
  rw [wbit, BitVec.getLsbD_or, BitVec.getLsbD_ofNat, decide_eq_true h, Bool.true_and, wbit]

/-- Settles O58: the entry's place in the log, and the bits that it sets in HB_ERRSUM. -/
theorem errorLogsKeepWhatIsUnread : Obligations.ErrorLogsKeepWhatIsUnread := by
  intro s e h hh l t l' both sum
  refine ⟨fun hwhere => State.logErr_elsewhere hh hwhere s, fun hwhere => ?_, State.logErr_mem s e, State.logErr_tasks s e⟩
  obtain ⟨hlog, hreg⟩ := State.logErr_enters hh hwhere s
  have hlog : l' = l.enter (h != 0) both e := hlog
  have hbit {i : Nat} (hi : i < 64) : t.rb sum i = (s.rb sum i || (errBits e (l.unread == 256)).testBit i) :=
    (congrArg (wbit · i) hreg).trans (wbit_or_ofNat _ _ hi)
  obtain ⟨hseq, hhead⟩ := ErrLog.enter_seq_head l (h != 0) both e
  rw [hlog]
  refine ⟨hseq, hhead, fun hfull => ?_, fun hfree => ?_, fun hseverity => ?_, fun k hone height hclass => ?_, fun i hi => ?_⟩
  · rw [ErrLog.enter_full hfull, hbit (by decide), testBit_errBits_dropped, hfull]
    exact ⟨rfl, rfl, rfl, rfl, Bool.or_true _⟩
  · have hshore : b2n (h != 0) = h := by
      obtain rfl | rfl : h = 0 ∨ h = 1 := by omega
      · rfl
      · rfl
    rw [ErrLog.enter_free hfree, hbit (by decide), testBit_errBits_dropped, hshore, beq_eq_false_iff_ne.mpr (Nat.ne_of_lt hfree)]
    exact ⟨by dsimp only; rw [Tab.get_put_self], fun k hk => by dsimp only; rw [Tab.get_put_other _ _ _ _ _ hk], rfl, rfl, rfl, Bool.or_false _⟩
  · rw [hbit (by omega), testBit_errBits_severity, Bool.or_true]
  · rw [hbit (by omega), ← hclass, testBit_errBits_class e _ (by omega) (by omega), Bool.or_true]
  · have hlt : i < 64 := by
      by_contra hge
      exact absurd hi (by rw [State.rb, wbit, BitVec.getLsbD_of_ge _ _ (by omega)]; decide)
    rw [hbit hlt, hi, Bool.true_or]

end Sys2Proof.Machine
end

section
namespace Sys2Proof.Machine

namespace Tab

/-- A table without the keys that a predicate refuses. -/
theorem get_filter_key {K V : Type} [DecidableEq K] (d : V) (f : K → Bool) (t : List (K × V)) (k : K) :
    get d (t.filter fun e => f e.1) k = if f k then get d t k else d := by
  induction t with
  | nil => simp
  | cons e t ih =>
    obtain ⟨j, v⟩ := e
    by_cases hk : j = k
    · subst hk
      cases hj : f j <;> simp [hj, get, ih]
    · cases hj : f j <;> simp [hj, get, ih, hk]

/-- What a table holds under a key has what the default and every entry have. -/
theorem get_all {K V : Type} [DecidableEq K] {P : V → Prop} {d : V} {t : List (K × V)} (hd : P d) (ht : ∀ e ∈ t, P e.2) (k : K) : P (get d t k) := by
  induction t with
  | nil => exact hd
  | cons e t ih =>
    obtain ⟨j, v⟩ := e
    rw [get]
    split
    · exact ht (j, v) (List.mem_cons_self ..)
    · exact ih fun e he => ht e (List.mem_cons_of_mem _ he)

end Tab

namespace State

/-! ## What a wipe leaves (R472, R477) -/

theorem wipe_byteAt (s : State) (a : Nat) : s.wipe.byteAt a = if inCxl a then s.byteAt a else 0 := Tab.get_filter_key 0 inCxl s.mem a

/-- The keys of a link: neither direction has any. -/
def Keyless (l : Link) : Prop := l.sendKeys = (none, none) ∧ l.recvKeys = (none, none)

theorem wipe_keyless (s : State) (n : Nat) : Keyless (s.wipe.link n) := by
  refine Tab.get_all (P := Keyless) ⟨rfl, rfl⟩ (fun e he => ?_) n
  obtain ⟨l, -, hl⟩ := List.mem_filterMap.mp he
  split at hl
  · exact absurd hl nofun
  · rw [← Option.some.inj hl]
    exact ⟨rfl, rfl⟩

theorem wipe_port_down (s : State) (p : Port) : (s.wipe.port p).linkUp = false := by cases p <;> rfl

end State

/-! ## The commands of the power rails (R472, R473, R477, R490) -/

theorem exec_undervoltage (s : State) :
    exec .undervoltageShutdown s = .next (s.wipe.setPkg { s.wipe.pkg with powered := false, pwrGood := false, thermtrip := false }) := rfl

theorem exec_overvoltage (s : State) : exec .overvoltageShutdown s = .next (s.wipe.setPkg { s.wipe.pkg with powered := false, pwrGood := false }) := rfl

theorem exec_resetN_long {s : State} {us : Nat} (hlong : 1000 ≤ us) (hpower : s.pkg.powered = true) (htrip : s.pkg.thermtrip = false)
    (hrails : s.pkg.railsOff = false) : exec (.resetN us) s = .next (s.wipe.setPkg { s.wipe.pkg with heldReset := true }) := by
  show execResetN us s = _
  unfold execResetN
  rw [hpower, htrip, hrails, decide_eq_false (Nat.not_lt_of_le hlong)]
  rfl

theorem exec_resetN_short {s : State} {us : Nat} (h : us < 1000 ∨ s.pkg.thermtrip = true) : exec (.resetN us) s = .next s := by
  show execResetN us s = _
  unfold execResetN
  rcases h with h | h <;> simp [h]

theorem exec_thermalShutdown {s : State} (h : s.pkg.powered = true) :
    exec .thermalShutdown s = .next { s.wipe with
      regs := s.regs.filter fun e => e.1.name.info.block == .lighthouse
      lh := { s.lh with recoveries := [], waiting := [], runs := [], due := [], gating := [], spans := [], summaries := [] }
      trust := { s.trust with signing := [] }
      pkg := { s.wipe.pkg with railsOff := true, pwrGood := false, thermtrip := true, alerts := s.pkg.alerts } } := by
  show execThermalShutdown s = _
  unfold execThermalShutdown
  rw [h]
  rfl

theorem exec_thermalShutdown_unpowered {s : State} (h : s.pkg.powered = false) : exec .thermalShutdown s = .next s := by
  show execThermalShutdown s = _
  unfold execThermalShutdown
  rw [h]
  rfl

theorem exec_resetNRelease {s : State} (h : s.pkg.heldReset = true) (env : BootEnv) :
    exec (.resetNRelease env) s = .next ((s.setPkg { s.pkg with heldReset := false }).startUp env 3 false) := congrArg Host.Outcome.next (if_pos h)

/-- The module that a power-on starts up: wiped, with the straps sampled and PERST# asserted at both ports (R473, R474). -/
def poweredOn (s : State) (env : BootEnv) : State :=
  let u := s.wipe.setPkg { s.wipe.pkg with powered := true, pwrGood := false, thermtrip := false, address := 0x4C + env.straps % 8 }
  let u := u.setPort .w { u.port .w with perst := true }
  u.setPort .e { u.port .e with perst := true }

theorem exec_powerOn (s : State) (env : BootEnv) : exec (.powerOn env) s = .next ((poweredOn s env).startUp env 0 true) := rfl

/-- Each of the three resets of R472 and R477 is a wipe, but for the package's pins. -/
theorem reset_is_wipe {s t : State} {c : Instr} (hc : c = .undervoltageShutdown ∨ c = .overvoltageShutdown
      ∨ (∃ us, c = .resetN us ∧ 1000 ≤ us ∧ s.pkg.powered = true ∧ s.pkg.thermtrip = false ∧ s.pkg.railsOff = false))
    (h : exec c s = .next t) : ∃ v, t = s.wipe.setPkg v := by
  rcases hc with rfl | rfl | ⟨us, rfl, hlong, hpower, htrip, hrails⟩
  · exact ⟨_, (Host.Outcome.next.inj ((exec_undervoltage s).symm.trans h)).symm⟩
  · exact ⟨_, (Host.Outcome.next.inj ((exec_overvoltage s).symm.trans h)).symm⟩
  · exact ⟨_, (Host.Outcome.next.inj ((exec_resetN_long hlong hpower htrip hrails).symm.trans h)).symm⟩

/-- Settles O52: what a wipe keeps it takes from the state, everything else has its reset value. -/
theorem resetsClearAndKeep : Obligations.ResetsClearAndKeep := by
  intro s t c hc h
  obtain ⟨v, rfl⟩ := reset_is_wipe hc h
  exact ⟨fun r => rfl, rfl, fun x => rfl, fun g n => rfl, fun g n => rfl, fun g a => rfl, fun p i => rfl, rfl, fun d => rfl, fun p => rfl, fun p => rfl,
    fun n => s.wipe_keyless n, rfl, rfl, fun a => s.wipe_byteAt a, rfl, rfl, rfl, rfl, rfl, rfl, rfl, rfl, rfl⟩

/-- Settles O51: each command is a wipe with the pins that it sets, or changes nothing. -/
theorem powerCommandsComplete : Obligations.PowerCommandsComplete := by
  intro s env
  refine ⟨⟨_, exec_powerOn s env, rfl, rfl, rfl, rfl, rfl, rfl, rfl, rfl, fun a => s.wipe_byteAt a, rfl, rfl, rfl⟩,
    ⟨_, exec_undervoltage s, rfl, rfl, rfl, rfl, rfl⟩, ⟨_, exec_overvoltage s, rfl, rfl, rfl, rfl, rfl⟩,
    fun hpower => ⟨_, exec_thermalShutdown hpower, rfl, rfl, rfl, rfl, rfl, rfl, rfl, rfl⟩, exec_thermalShutdown_unpowered, fun us => exec_resetN_short,
    fun us hlong hpower htrip hrails => ⟨_, exec_resetN_long hlong hpower htrip hrails, rfl, rfl, rfl, hpower, s.wipe_port_down .w, s.wipe_port_down .e⟩,
    fun hheld => exec_resetNRelease hheld env⟩

end Sys2Proof.Machine
end

section
/-! PROOFS of the family of statements about links, host ports, trust and resets: CXL ports come up and go down (O46). -/
namespace Sys2Proof.Machine
namespace State

/-! ### What leaves the CXL ports as they are

A CXL port that has gone down stays down through the escalation of its own error (R408, R456). An escalation aborts tasks, and an aborted task lets queues,
MOVEs and pools go on, so that nearly every operation of the engines can run within it; each of them leaves the CXL ports as they are. -/

@[simp] theorem foldl_cxls {α : Type} {f : State → α → State} (h : ∀ s a, (f s a).cxls = s.cxls) (l : List α) (s : State) : (l.foldl f s).cxls = s.cxls :=
  foldl_keeps (·.cxls) f h l s

@[simp] theorem forAll_cxls {f : State → Nat → State} (h : ∀ s a, (f s a).cxls = s.cxls) (s : State) (l : List Nat) : (s.forAll l f).cxls = s.cxls :=
  foldl_cxls h l s

@[simp] theorem cxls_ite (c : Prop) [Decidable c] (s t : State) : (if c then s else t).cxls = if c then s.cxls else t.cxls := apply_ite _ _ _ _

/-! #### Credits, counts and the completion of a task -/

@[simp] theorem updTask_cxls (s : State) (id : Nat) (f : Task → Task) : (s.updTask id f).cxls = s.cxls := setTasks_cxls _ _

@[simp] theorem updEng_cxls (s : State) (x : EngRef) (f : EngCtx → EngCtx) : (s.updEng x f).cxls = s.cxls := setEng_cxls _ _ _

@[simp] theorem noteError_cxls (s : State) (id code core seq : Nat) : (s.noteError id code core seq).cxls = s.cxls := updTask_cxls _ _ _

@[simp] theorem clearArrays_cxls (s : State) (t : Task) : (s.clearArrays t).cxls = s.cxls := by simp [clearArrays]

@[simp] theorem returnCredits_cxls (s : State) (p t gen n : Nat) : (s.returnCredits p t gen n).cxls = s.cxls :=
  returnCredits_keeps (·.cxls) setPool_cxls send_cxls p t gen n s

@[simp] theorem countWait_cxls (s : State) (x : EngRef) : (s.countWait x).cxls = s.cxls := addRf_cxls _ _ _ _ _

@[simp] theorem countUnits_cxls (s : State) (x : EngRef) : (s.countUnits x).cxls = s.cxls := by simp [countUnits, fresh]

@[simp] theorem countRetired_cxls (s : State) (x : EngRef) : (s.countRetired x).cxls = s.cxls := by simp [countRetired]

@[simp] theorem stopEngines_cxls (s : State) (t : Task) : (s.stopEngines t).cxls = s.cxls :=
  forAll_cxls (fun _ _ => forAll_cxls (fun _ _ => by simp) _ _) _ _

@[simp] theorem stopDispenser_cxls (s : State) (d : Nat) : (s.stopDispenser d).cxls = s.cxls := by simp [stopDispenser]

@[simp] theorem stopLists_cxls (s : State) (t : Task) : (s.stopLists t).cxls = s.cxls := by simp [stopLists]

@[simp] theorem writeEntry_cxls (s : State) (p : Port) (q : Nat) (e : List Byte) : (s.writeEntry p q e).cxls = s.cxls := by simp [writeEntry]

@[simp] theorem fireCq_cxls (s : State) (p : Port) (q : Nat) : (s.fireCq p q).cxls = s.cxls := by simp [fireCq, fireVector_cxls]

@[simp] theorem complete_cxls (s : State) (p : Port) (q : Nat) (e : List Byte) : (s.complete p q e).cxls = s.cxls := by simp [complete]

@[simp] theorem returnLanded_cxls (s : State) (g slot : Nat) : (s.returnLanded g slot).cxls = s.cxls := by simp [returnLanded]

@[simp] theorem endRing_cxls (s : State) (t : Task) (g n : Nat) : (s.endRing t g n).cxls = s.cxls := by simp [endRing]

@[simp] theorem updEngines_cxls (s : State) (t : Task) (f : EngCtx → EngCtx) : (s.updEngines t f).cxls = s.cxls := by simp [updEngines]

@[simp] theorem endWindow_cxls (s : State) (t : Task) (g : Nat) : (s.endWindow t g).cxls = s.cxls := by simp [endWindow]

@[simp] theorem finish_cxls (s : State) (t : Task) (state : Nat) : (s.finish t state).cxls = s.cxls := by simp [finish]

@[simp] theorem abortTask_cxls (s : State) (id : Nat) : (s.abortTask id).cxls = s.cxls := by unfold abortTask; split <;> simp

@[simp] theorem abortFor_cxls (s : State) (t : Task) (code core seq : Nat) : (s.abortFor t code core seq).cxls = s.cxls := by simp [abortFor]

@[simp] theorem tryDone_cxls (s : State) (core slot : Nat) : (s.tryDone core slot).cxls = s.cxls := by unfold tryDone; split <;> simp

/-! #### Bytes and what strikes them -/

@[simp] theorem noteEcc_cxls (s : State) (a : Nat) (ue : Bool) : (s.noteEcc a ue).cxls = s.cxls := noteEcc_keeps (·.cxls) setRf_cxls s a ue

@[simp] theorem mapRow_cxls (s : State) (base bank row : Nat) : (s.mapRow base bank row).cxls = s.cxls := by simp [mapRow]

@[simp] theorem spoil_cxls (s : State) (a : Nat) : (s.spoil a).cxls = s.cxls := by unfold spoil; split <;> simp

@[simp] theorem meet_cxls (s : State) (a n : Nat) : (s.meet a n).cxls = s.cxls := by simp [meet]

@[simp] theorem meetFail_cxls (s : State) (f : Fail) : (s.meetFail f).cxls = s.cxls := by unfold meetFail; split <;> simp

@[simp] theorem clearStruck_cxls (s : State) (a n : Nat) : (s.clearStruck a n).cxls = s.cxls := ite_keeps (·.cxls) rfl rfl

@[simp] theorem setBytes_cxls (bs : List Byte) : ∀ (s : State) (a : Nat), (s.setBytes a bs).cxls = s.cxls := by
  induction bs with
  | nil => exact fun _ _ => rfl
  | cons b bs ih => exact fun s a => (ih (s.setByte a b) (a + 1)).trans (setMem_cxls _ _)

@[simp] theorem sealUnits_cxls (key n : Nat) : ∀ (s : State) (u : Nat), (s.sealUnits key u n).cxls = s.cxls := by
  induction n with
  | zero => exact fun _ _ => rfl
  | succ n ih => exact fun s u => (ih _ (u + 1)).trans (setSeals_cxls s _)

@[simp] theorem writeBytes_cxls (s : State) (p epoch a : Nat) (bs : List Byte) : (s.writeBytes p epoch a bs).cxls = s.cxls := by
  unfold writeBytes; split <;> simp [clearPoison]

@[simp] theorem landBytes_cxls (s : State) (p epoch a add : Nat) (bs mask : List Byte) : (s.landBytes p epoch a add bs mask).cxls = s.cxls := by
  simp [landBytes]

/-! #### Faults -/

@[simp] theorem noteFault_cxls (s : State) (t : Task) (core eng : Nat) (f : Fail) : (s.noteFault t core eng f).cxls = s.cxls := by
  unfold noteFault; split
  · rfl
  · split <;> simp

@[simp] theorem failTask_cxls (s : State) (t : Task) (core eng : Nat) (f : Fail) : (s.failTask t core eng f).cxls = s.cxls := by simp [failTask]

@[simp] theorem fail_cxls (s : State) (x : EngRef) (f : Fail) : (s.fail x f).cxls = s.cxls := by unfold fail; split <;> simp

@[simp] theorem failDst_cxls (s : State) (x : EngRef) (m : MoveSt) (code visit addr : Nat) : (s.failDst x m code visit addr).cxls = s.cxls :=
  fail_cxls _ _ _

/-! #### Lists, channels and the intake of words -/

@[simp] theorem giveItem_cxls (s : State) (x : EngRef) (w : Option WorkItem) : (s.giveItem x w).cxls = s.cxls := by
  dsimp only [giveItem]; split <;> simp

@[simp] theorem giveEnd_cxls (s : State) (core slot : Nat) (es : List Nat) : (s.giveEnd core slot es).cxls = s.cxls := by simp [giveEnd]

@[simp] theorem giveZeros_cxls (s : State) (core slot : Nat) : (s.giveZeros core slot).cxls = s.cxls := by dsimp only [giveZeros]; split <;> simp

@[simp] theorem pushEnds_cxls (s : State) (d : Nat) : (s.pushEnds d).cxls = s.cxls := by simp [pushEnds]

@[simp] theorem tookEnd_cxls (s : State) (core : Nat) : (s.tookEnd core).cxls = s.cxls := by simp [tookEnd]

@[simp] theorem popWord_cxls (s : State) (core ch : Nat) : (s.popWord core ch).2.cxls = s.cxls := by dsimp only [popWord]; split <;> simp

@[simp] theorem retireWord_cxls (s : State) (x : EngRef) (t : Task) (i : Instr) (upd : EngCtx → EngCtx) : (s.retireWord x t i upd).cxls = s.cxls := by
  simp [retireWord]

@[simp] theorem deliver_cxls (s : State) (x : EngRef) (t : Task) (i : Instr) (lc : Nat) (tagen : Bool) (tlc w : Nat) (valid endMark : Bool) :
    (s.deliver x t i lc tagen tlc w valid endMark).cxls = s.cxls := by simp [deliver]

@[simp] theorem serveRecv_cxls (s : State) (core slot e : Nat) : (s.serveRecv core slot e).cxls = s.cxls := by
  dsimp only [serveRecv]; split
  · next ch _ _ _ _ _ _ =>
    have popped := popWord_cxls s core ch
    split <;> simp_all
  · rfl

@[simp] theorem serveRecvs_cxls (s : State) (core : Nat) : (s.serveRecvs core).cxls = s.cxls := by simp [serveRecvs]

@[simp] theorem pumpItems_cxls (core fuel : Nat) : ∀ s : State, (s.pumpItems core fuel).cxls = s.cxls := by
  induction fuel with
  | zero => exact fun _ => rfl
  | succ fuel ih =>
    intro s
    dsimp only [pumpItems]; split
    · rfl
    · split <;> simp [ih]

@[simp] theorem pumpEnds_cxls (d k : Nat) : ∀ s : State, (s.pumpEnds d k).cxls = s.cxls := by
  induction k with
  | zero => exact fun _ => rfl
  | succ k ih => intro s; simp [pumpEnds, ih]

@[simp] theorem pump_cxls (s : State) (core : Nat) : (s.pump core).cxls = s.cxls := by simp [pump]

@[simp] theorem discardWord_cxls (s : State) (x : EngRef) (t : Task) (code pos w : Nat) : (s.discardWord x t code pos w).cxls = s.cxls := by
  simp [discardWord]

@[simp] theorem intakeWord_cxls (s : State) (x : EngRef) (t : Task) (w : Nat) : (s.intakeWord x t w).cxls = s.cxls := by
  dsimp only [intakeWord]; split
  · exact setEng_cxls _ _ _
  · split
    · exact setEng_cxls _ _ _
    · split <;> simp

@[simp] theorem decodeWords_cxls (x : EngRef) (id : Nat) (ws : List Nat) : ∀ s : State, (s.decodeWords x id ws).cxls = s.cxls := by
  induction ws with
  | nil => exact fun _ => rfl
  | cons w ws ih => intro s; dsimp only [decodeWords]; split <;> simp [ih]

@[simp] theorem intake_cxls (s : State) (x : EngRef) (id : Nat) (ws : List Nat) : (s.intake x id ws).cxls = s.cxls := by dsimp only [intake]; split <;> simp

@[simp] theorem admitPort_cxls (p : Port) (fuel : Nat) : ∀ s : State, (s.admitPort p fuel).cxls = s.cxls := by
  induction fuel with
  | zero => exact fun _ => rfl
  | succ fuel ih =>
    intro s
    dsimp only [admitPort]; split
    · rfl
    · split
      · rfl
      · split <;> simp [ih]

@[simp] theorem admitHeld_cxls (s : State) : s.admitHeld.cxls = s.cxls := by simp [admitHeld]

/-! #### Retirement, counters and semaphores -/

@[simp] theorem retire_cxls (s : State) (x : EngRef) (t : Task) (i : Instr) (upd : EngCtx → EngCtx) : (s.retire x t i upd).cxls = s.cxls := by simp [retire]

@[simp] theorem takeLanded_cxls (s : State) (core slot counter n : Nat) : (s.takeLanded core slot counter n).cxls = s.cxls := by simp [takeLanded]

@[simp] theorem doTake_cxls (s : State) (x : EngRef) (t : Task) (number value : Nat) : (s.doTake x t number value).cxls = s.cxls := by simp [doTake]

@[simp] theorem doAcq_cxls (s : State) (x : EngRef) (t : Task) (number value : Nat) : (s.doAcq x t number value).cxls = s.cxls := by simp [doAcq]

@[simp] theorem serveTake_cxls (s : State) (core slot e : Nat) : (s.serveTake core slot e).cxls = s.cxls := by dsimp only [serveTake]; split <;> simp

@[simp] theorem serveGe_cxls (s : State) (core slot e : Nat) : (s.serveGe core slot e).cxls = s.cxls := by dsimp only [serveGe]; split <;> simp

@[simp] theorem serveWaits_cxls (s : State) (core slot : Nat) : (s.serveWaits core slot).cxls = s.cxls := by simp [serveWaits]

@[simp] theorem incr_cxls (s : State) (target slot : Nat) (sem : Bool) (number amount core eng : Nat) :
    (s.incr target slot sem number amount core eng).cxls = s.cxls := by
  dsimp only [incr]
  refine ite_keeps (·.cxls) ?_ (ite_keeps (·.cxls) ?_ (by simp)) <;> cases s.taskAt target slot <;> simp

/-! #### Transactions and MOVEs -/

@[simp] theorem updMove_cxls (s : State) (x : EngRef) (id : Nat) (f : MoveSt → MoveSt) : (s.updMove x id f).cxls = s.cxls := updEng_cxls _ _ _

@[simp] theorem landHere_cxls (s : State) (x : EngRef) (t : Task) (m : MoveSt) (v : Xact) : (s.landHere x t m v).cxls = s.cxls := by
  dsimp only [landHere]; split
  · simp
  · split
    · simp
    · split
      · simp
      · split <;> simp

@[simp] theorem issueXact_cxls (s : State) (x : EngRef) (t : Task) (m : MoveSt) (v : Xact) : (s.issueXact x t m v).cxls = s.cxls := by
  simp only [issueXact, cxls_ite]
  cases s.writeTarget t v <;> simp

@[simp] theorem issueSlot_cxls (s : State) (x : EngRef) : (s.issueSlot x).cxls = s.cxls := by
  dsimp only [issueSlot]; split
  · rfl
  · exact foldl_cxls (fun s p => by split <;> simp) _ _

@[simp] theorem issueXacts_cxls (s : State) (core eng : Nat) : (s.issueXacts core eng).cxls = s.cxls := by simp [issueXacts]

@[simp] theorem closeTx_cxls (s : State) (x : EngRef) (t : Task) (id : Nat) (final : Bool) : (s.closeTx x t id final).cxls = s.cxls := by
  dsimp only [closeTx]; split
  · rfl
  · split <;> simp

@[simp] theorem cutSlots_cxls (s : State) (x : EngRef) (id : Nat) (whole : Bool) : (s.cutSlots x id whole).cxls = s.cxls := by
  dsimp only [cutSlots]; split
  · rfl
  · split <;> simp

@[simp] theorem putChunk_cxls (s : State) (x : EngRef) (t : Task) (ws : List Window) (id : Nat) (va : Int) (pk : Nat) (gl : Bool) (visit first last : Nat)
    (bs mask : List Byte) : (s.putChunk x t ws id va pk gl visit first last bs mask).cxls = s.cxls := by
  dsimp only [putChunk]; split
  · rfl
  · refine ite_keeps (·.cxls) (by simp) (ite_keeps (·.cxls) (by simp) ?_)
    split <;> simp

@[simp] theorem putBytes_cxls (x : EngRef) (t : Task) (ws : List Window) (id pk : Nat) (gl : Bool) (visit first last fuel : Nat) :
    ∀ (s : State) (va : Int) (bs mask : List Byte), (putBytes x t ws id pk gl visit first last fuel s va bs mask).cxls = s.cxls := by
  induction fuel with
  | zero => exact fun _ _ _ _ => rfl
  | succ fuel ih => intro s va bs mask; simp [putBytes, ih]

@[simp] theorem put_cxls (s : State) (x : EngRef) (t : Task) (ws : List Window) (id : Nat) (va : Int) (pk : Nat) (gl : Bool) (visit order : Nat)
    (bs : List Byte) : (s.put x t ws id va pk gl visit order bs).cxls = s.cxls := putBytes_cxls ..

@[simp] theorem closeGroup_cxls (s : State) (x : EngRef) (t : Task) (ws : List Window) (id : Nat) : (s.closeGroup x t ws id).cxls = s.cxls := by
  dsimp only [closeGroup]; split
  · rfl
  · split <;> simp

@[simp] theorem putElt_cxls (s : State) (x : EngRef) (t : Task) (ws : List Window) (id : Nat) (va : Int) (pk : Nat) (gl : Bool) (bit visit order v : Nat) :
    (s.putElt x t ws id va pk gl bit visit order v).cxls = s.cxls := by
  dsimp only [putElt]; split <;> simp

@[simp] theorem putTile_cxls (s : State) (x : EngRef) (t : Task) (ws : List Window) (id visit : Nat) (d : TileDst) (bs : List Byte) (entry : Nat) :
    (s.putTile x t ws id visit d bs entry).cxls = s.cxls := by simp [putTile]

@[simp] theorem feedElt_cxls (s : State) (x : EngRef) (id v : Nat) : (s.feedElt x id v).cxls = s.cxls := by
  dsimp only [feedElt]; split <;> simp

@[simp] theorem commitSlot_cxls (s : State) (core n id ty : Nat) (bs : List Byte) : (s.commitSlot core n id ty bs).cxls = s.cxls := by simp [commitSlot]

@[simp] theorem freeAcc_cxls (s : State) (core a key : Nat) : (s.freeAcc core a key).cxls = s.cxls := setArray_cxls _ _ _ _

@[simp] theorem flushSlots_cxls (x : EngRef) (id fuel : Nat) : ∀ s : State, (s.flushSlots x id fuel).cxls = s.cxls := by
  induction fuel with
  | zero => exact fun _ => rfl
  | succ fuel ih =>
    intro s
    dsimp only [flushSlots]; split
    · rfl
    · refine ite_keeps (·.cxls) ((ih _).trans ?_) rfl
      split <;> simp

@[simp] theorem flush_cxls (s : State) (x : EngRef) (id : Nat) : (s.flush x id).cxls = s.cxls := flushSlots_cxls _ _ _ _

@[simp] theorem doUnit_cxls (s : State) (x : EngRef) (t : Task) (ws : List Window) (id : Nat) (m : MoveSt) (u : MoveUnit) :
    (s.doUnit x t ws id m u).cxls = s.cxls := by
  dsimp only [doUnit]; split
  · split
    · simp
    · split <;> simp
  · split <;> simp
  · split
    · simp
    · refine ite_keeps (·.cxls) ?_ (ite_keeps (·.cxls) (by simp) (ite_keeps (·.cxls) (by simp) ?_))
      · split <;> simp
      · split <;> simp
  · split
    · simp
    · split
      · simp
      · exact (foldl_cxls (fun s p => by split <;> simp) _ _).trans (by simp)

@[simp] theorem meetUnit_cxls (s : State) (u : MoveUnit) : (s.meetUnit u).cxls = s.cxls :=
  ite_keeps (·.cxls) rfl (foldl_cxls (fun s q => by split <;> simp) _ _)

@[simp] theorem runUnits_cxls (x : EngRef) (t : Task) (ws : List Window) (id fuel : Nat) : ∀ s : State, (s.runUnits x t ws id fuel).cxls = s.cxls := by
  induction fuel with
  | zero => exact fun _ => rfl
  | succ fuel ih =>
    intro s
    dsimp only [runUnits]; split
    · rfl
    · refine ite_keeps (·.cxls) rfl ?_
      split <;> simp [ih]

@[simp] theorem runMove_cxls (s : State) (x : EngRef) (t : Task) (ws : List Window) (id : Nat) : (s.runMove x t ws id).cxls = s.cxls := by
  dsimp only [runMove]; split
  · simp
  · split <;> simp

@[simp] theorem carrySlot_cxls (s : State) (x : EngRef) : (s.carrySlot x).cxls = s.cxls := by
  dsimp only [carrySlot]; split
  · rfl
  · refine ite_keeps (·.cxls) rfl ?_
    split <;> simp

@[simp] theorem carryOn_cxls (s : State) (core eng : Nat) : (s.carryOn core eng).cxls = s.cxls := by simp [carryOn]

@[simp] theorem dropXact_cxls (s : State) (x : EngRef) (id : Nat) (v : Xact) : (s.dropXact x id v).cxls = s.cxls := updMove_cxls _ _ _ _

/-! #### Links, loads and sessions -/

@[simp] theorem dropFrame_cxls (s : State) (f : Frame) (code seq : Nat) : (s.dropFrame f code seq).cxls = s.cxls := by
  dsimp only [dropFrame]
  cases s.taskAt (frameEngine f).core (frameEngine f).slot <;> dsimp only <;> split <;> simp

@[simp] theorem linkDown_cxls (s : State) (n : Nat) (keep : Bool) (cause : Option Nat) : (s.linkDown n keep cause).cxls = s.cxls := by simp [linkDown]

@[simp] theorem setStrata_cxls (s : State) (p v : Nat) : (s.setStrata p v).cxls = s.cxls := by simp [setStrata]

@[simp] theorem endLoading_cxls (s : State) (p : Nat) : (s.endLoading p).cxls = s.cxls := by simp [endLoading]

@[simp] theorem setCore_cxls (s : State) (g : Nat) (payload : Option (List Byte)) : (s.setCore g payload).cxls = s.cxls := by simp [setCore]

@[simp] theorem resetPool_cxls (s : State) (p t : Nat) : (s.resetPool p t).cxls = s.cxls :=
  (grantPool_keeps (·.cxls) setPool_cxls send_cxls p t _ _).trans (setPool_cxls _ _ _ _)

@[simp] theorem loadPools_cxls (s : State) (p : Nat) (sizes : List Nat) : (s.loadPools p sizes).cxls = s.cxls := by simp [loadPools]

@[simp] theorem loadDie_cxls (s : State) (p d : Nat) (payload : Option (List Byte)) : (s.loadDie p d payload).cxls = s.cxls := by simp [loadDie]

@[simp] theorem writeTargets_cxls (s : State) (p : Nat) (xs : List Section) : (s.writeTargets p xs).cxls = s.cxls := by simp [writeTargets]

@[simp] theorem newGeneration_cxls (s : State) : s.newGeneration.cxls = s.cxls := setLh_cxls _ _

@[simp] theorem unloadImage_cxls (s : State) (p : Nat) : (s.unloadImage p).cxls = s.cxls := by simp [unloadImage]

@[simp] theorem abandonLoad_cxls (s : State) (p : Nat) (cause : Option Nat) : (s.abandonLoad p cause).cxls = s.cxls := by simp [abandonLoad]

@[simp] theorem putRecovery_cxls (s : State) (n : Nat) (r : Recovery) : (s.putRecovery n r).cxls = s.cxls := setLh_cxls _ _

@[simp] theorem beginScrub_cxls (s : State) (p : Nat) : (s.beginScrub p).cxls = s.cxls := by simp [beginScrub, destroyKeys]

@[simp] theorem abortTasks_cxls (s : State) (f : Task → Bool) (code core seq : Nat) : (s.abortTasks f code core seq).cxls = s.cxls := by simp [abortTasks]

@[simp] theorem sessionError_cxls (s : State) (p code seq : Nat) : (s.sessionError p code seq).cxls = s.cxls := by simp [sessionError]

@[simp] theorem sessionErrors_cxls (s : State) (code seq : Nat) : (s.sessionErrors code seq).cxls = s.cxls := by simp [sessionErrors]

@[simp] theorem widenWaiting_cxls (s : State) (f : Recovery) (code seq : Nat) : (s.widenWaiting f code seq).cxls = s.cxls := by
  dsimp only [widenWaiting]; split <;> simp

end State
end Sys2Proof.Machine
end

section
namespace Sys2Proof.Machine
namespace State

/-! ### A port that is down stays down -/

/-- What R408 leaves of a CXL port that has gone down: no key, no capacity, no bring-up under way. -/
def CxlIsDown (p : Nat) (s : State) : Prop := (s.cxl p).ideKey = none ∧ (s.cxl p).capacity = 0 ∧ (s.cxl p).bringUp = false

theorem CxlIsDown.congr {p : Nat} {s u : State} (e : u.cxls = s.cxls) (h : CxlIsDown p s) : CxlIsDown p u := by
  have same : u.cxl p = s.cxl p := congrArg (Tab.get CxlPort.down · p) e
  unfold CxlIsDown
  rwa [same]

theorem CxlIsDown.foldl {p : Nat} {f : State → Nat → State} (hf : ∀ s k, CxlIsDown p s → CxlIsDown p (f s k)) (l : List Nat) {s : State}
    (h : CxlIsDown p s) : CxlIsDown p (l.foldl f s) := by
  induction l generalizing s with
  | nil => exact h
  | cons k l ih => exact ih (hf s k h)

section
variable {p : Nat} {s : State}

theorem CxlIsDown.setCxl {k : Nat} {v : CxlPort} (hv : v.ideKey = none ∧ v.capacity = 0 ∧ v.bringUp = false) (h : p ≠ k → CxlIsDown p s) :
    CxlIsDown p (s.setCxl k v) := by
  unfold CxlIsDown
  by_cases hk : p = k
  · subst hk; rwa [cxl_setCxl_self]
  · rw [cxl_setCxl_other s k v p hk]; exact h hk

/-- The port that goes down is down afterwards, and every port that was down still is. -/
theorem cxlDown_isDown {k : Nat} (code : Nat) (cause : Option Nat) (h : p ≠ k → CxlIsDown p s) : CxlIsDown p (s.cxlDown k code cause) := by
  unfold cxlDown
  exact (CxlIsDown.setCxl ⟨rfl, rfl, rfl⟩ fun hk => (h hk).congr (by simp)).congr (newGeneration_cxls _)

theorem forAll_cxlDown_isDown (l : List Nat) (code : Nat) (cause : Option Nat) (h : CxlIsDown p s) :
    CxlIsDown p (s.forAll l fun s k => s.cxlDown k code cause) := CxlIsDown.foldl (fun _ _ hs => cxlDown_isDown code cause fun _ => hs) l h

theorem enterRecovery_isDown (n : Nat) (r : Recovery) (code seq : Nat) (h : CxlIsDown p s) : CxlIsDown p (s.enterRecovery n r code seq) := by
  dsimp only [enterRecovery]
  refine CxlIsDown.congr (newGeneration_cxls _) ?_
  split
  · exact CxlIsDown.congr (sessionErrors_cxls _ _ _) (forAll_cxlDown_isDown _ _ _ (h.congr (by simp)))
  · exact forAll_cxlDown_isDown _ _ _ (h.congr (by simp))

theorem beginRecovery_isDown (r : Recovery) (code seq : Nat) (h : CxlIsDown p s) : CxlIsDown p (s.beginRecovery r code seq) := by
  unfold beginRecovery; split
  · exact enterRecovery_isDown _ _ _ _ h
  · exact h.congr (by simp)

theorem startWaiting_isDown (fuel : Nat) : ∀ {s : State}, CxlIsDown p s → CxlIsDown p (s.startWaiting fuel) := by
  induction fuel with
  | zero => exact fun h => h
  | succ fuel ih =>
    intro s h
    unfold startWaiting; split
    · exact ih (enterRecovery_isDown _ _ _ _ (h.congr (setLh_cxls _ _)))
    · exact h

/-- An escalation brings no CXL port up (R456). -/
theorem escalate_isDown (f : Recovery) (starts : Bool) (code seq : Nat) (h : CxlIsDown p s) : CxlIsDown p (s.escalate f starts code seq) := by
  unfold escalate; split
  · exact h
  split
  · split
    · exact h.congr (widenWaiting_cxls _ _ _ _)
    · split
      · exact beginRecovery_isDown _ _ _ h
      · exact h
  · dsimp only; split
    · split
      · exact h.congr (by simp)
      · exact enterRecovery_isDown _ _ _ _ h
    · exact startWaiting_isDown 8 (enterRecovery_isDown _ _ _ _ (h.congr (by simp)))

end

/-! ### Writes of CX_CFGp (R407, R408) -/

theorem cxlPortOf_cxReg (n : RegName) {p : Nat} (hp : p < 4) : cxlPortOf (cxReg n p) = p := by
  unfold cxlPortOf cxReg; dsimp only; split <;> omega

theorem cxReg_ne {n m : RegName} (p q : Nat) (h : n ≠ m) : cxReg n p ≠ cxReg m q := fun e => h (congrArg RegId.name e)

/-- Of CX_CFGp a write reaches the enable bit alone. -/
theorem after_cxCfg (old new : Nat) : RegName.cxCfg.info.after false old new = putFld old 63 63 (fld new 63 63) := by
  have h : RegName.cxCfg.info.after false old new = putFld (putFld old 63 63 (fld new 63 63)) 2 0 (fld old 2 0) := rfl
  rw [h]
  simp only [putFld, fld]
  omega

theorem busy_cxCfg (s : State) (a : Agent) {p : Nat} (v : Word) (hp : p < 4) :
    s.busy a (cxReg .cxCfg p) v = (s.rf (cxReg .cxStatus p) 63 61 == 4 && decide (s.cxlOwner p < 8) && s.strataState (s.cxlOwner p) != 2) := by
  have h : s.busy a (cxReg .cxCfg p) v = (s.rf (cxReg .cxStatus (cxlPortOf (cxReg .cxCfg p))) 63 61 == 4
    && decide (s.cxlOwner (cxlPortOf (cxReg .cxCfg p)) < 8) && s.strataState (s.cxlOwner (cxlPortOf (cxReg .cxCfg p))) != 2) := rfl
  rw [h, cxlPortOf_cxReg _ hp]

theorem store_cxCfg {s : State} {a : Agent} {p : Nat} {v : Word} (hb : s.busy a (cxReg .cxCfg p) v = false) :
    s.store a (cxReg .cxCfg p) v = s.setRf (cxReg .cxCfg p) 63 63 (wfld v 63 63) := by
  have quiet (u : State) (w : Word) : u.noteModified (cxReg .cxCfg p) w = u := by
    unfold noteModified; split <;> simp [cxReg, RegName.inImage]
  rw [store_free hb, quiet]
  exact congrArg (fun n => s.setReg (cxReg .cxCfg p) (BitVec.ofNat 64 n)) (after_cxCfg _ _)

/-- The state after a write of enable = 0 (R408, R485). -/
def cxlDisabled (s : State) (p : Nat) : State :=
  let u := (s.setRf (cxReg .cxCfg p) 63 63 0).cxlGoesDown p E.cxlDown
  u.setCxl p { u.cxl p with perst := true }

section
variable {s : State} {a : Agent} {p : Nat}

theorem writeCxcfg_enable (hb : s.busy a (cxReg .cxCfg p) (BitVec.ofNat 64 (2 ^ 63)) = false) :
    s.writeCxcfg a p (BitVec.ofNat 64 (2 ^ 63)) = (s.setRf (cxReg .cxCfg p) 63 63 1).cxlBegin p := by
  have bit : wfld (BitVec.ofNat 64 (2 ^ 63)) 63 63 = 1 := by decide
  have on : wbit (BitVec.ofNat 64 (2 ^ 63)) 63 = true := by decide
  simp only [writeCxcfg, hb, store_cxCfg hb, bit, on, Bool.false_eq_true, if_false, if_true]

theorem writeCxcfg_disable (hb : s.busy a (cxReg .cxCfg p) 0 = false) : s.writeCxcfg a p 0 = s.cxlDisabled p := by
  have bit : wfld (0 : Word) 63 63 = 0 := by decide
  have off : wbit (0 : Word) 63 = false := by decide
  simp only [writeCxcfg, hb, store_cxCfg hb, bit, off, Bool.false_eq_true, if_false, cxlDisabled]

end

end State
end Sys2Proof.Machine
end

section
namespace Sys2Proof.Machine
namespace State

/-! ### Bring-up and going down (R406 to R408) -/

section
variable {s : State} {p : Nat}

theorem cxlBegin_of_off (h : s.rf (cxReg .cxStatus p) 63 61 = 0) :
    s.cxlBegin p = (s.setCxl p { s.cxl p with bringUp := true, perst := false }).setRf (cxReg .cxStatus p) 63 61 1 := by
  simp [cxlBegin, h]

theorem cxlGoesDown_of_off (code : Nat) (h : s.rf (cxReg .cxStatus p) 63 61 = 0) : s.cxlGoesDown p code = s := by
  simp [cxlGoesDown, h]

theorem cxlGoesDown_of_up (code : Nat) (h : s.rf (cxReg .cxStatus p) 63 61 = 4) :
    s.cxlGoesDown p code = (s.cxlDown p code (s.recoveryCause (Recovery.of 2 6 p 0))).escalate (Recovery.of 2 6 p 0) false E.cxlDown
      (s.nextSeq (if p < 2 then 0 else 1)) := by
  simp [cxlGoesDown, h]

theorem setRf_cxl (s : State) (r : RegId) (hi lo v k : Nat) : (s.setRf r hi lo v).cxl k = s.cxl k := rfl

/-- A write of the enable bit shows no state of the port. -/
theorem cxStatus_setRf_cxCfg (s : State) (p v : Nat) : (s.setRf (cxReg .cxCfg p) 63 63 v).rf (cxReg .cxStatus p) 63 61 = s.rf (cxReg .cxStatus p) 63 61 :=
  rf_setRf_other s _ _ _ _ _ (cxReg_ne p p (by decide))

theorem busy_cxCfg_of_off (a : Agent) (v : Word) (hp : p < 4) (h : s.rf (cxReg .cxStatus p) 63 61 = 0) : s.busy a (cxReg .cxCfg p) v = false := by
  simp [busy_cxCfg s a v hp, h]

theorem busy_cxCfg_of_slack (a : Agent) (v : Word) (hp : p < 4) (h : s.cxlOwner p < 8 → s.strataState (s.cxlOwner p) = 2) :
    s.busy a (cxReg .cxCfg p) v = false := by
  rw [busy_cxCfg s a v hp]
  by_cases owned : s.cxlOwner p < 8
  · simp [h owned]
  · simp [owned]

theorem cxlGoesDown_isDown (code : Nat) (h : s.rf (cxReg .cxStatus p) 63 61 = 4) : CxlIsDown p (s.cxlGoesDown p code) := by
  rw [cxlGoesDown_of_up _ h]
  exact escalate_isDown _ _ _ _ (cxlDown_isDown _ _ fun h => absurd rfl h)

theorem setCxl_perst_isDown (h : CxlIsDown p s) : let u := s.setCxl p { s.cxl p with perst := true }
    (u.cxl p).perst = true ∧ (u.cxl p).ideKey = none ∧ (u.cxl p).capacity = 0 ∧ (u.cxl p).bringUp = false := by
  dsimp only
  rw [cxl_setCxl_self]
  exact ⟨rfl, h⟩

/-- A port that is up and is disabled ends down, in reset; the escalation of its error does not bring it up again. -/
theorem cxlDisabled_of_up (h : s.rf (cxReg .cxStatus p) 63 61 = 4) : ((s.cxlDisabled p).cxl p).perst = true ∧ ((s.cxlDisabled p).cxl p).ideKey = none
    ∧ ((s.cxlDisabled p).cxl p).capacity = 0 ∧ ((s.cxlDisabled p).cxl p).bringUp = false :=
  setCxl_perst_isDown (cxlGoesDown_isDown _ ((cxStatus_setRf_cxCfg s p 0).trans h))

/-- The state in which a port whose device is accepted is ready (R407). -/
def cxlReady (s : State) (p : Nat) (dev : CxlDevice) : State :=
  let u := s.cxlUnits p dev.capacity
  let w := (s.setTrust { s.trust with draws := s.trust.draws + 1 }).setCxl p ⟨false, some (s.trust.draws + 1), u * 0x10000000, (s.cxl p).perst⟩
  let w := w.setReg (cxReg .cxCap p) (BitVec.ofNat 64 u)
  (w.setReg (cxReg .cxStatus p)
    (BitVec.ofNat 64 (4 * 2 ^ 61 + 2 ^ 60 + dev.rate % 16 * 2 ^ 56 + dev.width % 32 * 2 ^ 51 + s.rf (cxReg .cxStatus p) 15 0))).newGeneration

theorem cxlPortUp_ready {dev : CxlDevice} (hup : (s.cxl p).bringUp = true) (hfence : s.fenced 6 p = false) (hpresent : dev.present = true)
    (hdirect : dev.direct = true) (hide : dev.ide = true) (hauth : dev.authentic = true) (hrandom : s.trust.entropyOk = true) :
    s.cxlPortUp p dev = s.cxlReady p dev := by
  have code (u : State) (w : Word) : (u.setReg (cxReg .cxCap p) w).rf (cxReg .cxStatus p) 15 0 = u.rf (cxReg .cxStatus p) 15 0 :=
    congrArg (wfld · 15 0) (reg_setReg_other u w (cxReg_ne p p (by decide)))
  simp only [cxlPortUp, hup, hfence, hpresent, hdirect, hide, hauth, drawKey_of_ok hrandom, Bool.not_true, Bool.or_self, Bool.false_eq_true, if_false,
    if_true, code]
  rfl

/-- The fields of CX_STATUSp at a port that is up. -/
theorem cxStatus_fields (rate width : Nat) {code : Nat} (hcode : code < 2 ^ 16) :
    let w := BitVec.ofNat 64 (4 * 2 ^ 61 + 2 ^ 60 + rate % 16 * 2 ^ 56 + width % 32 * 2 ^ 51 + code)
    wfld w 63 61 = 4 ∧ wfld w 59 56 = rate % 16 ∧ wfld w 55 51 = width % 32 := by
  have fits : 4 * 2 ^ 61 + 2 ^ 60 + rate % 16 * 2 ^ 56 + width % 32 * 2 ^ 51 + code < 2 ^ 64 := by omega
  dsimp only
  rw [wfld_ofNat fits, wfld_ofNat fits, wfld_ofNat fits]
  simp only [fld]
  omega

theorem cxlReady_cxl (s : State) (p : Nat) (dev : CxlDevice) :
    (s.cxlReady p dev).cxl p = ⟨false, some (s.trust.draws + 1), s.cxlUnits p dev.capacity * 0x10000000, (s.cxl p).perst⟩ := by
  simp [cxl, cxlReady, setCxl]

theorem newGeneration_reg (s : State) (r : RegId) : s.newGeneration.reg r = s.reg r := rfl

theorem cxlReady_cxCap (s : State) (p : Nat) (dev : CxlDevice) : (s.cxlReady p dev).reg (cxReg .cxCap p) = BitVec.ofNat 64 (s.cxlUnits p dev.capacity) := by
  dsimp only [cxlReady]
  rw [newGeneration_reg, reg_setReg_other _ _ (cxReg_ne p p (by decide)), reg_setReg_self]

theorem cxlReady_cxStatus (s : State) (p : Nat) (dev : CxlDevice) : (s.cxlReady p dev).reg (cxReg .cxStatus p)
    = BitVec.ofNat 64 (4 * 2 ^ 61 + 2 ^ 60 + dev.rate % 16 * 2 ^ 56 + dev.width % 32 * 2 ^ 51 + s.rf (cxReg .cxStatus p) 15 0) := by
  unfold cxlReady
  rw [newGeneration_reg, reg_setReg_self]

theorem cxlReady_frame (s : State) (p : Nat) (dev : CxlDevice) :
    (s.cxlReady p dev).trust.draws = s.trust.draws + 1 ∧ (s.cxlReady p dev).mem = s.mem ∧ (s.cxlReady p dev).lh.generation = s.lh.generation + 1 := by
  simp [cxlReady, newGeneration]

end

end State

/-! ### The commands -/

section
variable {s : State} {o : Port} {p : Nat}

theorem exec_cxlEnable_off (hp : p < 4) (hgate : s.gate (.host o) true (cxReg .cxCfg p) = none) (hoff : s.rf (cxReg .cxStatus p) 63 61 = 0) :
    exec (.cxlEnable o p) s = .next (((s.setRf (cxReg .cxCfg p) 63 63 1).setCxl p { s.cxl p with bringUp := true, perst := false }).setRf
      (cxReg .cxStatus p) 63 61 1) := by
  refine congrArg Host.Outcome.next ((State.access_open hgate).trans ?_)
  rw [State.writeCxcfg_enable (State.busy_cxCfg_of_off _ _ hp hoff), State.cxlBegin_of_off ((State.cxStatus_setRf_cxCfg s p 1).trans hoff),
    State.setRf_cxl]

theorem exec_cxlDisable_off (hp : p < 4) (hgate : s.gate (.host o) true (cxReg .cxCfg p) = none) (hoff : s.rf (cxReg .cxStatus p) 63 61 = 0) :
    exec (.cxlDisable o p) s = .next ((s.setRf (cxReg .cxCfg p) 63 63 0).setCxl p { s.cxl p with perst := true }) := by
  refine congrArg Host.Outcome.next ((State.access_open hgate).trans ?_)
  rw [State.writeCxcfg_disable (State.busy_cxCfg_of_off _ _ hp hoff), State.cxlDisabled,
    State.cxlGoesDown_of_off _ ((State.cxStatus_setRf_cxCfg s p 0).trans hoff), State.setRf_cxl]

theorem exec_cxlDisable_up (hp : p < 4) (hgate : s.gate (.host o) true (cxReg .cxCfg p) = none) (hup : s.rf (cxReg .cxStatus p) 63 61 = 4)
    (hslack : s.cxlOwner p < 8 → s.strataState (s.cxlOwner p) = 2) :
    ∃ u : State, exec (.cxlDisable o p) s = .next u ∧ (u.cxl p).perst = true ∧ (u.cxl p).ideKey = none ∧ (u.cxl p).capacity = 0
      ∧ (u.cxl p).bringUp = false := by
  have written := State.writeCxcfg_disable (a := .host o) (State.busy_cxCfg_of_slack _ _ hp hslack)
  exact ⟨s.cxlDisabled p, congrArg Host.Outcome.next ((State.access_open hgate).trans written), State.cxlDisabled_of_up hup⟩

theorem exec_cxlPortUp_absent {dev : CxlDevice} (hbring : (s.cxl p).bringUp = true) (hfence : s.fenced 6 p = false) (h : dev.present = false) :
    exec (.cxlPortUp p dev) s = .next (s.cxlStays p (s.rf (cxReg .cxStatus p) 15 0)) := by
  refine congrArg Host.Outcome.next ?_
  simp only [State.cxlPortUp, hbring, hfence, h, Bool.not_true, Bool.or_self, Bool.not_false, Bool.false_eq_true, if_false, if_true]

/-- A link that fails and a device that is removed take the port down alike. -/
theorem exec_cxlDown_lost {c : CxlDownCause} (h : s.rf (cxReg .cxStatus p) 63 61 = 4) (hc : c = .link ∨ c = .removed) :
    exec (.cxlDown p c) s = .next ((s.cxlDown p E.cxlDown (s.recoveryCause (Recovery.of 2 6 p 0))).escalate (Recovery.of 2 6 p 0) false E.cxlDown
      (s.nextSeq (if p < 2 then 0 else 1))) := by
  rw [← State.cxlGoesDown_of_up _ h]
  rcases hc with rfl | rfl <;> rfl

theorem exec_cxlDown_ide (h : s.rf (cxReg .cxStatus p) 63 61 = 4) : exec (.cxlDown p .ide) s
    = .next ((s.manage { code := E.cxlIdeFail, severity := 2, kind := 6, unit := p } 2 6 p false).cxlGoesDown p E.cxlIdeFail) :=
  congrArg Host.Outcome.next (if_pos (by rw [h]; rfl))

end

/-- Settles O46: a write of CX_CFGp changes the enable bit and begins the bring-up or takes the port down; the port that R408 takes down is down still after
the escalation of its error, which can reach every engine but no CXL port that is down. -/
theorem cxlPortsComplete : Obligations.CxlPortsComplete := by
  unfold Obligations.CxlPortsComplete
  intro s o p hp r st
  refine ⟨fun hgate => ⟨exec_cxlEnable_off hp hgate, exec_cxlDisable_off hp hgate, exec_cxlDisable_up hp hgate⟩, fun hbring hfence =>
    ⟨fun dev h => exec_cxlPortUp_absent hbring hfence h, fun dev hpresent hdirect hide hauth hrandom => ?_⟩, fun hup => ?_⟩
  · obtain ⟨state, rate, width⟩ := State.cxStatus_fields dev.rate dev.width (Nat.mod_lt _ (by decide) : s.rf st 15 0 < 2 ^ 16)
    have status := State.cxlReady_cxStatus s p dev
    exact ⟨s.cxlReady p dev, congrArg Host.Outcome.next (State.cxlPortUp_ready hbring hfence hpresent hdirect hide hauth hrandom), s.cxlReady_cxl p dev,
      s.cxlReady_cxCap p dev, (congrArg (wfld · 63 61) status).trans state, (congrArg (wfld · 59 56) status).trans rate,
      (congrArg (wfld · 55 51) status).trans width, s.cxlReady_frame p dev⟩
  · exact ⟨exec_cxlDown_lost hup (.inl rfl), exec_cxlDown_lost hup (.inr rfl), exec_cxlDown_ide hup⟩

end Sys2Proof.Machine
end
